-- ==== Sys2Proof/Word.lean ====
section
/-! DEFINITION. The word types of the DZ7800 (R17, R97): bytes, the 64-bit scalar words, the 2,048-bit
vectors, the 256-bit masks and the 48-bit accumulator elements. Storage is little-endian (R3). -/

namespace Sys2Proof

/-- One byte of storage. -/
abbrev Byte := BitVec 8

/-- One scalar register, address or 64-bit field (R17). -/
abbrev Word := BitVec 64

/-- One vector register, 2,048 bits (R17). -/
abbrev Vec := BitVec 2048

/-- One mask register: one bit per byte lane (R17). -/
abbrev Mask := BitVec 256

/-- One accumulator element in E8M39 (R135). -/
abbrev AccWord := BitVec 48

/-- R63: the element types of vector words, coded 0 to 5 in this order. -/
inductive ElemTy where
  | f32 | bf16 | f16 | i32 | i16 | i8
deriving DecidableEq, Repr

/-- R97: the element width in bytes. -/
def ElemTy.bytes : ElemTy → Nat
  | .f32 => 4 | .bf16 => 2 | .f16 => 2 | .i32 => 4 | .i16 => 2 | .i8 => 1

/-- The element width in bits. -/
def ElemTy.bits (t : ElemTy) : Nat := 8 * t.bytes

/-- R97: the number of lanes of a vector register. -/
def ElemTy.lanes : ElemTy → Nat
  | .f32 => 64 | .bf16 => 128 | .f16 => 128 | .i32 => 64 | .i16 => 128 | .i8 => 256

/-- R63: whether the type is one of the three integer types. -/
def ElemTy.isInt : ElemTy → Bool
  | .i32 | .i16 | .i8 => true
  | _ => false

/-- R113, R64: the record formats that VQREC and MQNT write, coded 0 to 4 in this order. -/
inductive QFmt where
  | e4m3 | e5m2 | cb4 | int8 | bf16
deriving DecidableEq, Repr

/-- R110: the VCVT conversions, coded 0 to 13 in this order. -/
inductive Conv where
  | f32Bf16 | f32F16 | bf16F32 | f16F32 | f32I32 | i32F32 | f32E4m3 | f32E5m2
  | e4m3F32 | e5m2F32 | f32Cb4 | cb4F32 | f32I8 | i8F32
deriving DecidableEq, Repr

/-- R110: the conversions that are exact and take no rounding mode. -/
def Conv.exact : Conv → Bool
  | .bf16F32 | .f16F32 | .e4m3F32 | .e5m2F32 | .cb4F32 | .i8F32 => true
  | _ => false

/-- R137: the rounding modes, coded 0 to 3 in this order. -/
inductive RMode where
  | rne | rtz | rup | rdn
deriving DecidableEq, Repr

/-- R62: LD's size and extension, coded 0 to 6 in this order. -/
inductive LdForm where
  | u8 | u16 | u32 | u64 | s8 | s16 | s32
deriving DecidableEq, Repr

/-- R62: an access size, coded 0 to 3 in this order. -/
inductive MemSize where
  | b8 | b16 | b32 | b64
deriving DecidableEq, Repr

/-- R62: an AMO's size, coded 2 and 3. -/
inductive AmoSize where
  | w32 | w64
deriving DecidableEq, Repr

/-- R64: the operand types of MMA, coded 0 to 6 in this order. -/
inductive MmaTy where
  | recd | bf16 | f16 | e4m3 | e5m2 | int8 | cb4
deriving DecidableEq, Repr

/-- R214: the conditions of WPRED and WWAIT, coded 0 to 5 in this order. -/
inductive WCond where
  | eq | ne | ltu | geu | lt | ge
deriving DecidableEq, Repr

/-- R51, R52: the chain bit and the guard predicate that every tile word carries. -/
structure Head where
  c : Bool
  g : BitVec 3
deriving DecidableEq, Repr

/-- R222: one slot of a WTASK record. -/
structure WSlot where
  mode : BitVec 2
  buf : BitVec 12
  offset : BitVec 32
  length : BitVec 32
deriving DecidableEq, Repr

/-- R222: the fields of a WTASK record. `units` is UNITS, the record's length less one. -/
structure WTaskRec where
  units : BitVec 2
  pre : Bool
  loopIdx : Bool
  tag : BitVec 16
  counts : Vector (BitVec 16) 6
  order : BitVec 18
  poff : BitVec 32
  kbuf : BitVec 12
  koff : BitVec 48
  slots : Vector WSlot 8
deriving DecidableEq, Repr

/-- R22: the coordinates of a package. -/
abbrev Pkg := BitVec 12

/-- R357: a message of the fabric, header fields and payload bytes; and R336: the epoch and the IV under which its payload is sealed, and
whether its tag holds where it is opened. -/
structure Msg where
  kind : BitVec 5
  cls : Bool
  opx : BitVec 8
  len : BitVec 16
  spkg : Pkg
  sdie : BitVec 2
  sclu : BitVec 4
  score : BitVec 3
  dpkg : Pkg
  ddie : BitVec 2
  addr : Word
  fdid : BitVec 16
  token : BitVec 16
  carry0 : BitVec 16
  carry1 : BitVec 16
  payload : List Byte
  epoch : Bool := false
  iv : BitVec 48 := 0
  tagOk : Bool := true
deriving DecidableEq, Repr

/-- R360: what arrives at a link input: the domain of the flit, its route, whether it has crossed the ring's
dateline, and whether its CRC holds; and R336: the epoch under which it is sealed, and whether its tag holds. -/
structure Flit where
  fdid : BitVec 16
  ordered : Bool
  crossed : Bool
  crcOk : Bool
  epoch : Bool := false
  tagOk : Bool := true
deriving DecidableEq, Repr

/-- R342: where an uncorrectable error or a tag mismatch is found. -/
inductive ErrSite where
  | dataBlock | node (onDie : Bool)
deriving DecidableEq, Repr

/-- R18: the trap causes, coded 0x01 to 0x1B in this order. -/
inductive Cause where
  | illegalOp | illegalChain | pipeClash | priv | misalign | straddle | unmapped | leaseOut | capTag | capBounds
  | capPerm | integrity | poison | keyExhaust | tokenExpire | barrierRange | copyShape | format | remote | brk
  | trapInsn | preempt | watchdog | streamIllegal | keySoon | holdExpire | fenceOrder
deriving DecidableEq, Repr

/-- R18: the code of a trap cause. -/
def Cause.code : Cause → BitVec 8
  | .illegalOp => 0x01 | .illegalChain => 0x02 | .pipeClash => 0x03 | .priv => 0x04 | .misalign => 0x05
  | .straddle => 0x06 | .unmapped => 0x07 | .leaseOut => 0x08 | .capTag => 0x09 | .capBounds => 0x0A
  | .capPerm => 0x0B | .integrity => 0x0C | .poison => 0x0D | .keyExhaust => 0x0E | .tokenExpire => 0x0F
  | .barrierRange => 0x10 | .copyShape => 0x11 | .format => 0x12 | .remote => 0x13 | .brk => 0x14
  | .trapInsn => 0x15 | .preempt => 0x16 | .watchdog => 0x17 | .streamIllegal => 0x18 | .keySoon => 0x19
  | .holdExpire => 0x1A | .fenceOrder => 0x1B

end Sys2Proof
end

