-- ==== Sys2Proof/Machine/Num.lean ====
section
/-! DEFINITION. Numbers (R99, R132 to R140): the exact values that encodings stand for, the element formats,
rounding an exact value into a format, and the exact operations on values. Values are exact rationals with a sign,
so that every rounding happens once and in one place. -/

namespace Sys2Proof.Machine

/-- The exact value of an encoding: a NaN (all NaNs act alike, R136), an infinity, or a sign and a magnitude.
The sign is kept apart because a zero has one. -/
inductive Val where
  | nan
  | inf (neg : Bool)
  | num (neg : Bool) (mag : Rat)
deriving DecidableEq, Repr

/-- A floating-point format of R132: exponent and fraction widths, bias, the code of the largest finite magnitude,
whether it has infinities, and its canonical NaN (R136). -/
structure FloatFmt where
  ebits : Nat
  fbits : Nat
  bias : Nat
  maxCode : Nat
  hasInf : Bool
  canonNan : Nat
deriving DecidableEq, Repr

namespace FloatFmt
def f32 : FloatFmt := ⟨8, 23, 127, 0x7F7FFFFF, true, 0x7FC00000⟩
def bf16 : FloatFmt := ⟨8, 7, 127, 0x7F7F, true, 0x7FC0⟩
def f16 : FloatFmt := ⟨5, 10, 15, 0x7BFF, true, 0x7E00⟩
def e4m3 : FloatFmt := ⟨4, 3, 7, 0x7E, false, 0x7F⟩
def e5m2 : FloatFmt := ⟨5, 2, 15, 0x7B, true, 0x7E⟩
def e8m39 : FloatFmt := ⟨8, 39, 127, 0x7F7FFFFFFFFF, true, 0x7FC000000000⟩
end FloatFmt

/-- The weight of the sign bit of a format. -/
def FloatFmt.signBit (f : FloatFmt) : Nat := 2 ^ (f.ebits + f.fbits)

/-- 2^e as an exact rational. -/
def pow2 : Int → Rat
  | .ofNat n => ((2 ^ n : Nat) : Rat)
  | .negSucc n => mkRat 1 (2 ^ (n + 1))

/-- The signed rational of a sign and a magnitude. -/
def signed (neg : Bool) (mag : Rat) : Rat := if neg then -mag else mag

/-- A signed rational as a value; `zneg` is the sign that a zero takes. -/
def Val.ofRat (zneg : Bool) (q : Rat) : Val :=
  if q = 0 then .num zneg 0 else if q < 0 then .num true (-q) else .num false q

/-- R132: Value(x, fmt), the value of code `x`. In E4M3 only 0x7F and 0xFF are NaNs. -/
def FloatFmt.value (f : FloatFmt) (x : Nat) : Val :=
  let neg := decide (x / f.signBit % 2 = 1)
  let code := x % f.signBit
  let e := code / 2 ^ f.fbits
  let m := code % 2 ^ f.fbits
  if f.maxCode < code then
    if f.hasInf ∧ code = f.maxCode + 1 then .inf neg else .nan
  else if e = 0 then .num neg ((m : Rat) * pow2 (1 - (f.bias : Int) - f.fbits))
  else .num neg (((2 ^ f.fbits + m : Nat) : Rat) * pow2 ((e : Int) - f.bias - f.fbits))

/-! ### Rounding -/

/-- The largest e with 2^e ≤ q, for a positive q. -/
def floorLog2 (q : Rat) : Int :=
  let e : Int := (q.num.natAbs.log2 : Int) - (q.den.log2 : Int)
  if pow2 e ≤ q then e else e - 1

/-- Rounds a magnitude to an integer in a mode of R137, given its sign and which way a tie breaks by parity. -/
def roundNat (mode : RMode) (neg : Bool) (q : Rat) : Nat :=
  let n := q.num.natAbs
  let f := n / q.den
  let r := n % q.den
  match mode with
  | .rtz => f
  | .rup => if neg ∨ r = 0 then f else f + 1
  | .rdn => if neg ∧ r ≠ 0 then f + 1 else f
  | .rne => if 2 * r < q.den then f else if q.den < 2 * r then f + 1 else if f % 2 = 0 then f else f + 1

/-- Rounds a value's magnitude to a signed integer. -/
def roundInt (mode : RMode) (neg : Bool) (mag : Rat) : Int :=
  let m := roundNat mode neg mag
  if neg then -(m : Int) else m

/-- The exponent at which a positive magnitude is rounded into a format: its own, or that of the smallest normal. -/
def FloatFmt.expOf (f : FloatFmt) (e : Int) : Int := max e (1 - (f.bias : Int))

/-- The magnitude code that significand `m` (up to 2^(fbits+1), scaled by 2^fbits) has at exponent `e`. -/
def FloatFmt.pack (f : FloatFmt) (e : Int) (m : Nat) : Nat :=
  (e + f.bias - 1).toNat * 2 ^ f.fbits + m

/-- R137: the magnitude code a finite overflow gives. A format without infinities saturates (R110). -/
def FloatFmt.overflow (f : FloatFmt) (mode : RMode) (neg : Bool) : Nat :=
  if f.hasInf then
    match mode with
    | .rne => f.maxCode + 1
    | .rtz => f.maxCode
    | .rup => if neg then f.maxCode else f.maxCode + 1
    | .rdn => if neg then f.maxCode + 1 else f.maxCode
  else f.maxCode

/-- A magnitude code with its sign, or the overflow code where it lies beyond the largest finite value. -/
def FloatFmt.finish (f : FloatFmt) (mode : RMode) (neg : Bool) (code : Nat) : Nat :=
  (if neg then f.signBit else 0) + (if f.maxCode < code then f.overflow mode neg else code)

/-- R137, R138: rounds a signed magnitude into a format. Subnormals are kept; a zero keeps its sign. -/
def FloatFmt.roundMag (f : FloatFmt) (mode : RMode) (neg : Bool) (mag : Rat) : Nat :=
  if mag = 0 then f.finish mode neg 0
  else
    let e := f.expOf (floorLog2 mag)
    f.finish mode neg (f.pack e (roundNat mode neg (mag * pow2 ((f.fbits : Int) - e))))

/-- Rounds a value into a format. A NaN gives the canonical NaN (R136); an infinity gives an infinity, or the NaN code
of its sign in E4M3 (R110). -/
def FloatFmt.round (f : FloatFmt) (mode : RMode) : Val → Nat
  | .nan => f.canonNan
  | .inf neg => (if neg then f.signBit else 0) + (if f.hasInf then f.maxCode + 1 else f.canonNan)
  | .num neg mag => f.roundMag mode neg mag

/-- R113: rounds with RNE and saturates to the largest finite value of the sign, infinities included. -/
def FloatFmt.roundSat (f : FloatFmt) : Val → Nat
  | .nan => f.canonNan
  | .inf neg => (if neg then f.signBit else 0) + f.maxCode
  | .num neg mag =>
    let code := f.roundMag .rne neg mag
    if f.maxCode < code % f.signBit then (if neg then f.signBit else 0) + f.maxCode else code

/-! ### Exact operations (R99, R148) -/

/-- The sign of a value; a NaN counts as positive. -/
def Val.neg? : Val → Bool
  | .nan => false
  | .inf n => n
  | .num n _ => n

/-- Negation of a value. -/
def Val.negate : Val → Val
  | .nan => .nan
  | .inf n => .inf (!n)
  | .num n m => .num (!n) m

/-- The magnitude of a value. -/
def Val.abs : Val → Val
  | .nan => .nan
  | .inf _ => .inf false
  | .num _ m => .num false m

/-- R99: the exact sum. ∞ − ∞ is invalid; a zero sum is +0 unless both addends are −0. -/
def Val.add : Val → Val → Val
  | .nan, _ => .nan
  | _, .nan => .nan
  | .inf a, .inf b => if a = b then .inf a else .nan
  | .inf a, .num _ _ => .inf a
  | .num _ _, .inf b => .inf b
  | .num n a, .num m b =>
    .ofRat (n && m && decide (a = 0) && decide (b = 0)) (signed n a + signed m b)

/-- R99, R148: the exact product. ∞ × 0 is invalid; a zero product has the sign of the two signs together. -/
def Val.mul : Val → Val → Val
  | .nan, _ => .nan
  | _, .nan => .nan
  | .inf a, .inf b => .inf (a != b)
  | .inf a, .num n m => if m = 0 then .nan else .inf (a != n)
  | .num n m, .inf b => if m = 0 then .nan else .inf (n != b)
  | .num n a, .num m b => .num (n != m) (a * b)

/-- R103: the exact quotient. 0/0 and ∞/∞ are invalid. -/
def Val.div : Val → Val → Val
  | .nan, _ => .nan
  | _, .nan => .nan
  | .inf _, .inf _ => .nan
  | .inf a, .num n _ => .inf (a != n)
  | .num n _, .inf b => .num (n != b) 0
  | .num n a, .num m b =>
    if b = 0 then (if a = 0 then .nan else .inf (n != m)) else .num (n != m) (a / b)

/-- R124: a < b on values; false if either is NaN, and +0 = −0. -/
def Val.lt : Val → Val → Bool
  | .nan, _ => false
  | _, .nan => false
  | .inf a, .inf b => a && !b
  | .inf a, .num _ _ => a
  | .num _ _, .inf b => !b
  | .num n a, .num m b => decide (signed n a < signed m b)

/-- R124: a = b on values; false if either is NaN, and +0 = −0. -/
def Val.eq : Val → Val → Bool
  | .inf a, .inf b => a = b
  | .num n a, .num m b => decide (signed n a = signed m b)
  | _, _ => false

/-- R102: the order of VMIN and VMAX, with −0 below +0. -/
def Val.below (a b : Val) : Bool := a.lt b || (a.eq b && a.neg? && !b.neg?)

/-- R102: the lesser value; a NaN operand gives NaN. -/
def Val.min : Val → Val → Val
  | .nan, _ => .nan
  | _, .nan => .nan
  | a, b => if b.below a then b else a

/-- R102: the greater value; a NaN operand gives NaN. -/
def Val.max : Val → Val → Val
  | .nan, _ => .nan
  | _, .nan => .nan
  | a, b => if a.below b then b else a

/-- R149: one exact sum of all terms. Any NaN, or both infinities, gives NaN; a zero sum is −0 only if every term
is −0. -/
def exactSum (ts : List Val) : Val :=
  if ts.any (· = .nan) then .nan
  else if ts.any (· = .inf false) then (if ts.any (· = .inf true) then .nan else .inf false)
  else if ts.any (· = .inf true) then .inf true
  else
    let z := ts.foldl (fun acc t => match t with | .num n m => acc + signed n m | _ => acc) 0
    .ofRat (ts.all (· = .num true 0)) z

/-! ### Square root and the base-2 exponential (R103) -/

/-- The largest r with r² ≤ n, among the values `r0 + (less than 2^k)`. -/
def isqrtAux (n : Nat) : Nat → Nat → Nat
  | 0, r => r
  | k + 1, r => isqrtAux n k (if (r + 2 ^ k) * (r + 2 ^ k) ≤ n then r + 2 ^ k else r)

/-- The integer square root. -/
def isqrt (n : Nat) : Nat := isqrtAux n (n.log2 / 2 + 1) 0

/-- RNE of the square root of a positive rational, to an integer. -/
def sqrtRne (q : Rat) : Nat :=
  let f := isqrt (q.num.natAbs / q.den)
  let half : Rat := (f : Rat) + mkRat 1 2
  if half * half < q then f + 1 else if q < half * half then f else if f % 2 = 0 then f else f + 1

/-- R103: the correctly rounded square root in a format. -/
def FloatFmt.sqrt (f : FloatFmt) : Val → Nat
  | .nan => f.canonNan
  | .inf true => f.canonNan
  | .inf false => f.round .rne (.inf false)
  | .num neg mag =>
    if mag = 0 then f.round .rne (.num neg 0)
    else if neg then f.canonNan
    else
      let e := f.expOf (floorLog2 mag / 2)
      f.finish .rne false (f.pack e (sqrtRne (mag * pow2 (2 * ((f.fbits : Int) - e)))))

/-- The number of fraction bits with which `exp2Frac` works. -/
def exp2Bits : Nat := 400

/-- The product of 2^(2^-i) over the set bits i of a fraction of `k` bits, in fixed point with `exp2Bits` fraction
bits. `r` is 2^(2^-j) for the bit in hand, `acc` the product so far. -/
def exp2Frac (frac : Nat) : Nat → Nat → Nat → Nat
  | 0, _, acc => acc
  | k + 1, r, acc =>
    let r' := isqrt (r * 2 ^ exp2Bits)
    exp2Frac frac k r' (if frac.testBit k then acc * r' / 2 ^ exp2Bits else acc)

/-- 2^t for a rational t whose denominator is a power of two, rounded with RNE to a multiple of 2^u, as that multiple.
An integer t is exact. Otherwise 2^t is irrational, so no tie exists, and `exp2Bits` fraction bits decide the rounding
of every FP32 argument. -/
def exp2Rne (t : Rat) (u : Int) : Nat :=
  let n := t.floor
  let frac := t - n
  if frac = 0 then roundNat .rne false (pow2 (n - u))
  else
    let k := frac.den.log2
    let x := exp2Frac frac.num.natAbs k (2 ^ (exp2Bits + 1)) (2 ^ exp2Bits)
    roundNat .rne false ((x : Rat) * pow2 (n - u - exp2Bits))

/-- R103: the correctly rounded 2^a in a format. -/
def FloatFmt.exp2 (f : FloatFmt) : Val → Nat
  | .nan => f.canonNan
  | .inf true => 0
  | .inf false => f.round .rne (.inf false)
  | .num neg mag =>
    let t := signed neg mag
    if t ≥ ((2 ^ (f.ebits - 1) : Nat) : Rat) then f.overflow .rne false
    else if t ≤ -(((f.bias + f.fbits : Nat) : Rat)) then 0
    else
      let e := f.expOf t.floor
      f.finish .rne false (f.pack e (exp2Rne t (e - f.fbits)))

/-! ### CB4 and UE5M3 (R134, R139) -/

/-- R134: the magnitudes of codes 0 to 7, in sixty-fourths. -/
def cb4Mags : List Nat := [3, 8, 14, 20, 27, 35, 45, 64]

/-- R134: the signed sixty-fourths of a CB4 code. -/
def cb4Int (c : Nat) : Int :=
  let m : Int := (cb4Mags.getD (c % 8) 0 : Nat)
  if c % 16 < 8 then m else -m

/-- R134: the value of a CB4 code. -/
def cb4Value (c : Nat) : Val := .num (decide (8 ≤ c % 16)) (mkRat (cb4Mags.getD (c % 8) 0 : Nat) 64)

/-- R111: the code whose signed sixty-fourths satisfy `ok` and come first under `better`. -/
def cb4Pick (ok : Int → Bool) (better : Nat → Nat → Bool) (dflt : Nat) : Nat :=
  (List.range 16).foldl
    (fun best c => if ok (cb4Int c) && (!(ok (cb4Int best)) || better c best) then c else best) dflt

/-- R111: the distance of a code from x, in sixty-fourths. -/
def cb4Dist (x : Rat) (c : Nat) : Rat := let d := x * 64 - (cb4Int c : Rat); if d < 0 then -d else d

/-- R111: F32 to CB4 in each mode. NaN goes to code 0 and an infinity to code 7 or 15 (R110). -/
def cb4Round (mode : RMode) : Val → Nat
  | .nan => 0
  | .inf neg => if neg then 15 else 7
  | .num neg mag =>
    let x := signed neg mag
    match mode with
    | .rne =>
      if mag = 0 then (if neg then 8 else 0)
      else cb4Pick (fun _ => true)
        (fun c b => cb4Dist x c < cb4Dist x b || (cb4Dist x c = cb4Dist x b && c % 2 = 0 && b % 2 = 1)) 0
    | .rtz =>
      (if neg then 8 else 0) + ((cb4Mags.filter fun (m : Nat) => decide ((m : Rat) ≤ mag * 64)).length - 1)
    | .rup =>
      if x > 1 then 7
      else cb4Pick (fun v => decide (x * 64 ≤ (v : Rat))) (fun c b => cb4Int c < cb4Int b) 7
    | .rdn =>
      if x < -1 then 15
      else cb4Pick (fun v => decide ((v : Rat) ≤ x * 64)) (fun c b => cb4Int b < cb4Int c) 15

/-- R139: UE(s) for the codes 0x01 to 0xFE. -/
def ueValue (s : Nat) : Rat :=
  let e := s / 8
  let m := s % 8
  if e = 0 then (m : Rat) * pow2 (-17) else ((8 + m : Nat) : Rat) * pow2 ((e : Int) - 18)

end Sys2Proof.Machine
end

