-- ==== Sys2Proof/Machine/Lanes.lean ====
section
/-! DEFINITION. Elements of a vector register (R97, R98) and the element-wise arithmetic of the vector words:
R102 to R111, R124 to R129 as functions on register values. Nothing here touches the machine's state. -/

namespace Sys2Proof.Machine

/-! ### Lanes -/

/-- The number whose `w`-bit digit i is `f i`, for i below n. -/
def lanesNat (w : Nat) (f : Nat → BitVec w) : Nat → Nat
  | 0 => 0
  | n + 1 => lanesNat w f n ||| ((f n).toNat <<< (w * n))

/-- The vector whose lane i of `w` bits is `f i`, for i below n; the bits above are zero. -/
def ofLanes (w n : Nat) (f : Nat → BitVec w) : Vec := BitVec.ofNat 2048 (lanesNat w f n)

/-- Lane i of `w` bits. -/
def lane (w : Nat) (v : Vec) (i : Nat) : BitVec w := v.extractLsb' (w * i) w

/-- R97: Elem(v, i, t). -/
def elem (t : ElemTy) (v : Vec) (i : Nat) : BitVec t.bits := lane t.bits v i

/-- R17, R97: the mask bit of the element of `bytes` bytes with index i. -/
def maskBit (m : Mask) (bytes i : Nat) : Bool := m.getLsbD (bytes * i)

/-- R98: lanes of `bytes` bytes with a set mask bit take the new value, the others keep the old. -/
def mapLanes (bytes : Nat) (m : Mask) (old : Vec) (f : Nat → BitVec (8 * bytes)) : Vec :=
  ofLanes (8 * bytes) (256 / bytes) fun i => if maskBit m bytes i then f i else lane (8 * bytes) old i

/-- R98 by element type. -/
def mapElems (t : ElemTy) (m : Mask) (old : Vec) (f : Nat → BitVec t.bits) : Vec := mapLanes t.bytes m old f

/-! ### Element values -/

/-- R97, R99: the float format of a float element type; integer types have none. -/
def elemFmt : ElemTy → Option FloatFmt
  | .f32 => some .f32
  | .bf16 => some .bf16
  | .f16 => some .f16
  | _ => none

/-- One element operation: on exact values rounded once with RNE (R99), or on integers wrapping at the width (R100). -/
structure ElemOp where
  float : Val → Val → Val → Val
  int : Int → Int → Int → Int

/-- Applies an element operation to elements a, b and the old d. -/
def ElemOp.apply (op : ElemOp) (t : ElemTy) (a b d : BitVec t.bits) : BitVec t.bits :=
  match elemFmt t with
  | some f => BitVec.ofNat _ (f.round .rne (op.float (f.value a.toNat) (f.value b.toNat) (f.value d.toNat)))
  | none => BitVec.ofInt _ (op.int a.toInt b.toInt d.toInt)

/-- R102. -/
def opAdd : ElemOp := ⟨fun a b _ => a.add b, fun a b _ => a + b⟩
def opSub : ElemOp := ⟨fun a b _ => a.add b.negate, fun a b _ => a - b⟩
def opMul : ElemOp := ⟨fun a b _ => a.mul b, fun a b _ => a * b⟩
def opFma : ElemOp := ⟨fun a b d => (a.mul b).add d, fun a b d => a * b + d⟩
def opMin : ElemOp := ⟨fun a b _ => a.min b, fun a b _ => min a b⟩
def opMax : ElemOp := ⟨fun a b _ => a.max b, fun a b _ => max a b⟩

/-- R103. -/
def opDiv : ElemOp := ⟨fun a b _ => a.div b, fun _ _ d => d⟩
def opAbs : ElemOp := ⟨fun a _ _ => a.abs, fun a _ _ => a.natAbs⟩
def opNeg : ElemOp := ⟨fun a _ _ => a.negate, fun a _ _ => -a⟩

/-- R98, R102: a masked element-wise operation over whole registers. -/
def vElem (op : ElemOp) (t : ElemTy) (m : Mask) (a b d : Vec) : Vec :=
  mapElems t m d fun i => op.apply t (elem t a i) (elem t b i) (elem t d i)

/-- R103: VSQRT on F32 elements. -/
def vSqrt (m : Mask) (a d : Vec) : Vec :=
  mapLanes 4 m d fun i => BitVec.ofNat 32 (FloatFmt.f32.sqrt (FloatFmt.f32.value (lane 32 a i).toNat))

/-- R103: VEXP2 on F32 elements. -/
def vExp2 (m : Mask) (a d : Vec) : Vec :=
  mapLanes 4 m d fun i => BitVec.ofNat 32 (FloatFmt.f32.exp2 (FloatFmt.f32.value (lane 32 a i).toNat))

/-- R104: an exact integer clamped to w signed bits. -/
def clampInt (w : Nat) (z : Int) : Int :=
  if z < -(2 ^ (w - 1) : Nat) then -(2 ^ (w - 1) : Nat)
  else if ((2 ^ (w - 1) : Nat) : Int) - 1 < z then ((2 ^ (w - 1) : Nat) : Int) - 1 else z

/-- R104: VADDS and VSUBS. -/
def vSat (f : Int → Int → Int) (t : ElemTy) (m : Mask) (a b d : Vec) : Vec :=
  mapElems t m d fun i => BitVec.ofInt _ (clampInt t.bits (f (elem t a i).toInt (elem t b i).toInt))

/-! ### Permutes, slides, broadcast, move (R105), compress and expand (R129), at an element size in bytes -/

/-- Element k of a vector, zero beyond its lanes. -/
def laneOrZero (bytes : Nat) (v : Vec) (k : Nat) : BitVec (8 * bytes) :=
  if k < 256 / bytes then lane (8 * bytes) v k else 0

/-- R105: VPERM. -/
def vPerm (bytes : Nat) (m : Mask) (a b d : Vec) : Vec :=
  mapLanes bytes m d fun i => laneOrZero bytes a (lane (8 * bytes) b i).toNat

/-- R105: VSLIDEUP. -/
def vSlideUp (bytes : Nat) (m : Mask) (a : Vec) (k : Nat) (d : Vec) : Vec :=
  mapLanes bytes m d fun i => if k ≤ i then lane (8 * bytes) a (i - k) else 0

/-- R105: VSLIDEDN. -/
def vSlideDn (bytes : Nat) (m : Mask) (a : Vec) (k : Nat) (d : Vec) : Vec :=
  mapLanes bytes m d fun i => laneOrZero bytes a (i + k)

/-- R105: VBCAST. -/
def vBcast (bytes : Nat) (m : Mask) (x : Word) (d : Vec) : Vec :=
  mapLanes bytes m d fun _ => x.setWidth (8 * bytes)

/-- R105: VMOV. -/
def vMov (bytes : Nat) (m : Mask) (a d : Vec) : Vec :=
  mapLanes bytes m d fun i => lane (8 * bytes) a i

/-- The selected indices below n, in rising order. -/
def selected (m : Mask) (bytes n : Nat) : List Nat := (List.range n).filter (maskBit m bytes)

/-- R129: VCOMPRESS writes every element of the destination. -/
def vCompress (bytes : Nat) (m : Mask) (a : Vec) : Vec :=
  let sel := selected m bytes (256 / bytes)
  ofLanes (8 * bytes) (256 / bytes) fun i =>
    match sel[i]? with
    | some k => lane (8 * bytes) a k
    | none => 0

/-- R129: VEXPAND; unselected elements keep their value. -/
def vExpand (bytes : Nat) (m : Mask) (a d : Vec) : Vec :=
  mapLanes bytes m d fun i => lane (8 * bytes) a (selected m bytes i).length

/-! ### Reductions and scans (R106 to R108) -/

/-- The reductions of VRED. -/
inductive RedOp where
  | sum | max | min
deriving DecidableEq, Repr

/-- R106: the identity of a float operation. -/
def RedOp.floatId : RedOp → Val
  | .sum => .num true 0
  | .max => .inf true
  | .min => .inf false

/-- R106: the identity of an integer operation at a width. -/
def RedOp.intId (w : Nat) : RedOp → Int
  | .sum => 0
  | .max => -(2 ^ (w - 1) : Nat)
  | .min => ((2 ^ (w - 1) : Nat) : Int) - 1

/-- One node on exact values. -/
def RedOp.floatNode : RedOp → Val → Val → Val
  | .sum => Val.add
  | .max => Val.max
  | .min => Val.min

/-- One node on integers. -/
def RedOp.intNode : RedOp → Int → Int → Int
  | .sum => (· + ·)
  | .max => fun a b => if a ≤ b then b else a
  | .min => fun a b => if a ≤ b then a else b

/-- R107: one level of the pairwise tree. -/
def treeLevel {α : Type} (node : α → α → α) : List α → List α
  | a :: b :: rest => node a b :: treeLevel node rest
  | l => l

/-- R107: the levels of the pairwise tree, `k` of them for 2^k elements. -/
def treeReduce {α : Type} (node : α → α → α) : Nat → List α → List α
  | 0, l => l
  | k + 1, l => treeReduce node k (treeLevel node l)

/-- R108: one doubling step at distance d. -/
def scanStep {α : Type} (node : α → α → α) (d : Nat) (l : List α) : List α :=
  l.take d ++ List.zipWith node l (l.drop d)

/-- R108: the doubling steps. -/
def scanSteps {α : Type} (node : α → α → α) : Nat → Nat → List α → List α
  | 0, _, l => l
  | k + 1, d, l => scanSteps node k (2 * d) (scanStep node d l)

/-- R106: the nodes of a float reduction hold F32 encodings: every node is rounded with RNE to F32. -/
def floatRedNode (op : RedOp) (a b : Nat) : Nat :=
  FloatFmt.f32.round .rne (op.floatNode (FloatFmt.f32.value a) (FloatFmt.f32.value b))

/-- R106: the starting nodes of a float reduction, in F32 (BF16 and F16 values are F32 values). -/
def floatRedLeaves (op : RedOp) (f : FloatFmt) (t : ElemTy) (m : Mask) (a : Vec) : List Nat :=
  (List.range t.lanes).map fun i =>
    FloatFmt.f32.round .rne (if maskBit m t.bytes i then f.value (elem t a i).toNat else op.floatId)

/-- R106: the starting nodes of an integer reduction. -/
def intRedLeaves (op : RedOp) (t : ElemTy) (m : Mask) (a : Vec) : List (BitVec t.bits) :=
  (List.range t.lanes).map fun i =>
    if maskBit m t.bytes i then elem t a i else BitVec.ofInt _ (op.intId t.bits)

/-- R106: an integer node wraps at the element width. -/
def intRedNode (op : RedOp) {w : Nat} (a b : BitVec w) : BitVec w := BitVec.ofInt w (op.intNode a.toInt b.toInt)

/-- R107: VRSUM, VRMAX and VRMIN. The result is element 0; every other element is zero. -/
def vReduce (op : RedOp) (t : ElemTy) (m : Mask) (a : Vec) : Vec :=
  match elemFmt t with
  | some f =>
    let x := (treeReduce (floatRedNode op) 8 (floatRedLeaves op f t m a)).headD 0
    BitVec.ofNat 2048 (f.round .rne (FloatFmt.f32.value x))
  | none => ((treeReduce (intRedNode op) 8 (intRedLeaves op t m a)).headD 0).setWidth 2048

/-- R108: VSCAN, the inclusive prefix sum. -/
def vScan (t : ElemTy) (m : Mask) (a : Vec) : Vec :=
  match elemFmt t with
  | some f =>
    let xs := scanSteps (floatRedNode .sum) 8 1 (floatRedLeaves .sum f t m a)
    ofLanes t.bits t.lanes fun i => BitVec.ofNat _ (f.round .rne (FloatFmt.f32.value (xs.getD i 0)))
  | none =>
    let xs := scanSteps (intRedNode .sum) 8 1 (intRedLeaves .sum t m a)
    ofLanes t.bits t.lanes fun i => xs.getD i 0

/-! ### Conversions (R109 to R111) -/

/-- R109: the bits of a conversion's source element. -/
def convSrcBits : Conv → Nat
  | .bf16F32 | .f16F32 => 16
  | .e4m3F32 | .e5m2F32 | .i8F32 => 8
  | .cb4F32 => 4
  | _ => 32

/-- R109: the bits of a conversion's result element. -/
def convDstBits : Conv → Nat
  | .f32Bf16 | .f32F16 => 16
  | .f32E4m3 | .f32E5m2 | .f32I8 => 8
  | .f32Cb4 => 4
  | _ => 32

/-- R110: F32 to an integer of w bits: rounded, saturated, NaN to 0. -/
def f32ToInt (w : Nat) (mode : RMode) : Val → Nat
  | .nan => 0
  | .inf neg => (BitVec.ofInt w (clampInt w (if neg then -(2 ^ w : Nat) else (2 ^ w : Nat)))).toNat
  | .num neg mag => (BitVec.ofInt w (clampInt w (roundInt mode neg mag))).toNat

/-- An integer's value; zero is +0. -/
def intVal (z : Int) : Val := .num (decide (z < 0)) (z.natAbs : Rat)

/-- R110, R111: one conversion of one element's code. -/
def convOne (c : Conv) (mode : RMode) (x : Nat) : Nat :=
  match c with
  | .f32Bf16 => FloatFmt.bf16.round mode (FloatFmt.f32.value x)
  | .f32F16 => FloatFmt.f16.round mode (FloatFmt.f32.value x)
  | .bf16F32 => FloatFmt.f32.round .rne (FloatFmt.bf16.value x)
  | .f16F32 => FloatFmt.f32.round .rne (FloatFmt.f16.value x)
  | .f32I32 => f32ToInt 32 mode (FloatFmt.f32.value x)
  | .i32F32 => FloatFmt.f32.round mode (intVal (BitVec.ofNat 32 x).toInt)
  | .f32E4m3 => FloatFmt.e4m3.round mode (FloatFmt.f32.value x)
  | .f32E5m2 => FloatFmt.e5m2.round mode (FloatFmt.f32.value x)
  | .e4m3F32 => FloatFmt.f32.round .rne (FloatFmt.e4m3.value x)
  | .e5m2F32 => FloatFmt.f32.round .rne (FloatFmt.e5m2.value x)
  | .f32Cb4 => cb4Round mode (FloatFmt.f32.value x)
  | .cb4F32 => FloatFmt.f32.round .rne (cb4Value x)
  | .f32I8 => f32ToInt 8 mode (FloatFmt.f32.value x)
  | .i8F32 => FloatFmt.f32.round .rne (intVal (BitVec.ofNat 8 x).toInt)

/-- R109: VCVT acts on 64 elements under the mask bits of the F32 lanes; the bytes above a narrow result are zero. -/
def vCvt (c : Conv) (mode : RMode) (m : Mask) (a d : Vec) : Vec :=
  ofLanes (convDstBits c) 64 fun i =>
    if maskBit m 4 i then BitVec.ofNat _ (convOne c mode (lane (convSrcBits c) a i).toNat) else lane (convDstBits c) d i

/-! ### Compares and masks (R124, R125) -/

/-- The relations of VCMP. -/
inductive VCmp where
  | eq | lt | le | ltu
deriving DecidableEq, Repr

/-- R124: one relation on two elements. -/
def VCmp.holds (c : VCmp) (t : ElemTy) (a b : BitVec t.bits) : Bool :=
  match elemFmt t with
  | some f =>
    let x := f.value a.toNat
    let y := f.value b.toNat
    match c with
    | .eq => x.eq y
    | .lt => x.lt y
    | .le => x.lt y || x.eq y
    | .ltu => false
  | none =>
    match c with
    | .eq => a == b
    | .lt => a.slt b
    | .le => a.sle b
    | .ltu => a.ult b

/-- A mask from its bits. -/
def ofBits (f : Nat → Bool) : Mask := BitVec.ofNat 256 (lanesNat 1 (fun j => BitVec.ofBool (f j)) 256)

/-- R124: the result goes to all mask bits of the element's byte lanes; masked-off elements keep theirs. -/
def vCmp (c : VCmp) (t : ElemTy) (m : Mask) (a b : Vec) (old : Mask) : Mask :=
  ofBits fun j =>
    let i := j / t.bytes
    if maskBit m t.bytes i then c.holds t (elem t a i) (elem t b i) else old.getLsbD j

/-- R125: bits selected by mM take the new value, the others keep the old. -/
def mMerge (m new old : Mask) : Mask := (new &&& m) ||| (old &&& ~~~m)

/-- R125: MCNT. -/
def mCount (a m : Mask) : Nat := ((List.range 256).filter fun j => (a &&& m).getLsbD j).length

/-- R125: MFIRST. -/
def mFirst (a m : Mask) : Nat := ((List.range 256).find? fun j => (a &&& m).getLsbD j).getD 256

/-! ### Bit operations (R126 to R128) -/

/-- R126: a byte-wise logic operation. -/
def vLogic (f : Vec → Vec → Vec) (m : Mask) (a b d : Vec) : Vec :=
  mapLanes 1 m d fun i => lane 8 (f a b) i

/-- R126: a shift of 32-bit lanes by a count per lane. -/
def vShift (f : BitVec 32 → Nat → BitVec 32) (m : Mask) (a : Vec) (n : Nat → Nat) (d : Vec) : Vec :=
  mapLanes 4 m d fun i => f (lane 32 a i) (n i)

/-- R126: the low five bits of lane i of vB. -/
def vShiftCount (b : Vec) (i : Nat) : Nat := (lane 32 b i).toNat % 32

/-- R127: the carry-less product of two 64-bit values, from the low `k` bits of y. -/
def clmul (x y : BitVec 64) : Nat → BitVec 128
  | 0 => 0
  | k + 1 => if y.getLsbD k then clmul x y k ^^^ (x.setWidth 128 <<< k) else clmul x y k

/-- R127: VCLMUL.LO and VCLMUL.HI. -/
def vClmul (hi : Bool) (m : Mask) (a b d : Vec) : Vec :=
  mapLanes 8 m d fun i => (clmul (lane 64 a i) (lane 64 b i) 64).extractLsb' (if hi then 64 else 0) 64

/-- The number of one bits of a value. -/
def popCount {w : Nat} (x : BitVec w) : Nat := ((List.range w).filter fun j => x.getLsbD j).length

/-- R128: VPOPC.32 and VPOPC.64. -/
def vPopc (bytes : Nat) (m : Mask) (a d : Vec) : Vec :=
  mapLanes bytes m d fun i => BitVec.ofNat (8 * bytes) (popCount (lane (8 * bytes) a i))

/-! ### The vector atomic add (R130) -/

/-- R130: the 128-byte line after the element-wise add of the active elements of `data`. -/
def vamoLine (t : ElemTy) (m : Mask) (line data : Vec) : Vec :=
  ofLanes t.bits (128 / t.bytes) fun i =>
    if maskBit m t.bytes i then opAdd.apply t (elem t line i) (elem t data i) 0 else elem t line i

end Sys2Proof.Machine
end

