-- ==== Sys2Proof/Machine/Records.lean ====
section
/-! DEFINITION. Tile records, scales, companding tables and quantisation (R112, R113, R139 to R147), as functions on
bytes and encodings. Nothing here touches the machine's state. -/

namespace Sys2Proof.Machine

/-! ### Bytes and little-endian numbers (R3) -/

/-- The little-endian number of a list of bytes. -/
def leNat : List Byte → Nat
  | [] => 0
  | b :: bs => b.toNat + 256 * leNat bs

/-- How far a 64-bit counter has run past another. -/
def ahead (a b : Nat) : Nat := (BitVec.ofNat 64 a - BitVec.ofNat 64 b).toNat

/-- The n low bytes of a number, lowest first. -/
def leBytes : Nat → Nat → List Byte
  | 0, _ => []
  | n + 1, x => BitVec.ofNat 8 x :: leBytes n (x / 256)

/-- Byte i of a list, zero beyond its end. -/
def byteAt (bs : List Byte) (i : Nat) : Nat := (bs.getD i 0).toNat

/-- The little-endian field of `n` bytes at offset `o`. -/
def fieldAt (bs : List Byte) (o n : Nat) : Nat := leNat ((bs.drop o).take n)

/-- A bit slice x[hi:lo] of a number. -/
def bits (x hi lo : Nat) : Nat := x / 2 ^ lo % 2 ^ (hi + 1 - lo)

/-! ### Companding (R145 to R147) -/

/-- A companding table: its 17 breakpoints (x_k, y_k) as FP32 codes. -/
abbrev CompTable := List (BitVec 32 × BitVec 32)

/-- The rational value of a finite FP32 code, 0 for the others. -/
def f32Rat (c : BitVec 32) : Rat :=
  match FloatFmt.f32.value c.toNat with
  | .num n m => signed n m
  | _ => 0

/-- Whether an FP32 code is finite. -/
def f32Finite (c : BitVec 32) : Bool :=
  match FloatFmt.f32.value c.toNat with
  | .num _ _ => true
  | _ => false

/-- Whether consecutive entries are strictly in relation. -/
def chainLt (lt : Rat → Rat → Bool) : List Rat → Bool
  | a :: b :: rest => lt a b && chainLt lt (b :: rest)
  | _ => true

/-- R145: parses a 144-byte table image; none where a check fails. The result names the slot. -/
def parseTable (img : List Byte) : Option (Nat × CompTable) :=
  let t := byteAt img 0
  let pairs : CompTable := (List.range 17).map fun k =>
    (BitVec.ofNat 32 (fieldAt img (8 + 8 * k) 4), BitVec.ofNat 32 (fieldAt img (12 + 8 * k) 4))
  let xs := pairs.map fun p => f32Rat p.1
  let ys := pairs.map fun p => f32Rat p.2
  if 1 ≤ t ∧ t ≤ 4 ∧ fieldAt img 1 7 = 0 ∧ pairs.all (fun p => f32Finite p.1 && f32Finite p.2) ∧
      chainLt (fun a b => decide (a < b)) xs ∧
      (chainLt (fun a b => decide (a < b)) ys ∨ chainLt (fun a b => decide (b < a)) ys)
  then some (t, pairs) else none

/-- Linear interpolation through (x0, y0) and (x1, y1). -/
def interp (x0 y0 x1 y1 u : Rat) : Rat := y0 + (u - x0) * (y1 - y0) / (x1 - x0)

/-- R147: the segment of u: the number of inner breakpoints 1 to 15 that u has reached. -/
def segment (reached : Rat → Bool) (bp : List Rat) : Nat := ((bp.drop 1).take 15 |>.filter reached).length

/-- R147: Compand(t, u) on rationals. -/
def compandRat (t : CompTable) (u : Rat) : Rat :=
  let xs := t.map fun p => f32Rat p.1
  let ys := t.map fun p => f32Rat p.2
  let k := segment (fun x => decide (x ≤ u)) xs
  interp (xs.getD k 0) (ys.getD k 0) (xs.getD (k + 1) 0) (ys.getD (k + 1) 0) u

/-- R147: the exact inverse on rationals, before its rounding. -/
def invRat (t : CompTable) (y : Rat) : Rat :=
  let xs := t.map fun p => f32Rat p.1
  let ys := t.map fun p => f32Rat p.2
  let rising := decide (ys.getD 0 0 < ys.getD 1 0)
  let k := segment (fun b => if rising then decide (b ≤ y) else decide (y ≤ b)) ys
  interp (ys.getD k 0) (xs.getD k 0) (ys.getD (k + 1) 0) (xs.getD (k + 1) 0) y

/-- R113, R147: Compand on values; table 0 (none) is the identity. A zero result takes the sign of u. -/
def compand (t : Option CompTable) (v : Val) : Val :=
  match t, v with
  | some tab, .num neg mag => .ofRat neg (compandRat tab (signed neg mag))
  | _, v => v

/-- R147: Inv on values, rounded with RNE to E8M39; a zero keeps the sign of y. -/
def invCompand (t : Option CompTable) (v : Val) : Val :=
  match t, v with
  | some tab, .num neg mag =>
    let z := invRat tab (signed neg mag)
    if z = 0 then .num neg 0 else FloatFmt.e8m39.value (FloatFmt.e8m39.round .rne (.ofRat neg z))
  | _, v => v

/-! ### Record formats and headers (R141, R142) -/

/-- R142: the formats of a tile record. -/
inductive RecFmt where
  | zero | e4m3 | e5m2 | cb4 | int8 | bf16
deriving DecidableEq, Repr

/-- R142: format codes. -/
def recFmtOf : Nat → Option RecFmt
  | 0x00 => some .zero
  | 0x10 => some .e4m3
  | 0x11 => some .e5m2
  | 0x12 => some .cb4
  | 0x13 => some .int8
  | 0x20 => some .bf16
  | _ => none

/-- R142: record sizes in bytes. -/
def RecFmt.size : RecFmt → Nat
  | .zero => 16
  | .cb4 => 144
  | .bf16 => 528
  | _ => 272

/-- R142: the four header checks, in order; every failure is FORMAT. `valid t` says whether slot t holds a table. -/
def recHeader (valid : Nat → Bool) (hdr : List Byte) : Option RecFmt :=
  match recFmtOf (byteAt hdr 0) with
  | none => none
  | some f =>
    let t := byteAt hdr 1
    if byteAt hdr 3 ≠ 0 then none
    else if 4 < t ∨ (t ≠ 0 ∧ (f = .zero ∨ f = .bf16)) then none
    else if t ≠ 0 ∧ !(valid t) then none
    else some f

/-- R142: the code of element (r, c) in a record's bytes. -/
def recCode (f : RecFmt) (bs : List Byte) (r c : Nat) : Nat :=
  match f with
  | .zero => 0
  | .cb4 => byteAt bs (16 + 8 * r + c / 2) / (if c % 2 = 0 then 1 else 16) % 16
  | .bf16 => fieldAt bs (16 + 2 * (16 * r + c)) 2
  | _ => byteAt bs (16 + 16 * r + c)

/-- R132 to R134: Value(x, FMT) of a record element's code. An INT8 zero is +0. -/
def recValue (f : RecFmt) (x : Nat) : Val :=
  match f with
  | .zero => .num false 0
  | .e4m3 => FloatFmt.e4m3.value x
  | .e5m2 => FloatFmt.e5m2.value x
  | .cb4 => cb4Value x
  | .int8 => intVal (BitVec.ofNat 8 x).toInt
  | .bf16 => FloatFmt.bf16.value x

/-- R143: the value of an element from its code, the group scale, the block scale and the table. -/
def elemValue (f : RecFmt) (x : Nat) (gs : Val) (s : Nat) (t : Option CompTable) : Val :=
  if f = .zero then .num false 0
  else
    match gs with
    | .nan => .nan
    | .inf _ => .nan
    | .num gneg gmag =>
      if s = 0xFF then .nan
      else
        match recValue f x with
        | .nan => .nan
        | .inf neg => if s = 0 ∨ gmag = 0 then .nan else .inf (neg != gneg)
        | .num neg mag =>
          if s = 0 ∨ gmag = 0 then .num (neg != gneg) 0
          else
            match invCompand t (.num neg mag) with
            | .num uneg umag =>
              if umag = 0 then .num (neg != gneg) 0 else .num (uneg != gneg) (gmag * ueValue s * umag)
            | v => v.mul (.num gneg gmag)

/-- R143: element (r, c) of a record's bytes. `tab t` is the table of slot t. -/
def recElem (tab : Nat → Option CompTable) (f : RecFmt) (bs : List Byte) (r c : Nat) : Val :=
  elemValue f (recCode f bs r c) (FloatFmt.f32.value (fieldAt bs 4 4)) (byteAt bs (8 + r / 2))
    (if byteAt bs 1 = 0 then none else tab (byteAt bs 1))

/-! ### Quantisation (R112, R113) -/

/-- R112: the format code of a quantised record. -/
def qFmtCode : QFmt → Nat
  | .e4m3 => 0x10 | .e5m2 => 0x11 | .cb4 => 0x12 | .int8 => 0x13 | .bf16 => 0x20

/-- R112: the record format of a quantised record. -/
def qRecFmt : QFmt → RecFmt
  | .e4m3 => .e4m3 | .e5m2 => .e5m2 | .cb4 => .cb4 | .int8 => .int8 | .bf16 => .bf16

/-- R113: Fmax. -/
def qFmax : QFmt → Nat
  | .e4m3 => 448 | .e5m2 => 57344 | .cb4 => 1 | .int8 => 127 | .bf16 => 1

/-- R113: Q, one rounding of the companded value into the element code, with saturation. -/
def qCode (f : QFmt) (v : Val) : Nat :=
  match f with
  | .e4m3 => FloatFmt.e4m3.roundSat v
  | .e5m2 => FloatFmt.e5m2.roundSat v
  | .cb4 => cb4Round .rne v
  | .int8 =>
    match v with
    | .num neg mag =>
      let z := roundInt .rne neg mag
      (BitVec.ofInt 8 (if z < -127 then -127 else if 127 < z then 127 else z)).toNat
    | .inf neg => (BitVec.ofInt 8 (if neg then -127 else 127)).toNat
    | .nan => 0
  | .bf16 => FloatFmt.bf16.round .rne v

/-- Whether a value is a zero. -/
def Val.isZero : Val → Bool
  | .num _ m => decide (m = 0)
  | _ => false

/-- Whether a value is finite. -/
def Val.isFinite : Val → Bool
  | .num _ _ => true
  | _ => false

/-- R113: the exponent k of the group scale, from all the values of the tile. -/
def qGroupExp (f : QFmt) (xs : List Val) : Int :=
  let a := xs.foldl (fun acc v => match v with | .num _ m => if acc < m then m else acc | _ => acc) (0 : Rat)
  if a = 0 then 0
  else
    let k := floorLog2 a - floorLog2 (qFmax f)
    if k < -126 then -126 else if 127 < k then 127 else k

/-- R113: x / (gs · UE(s)), exact. -/
def qScaled (k : Int) (s : Nat) : Val → Val
  | .num neg mag => .num neg (mag / (pow2 k * ueValue s))
  | v => v

/-- R113: whether a block scale code keeps every element within Fmax. -/
def qFits (f : QFmt) (t : Option CompTable) (k : Int) (xs : List Val) (s : Nat) : Bool :=
  xs.all fun v => match compand t (qScaled k s v) with
    | .num _ m => decide (m ≤ (qFmax f : Rat))
    | _ => false

/-- R113: the block scale code and element codes of one block of 32 values (rows 2j and 2j + 1). -/
def qBlock (f : QFmt) (t : Option CompTable) (k : Int) (xs : List Val) : Nat × List Nat :=
  match f with
  | .bf16 => (0x78, xs.map (qCode .bf16))
  | _ =>
    if xs.any (fun v => !v.isFinite) then (0xFF, xs.map fun _ => 0)
    else if xs.all Val.isZero then (0x00, xs.map (qCode f))
    else
      let s := ((List.range 254).map (· + 1)).find? (qFits f t k xs) |>.getD 0xFE
      (s, xs.map fun v => qCode f (compand t (qScaled k s v)))

/-- Two 4-bit codes to a byte, the lower index in the low nibble (R134). -/
def packNibbles : List Nat → List Byte
  | a :: b :: rest => BitVec.ofNat 8 (a % 16 + 16 * (b % 16)) :: packNibbles rest
  | [a] => [BitVec.ofNat 8 (a % 16)]
  | [] => []

/-- R112: the payload bytes of one block's codes. -/
def qPayload (f : QFmt) (codes : List Nat) : List Byte :=
  match f with
  | .cb4 => packNibbles codes
  | .bf16 => codes.flatMap (leBytes 2)
  | _ => codes.map (BitVec.ofNat 8)

/-- R112: the payload bytes per block. -/
def qBlockBytes : QFmt → Nat
  | .cb4 => 16 | .bf16 => 64 | _ => 32

/-- R112: header bytes 0 to 7 of the record. -/
def qHeader (f : QFmt) (t : Nat) (xs : List Val) : List Byte :=
  let gs := match f with
    | .bf16 => 0x3F800000
    | _ => FloatFmt.f32.round .rne (.num false (pow2 (qGroupExp f xs)))
  leBytes 4 (qFmtCode f + 256 * t) ++ leBytes 4 gs

/-- R114: the two writes of block j, as (offset in the record, bytes): byte 8 + j, then the payload of its rows. -/
def qBlockWrites (f : QFmt) (tab : Option CompTable) (xs : List Val) (j : Nat) : List (Nat × List Byte) :=
  let (bs, codes) := qBlock f tab (qGroupExp f xs) ((xs.drop (32 * j)).take 32)
  [(8 + j, [BitVec.ofNat 8 bs]), (16 + qBlockBytes f * j, qPayload f codes)]

/-- R112: the 256 values of a tile held in four vectors, row by row. -/
def vecTile (v0 v1 v2 v3 : Vec) : List Val :=
  [v0, v1, v2, v3].flatMap fun v =>
    (List.range 64).map fun i => FloatFmt.f32.value (lane 32 v i).toNat

end Sys2Proof.Machine
end

