-- ==== Sys2Proof/Syntax.lean ====
section
/-! DEFINITION. The steps of the DZ7800, one constructor per row of the opcode table: the tile words (R51 to R66), the
events of the machine's agents, the stream records (R213), the Topiary operations (R381), the host's register accesses,
the fabric's messages and the attestation requests. -/

namespace Sys2Proof

/-- Every row of the opcode table. A tile word carries its chain bit and guard in `h`; register fields are numbers.
The rows that the decoder builds stand first: Lean compiles a constructor with fields only among the first 244. -/
inductive Instr where
  /-- ADD (R72). -/
  | add (h : Head) (d : BitVec 5) (a : BitVec 5) (b : BitVec 5)
  /-- SUB (R72). -/
  | sub (h : Head) (d : BitVec 5) (a : BitVec 5) (b : BitVec 5)
  /-- AND (R72). -/
  | and (h : Head) (d : BitVec 5) (a : BitVec 5) (b : BitVec 5)
  /-- OR (R72). -/
  | or (h : Head) (d : BitVec 5) (a : BitVec 5) (b : BitVec 5)
  /-- XOR (R72). -/
  | xor (h : Head) (d : BitVec 5) (a : BitVec 5) (b : BitVec 5)
  /-- SLL (R72). -/
  | sll (h : Head) (d : BitVec 5) (a : BitVec 5) (b : BitVec 5)
  /-- SRL (R72). -/
  | srl (h : Head) (d : BitVec 5) (a : BitVec 5) (b : BitVec 5)
  /-- SRA (R72). -/
  | sra (h : Head) (d : BitVec 5) (a : BitVec 5) (b : BitVec 5)
  /-- MIN (R72). -/
  | min (h : Head) (d : BitVec 5) (a : BitVec 5) (b : BitVec 5)
  /-- MAX (R72). -/
  | max (h : Head) (d : BitVec 5) (a : BitVec 5) (b : BitVec 5)
  /-- MINU (R72). -/
  | minu (h : Head) (d : BitVec 5) (a : BitVec 5) (b : BitVec 5)
  /-- MAXU (R72). -/
  | maxu (h : Head) (d : BitVec 5) (a : BitVec 5) (b : BitVec 5)
  /-- MUL (R72). -/
  | mul (h : Head) (d : BitVec 5) (a : BitVec 5) (b : BitVec 5)
  /-- MULH (R72). -/
  | mulh (h : Head) (d : BitVec 5) (a : BitVec 5) (b : BitVec 5)
  /-- MULHU (R72). -/
  | mulhu (h : Head) (d : BitVec 5) (a : BitVec 5) (b : BitVec 5)
  /-- DIV (R72). -/
  | div (h : Head) (d : BitVec 5) (a : BitVec 5) (b : BitVec 5)
  /-- DIVU (R72). -/
  | divu (h : Head) (d : BitVec 5) (a : BitVec 5) (b : BitVec 5)
  /-- REM (R72). -/
  | rem (h : Head) (d : BitVec 5) (a : BitVec 5) (b : BitVec 5)
  /-- REMU (R72). -/
  | remu (h : Head) (d : BitVec 5) (a : BitVec 5) (b : BitVec 5)
  /-- CLZ (R72). -/
  | clz (h : Head) (d : BitVec 5) (a : BitVec 5)
  /-- CTZ (R72). -/
  | ctz (h : Head) (d : BitVec 5) (a : BitVec 5)
  /-- POPC (R72). -/
  | popc (h : Head) (d : BitVec 5) (a : BitVec 5)
  /-- ANDN (R72). -/
  | andn (h : Head) (d : BitVec 5) (a : BitVec 5) (b : BitVec 5)
  /-- ORN (R72). -/
  | orn (h : Head) (d : BitVec 5) (a : BitVec 5) (b : BitVec 5)
  /-- ADDI (R73). -/
  | addi (h : Head) (d : BitVec 5) (a : BitVec 5) (i : BitVec 11)
  /-- ANDI (R73). -/
  | andi (h : Head) (d : BitVec 5) (a : BitVec 5) (i : BitVec 11)
  /-- ORI (R73). -/
  | ori (h : Head) (d : BitVec 5) (a : BitVec 5) (i : BitVec 11)
  /-- XORI (R73). -/
  | xori (h : Head) (d : BitVec 5) (a : BitVec 5) (i : BitVec 11)
  /-- SLLI (R73). -/
  | slli (h : Head) (d : BitVec 5) (a : BitVec 5) (n : BitVec 6)
  /-- SRLI (R73). -/
  | srli (h : Head) (d : BitVec 5) (a : BitVec 5) (n : BitVec 6)
  /-- SRAI (R73). -/
  | srai (h : Head) (d : BitVec 5) (a : BitVec 5) (n : BitVec 6)
  /-- LI (R74). -/
  | li (h : Head) (d : BitVec 5) (u : BitVec 16)
  /-- LI16 (R74). -/
  | li16 (h : Head) (d : BitVec 5) (u : BitVec 16)
  /-- LI32 (R74). -/
  | li32 (h : Head) (d : BitVec 5) (u : BitVec 16)
  /-- LI48 (R74). -/
  | li48 (h : Head) (d : BitVec 5) (u : BitVec 16)
  /-- CMP_EQ (R75). -/
  | cmpEq (h : Head) (d : BitVec 3) (a : BitVec 5) (b : BitVec 5)
  /-- CMP_NE (R75). -/
  | cmpNe (h : Head) (d : BitVec 3) (a : BitVec 5) (b : BitVec 5)
  /-- CMP_LT (R75). -/
  | cmpLt (h : Head) (d : BitVec 3) (a : BitVec 5) (b : BitVec 5)
  /-- CMP_LE (R75). -/
  | cmpLe (h : Head) (d : BitVec 3) (a : BitVec 5) (b : BitVec 5)
  /-- CMP_LTU (R75). -/
  | cmpLtu (h : Head) (d : BitVec 3) (a : BitVec 5) (b : BitVec 5)
  /-- CMP_LEU (R75). -/
  | cmpLeu (h : Head) (d : BitVec 3) (a : BitVec 5) (b : BitVec 5)
  /-- PAND (R75). -/
  | pand (h : Head) (d : BitVec 3) (a : BitVec 3) (b : BitVec 3)
  /-- POR (R75). -/
  | por (h : Head) (d : BitVec 3) (a : BitVec 3) (b : BitVec 3)
  /-- PXOR (R75). -/
  | pxor (h : Head) (d : BitVec 3) (a : BitVec 3) (b : BitVec 3)
  /-- PANDN (R75). -/
  | pandn (h : Head) (d : BitVec 3) (a : BitVec 3) (b : BitVec 3)
  /-- CMPI_EQ (R75). -/
  | cmpiEq (h : Head) (d : BitVec 3) (a : BitVec 5) (i : BitVec 8)
  /-- CMPI_NE (R75). -/
  | cmpiNe (h : Head) (d : BitVec 3) (a : BitVec 5) (i : BitVec 8)
  /-- CMPI_LT (R75). -/
  | cmpiLt (h : Head) (d : BitVec 3) (a : BitVec 5) (i : BitVec 8)
  /-- CMPI_GE (R75). -/
  | cmpiGe (h : Head) (d : BitVec 3) (a : BitVec 5) (i : BitVec 8)
  /-- CMPI_LTU (R75). -/
  | cmpiLtu (h : Head) (d : BitVec 3) (a : BitVec 5) (i : BitVec 8)
  /-- CMPI_GEU (R75). -/
  | cmpiGeu (h : Head) (d : BitVec 3) (a : BitVec 5) (i : BitVec 8)
  /-- SEL (R76). -/
  | sel (h : Head) (d : BitVec 5) (a : BitVec 5) (b : BitVec 5) (p : BitVec 3)
  /-- ADDSH (R76). -/
  | addsh (h : Head) (d : BitVec 5) (a : BitVec 5) (b : BitVec 5) (n : BitVec 6)
  /-- BR (R86). -/
  | br (h : Head) (o : BitVec 16)
  /-- CALL (R86). -/
  | call (h : Head) (a : BitVec 5) (o : BitVec 16)
  /-- JR (R86). -/
  | jr (h : Head) (a : BitVec 5)
  /-- LOOP (R87). -/
  | loop (h : Head) (a : BitVec 5) (o : BitVec 16)
  /-- CRD (R88). -/
  | crd (h : Head) (d : BitVec 5) (n : BitVec 11)
  /-- CWR (R88). -/
  | cwr (h : Head) (a : BitVec 5) (n : BitVec 11)
  /-- FENCE_CORE (R89). -/
  | fenceCore (h : Head)
  /-- FENCE_CLUSTER (R89). -/
  | fenceCluster (h : Head)
  /-- FENCE_DIE (R89). -/
  | fenceDie (h : Head)
  /-- FENCE_PKG (R89). -/
  | fencePkg (h : Head)
  /-- FENCE_SYS (R89). -/
  | fenceSys (h : Head)
  /-- DONE (R91). -/
  | done (h : Head)
  /-- SUSPEND (R92). -/
  | suspend (h : Head) (k : BitVec 5)
  /-- POST (R93). -/
  | post (h : Head) (d : BitVec 5) (a : BitVec 5) (k : BitVec 5)
  /-- TRAP (R95). -/
  | trap (h : Head) (k : BitVec 11)
  /-- TRET (R96). -/
  | tret (h : Head)
  /-- LD (R77). -/
  | ld (h : Head) (d : BitVec 5) (a : BitVec 5) (f : LdForm) (o : BitVec 8)
  /-- LD_ACQ (R78). -/
  | ldAcq (h : Head) (d : BitVec 5) (a : BitVec 5) (f : MemSize) (o : BitVec 8)
  /-- ST (R80). -/
  | st (h : Head) (d : BitVec 5) (a : BitVec 5) (f : MemSize) (o : BitVec 8)
  /-- ST_REL (R80). -/
  | stRel (h : Head) (d : BitVec 5) (a : BitVec 5) (f : MemSize) (o : BitVec 8)
  /-- LSALN (R79). -/
  | lsaln (h : Head)
  /-- AMO_ADD (R81). -/
  | amoAdd (h : Head) (d : BitVec 5) (a : BitVec 5) (b : BitVec 5) (z : AmoSize)
  /-- AMO_AND (R81). -/
  | amoAnd (h : Head) (d : BitVec 5) (a : BitVec 5) (b : BitVec 5) (z : AmoSize)
  /-- AMO_OR (R81). -/
  | amoOr (h : Head) (d : BitVec 5) (a : BitVec 5) (b : BitVec 5) (z : AmoSize)
  /-- AMO_XOR (R81). -/
  | amoXor (h : Head) (d : BitVec 5) (a : BitVec 5) (b : BitVec 5) (z : AmoSize)
  /-- AMO_MIN (R81). -/
  | amoMin (h : Head) (d : BitVec 5) (a : BitVec 5) (b : BitVec 5) (z : AmoSize)
  /-- AMO_MAX (R81). -/
  | amoMax (h : Head) (d : BitVec 5) (a : BitVec 5) (b : BitVec 5) (z : AmoSize)
  /-- AMO_MINU (R81). -/
  | amoMinu (h : Head) (d : BitVec 5) (a : BitVec 5) (b : BitVec 5) (z : AmoSize)
  /-- AMO_MAXU (R81). -/
  | amoMaxu (h : Head) (d : BitVec 5) (a : BitVec 5) (b : BitVec 5) (z : AmoSize)
  /-- AMO_SWAP (R81). -/
  | amoSwap (h : Head) (d : BitVec 5) (a : BitVec 5) (b : BitVec 5) (z : AmoSize)
  /-- AMO_CAS (R81). -/
  | amoCas (h : Head) (d : BitVec 5) (a : BitVec 5) (b : BitVec 5) (z : AmoSize)
  /-- QST (R83). -/
  | qst (h : Head) (d : BitVec 5) (a : BitVec 5) (b : BitVec 5) (t : Bool) (o : Bool) (z : MemSize)
  /-- MWAIT_NE (R85). -/
  | mwaitNe (h : Head) (d : BitVec 5) (a : BitVec 5) (b : BitVec 5)
  /-- MWAIT_EQ (R85). -/
  | mwaitEq (h : Head) (d : BitVec 5) (a : BitVec 5) (b : BitVec 5)
  /-- VADD (R102). -/
  | vadd (h : Head) (m : BitVec 3) (d : BitVec 5) (a : BitVec 5) (b : BitVec 5) (t : ElemTy)
  /-- VSUB (R102). -/
  | vsub (h : Head) (m : BitVec 3) (d : BitVec 5) (a : BitVec 5) (b : BitVec 5) (t : ElemTy)
  /-- VMUL (R102). -/
  | vmul (h : Head) (m : BitVec 3) (d : BitVec 5) (a : BitVec 5) (b : BitVec 5) (t : ElemTy)
  /-- VFMA (R102). -/
  | vfma (h : Head) (m : BitVec 3) (d : BitVec 5) (a : BitVec 5) (b : BitVec 5) (t : ElemTy)
  /-- VMIN (R102). -/
  | vmin (h : Head) (m : BitVec 3) (d : BitVec 5) (a : BitVec 5) (b : BitVec 5) (t : ElemTy)
  /-- VMAX (R102). -/
  | vmax (h : Head) (m : BitVec 3) (d : BitVec 5) (a : BitVec 5) (b : BitVec 5) (t : ElemTy)
  /-- VDIV (R103). -/
  | vdiv (h : Head) (m : BitVec 3) (d : BitVec 5) (a : BitVec 5) (b : BitVec 5)
  /-- VSQRT (R103). -/
  | vsqrt (h : Head) (m : BitVec 3) (d : BitVec 5) (a : BitVec 5)
  /-- VEXP2 (R103). -/
  | vexp2 (h : Head) (m : BitVec 3) (d : BitVec 5) (a : BitVec 5)
  /-- VABS (R103). -/
  | vabs (h : Head) (m : BitVec 3) (d : BitVec 5) (a : BitVec 5) (t : ElemTy)
  /-- VNEG (R103). -/
  | vneg (h : Head) (m : BitVec 3) (d : BitVec 5) (a : BitVec 5) (t : ElemTy)
  /-- VADDS (R104). -/
  | vadds (h : Head) (m : BitVec 3) (d : BitVec 5) (a : BitVec 5) (b : BitVec 5) (t : ElemTy)
  /-- VSUBS (R104). -/
  | vsubs (h : Head) (m : BitVec 3) (d : BitVec 5) (a : BitVec 5) (b : BitVec 5) (t : ElemTy)
  /-- VAND (R126). -/
  | vand (h : Head) (m : BitVec 3) (d : BitVec 5) (a : BitVec 5) (b : BitVec 5)
  /-- VOR (R126). -/
  | vor (h : Head) (m : BitVec 3) (d : BitVec 5) (a : BitVec 5) (b : BitVec 5)
  /-- VXOR (R126). -/
  | vxor (h : Head) (m : BitVec 3) (d : BitVec 5) (a : BitVec 5) (b : BitVec 5)
  /-- VANDN (R126). -/
  | vandn (h : Head) (m : BitVec 3) (d : BitVec 5) (a : BitVec 5) (b : BitVec 5)
  /-- VSLL (R126). -/
  | vsll (h : Head) (m : BitVec 3) (d : BitVec 5) (a : BitVec 5) (b : BitVec 5)
  /-- VSRL (R126). -/
  | vsrl (h : Head) (m : BitVec 3) (d : BitVec 5) (a : BitVec 5) (b : BitVec 5)
  /-- VSRA (R126). -/
  | vsra (h : Head) (m : BitVec 3) (d : BitVec 5) (a : BitVec 5) (b : BitVec 5)
  /-- VSLLI (R126). -/
  | vslli (h : Head) (m : BitVec 3) (d : BitVec 5) (a : BitVec 5) (n : BitVec 5)
  /-- VSRLI (R126). -/
  | vsrli (h : Head) (m : BitVec 3) (d : BitVec 5) (a : BitVec 5) (n : BitVec 5)
  /-- VSRAI (R126). -/
  | vsrai (h : Head) (m : BitVec 3) (d : BitVec 5) (a : BitVec 5) (n : BitVec 5)
  /-- VCLMUL_LO (R127). -/
  | vclmulLo (h : Head) (m : BitVec 3) (d : BitVec 5) (a : BitVec 5) (b : BitVec 5)
  /-- VCLMUL_HI (R127). -/
  | vclmulHi (h : Head) (m : BitVec 3) (d : BitVec 5) (a : BitVec 5) (b : BitVec 5)
  /-- VPOPC_32 (R128). -/
  | vpopc32 (h : Head) (m : BitVec 3) (d : BitVec 5) (a : BitVec 5) (b : BitVec 5)
  /-- VPOPC_64 (R128). -/
  | vpopc64 (h : Head) (m : BitVec 3) (d : BitVec 5) (a : BitVec 5) (b : BitVec 5)
  /-- VCMP_EQ (R124). -/
  | vcmpEq (h : Head) (m : BitVec 3) (d : BitVec 3) (a : BitVec 5) (b : BitVec 5) (t : ElemTy)
  /-- VCMP_LT (R124). -/
  | vcmpLt (h : Head) (m : BitVec 3) (d : BitVec 3) (a : BitVec 5) (b : BitVec 5) (t : ElemTy)
  /-- VCMP_LE (R124). -/
  | vcmpLe (h : Head) (m : BitVec 3) (d : BitVec 3) (a : BitVec 5) (b : BitVec 5) (t : ElemTy)
  /-- VCMP_LTU (R124). -/
  | vcmpLtu (h : Head) (m : BitVec 3) (d : BitVec 3) (a : BitVec 5) (b : BitVec 5) (t : ElemTy)
  /-- MAND (R125). -/
  | mand (h : Head) (m : BitVec 3) (d : BitVec 3) (a : BitVec 3) (b : BitVec 3)
  /-- MOR (R125). -/
  | mor (h : Head) (m : BitVec 3) (d : BitVec 3) (a : BitVec 3) (b : BitVec 3)
  /-- MXOR (R125). -/
  | mxor (h : Head) (m : BitVec 3) (d : BitVec 3) (a : BitVec 3) (b : BitVec 3)
  /-- MANDN (R125). -/
  | mandn (h : Head) (m : BitVec 3) (d : BitVec 3) (a : BitVec 3) (b : BitVec 3)
  /-- MNOT (R125). -/
  | mnot (h : Head) (m : BitVec 3) (d : BitVec 3) (a : BitVec 3)
  /-- MCNT (R125). -/
  | mcnt (h : Head) (m : BitVec 3) (d : BitVec 5) (a : BitVec 3)
  /-- MFIRST (R125). -/
  | mfirst (h : Head) (m : BitVec 3) (d : BitVec 5) (a : BitVec 3)
  /-- VPERM_32 (R105). -/
  | vperm32 (h : Head) (m : BitVec 3) (d : BitVec 5) (a : BitVec 5) (b : BitVec 5)
  /-- VSLIDEUP_32 (R105). -/
  | vslideup32 (h : Head) (m : BitVec 3) (d : BitVec 5) (a : BitVec 5) (b : BitVec 5)
  /-- VSLIDEDN_32 (R105). -/
  | vslidedn32 (h : Head) (m : BitVec 3) (d : BitVec 5) (a : BitVec 5) (b : BitVec 5)
  /-- VBCAST_32 (R105). -/
  | vbcast32 (h : Head) (m : BitVec 3) (d : BitVec 5) (a : BitVec 5)
  /-- VCOMPRESS_32 (R129). -/
  | vcompress32 (h : Head) (m : BitVec 3) (d : BitVec 5) (a : BitVec 5)
  /-- VEXPAND_32 (R129). -/
  | vexpand32 (h : Head) (m : BitVec 3) (d : BitVec 5) (a : BitVec 5)
  /-- VMOV_32 (R105). -/
  | vmov32 (h : Head) (m : BitVec 3) (d : BitVec 5) (a : BitVec 5)
  /-- VPERM_8 (R105). -/
  | vperm8 (h : Head) (m : BitVec 3) (d : BitVec 5) (a : BitVec 5) (b : BitVec 5)
  /-- VSLIDEUP_8 (R105). -/
  | vslideup8 (h : Head) (m : BitVec 3) (d : BitVec 5) (a : BitVec 5) (b : BitVec 5)
  /-- VSLIDEDN_8 (R105). -/
  | vslidedn8 (h : Head) (m : BitVec 3) (d : BitVec 5) (a : BitVec 5) (b : BitVec 5)
  /-- VBCAST_8 (R105). -/
  | vbcast8 (h : Head) (m : BitVec 3) (d : BitVec 5) (a : BitVec 5)
  /-- VCOMPRESS_8 (R129). -/
  | vcompress8 (h : Head) (m : BitVec 3) (d : BitVec 5) (a : BitVec 5)
  /-- VEXPAND_8 (R129). -/
  | vexpand8 (h : Head) (m : BitVec 3) (d : BitVec 5) (a : BitVec 5)
  /-- VMOV_8 (R105). -/
  | vmov8 (h : Head) (m : BitVec 3) (d : BitVec 5) (a : BitVec 5)
  /-- VRSUM (R107). -/
  | vrsum (h : Head) (m : BitVec 3) (d : BitVec 5) (a : BitVec 5) (t : ElemTy)
  /-- VRMAX (R107). -/
  | vrmax (h : Head) (m : BitVec 3) (d : BitVec 5) (a : BitVec 5) (t : ElemTy)
  /-- VRMIN (R107). -/
  | vrmin (h : Head) (m : BitVec 3) (d : BitVec 5) (a : BitVec 5) (t : ElemTy)
  /-- VSCAN (R108). -/
  | vscan (h : Head) (m : BitVec 3) (d : BitVec 5) (a : BitVec 5) (t : ElemTy)
  /-- VCVT (R110). -/
  | vcvt (h : Head) (m : BitVec 3) (d : BitVec 5) (a : BitVec 5) (cv : Conv) (r : RMode)
  /-- VQREC (R113). -/
  | vqrec (h : Head) (t : BitVec 3) (a : BitVec 3) (b : BitVec 5) (f : QFmt)
  /-- VLD (R117). -/
  | vld (h : Head) (m : BitVec 3) (d : BitVec 5) (a : BitVec 5) (b : BitVec 5)
  /-- VLDS (R118). -/
  | vlds (h : Head) (m : BitVec 3) (d : BitVec 5) (a : BitVec 5) (b : BitVec 5)
  /-- VGATHER (R118). -/
  | vgather (h : Head) (m : BitVec 3) (d : BitVec 5) (a : BitVec 5) (b : BitVec 5)
  /-- VLDQ (R122). -/
  | vldq (h : Head) (m : BitVec 3) (d : BitVec 5) (q : BitVec 2)
  /-- VST (R117). -/
  | vst (h : Head) (m : BitVec 3) (d : BitVec 5) (a : BitVec 5) (b : BitVec 5)
  /-- VSTS (R118). -/
  | vsts (h : Head) (m : BitVec 3) (d : BitVec 5) (a : BitVec 5) (b : BitVec 5)
  /-- VSCATTER (R118). -/
  | vscatter (h : Head) (m : BitVec 3) (d : BitVec 5) (a : BitVec 5) (b : BitVec 5)
  /-- VSTQ (R122). -/
  | vstq (h : Head) (m : BitVec 3) (d : BitVec 5) (q : BitVec 2)
  /-- VBIND (R121). -/
  | vbind (h : Head) (d : BitVec 2) (a : BitVec 5)
  /-- VUNBIND (R121). -/
  | vunbind (h : Head) (d : BitVec 2)
  /-- VAMO_ADD_F32 (R130). -/
  | vamoAddF32 (h : Head) (m : BitVec 3) (d : BitVec 5) (a : BitVec 5)
  /-- VAMO_ADD_BF16 (R130). -/
  | vamoAddBf16 (h : Head) (m : BitVec 3) (d : BitVec 5) (a : BitVec 5)
  /-- VQST (R131). -/
  | vqst (h : Head) (m : BitVec 3) (d : BitVec 5) (a : BitVec 5) (b : BitVec 5) (t : Bool) (o : Bool)
  /-- MMA_DESC (R185). -/
  | mmaDesc (h : Head) (d : BitVec 4) (a : BitVec 4) (b : BitVec 4) (k : MmaTy)
  /-- MMA_REG (R185). -/
  | mmaReg (h : Head) (d : BitVec 4) (a : BitVec 3) (b : BitVec 3) (k : MmaTy)
  /-- MMA_RMT (R183). -/
  | mmaRmt (h : Head) (d : BitVec 4) (a : BitVec 4) (b : BitVec 4) (k : MmaTy)
  /-- MLD_F32 (R189). -/
  | mldF32 (h : Head) (d : BitVec 4) (a : BitVec 5)
  /-- MLD_RAW (R189). -/
  | mldRaw (h : Head) (d : BitVec 4) (a : BitVec 5)
  /-- MST_F32 (R189). -/
  | mstF32 (h : Head) (d : BitVec 5) (a : BitVec 4)
  /-- MST_RAW (R189). -/
  | mstRaw (h : Head) (d : BitVec 5) (a : BitVec 4)
  /-- MZERO (R190). -/
  | mzero (h : Head) (d : BitVec 4)
  /-- MSMAX (R193). -/
  | msmax (h : Head) (d : BitVec 3)
  /-- MREAD (R191). -/
  | mread (h : Head) (d : BitVec 5) (a : BitVec 4) (b : BitVec 2)
  /-- MWRITE (R191). -/
  | mwrite (h : Head) (d : BitVec 4) (a : BitVec 5) (b : BitVec 2)
  /-- MQNT (R194). -/
  | mqnt (h : Head) (d : BitVec 4) (a : BitVec 5) (k : QFmt) (t : BitVec 3)
  /-- CPY2D (R164). -/
  | cpy2d (h : Head) (d : BitVec 5) (a : BitVec 5) (b : BitVec 5)
  /-- CPY2D_CVT_RELAY (R165). -/
  | cpy2dCvtRelay (h : Head) (d : BitVec 5) (a : BitVec 5) (b : BitVec 5)
  /-- CPY2D_CVT_QNT (R165). -/
  | cpy2dCvtQnt (h : Head) (d : BitVec 5) (a : BitVec 5) (b : BitVec 5)
  /-- CPY2D_CVT_ZEXP (R165). -/
  | cpy2dCvtZexp (h : Head) (d : BitVec 5) (a : BitVec 5) (b : BitVec 5)
  /-- CPY2D_RED_ADD_F32 (R165). -/
  | cpy2dRedAddF32 (h : Head) (d : BitVec 5) (a : BitVec 5) (b : BitVec 5)
  /-- CPY2D_RED_ADD_BF16 (R165). -/
  | cpy2dRedAddBf16 (h : Head) (d : BitVec 5) (a : BitVec 5) (b : BitVec 5)
  /-- CPY2D_RED_MAX_F32 (R165). -/
  | cpy2dRedMaxF32 (h : Head) (d : BitVec 5) (a : BitVec 5) (b : BitVec 5)
  /-- CPY2D_RED_MIN_F32 (R165). -/
  | cpy2dRedMinF32 (h : Head) (d : BitVec 5) (a : BitVec 5) (b : BitVec 5)
  /-- CPY2D_STAMP (R165). -/
  | cpy2dStamp (h : Head) (d : BitVec 5) (a : BitVec 5) (b : BitVec 5)
  /-- CPYCAN (R166). -/
  | cpycan (h : Head) (a : BitVec 5)
  /-- NEST_LD (R171). -/
  | nestLd (h : Head) (a : BitVec 5)
  /-- NEST_GO (R172). -/
  | nestGo (h : Head)
  /-- NEST_WAIT (R172). -/
  | nestWait (h : Head)
  /-- BINIT (R167). -/
  | binit (h : Head) (a : BitVec 5) (b : BitVec 5)
  /-- BEXP (R167). -/
  | bexp (h : Head) (a : BitVec 5) (b : BitVec 5)
  /-- BARRV (R167). -/
  | barrv (h : Head) (a : BitVec 5) (b : BitVec 5)
  /-- BWAIT (R167). -/
  | bwait (h : Head) (a : BitVec 5) (b : BitVec 5)
  /-- BTEST (R167). -/
  | btest (h : Head) (d : BitVec 3) (a : BitVec 5) (b : BitVec 5)
  /-- KROT_INSTALL (R332). -/
  | krotInstall (h : Head) (d : BitVec 5) (a : BitVec 5) (b : BitVec 5)
  /-- KROT_QUERY (R332). -/
  | krotQuery (h : Head) (d : BitVec 5) (a : BitVec 5) (b : BitVec 5)
  /-- KROT_RETIRE (R332). -/
  | krotRetire (h : Head) (d : BitVec 5) (a : BitVec 5) (b : BitVec 5)
  /-- KROT_DESTROY (R332). -/
  | krotDestroy (h : Head) (d : BitVec 5) (a : BitVec 5) (b : BitVec 5)
  /-- SEAL (R348). -/
  | sealChunks (h : Head) (d : BitVec 5) (a : BitVec 5) (b : BitVec 5)
  /-- UNSEAL (R348). -/
  | unsealChunks (h : Head) (d : BitVec 5) (a : BitVec 5) (b : BitVec 5)
  /-- SCRUB_REGIONS (R350). -/
  | scrubRegions (h : Head) (d : BitVec 5) (a : BitVec 5) (b : BitVec 5)
  /-- SCRUB_CLUSTER (R350). -/
  | scrubCluster (h : Head) (d : BitVec 5) (a : BitVec 5) (b : BitVec 5)
  /-- SCRUB_CORE (R350). -/
  | scrubCore (h : Head) (d : BitVec 5) (a : BitVec 5) (b : BitVec 5)
  /-- CAPDRV (R345). -/
  | capdrv (h : Head) (d : BitVec 5) (a : BitVec 5) (b : BitVec 4)
  /-- CAPCHK (R345). -/
  | capchk (h : Head) (d : BitVec 3) (a : BitVec 5) (b : BitVec 4)
  /-- CAPLD (R345). -/
  | capld (h : Head) (d : BitVec 4) (a : BitVec 5) (n : BitVec 5)
  /-- CAPST (R345). -/
  | capst (h : Head) (d : BitVec 5) (a : BitVec 5)
  /-- SIGCHK (R388). -/
  | sigchk (h : Head) (d : BitVec 5) (a : BitVec 5)
  /-- MEXT (R389). -/
  | mext (h : Head) (d : BitVec 5) (a : BitVec 5) (b : BitVec 5)
  /-- SLOTSW_QUERY (R390). -/
  | slotswQuery (h : Head) (d : BitVec 5) (a : BitVec 5) (b : BitVec 5)
  /-- SLOTSW_QUIESCE (R390). -/
  | slotswQuiesce (h : Head) (d : BitVec 5) (a : BitVec 5) (b : BitVec 5)
  /-- SLOTSW_SWITCH (R390). -/
  | slotswSwitch (h : Head) (d : BitVec 5) (a : BitVec 5) (b : BitVec 5)
  /-- SLOTSW_BEAT (R390). -/
  | slotswBeat (h : Head) (d : BitVec 5) (a : BitVec 5) (b : BitVec 5)
  /-- SLOTSW_RESUME (R390). -/
  | slotswResume (h : Head) (d : BitVec 5) (a : BitVec 5) (b : BitVec 5)
  /-- WNOP (R236). -/
  | wnop (units : BitVec 2)
  /-- WBUF (R220). -/
  | wbuf (fixed : Bool) (depth : BitVec 3) (buf : BitVec 12) (size : BitVec 64) (base : BitVec 128)
  /-- WFREE (R221). -/
  | wfree (buf : BitVec 12)
  /-- WTASK (R224). -/
  | wtask (r : WTaskRec)
  /-- WCALL (R226). -/
  | wcall (bufForm : Bool) (buf : BitVec 12) (length : BitVec 32) (target : BitVec 64)
  /-- WPRED (R227). -/
  | wpred (cond : WCond) (buf : BitVec 12) (skip : BitVec 32) (offset value mask : BitVec 64)
  /-- WLOOP (R228). -/
  | wloop (count endoff : BitVec 32)
  /-- WFENCE_T (R230). -/
  | wfenceT (buf : BitVec 12) (offset : BitVec 64)
  /-- WWAIT (R231). -/
  | wwait (cond : WCond) (buf : BitVec 12) (limit : BitVec 32) (offset value mask : BitVec 64)
  /-- WWAIT_REREAD (R231). -/
  | wwaitReread (part : Fin 16)
  /-- WWAIT_LIMIT (R231). -/
  | wwaitLimit (part : Fin 16)
  /-- WSIGNAL_ST (R232). -/
  | wsignalSt (irq : Bool) (buf : BitVec 12) (vector : BitVec 8) (offset value : BitVec 64)
  /-- WSIGNAL_ADD (R232). -/
  | wsignalAdd (irq : Bool) (buf : BitVec 12) (vector : BitVec 8) (offset value : BitVec 64)
  /-- WSIGNAL_EFFECT (R232). -/
  | wsignalEffect (part : Fin 16)
  /-- WGRAPH (R273). -/
  | wgraph (pre : Bool) (buf : BitVec 12) (offset : BitVec 64)
  /-- WPHASE (R234). -/
  | wphase (job : Bool) (id : BitVec 16)
  /-- WCANCEL_LAUNCH (R235). -/
  | wcancelLaunch (tag : BitVec 16)
  /-- WCANCEL_GRAPH (R235). -/
  | wcancelGraph (id : BitVec 16)
  /-- WCANCEL_PHASE (R235). -/
  | wcancelPhase (id : BitVec 16)
  /-- WCANCEL_JOB (R235). -/
  | wcancelJob (id : BitVec 16)
  /-- WHALT (R236). -/
  | whalt (code : BitVec 16)
  /-- TOPIARY_LIT (R381). -/
  | topiaryLit (k : BitVec 8)
  /-- TOPIARY_LDQ (R382). -/
  | topiaryLdq (f : BitVec 8)
  /-- TOPIARY_LDL (R381). -/
  | topiaryLdl (n : BitVec 8)
  /-- TOPIARY_STL (R381). -/
  | topiaryStl (n : BitVec 8)
  /-- TOPIARY_JZ (R381). -/
  | topiaryJz (d : BitVec 8)
  /-- TOPIARY_JMP (R381). -/
  | topiaryJmp (d : BitVec 8)
  /-- TOPIARY_FORQ (R381). -/
  | topiaryForq (n : BitVec 8)
  /-- MWAIT_REREAD (R85). -/
  | mwaitReread (core : Fin 512) (fw : Bool)
  /-- STREAM_READ (R122). -/
  | streamRead (core : Fin 512) (fw : Bool)
  /-- MMA_TILE_FETCH (R184). -/
  | mmaTileFetch (core : Fin 512) (fw : Bool)
  /-- MMA_ACCUMULATE (R149). -/
  | mmaAccumulate (core : Fin 512) (fw : Bool)
  /-- COPY_BOX (R160). -/
  | copyBox (core : Fin 512) (slot : Fin 256)
  /-- COPY_STAMP (R165). -/
  | copyStamp (core : Fin 512) (slot : Fin 256)
  /-- NEST_EMIT (R172). -/
  | nestEmit (core : Fin 512) (fw : Bool)
  /-- FW_FAULT (R372). -/
  | fwFault (core : Fin 512) (cause : Cause)
  /-- HAND_UNIT (R252). -/
  | handUnit (part : Fin 16)
  /-- RESUME_RECORD (R16). -/
  | resumeRecord (core : Fin 512)
  /-- SHARD_WATCH (R259). -/
  | shardWatch (cluster : Fin 64) (idx : Fin 1024)
  /-- OVERFLOW_REFILL (R260). -/
  | overflowRefill (cluster : Fin 64)
  /-- TAKE_TRAP (R316). -/
  | takeTrap (core : Fin 512)
  /-- DEFERRED_FAULT (R70). -/
  | deferredFault (core : Fin 512) (fw : Bool)
  /-- TOKEN_EXPIRE (R84). -/
  | tokenExpire (core : Fin 512)
  /-- WATCHDOG (R320). -/
  | watchdog (core : Fin 512)
  /-- LOAD_RETURN (R77). -/
  | loadReturn (core : Fin 512) (fw : Bool)
  /-- STORE_PERFORM (R80). -/
  | storePerform (core : Fin 512) (fw : Bool)
  /-- BANK_REQUEST (R207). -/
  | bankRequest (cluster : Fin 64) (bank : Fin 64)
  /-- ATOMIC_ENGINE_REQUEST (R210). -/
  | atomicEngineRequest (cluster : Fin 64)
  /-- LEASE_LOOKUP (R309). -/
  | leaseLookup (core : Fin 512) (fw : Bool)
  /-- TRANSLATE (R303). -/
  | translate (core : Fin 512) (fw : Bool)
  /-- COUNTER_WRITE (R335). -/
  | counterWrite (core : Fin 512) (fw : Bool)
  /-- NODE_WRITEBACK (R341). -/
  | nodeWriteback (die : Fin 4) (level : Fin 9) (node : BitVec 25)
  /-- MEM_SWEEP (R335). -/
  | memSweep (part : Fin 16)
  /-- KEY_DRAINED (R331). -/
  | keyDrained (slot : Fin 64)
  /-- RAMP_WINDOW (R265). -/
  | rampWindow (core : Fin 512)
  /-- INVAL (R307). -/
  | inval (die : Fin 4)
  /-- INVAL_ALL (R307). -/
  | invalAll (die : Fin 4)
  /-- EVICT (R311). -/
  | evict (die : Fin 4)
  /-- EVICT_COMPLETE (R311). -/
  | evictComplete (die : Fin 4)
  /-- MIGRATE (R312). -/
  | migrate (die : Fin 4)
  /-- MIGRATE_MOVE (R312). -/
  | migrateMove (die : Fin 4)
  /-- PRESENT (R307). -/
  | present (die : Fin 4)
  /-- REFUSE (R307). -/
  | refuse (die : Fin 4)
  /-- HALT_EFFECT (R236). -/
  | haltEffect (part : Fin 16)
  /-- STREAM_FAULT (R216). -/
  | streamFault (part : Fin 16)
  /-- FETCH_BLOCK (R297). -/
  | fetchBlock (part : Fin 16)
  /-- LEASE_GRANT (R246). -/
  | leaseGrant (part : Fin 16)
  /-- ISSUE_LAUNCH (R247). -/
  | issueLaunch (part : Fin 16)
  /-- RETIRE (R248). -/
  | retire (part : Fin 16)
  /-- FAULT_REPORT (R250). -/
  | faultReport (part : Fin 16)
  /-- CANCEL (R255). -/
  | cancel (part : Fin 16)
  /-- PICK (R291). -/
  | pick (part : Fin 16)
  /-- PICK_TIMEOUT (R377). -/
  | pickTimeout (part : Fin 16)
  /-- SLICE_EXPIRE (R378). -/
  | sliceExpire (part : Fin 16)
  /-- ENTRY_COMPLETE (R292). -/
  | entryComplete (part : Fin 16)
  /-- ENABLE (R285). -/
  | enable (part : Fin 16)
  /-- RESTART (R285). -/
  | restart (part : Fin 16)
  /-- SKIP (R285). -/
  | skip (part : Fin 16)
  /-- DROP (R285). -/
  | drop (part : Fin 16)
  /-- STOP (R285). -/
  | stop (part : Fin 16)
  /-- CLRERR (R284). -/
  | clrerr (part : Fin 16)
  /-- QTAIL_WRITE (R288). -/
  | qtailWrite (part : Fin 16) (queue : Fin 4) (tail : BitVec 32)
  /-- JOBCAN (R295). -/
  | jobcan (part : Fin 16) (value : BitVec 64)
  /-- REG_WRITE (R281). -/
  | regWrite (vf : Option (Fin 16)) (offset : BitVec 16) (wide : Bool) (value : BitVec 64)
  /-- VF_FLR (R296). -/
  | vfFlr (part : Fin 16)
  /-- BAR2_READ (R294). -/
  | bar2Read (part : Fin 16) (offset : BitVec 34) (size : MemSize)
  /-- BAR2_WRITE (R294). -/
  | bar2Write (part : Fin 16) (offset : BitVec 34) (size : MemSize) (value : BitVec 64)
  /-- PICKQ (R377). -/
  | pickq (part : Fin 16)
  /-- ABANDON (R376). -/
  | abandon (part : Fin 16)
  /-- SAVE (R326). -/
  | save (part : Fin 16)
  /-- SAVE_WRITE (R326). -/
  | saveWrite (core : Fin 512)
  /-- RESTORE (R327). -/
  | restore (part : Fin 16)
  /-- RD (R365). -/
  | rd (m : Msg)
  /-- RDRSP (R365). -/
  | rdrsp (m : Msg)
  /-- WR (R365). -/
  | wr (m : Msg)
  /-- WRACK (R365). -/
  | wrack (m : Msg)
  /-- QST_MESSAGE (R364). -/
  | qstMessage (m : Msg)
  /-- LAND (R364). -/
  | land (m : Msg)
  /-- REL (R364). -/
  | rel (m : Msg)
  /-- AMO_MESSAGE (R365). -/
  | amoMessage (m : Msg)
  /-- AMORSP (R365). -/
  | amorsp (m : Msg)
  /-- VAMO_MESSAGE (R365). -/
  | vamoMessage (m : Msg)
  /-- RED (R365). -/
  | red (m : Msg)
  /-- TILE (R365). -/
  | tile (m : Msg)
  /-- TILERSP (R365). -/
  | tilersp (m : Msg)
  /-- HOLDFULL (R364). -/
  | holdfull (m : Msg)
  /-- ERR (R357). -/
  | err (m : Msg)
  /-- HOLD_EXPIRE (R364). -/
  | holdExpire (entry : Fin 1024)
  /-- ESCAPE_ROUTE (R358). -/
  | escapeRoute (idx : Fin 256)
  /-- FLIT_RECEIVE (R360). -/
  | flitReceive (link : Fin 6) (flit : Flit)
  /-- POOL_STOP_GO (R361). -/
  | poolStopGo (link : Fin 6) (pool : Fin 33)
  /-- LINK_TRAIN (R361). -/
  | linkTrain (link : Fin 6) (k : BitVec 8)
  /-- HFCFG_WRITE (R356): register 0 is HFCFG, 1 + p FDMAPp, 0x1000 + n SWPORTn. -/
  | hfcfgWrite (reg : BitVec 13) (value : BitVec 64)
  /-- GET_TDISP_VERSION (R351). -/
  | getTdispVersion (part : Fin 16)
  /-- GET_TDISP_CAPABILITIES (R351). -/
  | getTdispCapabilities (part : Fin 16)
  /-- LOCK_INTERFACE_REQUEST (R351). -/
  | lockInterfaceRequest (part : Fin 16)
  /-- GET_DEVICE_INTERFACE_REPORT (R351). -/
  | getDeviceInterfaceReport (part : Fin 16)
  /-- GET_DEVICE_INTERFACE_STATE (R351). -/
  | getDeviceInterfaceState (part : Fin 16)
  /-- START_INTERFACE_REQUEST (R351). -/
  | startInterfaceRequest (part : Fin 16)
  /-- STOP_INTERFACE_REQUEST (R351). -/
  | stopInterfaceRequest (part : Fin 16)
  /-- SET_SEAL_SECRET (R351). -/
  | setSealSecret (part : Fin 16) (secret : BitVec 512)
  /-- TDI_ERROR (R351). -/
  | tdiError (part : Fin 16)
  /-- GET_CERTIFICATE (R352). -/
  | getCertificate (offset length : BitVec 16)
  /-- CHALLENGE (R352). -/
  | challenge (nonce : BitVec 256)
  /-- GET_MEASUREMENTS (R353). -/
  | getMeasurements (index : BitVec 8) (nonce : BitVec 256)
  /-- KEY_EXCHANGE (R352). -/
  | keyExchange (peer : Option (BitVec 12)) (share : BitVec 768)
  /-- FINISH (R352). -/
  | finish (session : BitVec 16)
  /-- END_SESSION (R367). -/
  | endSession (session : BitVec 16)
  /-- UNCORRECTABLE_ERROR (R342). -/
  | uncorrectableError (die : Fin 4) (addr : BitVec 40) (site : ErrSite)
  /-- CORRECTABLE_ERROR (R408). -/
  | correctableError (cls : Fin 8)
  /-- ADMTAIL_WRITE (R394). -/
  | admtailWrite (tail : BitVec 32)
  /-- INTERVAL_CUT (R403). -/
  | intervalCut (part : Fin 16)
  /-- PWRCMD_WRITE (R404). -/
  | pwrcmdWrite (value : BitVec 64)
  /-- THERMCLR (R406). -/
  | thermclr (value : BitVec 64)
  /-- THERMAL_TRIP1 (R406). -/
  | thermalTrip1 (temp : BitVec 8)
  /-- THERMAL_TRIP2 (R406). -/
  | thermalTrip2 (temp : BitVec 8)
  /-- UPDREQ_WRITE (R392). -/
  | updreqWrite (value : BitVec 64)
  /-- PF_BAR2_WRITE (R392). -/
  | pfBar2Write (offset : BitVec 21) (size : MemSize) (value : BitVec 64)
  /-- LINK_DOWN (R355). -/
  | linkDown (link : Fin 6)
  /-- QUANT_BLOCK_WRITTEN (R115). -/
  | quantBlockWritten (core : Fin 512) (fw : Bool)
  /-- HEARTBEAT_MISSED (R386). -/
  | heartbeatMissed
  /-- WRET (R226). -/
  | wret
  /-- WEND (R228). -/
  | wend
  /-- WFENCE (R230). -/
  | wfence
  /-- TOPIARY_DUP (R381). -/
  | topiaryDup
  /-- TOPIARY_DROP (R381). -/
  | topiaryDrop
  /-- TOPIARY_SWAP (R381). -/
  | topiarySwap
  /-- TOPIARY_ADD (R381). -/
  | topiaryAdd
  /-- TOPIARY_SUB (R381). -/
  | topiarySub
  /-- TOPIARY_MUL (R381). -/
  | topiaryMul
  /-- TOPIARY_MIN (R381). -/
  | topiaryMin
  /-- TOPIARY_MAX (R381). -/
  | topiaryMax
  /-- TOPIARY_AND (R381). -/
  | topiaryAnd
  /-- TOPIARY_OR (R381). -/
  | topiaryOr
  /-- TOPIARY_LT (R381). -/
  | topiaryLt
  /-- TOPIARY_EQ (R381). -/
  | topiaryEq
  /-- TOPIARY_NEXTQ (R381). -/
  | topiaryNextq
  /-- TOPIARY_PICK (R381). -/
  | topiaryPick
  /-- TOPIARY_SLICE (R381). -/
  | topiarySlice
  /-- TOPIARY_RET (R381). -/
  | topiaryRet
  /-- GET_VERSION (R352). -/
  | getVersion
  /-- GET_CAPABILITIES (R352). -/
  | getCapabilities
  /-- NEGOTIATE_ALGORITHMS (R352). -/
  | negotiateAlgorithms
  /-- GET_DIGESTS (R352). -/
  | getDigests
  /-- CREATE (R396). -/
  | create
  /-- DESTROY (R398). -/
  | destroy
  /-- WIPE (R398). -/
  | wipe
  /-- METER (R403). -/
  | meter
  /-- PFID_READ (R393). -/
  | pfidRead
  /-- RESET (R399). -/
  | reset
  /-- REGINT_BOUNDARY (R401). -/
  | regintBoundary
deriving DecidableEq, Repr

end Sys2Proof
end

