-- ==== Sys2Proof/WellFormed.lean ====
section
/-! DEFINITION. Which terms of `Instr` an encoding can stand for: the checks of R53, R60 to R66, R379 and R214 that the
operand types do not make by themselves. -/

namespace Sys2Proof

/-- R17: the control registers that CRD and CWR can name. -/
def ctlListed (n : BitVec 11) : Bool :=
  let k := n.toNat
  k < 4 || k == 0x10 || k == 0x11 || k == 0x20 || (0x30 ≤ k && k < 0x38) || (0x40 ≤ k && k < 0x44) ||
    k == 0x50 || k == 0x51 || (0x100 ≤ k && k < 0x140)

/-- R63, R113: a companding table number of VQREC and MQNT: 0 to 4, and 0 for BF16. -/
def tableOk (f : QFmt) (t : BitVec 3) : Bool := t.toNat ≤ 4 && (f != .bf16 || t == 0)

/-- R222: how many slots a WTASK record of a length holds. -/
def slotsThatFit (units : BitVec 2) : Nat :=
  match units.toNat with
  | 0 => 0 | 1 => 3 | 2 => 6 | _ => 8

/-- R222: a slot with every bit zero. -/
def WSlot.zero : WSlot := ⟨0, 0, 0, 0⟩

/-- Whether an encoding of the spec stands for the term. -/
def WellFormed : Instr → Bool
  | .addsh _ _ _ _ n => n.toNat ≤ 6
  | .tret h => h.g == 0
  | .loop _ _ o => decide (0 < o.toInt)
  | .crd _ _ n => ctlListed n
  | .cwr _ _ n => ctlListed n
  | .suspend _ k => k.toNat ≤ 2
  | .post _ _ _ k => k.toNat ≤ 2
  | .vadds _ _ _ _ _ t => t.isInt
  | .vsubs _ _ _ _ _ t => t.isInt
  | .vcmpLtu _ _ _ _ _ t => t.isInt
  | .vcvt _ _ _ _ cv r => !cv.exact || r == .rne
  | .vqrec _ t _ _ f => tableOk f t
  | .mqnt _ _ _ k t => tableOk k t
  | .mmaDesc _ _ a b _ => a != 0 && b != 0
  | .mmaRmt _ _ a b _ => a != 0 && b != 0
  | .mmaReg _ _ _ _ k => k != .recd
  | .capdrv _ _ _ b => b != 0
  | .capchk _ _ _ b => b != 0
  | .capld _ d _ _ => d != 0
  | .topiaryJz d => d != 0
  | .topiaryJmp d => d != 0
  | .wtask r => (List.finRange 8).all fun k => decide (k.val < slotsThatFit r.units) || r.slots[k] == WSlot.zero
  | .wcall b buf _ _ => b || buf == 0
  | .wsignalSt i _ v _ _ => i || v == 0
  | .wsignalAdd i _ v _ _ => i || v == 0
  | .rd m => m.kind == 0x01
  | .rdrsp m => m.kind == 0x02
  | .wr m => m.kind == 0x03
  | .wrack m => m.kind == 0x04
  | .qstMessage m => m.kind == 0x05
  | .land m => m.kind == 0x06
  | .rel m => m.kind == 0x07
  | .amoMessage m => m.kind == 0x08
  | .amorsp m => m.kind == 0x09
  | .vamoMessage m => m.kind == 0x0A
  | .red m => m.kind == 0x0B
  | .tile m => m.kind == 0x0C
  | .tilersp m => m.kind == 0x0D
  | .holdfull m => m.kind == 0x0E
  | .err m => m.kind == 0x0F
  | _ => true

end Sys2Proof
end

