-- ==== Sys2Proof/Decode.lean ====
section
/-! DEFINITION. Decoding: tile words (R51 to R66), Topiary operations (R381) and stream records (R213 to R237), each total
and refusing what the spec gives no meaning; and the encoder written from the same tables. The words that KROT, SCRUB and
SLOTSW share among their rows decode to the first of them; the request register tells them apart (Machine/Issue.lean). -/

namespace Sys2Proof

/-! ### Fields and codes -/

/-- Field of `n` bits from bit `lo`. -/
def fld (w : BitVec 32) (lo n : Nat) : BitVec n := w.extractLsb' lo n

/-- The code of ElemTy in 3 bits. -/
def elemTyCode : ElemTy → BitVec 3
  | .f32 => 0
  | .bf16 => 1
  | .f16 => 2
  | .i32 => 3
  | .i16 => 4
  | .i8 => 5

/-- ElemTy from its code. -/
def elemTy? (x : BitVec 3) : Option ElemTy :=
  match x.toNat with
  | 0 => some .f32
  | 1 => some .bf16
  | 2 => some .f16
  | 3 => some .i32
  | 4 => some .i16
  | 5 => some .i8
  | _ => none

/-- The code of QFmt in 3 bits. -/
def qFmtCode3 : QFmt → BitVec 3
  | .e4m3 => 0
  | .e5m2 => 1
  | .cb4 => 2
  | .int8 => 3
  | .bf16 => 4

/-- QFmt from its code. -/
def qFmt? (x : BitVec 3) : Option QFmt :=
  match x.toNat with
  | 0 => some .e4m3
  | 1 => some .e5m2
  | 2 => some .cb4
  | 3 => some .int8
  | 4 => some .bf16
  | _ => none

/-- The code of Conv in 5 bits. -/
def convCode : Conv → BitVec 5
  | .f32Bf16 => 0
  | .f32F16 => 1
  | .bf16F32 => 2
  | .f16F32 => 3
  | .f32I32 => 4
  | .i32F32 => 5
  | .f32E4m3 => 6
  | .f32E5m2 => 7
  | .e4m3F32 => 8
  | .e5m2F32 => 9
  | .f32Cb4 => 10
  | .cb4F32 => 11
  | .f32I8 => 12
  | .i8F32 => 13

/-- Conv from its code. -/
def conv? (x : BitVec 5) : Option Conv :=
  match x.toNat with
  | 0 => some .f32Bf16
  | 1 => some .f32F16
  | 2 => some .bf16F32
  | 3 => some .f16F32
  | 4 => some .f32I32
  | 5 => some .i32F32
  | 6 => some .f32E4m3
  | 7 => some .f32E5m2
  | 8 => some .e4m3F32
  | 9 => some .e5m2F32
  | 10 => some .f32Cb4
  | 11 => some .cb4F32
  | 12 => some .f32I8
  | 13 => some .i8F32
  | _ => none

/-- The code of RMode in 3 bits. -/
def rModeCode : RMode → BitVec 3
  | .rne => 0
  | .rtz => 1
  | .rup => 2
  | .rdn => 3

/-- RMode from its code. -/
def rmode? (x : BitVec 3) : Option RMode :=
  match x.toNat with
  | 0 => some .rne
  | 1 => some .rtz
  | 2 => some .rup
  | 3 => some .rdn
  | _ => none

/-- The code of MmaTy in 3 bits. -/
def mmaTyCode : MmaTy → BitVec 3
  | .recd => 0
  | .bf16 => 1
  | .f16 => 2
  | .e4m3 => 3
  | .e5m2 => 4
  | .int8 => 5
  | .cb4 => 6

/-- MmaTy from its code. -/
def mmaTy? (x : BitVec 3) : Option MmaTy :=
  match x.toNat with
  | 0 => some .recd
  | 1 => some .bf16
  | 2 => some .f16
  | 3 => some .e4m3
  | 4 => some .e5m2
  | 5 => some .int8
  | 6 => some .cb4
  | _ => none

/-- The code of LdForm in 3 bits. -/
def ldFormCode : LdForm → BitVec 3
  | .u8 => 0
  | .u16 => 1
  | .u32 => 2
  | .u64 => 3
  | .s8 => 4
  | .s16 => 5
  | .s32 => 6

/-- LdForm from its code. -/
def ldForm? (x : BitVec 3) : Option LdForm :=
  match x.toNat with
  | 0 => some .u8
  | 1 => some .u16
  | 2 => some .u32
  | 3 => some .u64
  | 4 => some .s8
  | 5 => some .s16
  | 6 => some .s32
  | _ => none

/-- The code of MemSize in 2 bits. -/
def memSizeCode : MemSize → BitVec 2
  | .b8 => 0
  | .b16 => 1
  | .b32 => 2
  | .b64 => 3

/-- MemSize from its code. -/
def memSize (x : BitVec 2) : MemSize :=
  match x.toNat with
  | 0 => .b8
  | 1 => .b16
  | 2 => .b32
  | _ => .b64

/-- The code of AmoSize in 2 bits. -/
def amoSizeCode : AmoSize → BitVec 2
  | .w32 => 2
  | .w64 => 3

/-- AmoSize from its code. -/
def amoSize? (x : BitVec 2) : Option AmoSize :=
  match x.toNat with
  | 2 => some .w32
  | 3 => some .w64
  | _ => none

/-- The code of WCond in 3 bits. -/
def wcondCode : WCond → BitVec 3
  | .eq => 0
  | .ne => 1
  | .ltu => 2
  | .geu => 3
  | .lt => 4
  | .ge => 5

/-- WCond from its code. -/
def wcond? (x : BitVec 3) : Option WCond :=
  match x.toNat with
  | 0 => some .eq
  | 1 => some .ne
  | 2 => some .ltu
  | 3 => some .geu
  | 4 => some .lt
  | 5 => some .ge
  | _ => none

/-! ### Tile words, by major opcode (R58) -/

/-- OP 0x00. -/
def decodeOp00 (h : Head) (w : BitVec 32) : Option Instr :=
  match (fld w 0 6).toNat with
  | 0 => some (.add h (fld w 16 5) (fld w 11 5) (fld w 6 5))
  | 1 => some (.sub h (fld w 16 5) (fld w 11 5) (fld w 6 5))
  | 2 => some (.and h (fld w 16 5) (fld w 11 5) (fld w 6 5))
  | 3 => some (.or h (fld w 16 5) (fld w 11 5) (fld w 6 5))
  | 4 => some (.xor h (fld w 16 5) (fld w 11 5) (fld w 6 5))
  | 5 => some (.sll h (fld w 16 5) (fld w 11 5) (fld w 6 5))
  | 6 => some (.srl h (fld w 16 5) (fld w 11 5) (fld w 6 5))
  | 7 => some (.sra h (fld w 16 5) (fld w 11 5) (fld w 6 5))
  | 8 => some (.min h (fld w 16 5) (fld w 11 5) (fld w 6 5))
  | 9 => some (.max h (fld w 16 5) (fld w 11 5) (fld w 6 5))
  | 10 => some (.minu h (fld w 16 5) (fld w 11 5) (fld w 6 5))
  | 11 => some (.maxu h (fld w 16 5) (fld w 11 5) (fld w 6 5))
  | 12 => some (.mul h (fld w 16 5) (fld w 11 5) (fld w 6 5))
  | 13 => some (.mulh h (fld w 16 5) (fld w 11 5) (fld w 6 5))
  | 14 => some (.mulhu h (fld w 16 5) (fld w 11 5) (fld w 6 5))
  | 15 => some (.div h (fld w 16 5) (fld w 11 5) (fld w 6 5))
  | 16 => some (.divu h (fld w 16 5) (fld w 11 5) (fld w 6 5))
  | 17 => some (.rem h (fld w 16 5) (fld w 11 5) (fld w 6 5))
  | 18 => some (.remu h (fld w 16 5) (fld w 11 5) (fld w 6 5))
  | 19 => if fld w 6 5 = 0 then some (.clz h (fld w 16 5) (fld w 11 5)) else none
  | 20 => if fld w 6 5 = 0 then some (.ctz h (fld w 16 5) (fld w 11 5)) else none
  | 21 => if fld w 6 5 = 0 then some (.popc h (fld w 16 5) (fld w 11 5)) else none
  | 22 => some (.andn h (fld w 16 5) (fld w 11 5) (fld w 6 5))
  | 23 => some (.orn h (fld w 16 5) (fld w 11 5) (fld w 6 5))
  | _ => none

/-- OP 0x01. -/
def decodeOp01 (h : Head) (w : BitVec 32) : Option Instr :=
  some (.addi h (fld w 16 5) (fld w 11 5) (fld w 0 11))

/-- OP 0x02. -/
def decodeOp02 (h : Head) (w : BitVec 32) : Option Instr :=
  some (.andi h (fld w 16 5) (fld w 11 5) (fld w 0 11))

/-- OP 0x03. -/
def decodeOp03 (h : Head) (w : BitVec 32) : Option Instr :=
  some (.ori h (fld w 16 5) (fld w 11 5) (fld w 0 11))

/-- OP 0x04. -/
def decodeOp04 (h : Head) (w : BitVec 32) : Option Instr :=
  some (.xori h (fld w 16 5) (fld w 11 5) (fld w 0 11))

/-- OP 0x05. -/
def decodeOp05 (h : Head) (w : BitVec 32) : Option Instr :=
  match (fld w 6 5).toNat with
  | 0 => some (.slli h (fld w 16 5) (fld w 11 5) (fld w 0 6))
  | 8 => some (.srli h (fld w 16 5) (fld w 11 5) (fld w 0 6))
  | 16 => some (.srai h (fld w 16 5) (fld w 11 5) (fld w 0 6))
  | _ => none

/-- OP 0x06. -/
def decodeOp06 (h : Head) (w : BitVec 32) : Option Instr :=
  some (.li h (fld w 16 5) (fld w 0 16))

/-- OP 0x07. -/
def decodeOp07 (h : Head) (w : BitVec 32) : Option Instr :=
  some (.li16 h (fld w 16 5) (fld w 0 16))

/-- OP 0x08. -/
def decodeOp08 (h : Head) (w : BitVec 32) : Option Instr :=
  some (.li32 h (fld w 16 5) (fld w 0 16))

/-- OP 0x09. -/
def decodeOp09 (h : Head) (w : BitVec 32) : Option Instr :=
  some (.li48 h (fld w 16 5) (fld w 0 16))

/-- OP 0x0A. -/
def decodeOp0A (h : Head) (w : BitVec 32) : Option Instr :=
  match (fld w 0 6).toNat with
  | 0 => if fld w 19 2 = 0 then some (.cmpEq h (fld w 16 3) (fld w 11 5) (fld w 6 5)) else none
  | 1 => if fld w 19 2 = 0 then some (.cmpNe h (fld w 16 3) (fld w 11 5) (fld w 6 5)) else none
  | 2 => if fld w 19 2 = 0 then some (.cmpLt h (fld w 16 3) (fld w 11 5) (fld w 6 5)) else none
  | 3 => if fld w 19 2 = 0 then some (.cmpLe h (fld w 16 3) (fld w 11 5) (fld w 6 5)) else none
  | 4 => if fld w 19 2 = 0 then some (.cmpLtu h (fld w 16 3) (fld w 11 5) (fld w 6 5)) else none
  | 5 => if fld w 19 2 = 0 then some (.cmpLeu h (fld w 16 3) (fld w 11 5) (fld w 6 5)) else none
  | 6 => if fld w 19 2 = 0 ∧ fld w 14 2 = 0 ∧ fld w 9 2 = 0 then some (.pand h (fld w 16 3) (fld w 11 3) (fld w 6 3)) else none
  | 7 => if fld w 19 2 = 0 ∧ fld w 14 2 = 0 ∧ fld w 9 2 = 0 then some (.por h (fld w 16 3) (fld w 11 3) (fld w 6 3)) else none
  | 8 => if fld w 19 2 = 0 ∧ fld w 14 2 = 0 ∧ fld w 9 2 = 0 then some (.pxor h (fld w 16 3) (fld w 11 3) (fld w 6 3)) else none
  | 9 => if fld w 19 2 = 0 ∧ fld w 14 2 = 0 ∧ fld w 9 2 = 0 then some (.pandn h (fld w 16 3) (fld w 11 3) (fld w 6 3)) else none
  | _ => none

/-- OP 0x0B. -/
def decodeOp0B (h : Head) (w : BitVec 32) : Option Instr :=
  match (fld w 8 3).toNat with
  | 0 => if fld w 19 2 = 0 then some (.cmpiEq h (fld w 16 3) (fld w 11 5) (fld w 0 8)) else none
  | 1 => if fld w 19 2 = 0 then some (.cmpiNe h (fld w 16 3) (fld w 11 5) (fld w 0 8)) else none
  | 2 => if fld w 19 2 = 0 then some (.cmpiLt h (fld w 16 3) (fld w 11 5) (fld w 0 8)) else none
  | 3 => if fld w 19 2 = 0 then some (.cmpiGe h (fld w 16 3) (fld w 11 5) (fld w 0 8)) else none
  | 4 => if fld w 19 2 = 0 then some (.cmpiLtu h (fld w 16 3) (fld w 11 5) (fld w 0 8)) else none
  | 5 => if fld w 19 2 = 0 then some (.cmpiGeu h (fld w 16 3) (fld w 11 5) (fld w 0 8)) else none
  | _ => none

/-- OP 0x0C. -/
def decodeOp0C (h : Head) (w : BitVec 32) : Option Instr :=
  if fld w 3 3 = 0 then some (.sel h (fld w 16 5) (fld w 11 5) (fld w 6 5) (fld w 0 3)) else none

/-- OP 0x0D. -/
def decodeOp0D (h : Head) (w : BitVec 32) : Option Instr :=
  some (.addsh h (fld w 16 5) (fld w 11 5) (fld w 6 5) (fld w 0 6))

/-- OP 0x10. -/
def decodeOp10 (h : Head) (w : BitVec 32) : Option Instr :=
  if fld w 16 5 = 0 then some (.br h (fld w 0 16)) else none

/-- OP 0x11. -/
def decodeOp11 (h : Head) (w : BitVec 32) : Option Instr :=
  some (.call h (fld w 16 5) (fld w 0 16))

/-- OP 0x12. -/
def decodeOp12 (h : Head) (w : BitVec 32) : Option Instr :=
  if fld w 16 5 = 0 ∧ fld w 0 11 = 0 then some (.jr h (fld w 11 5)) else none

/-- OP 0x13. -/
def decodeOp13 (h : Head) (w : BitVec 32) : Option Instr :=
  some (.loop h (fld w 16 5) (fld w 0 16))

/-- OP 0x18. -/
def decodeOp18 (h : Head) (w : BitVec 32) : Option Instr :=
  if fld w 11 5 = 0 then some (.crd h (fld w 16 5) (fld w 0 11)) else none

/-- OP 0x19. -/
def decodeOp19 (h : Head) (w : BitVec 32) : Option Instr :=
  if fld w 16 5 = 0 then some (.cwr h (fld w 11 5) (fld w 0 11)) else none

/-- OP 0x1A. -/
def decodeOp1A (h : Head) (w : BitVec 32) : Option Instr :=
  match (fld w 0 6).toNat with
  | 0 => if fld w 6 15 = 0 then some (.fenceCore h) else none
  | 1 => if fld w 6 15 = 0 then some (.fenceCluster h) else none
  | 2 => if fld w 6 15 = 0 then some (.fenceDie h) else none
  | 3 => if fld w 6 15 = 0 then some (.fencePkg h) else none
  | 4 => if fld w 6 15 = 0 then some (.fenceSys h) else none
  | _ => none

/-- OP 0x1B. -/
def decodeOp1B (h : Head) (w : BitVec 32) : Option Instr :=
  match (fld w 0 6).toNat with
  | 0 => if fld w 6 15 = 0 then some (.done h) else none
  | 1 => if fld w 11 10 = 0 then some (.suspend h (fld w 6 5)) else none
  | 2 => some (.post h (fld w 16 5) (fld w 11 5) (fld w 6 5))
  | _ => none

/-- OP 0x1C. -/
def decodeOp1C (h : Head) (w : BitVec 32) : Option Instr :=
  if fld w 11 10 = 0 then some (.trap h (fld w 0 11)) else none

/-- OP 0x1D: every field of TRET is 0, its guard too (R60). -/
def decodeOp1D (h : Head) (w : BitVec 32) : Option Instr :=
  if fld w 0 24 = 0 then some (.tret h) else none

/-- OP 0x30. -/
def decodeOp30 (h : Head) (w : BitVec 32) : Option Instr :=
  (ldForm? (fld w 8 3)).bind fun f => some (.ld h (fld w 16 5) (fld w 11 5) f (fld w 0 8))

/-- OP 0x31. -/
def decodeOp31 (h : Head) (w : BitVec 32) : Option Instr :=
  if fld w 10 1 = 0 then some (.ldAcq h (fld w 16 5) (fld w 11 5) (memSize (fld w 8 2)) (fld w 0 8)) else none

/-- OP 0x32. -/
def decodeOp32 (h : Head) (w : BitVec 32) : Option Instr :=
  if fld w 10 1 = 0 then some (.st h (fld w 16 5) (fld w 11 5) (memSize (fld w 8 2)) (fld w 0 8)) else none

/-- OP 0x33. -/
def decodeOp33 (h : Head) (w : BitVec 32) : Option Instr :=
  if fld w 10 1 = 0 then some (.stRel h (fld w 16 5) (fld w 11 5) (memSize (fld w 8 2)) (fld w 0 8)) else none

/-- OP 0x34. -/
def decodeOp34 (h : Head) (w : BitVec 32) : Option Instr :=
  if fld w 0 21 = 0 then some (.lsaln h) else none

/-- OP 0x35. -/
def decodeOp35 (h : Head) (w : BitVec 32) : Option Instr :=
  match (fld w 2 4).toNat with
  | 0 => (amoSize? (fld w 0 2)).bind fun z => some (.amoAdd h (fld w 16 5) (fld w 11 5) (fld w 6 5) z)
  | 1 => (amoSize? (fld w 0 2)).bind fun z => some (.amoAnd h (fld w 16 5) (fld w 11 5) (fld w 6 5) z)
  | 2 => (amoSize? (fld w 0 2)).bind fun z => some (.amoOr h (fld w 16 5) (fld w 11 5) (fld w 6 5) z)
  | 3 => (amoSize? (fld w 0 2)).bind fun z => some (.amoXor h (fld w 16 5) (fld w 11 5) (fld w 6 5) z)
  | 4 => (amoSize? (fld w 0 2)).bind fun z => some (.amoMin h (fld w 16 5) (fld w 11 5) (fld w 6 5) z)
  | 5 => (amoSize? (fld w 0 2)).bind fun z => some (.amoMax h (fld w 16 5) (fld w 11 5) (fld w 6 5) z)
  | 6 => (amoSize? (fld w 0 2)).bind fun z => some (.amoMinu h (fld w 16 5) (fld w 11 5) (fld w 6 5) z)
  | 7 => (amoSize? (fld w 0 2)).bind fun z => some (.amoMaxu h (fld w 16 5) (fld w 11 5) (fld w 6 5) z)
  | 8 => (amoSize? (fld w 0 2)).bind fun z => some (.amoSwap h (fld w 16 5) (fld w 11 5) (fld w 6 5) z)
  | 9 => (amoSize? (fld w 0 2)).bind fun z => some (.amoCas h (fld w 16 5) (fld w 11 5) (fld w 6 5) z)
  | _ => none

/-- OP 0x36. -/
def decodeOp36 (h : Head) (w : BitVec 32) : Option Instr :=
  if fld w 4 2 = 0 then some (.qst h (fld w 16 5) (fld w 11 5) (fld w 6 5) (fld w 3 1 == 1) (fld w 2 1 == 1) (memSize (fld w 0 2))) else none

/-- OP 0x37. -/
def decodeOp37 (h : Head) (w : BitVec 32) : Option Instr :=
  match (fld w 0 6).toNat with
  | 0 => some (.mwaitNe h (fld w 16 5) (fld w 11 5) (fld w 6 5))
  | 1 => some (.mwaitEq h (fld w 16 5) (fld w 11 5) (fld w 6 5))
  | _ => none

/-- OP 0x40. -/
def decodeOp40 (h : Head) (w : BitVec 32) : Option Instr :=
  (elemTy? (fld w 0 3)).bind fun t => some (.vadd h (fld w 18 3) (fld w 13 5) (fld w 8 5) (fld w 3 5) t)

/-- OP 0x41. -/
def decodeOp41 (h : Head) (w : BitVec 32) : Option Instr :=
  (elemTy? (fld w 0 3)).bind fun t => some (.vsub h (fld w 18 3) (fld w 13 5) (fld w 8 5) (fld w 3 5) t)

/-- OP 0x42. -/
def decodeOp42 (h : Head) (w : BitVec 32) : Option Instr :=
  (elemTy? (fld w 0 3)).bind fun t => some (.vmul h (fld w 18 3) (fld w 13 5) (fld w 8 5) (fld w 3 5) t)

/-- OP 0x43. -/
def decodeOp43 (h : Head) (w : BitVec 32) : Option Instr :=
  (elemTy? (fld w 0 3)).bind fun t => some (.vfma h (fld w 18 3) (fld w 13 5) (fld w 8 5) (fld w 3 5) t)

/-- OP 0x44. -/
def decodeOp44 (h : Head) (w : BitVec 32) : Option Instr :=
  (elemTy? (fld w 0 3)).bind fun t => some (.vmin h (fld w 18 3) (fld w 13 5) (fld w 8 5) (fld w 3 5) t)

/-- OP 0x45. -/
def decodeOp45 (h : Head) (w : BitVec 32) : Option Instr :=
  (elemTy? (fld w 0 3)).bind fun t => some (.vmax h (fld w 18 3) (fld w 13 5) (fld w 8 5) (fld w 3 5) t)

/-- OP 0x46. -/
def decodeOp46 (h : Head) (w : BitVec 32) : Option Instr :=
  if fld w 0 3 = 0 then some (.vdiv h (fld w 18 3) (fld w 13 5) (fld w 8 5) (fld w 3 5)) else none

/-- OP 0x47. -/
def decodeOp47 (h : Head) (w : BitVec 32) : Option Instr :=
  match (fld w 3 5).toNat with
  | 0 => if fld w 0 3 = 0 then some (.vsqrt h (fld w 18 3) (fld w 13 5) (fld w 8 5)) else none
  | 1 => if fld w 0 3 = 0 then some (.vexp2 h (fld w 18 3) (fld w 13 5) (fld w 8 5)) else none
  | 2 => (elemTy? (fld w 0 3)).bind fun t => some (.vabs h (fld w 18 3) (fld w 13 5) (fld w 8 5) t)
  | 3 => (elemTy? (fld w 0 3)).bind fun t => some (.vneg h (fld w 18 3) (fld w 13 5) (fld w 8 5) t)
  | _ => none

/-- OP 0x48. -/
def decodeOp48 (h : Head) (w : BitVec 32) : Option Instr :=
  (elemTy? (fld w 0 3)).bind fun t => some (.vadds h (fld w 18 3) (fld w 13 5) (fld w 8 5) (fld w 3 5) t)

/-- OP 0x49. -/
def decodeOp49 (h : Head) (w : BitVec 32) : Option Instr :=
  (elemTy? (fld w 0 3)).bind fun t => some (.vsubs h (fld w 18 3) (fld w 13 5) (fld w 8 5) (fld w 3 5) t)

/-- OP 0x4A. -/
def decodeOp4A (h : Head) (w : BitVec 32) : Option Instr :=
  match (fld w 0 3).toNat with
  | 0 => some (.vand h (fld w 18 3) (fld w 13 5) (fld w 8 5) (fld w 3 5))
  | 1 => some (.vor h (fld w 18 3) (fld w 13 5) (fld w 8 5) (fld w 3 5))
  | 2 => some (.vxor h (fld w 18 3) (fld w 13 5) (fld w 8 5) (fld w 3 5))
  | 3 => some (.vandn h (fld w 18 3) (fld w 13 5) (fld w 8 5) (fld w 3 5))
  | _ => none

/-- OP 0x4B. -/
def decodeOp4B (h : Head) (w : BitVec 32) : Option Instr :=
  match (fld w 0 3).toNat with
  | 0 => some (.vsll h (fld w 18 3) (fld w 13 5) (fld w 8 5) (fld w 3 5))
  | 1 => some (.vsrl h (fld w 18 3) (fld w 13 5) (fld w 8 5) (fld w 3 5))
  | 2 => some (.vsra h (fld w 18 3) (fld w 13 5) (fld w 8 5) (fld w 3 5))
  | 3 => some (.vslli h (fld w 18 3) (fld w 13 5) (fld w 8 5) (fld w 3 5))
  | 4 => some (.vsrli h (fld w 18 3) (fld w 13 5) (fld w 8 5) (fld w 3 5))
  | 5 => some (.vsrai h (fld w 18 3) (fld w 13 5) (fld w 8 5) (fld w 3 5))
  | _ => none

/-- OP 0x4C. -/
def decodeOp4C (h : Head) (w : BitVec 32) : Option Instr :=
  match (fld w 0 3).toNat with
  | 0 => some (.vclmulLo h (fld w 18 3) (fld w 13 5) (fld w 8 5) (fld w 3 5))
  | 1 => some (.vclmulHi h (fld w 18 3) (fld w 13 5) (fld w 8 5) (fld w 3 5))
  | _ => none

/-- OP 0x4D. -/
def decodeOp4D (h : Head) (w : BitVec 32) : Option Instr :=
  match (fld w 0 3).toNat with
  | 0 => some (.vpopc32 h (fld w 18 3) (fld w 13 5) (fld w 8 5) (fld w 3 5))
  | 1 => some (.vpopc64 h (fld w 18 3) (fld w 13 5) (fld w 8 5) (fld w 3 5))
  | _ => none

/-- OP 0x4E. -/
def decodeOp4E (h : Head) (w : BitVec 32) : Option Instr :=
  if fld w 16 2 = 0 then (elemTy? (fld w 0 3)).bind fun t => some (.vcmpEq h (fld w 18 3) (fld w 13 3) (fld w 8 5) (fld w 3 5) t) else none

/-- OP 0x4F. -/
def decodeOp4F (h : Head) (w : BitVec 32) : Option Instr :=
  if fld w 16 2 = 0 then (elemTy? (fld w 0 3)).bind fun t => some (.vcmpLt h (fld w 18 3) (fld w 13 3) (fld w 8 5) (fld w 3 5) t) else none

/-- OP 0x50. -/
def decodeOp50 (h : Head) (w : BitVec 32) : Option Instr :=
  if fld w 16 2 = 0 then (elemTy? (fld w 0 3)).bind fun t => some (.vcmpLe h (fld w 18 3) (fld w 13 3) (fld w 8 5) (fld w 3 5) t) else none

/-- OP 0x51. -/
def decodeOp51 (h : Head) (w : BitVec 32) : Option Instr :=
  if fld w 16 2 = 0 then (elemTy? (fld w 0 3)).bind fun t => some (.vcmpLtu h (fld w 18 3) (fld w 13 3) (fld w 8 5) (fld w 3 5) t) else none

/-- OP 0x52. -/
def decodeOp52 (h : Head) (w : BitVec 32) : Option Instr :=
  match (fld w 0 3).toNat with
  | 0 => if fld w 16 2 = 0 ∧ fld w 11 2 = 0 ∧ fld w 6 2 = 0 then some (.mand h (fld w 18 3) (fld w 13 3) (fld w 8 3) (fld w 3 3)) else none
  | 1 => if fld w 16 2 = 0 ∧ fld w 11 2 = 0 ∧ fld w 6 2 = 0 then some (.mor h (fld w 18 3) (fld w 13 3) (fld w 8 3) (fld w 3 3)) else none
  | 2 => if fld w 16 2 = 0 ∧ fld w 11 2 = 0 ∧ fld w 6 2 = 0 then some (.mxor h (fld w 18 3) (fld w 13 3) (fld w 8 3) (fld w 3 3)) else none
  | 3 => if fld w 16 2 = 0 ∧ fld w 11 2 = 0 ∧ fld w 6 2 = 0 then some (.mandn h (fld w 18 3) (fld w 13 3) (fld w 8 3) (fld w 3 3)) else none
  | 4 => if fld w 16 2 = 0 ∧ fld w 11 2 = 0 ∧ fld w 3 5 = 0 then some (.mnot h (fld w 18 3) (fld w 13 3) (fld w 8 3)) else none
  | 5 => if fld w 11 2 = 0 ∧ fld w 3 5 = 0 then some (.mcnt h (fld w 18 3) (fld w 13 5) (fld w 8 3)) else none
  | 6 => if fld w 11 2 = 0 ∧ fld w 3 5 = 0 then some (.mfirst h (fld w 18 3) (fld w 13 5) (fld w 8 3)) else none
  | _ => none

/-- OP 0x53. -/
def decodeOp53 (h : Head) (w : BitVec 32) : Option Instr :=
  match (fld w 0 3).toNat with
  | 0 => some (.vperm32 h (fld w 18 3) (fld w 13 5) (fld w 8 5) (fld w 3 5))
  | 1 => some (.vslideup32 h (fld w 18 3) (fld w 13 5) (fld w 8 5) (fld w 3 5))
  | 2 => some (.vslidedn32 h (fld w 18 3) (fld w 13 5) (fld w 8 5) (fld w 3 5))
  | 3 => if fld w 3 5 = 0 then some (.vbcast32 h (fld w 18 3) (fld w 13 5) (fld w 8 5)) else none
  | 4 => if fld w 3 5 = 0 then some (.vcompress32 h (fld w 18 3) (fld w 13 5) (fld w 8 5)) else none
  | 5 => if fld w 3 5 = 0 then some (.vexpand32 h (fld w 18 3) (fld w 13 5) (fld w 8 5)) else none
  | 6 => if fld w 3 5 = 0 then some (.vmov32 h (fld w 18 3) (fld w 13 5) (fld w 8 5)) else none
  | _ => none

/-- OP 0x54. -/
def decodeOp54 (h : Head) (w : BitVec 32) : Option Instr :=
  match (fld w 0 3).toNat with
  | 0 => some (.vperm8 h (fld w 18 3) (fld w 13 5) (fld w 8 5) (fld w 3 5))
  | 1 => some (.vslideup8 h (fld w 18 3) (fld w 13 5) (fld w 8 5) (fld w 3 5))
  | 2 => some (.vslidedn8 h (fld w 18 3) (fld w 13 5) (fld w 8 5) (fld w 3 5))
  | 3 => if fld w 3 5 = 0 then some (.vbcast8 h (fld w 18 3) (fld w 13 5) (fld w 8 5)) else none
  | 4 => if fld w 3 5 = 0 then some (.vcompress8 h (fld w 18 3) (fld w 13 5) (fld w 8 5)) else none
  | 5 => if fld w 3 5 = 0 then some (.vexpand8 h (fld w 18 3) (fld w 13 5) (fld w 8 5)) else none
  | 6 => if fld w 3 5 = 0 then some (.vmov8 h (fld w 18 3) (fld w 13 5) (fld w 8 5)) else none
  | _ => none

/-- OP 0x55. -/
def decodeOp55 (h : Head) (w : BitVec 32) : Option Instr :=
  match (fld w 0 3).toNat with
  | 0 => if fld w 6 2 = 0 then (elemTy? (fld w 3 3)).bind fun t => some (.vrsum h (fld w 18 3) (fld w 13 5) (fld w 8 5) t) else none
  | 1 => if fld w 6 2 = 0 then (elemTy? (fld w 3 3)).bind fun t => some (.vrmax h (fld w 18 3) (fld w 13 5) (fld w 8 5) t) else none
  | 2 => if fld w 6 2 = 0 then (elemTy? (fld w 3 3)).bind fun t => some (.vrmin h (fld w 18 3) (fld w 13 5) (fld w 8 5) t) else none
  | 3 => if fld w 6 2 = 0 then (elemTy? (fld w 3 3)).bind fun t => some (.vscan h (fld w 18 3) (fld w 13 5) (fld w 8 5) t) else none
  | _ => none

/-- OP 0x56. -/
def decodeOp56 (h : Head) (w : BitVec 32) : Option Instr :=
  (conv? (fld w 3 5)).bind fun cv => (rmode? (fld w 0 3)).bind fun r => some (.vcvt h (fld w 18 3) (fld w 13 5) (fld w 8 5) cv r)

/-- OP 0x57. -/
def decodeOp57 (h : Head) (w : BitVec 32) : Option Instr :=
  if fld w 16 5 = 0 ∧ fld w 8 2 = 0 then (qFmt? (fld w 0 3)).bind fun f => some (.vqrec h (fld w 13 3) (fld w 10 3) (fld w 3 5) f) else none

/-- OP 0x58. -/
def decodeOp58 (h : Head) (w : BitVec 32) : Option Instr :=
  match (fld w 0 3).toNat with
  | 0 => some (.vld h (fld w 18 3) (fld w 13 5) (fld w 8 5) (fld w 3 5))
  | 1 => some (.vlds h (fld w 18 3) (fld w 13 5) (fld w 8 5) (fld w 3 5))
  | 2 => some (.vgather h (fld w 18 3) (fld w 13 5) (fld w 8 5) (fld w 3 5))
  | 3 => if fld w 5 8 = 0 then some (.vldq h (fld w 18 3) (fld w 13 5) (fld w 3 2)) else none
  | _ => none

/-- OP 0x59. -/
def decodeOp59 (h : Head) (w : BitVec 32) : Option Instr :=
  match (fld w 0 3).toNat with
  | 0 => some (.vst h (fld w 18 3) (fld w 13 5) (fld w 8 5) (fld w 3 5))
  | 1 => some (.vsts h (fld w 18 3) (fld w 13 5) (fld w 8 5) (fld w 3 5))
  | 2 => some (.vscatter h (fld w 18 3) (fld w 13 5) (fld w 8 5) (fld w 3 5))
  | 3 => if fld w 5 8 = 0 then some (.vstq h (fld w 18 3) (fld w 13 5) (fld w 3 2)) else none
  | _ => none

/-- OP 0x5A. -/
def decodeOp5A (h : Head) (w : BitVec 32) : Option Instr :=
  match (fld w 0 3).toNat with
  | 0 => if fld w 15 6 = 0 ∧ fld w 3 5 = 0 then some (.vbind h (fld w 13 2) (fld w 8 5)) else none
  | 1 => if fld w 15 6 = 0 ∧ fld w 3 10 = 0 then some (.vunbind h (fld w 13 2)) else none
  | _ => none

/-- OP 0x5B. -/
def decodeOp5B (h : Head) (w : BitVec 32) : Option Instr :=
  match (fld w 0 3).toNat with
  | 0 => if fld w 3 5 = 0 then some (.vamoAddF32 h (fld w 18 3) (fld w 13 5) (fld w 8 5)) else none
  | 1 => if fld w 3 5 = 0 then some (.vamoAddBf16 h (fld w 18 3) (fld w 13 5) (fld w 8 5)) else none
  | _ => none

/-- OP 0x5C. -/
def decodeOp5C (h : Head) (w : BitVec 32) : Option Instr :=
  if fld w 2 1 = 0 then some (.vqst h (fld w 18 3) (fld w 13 5) (fld w 8 5) (fld w 3 5) (fld w 1 1 == 1) (fld w 0 1 == 1)) else none

/-- OP 0x60. -/
def decodeOp60 (h : Head) (w : BitVec 32) : Option Instr :=
  match (fld w 0 3).toNat with
  | 0 => if fld w 20 1 = 0 ∧ fld w 11 1 = 0 ∧ fld w 6 1 = 0 then (mmaTy? (fld w 3 3)).bind fun k => some (.mmaDesc h (fld w 16 4) (fld w 12 4) (fld w 7 4) k) else none
  | 1 => if fld w 20 1 = 0 ∧ fld w 11 2 = 0 ∧ fld w 6 2 = 0 then (mmaTy? (fld w 3 3)).bind fun k => some (.mmaReg h (fld w 16 4) (fld w 13 3) (fld w 8 3) k) else none
  | 2 => if fld w 20 1 = 0 ∧ fld w 11 1 = 0 ∧ fld w 6 1 = 0 then (mmaTy? (fld w 3 3)).bind fun k => some (.mmaRmt h (fld w 16 4) (fld w 12 4) (fld w 7 4) k) else none
  | _ => none

/-- OP 0x61. -/
def decodeOp61 (h : Head) (w : BitVec 32) : Option Instr :=
  match (fld w 0 3).toNat with
  | 0 => if fld w 20 1 = 0 ∧ fld w 3 8 = 0 then some (.mldF32 h (fld w 16 4) (fld w 11 5)) else none
  | 1 => if fld w 20 1 = 0 ∧ fld w 3 8 = 0 then some (.mldRaw h (fld w 16 4) (fld w 11 5)) else none
  | _ => none

/-- OP 0x62. -/
def decodeOp62 (h : Head) (w : BitVec 32) : Option Instr :=
  match (fld w 0 3).toNat with
  | 0 => if fld w 15 1 = 0 ∧ fld w 3 8 = 0 then some (.mstF32 h (fld w 16 5) (fld w 11 4)) else none
  | 1 => if fld w 15 1 = 0 ∧ fld w 3 8 = 0 then some (.mstRaw h (fld w 16 5) (fld w 11 4)) else none
  | _ => none

/-- OP 0x63. -/
def decodeOp63 (h : Head) (w : BitVec 32) : Option Instr :=
  if fld w 20 1 = 0 ∧ fld w 0 16 = 0 then some (.mzero h (fld w 16 4)) else none

/-- OP 0x64. -/
def decodeOp64 (h : Head) (w : BitVec 32) : Option Instr :=
  if fld w 20 1 = 0 ∧ fld w 0 17 = 0 then some (.msmax h (fld w 17 3)) else none

/-- OP 0x65. -/
def decodeOp65 (h : Head) (w : BitVec 32) : Option Instr :=
  if fld w 15 1 = 0 ∧ fld w 8 3 = 0 ∧ fld w 0 6 = 0 then some (.mread h (fld w 16 5) (fld w 11 4) (fld w 6 2)) else none

/-- OP 0x66. -/
def decodeOp66 (h : Head) (w : BitVec 32) : Option Instr :=
  if fld w 20 1 = 0 ∧ fld w 8 3 = 0 ∧ fld w 0 6 = 0 then some (.mwrite h (fld w 16 4) (fld w 11 5) (fld w 6 2)) else none

/-- OP 0x67. -/
def decodeOp67 (h : Head) (w : BitVec 32) : Option Instr :=
  if fld w 20 1 = 0 ∧ fld w 6 5 = 0 then (qFmt? (fld w 3 3)).bind fun k => some (.mqnt h (fld w 16 4) (fld w 11 5) k (fld w 0 3)) else none

/-- OP 0x70. -/
def decodeOp70 (h : Head) (w : BitVec 32) : Option Instr :=
  match (fld w 0 6).toNat with
  | 0 => some (.cpy2d h (fld w 16 5) (fld w 11 5) (fld w 6 5))
  | 1 => some (.cpy2dCvtRelay h (fld w 16 5) (fld w 11 5) (fld w 6 5))
  | 2 => some (.cpy2dRedAddF32 h (fld w 16 5) (fld w 11 5) (fld w 6 5))
  | 3 => some (.cpy2dStamp h (fld w 16 5) (fld w 11 5) (fld w 6 5))
  | 9 => some (.cpy2dCvtQnt h (fld w 16 5) (fld w 11 5) (fld w 6 5))
  | 10 => some (.cpy2dRedAddBf16 h (fld w 16 5) (fld w 11 5) (fld w 6 5))
  | 17 => some (.cpy2dCvtZexp h (fld w 16 5) (fld w 11 5) (fld w 6 5))
  | 18 => some (.cpy2dRedMaxF32 h (fld w 16 5) (fld w 11 5) (fld w 6 5))
  | 26 => some (.cpy2dRedMinF32 h (fld w 16 5) (fld w 11 5) (fld w 6 5))
  | _ => none

/-- OP 0x71. -/
def decodeOp71 (h : Head) (w : BitVec 32) : Option Instr :=
  if fld w 16 5 = 0 ∧ fld w 0 11 = 0 then some (.cpycan h (fld w 11 5)) else none

/-- OP 0x72. -/
def decodeOp72 (h : Head) (w : BitVec 32) : Option Instr :=
  match (fld w 0 3).toNat with
  | 0 => if fld w 16 5 = 0 ∧ fld w 3 8 = 0 then some (.nestLd h (fld w 11 5)) else none
  | 1 => if fld w 3 18 = 0 then some (.nestGo h) else none
  | 2 => if fld w 3 18 = 0 then some (.nestWait h) else none
  | _ => none

/-- OP 0x73. -/
def decodeOp73 (h : Head) (w : BitVec 32) : Option Instr :=
  match (fld w 0 3).toNat with
  | 0 => if fld w 16 5 = 0 ∧ fld w 3 3 = 0 then some (.binit h (fld w 11 5) (fld w 6 5)) else none
  | 1 => if fld w 16 5 = 0 ∧ fld w 3 3 = 0 then some (.bexp h (fld w 11 5) (fld w 6 5)) else none
  | 2 => if fld w 16 5 = 0 ∧ fld w 3 3 = 0 then some (.barrv h (fld w 11 5) (fld w 6 5)) else none
  | 3 => if fld w 16 5 = 0 ∧ fld w 3 3 = 0 then some (.bwait h (fld w 11 5) (fld w 6 5)) else none
  | 4 => if fld w 19 2 = 0 ∧ fld w 3 3 = 0 then some (.btest h (fld w 16 3) (fld w 11 5) (fld w 6 5)) else none
  | _ => none

/-- OP 0x78. -/
def decodeOp78 (h : Head) (w : BitVec 32) : Option Instr :=
  if fld w 0 6 = 0 then some (.krotInstall h (fld w 16 5) (fld w 11 5) (fld w 6 5)) else none

/-- OP 0x79. -/
def decodeOp79 (h : Head) (w : BitVec 32) : Option Instr :=
  match (fld w 0 6).toNat with
  | 0 => some (.sealChunks h (fld w 16 5) (fld w 11 5) (fld w 6 5))
  | 1 => some (.unsealChunks h (fld w 16 5) (fld w 11 5) (fld w 6 5))
  | 2 => some (.scrubRegions h (fld w 16 5) (fld w 11 5) (fld w 6 5))
  | _ => none

/-- OP 0x7A. -/
def decodeOp7A (h : Head) (w : BitVec 32) : Option Instr :=
  match (fld w 0 6).toNat with
  | 0 => if fld w 6 1 = 0 then some (.capdrv h (fld w 16 5) (fld w 11 5) (fld w 7 4)) else none
  | 1 => if fld w 19 2 = 0 ∧ fld w 6 1 = 0 then some (.capchk h (fld w 16 3) (fld w 11 5) (fld w 7 4)) else none
  | 2 => if fld w 16 1 = 0 then some (.capld h (fld w 17 4) (fld w 11 5) (fld w 6 5)) else none
  | 3 => if fld w 6 5 = 0 then some (.capst h (fld w 16 5) (fld w 11 5)) else none
  | _ => none

/-- OP 0x7B. -/
def decodeOp7B (h : Head) (w : BitVec 32) : Option Instr :=
  if fld w 0 11 = 0 then some (.sigchk h (fld w 16 5) (fld w 11 5)) else none

/-- OP 0x7C. -/
def decodeOp7C (h : Head) (w : BitVec 32) : Option Instr :=
  if fld w 0 6 = 0 then some (.mext h (fld w 16 5) (fld w 11 5) (fld w 6 5)) else none

/-- OP 0x7D. -/
def decodeOp7D (h : Head) (w : BitVec 32) : Option Instr :=
  if fld w 0 6 = 0 then some (.slotswQuery h (fld w 16 5) (fld w 11 5) (fld w 6 5)) else none

/-- R51, R58: the fields of a tile word by its major opcode, before the operand checks. -/
def decodeRaw (w : BitVec 32) : Option Instr :=
  let h : Head := ⟨fld w 31 1 == 1, fld w 21 3⟩
  match (fld w 24 7).toNat with
  | 0x00 => decodeOp00 h w
  | 0x01 => decodeOp01 h w
  | 0x02 => decodeOp02 h w
  | 0x03 => decodeOp03 h w
  | 0x04 => decodeOp04 h w
  | 0x05 => decodeOp05 h w
  | 0x06 => decodeOp06 h w
  | 0x07 => decodeOp07 h w
  | 0x08 => decodeOp08 h w
  | 0x09 => decodeOp09 h w
  | 0x0A => decodeOp0A h w
  | 0x0B => decodeOp0B h w
  | 0x0C => decodeOp0C h w
  | 0x0D => decodeOp0D h w
  | 0x10 => decodeOp10 h w
  | 0x11 => decodeOp11 h w
  | 0x12 => decodeOp12 h w
  | 0x13 => decodeOp13 h w
  | 0x18 => decodeOp18 h w
  | 0x19 => decodeOp19 h w
  | 0x1A => decodeOp1A h w
  | 0x1B => decodeOp1B h w
  | 0x1C => decodeOp1C h w
  | 0x1D => decodeOp1D h w
  | 0x30 => decodeOp30 h w
  | 0x31 => decodeOp31 h w
  | 0x32 => decodeOp32 h w
  | 0x33 => decodeOp33 h w
  | 0x34 => decodeOp34 h w
  | 0x35 => decodeOp35 h w
  | 0x36 => decodeOp36 h w
  | 0x37 => decodeOp37 h w
  | 0x40 => decodeOp40 h w
  | 0x41 => decodeOp41 h w
  | 0x42 => decodeOp42 h w
  | 0x43 => decodeOp43 h w
  | 0x44 => decodeOp44 h w
  | 0x45 => decodeOp45 h w
  | 0x46 => decodeOp46 h w
  | 0x47 => decodeOp47 h w
  | 0x48 => decodeOp48 h w
  | 0x49 => decodeOp49 h w
  | 0x4A => decodeOp4A h w
  | 0x4B => decodeOp4B h w
  | 0x4C => decodeOp4C h w
  | 0x4D => decodeOp4D h w
  | 0x4E => decodeOp4E h w
  | 0x4F => decodeOp4F h w
  | 0x50 => decodeOp50 h w
  | 0x51 => decodeOp51 h w
  | 0x52 => decodeOp52 h w
  | 0x53 => decodeOp53 h w
  | 0x54 => decodeOp54 h w
  | 0x55 => decodeOp55 h w
  | 0x56 => decodeOp56 h w
  | 0x57 => decodeOp57 h w
  | 0x58 => decodeOp58 h w
  | 0x59 => decodeOp59 h w
  | 0x5A => decodeOp5A h w
  | 0x5B => decodeOp5B h w
  | 0x5C => decodeOp5C h w
  | 0x60 => decodeOp60 h w
  | 0x61 => decodeOp61 h w
  | 0x62 => decodeOp62 h w
  | 0x63 => decodeOp63 h w
  | 0x64 => decodeOp64 h w
  | 0x65 => decodeOp65 h w
  | 0x66 => decodeOp66 h w
  | 0x67 => decodeOp67 h w
  | 0x70 => decodeOp70 h w
  | 0x71 => decodeOp71 h w
  | 0x72 => decodeOp72 h w
  | 0x73 => decodeOp73 h w
  | 0x78 => decodeOp78 h w
  | 0x79 => decodeOp79 h w
  | 0x7A => decodeOp7A h w
  | 0x7B => decodeOp7B h w
  | 0x7C => decodeOp7C h w
  | 0x7D => decodeOp7D h w
  | _ => none

/-- R55 step 1: the tile word's instruction, or none for ILLEGAL_OP. (DEDUCED: log 9.) -/
def decodeWord (w : BitVec 32) : Option Instr :=
  match decodeRaw w with
  | some i => if WellFormed i then some i else none
  | none => none

/-! ### Topiary operations (R381) -/

/-- R379, R381: the operation of 16 bits: opcode in bits [15:8], operand in bits [7:0]. -/
def decodeTopiaryRaw (w : BitVec 16) : Option Instr :=
  let k : BitVec 8 := w.extractLsb' 0 8
  match (w.extractLsb' 8 8).toNat with
  | 0x01 => some (.topiaryLit k)
  | 0x02 => if k = 0 then some .topiaryDup else none
  | 0x03 => if k = 0 then some .topiaryDrop else none
  | 0x04 => if k = 0 then some .topiarySwap else none
  | 0x10 => some (.topiaryLdq k)
  | 0x11 => some (.topiaryLdl k)
  | 0x12 => some (.topiaryStl k)
  | 0x20 => if k = 0 then some .topiaryAdd else none
  | 0x21 => if k = 0 then some .topiarySub else none
  | 0x22 => if k = 0 then some .topiaryMul else none
  | 0x23 => if k = 0 then some .topiaryMin else none
  | 0x24 => if k = 0 then some .topiaryMax else none
  | 0x25 => if k = 0 then some .topiaryAnd else none
  | 0x26 => if k = 0 then some .topiaryOr else none
  | 0x27 => if k = 0 then some .topiaryLt else none
  | 0x28 => if k = 0 then some .topiaryEq else none
  | 0x30 => some (.topiaryJz k)
  | 0x31 => some (.topiaryJmp k)
  | 0x40 => some (.topiaryForq k)
  | 0x41 => if k = 0 then some .topiaryNextq else none
  | 0x50 => if k = 0 then some .topiaryPick else none
  | 0x51 => if k = 0 then some .topiarySlice else none
  | 0x52 => if k = 0 then some .topiaryRet else none
  | _ => none

/-- R379: a policy operation that passes the checks of one operation. -/
def decodeTopiary (w : BitVec 16) : Option Instr :=
  match decodeTopiaryRaw w with
  | some i => if WellFormed i then some i else none
  | none => none

/-! ### Stream records (R213 to R237) -/

/-- A field of a record as a bit vector: `n` bytes from offset `o`. -/
def recBits (bs : List Byte) (o n w : Nat) : BitVec w := BitVec.ofNat w (Machine.fieldAt bs o n)

/-- R222: slot k of a WTASK record. Its reserved bits must be zero. -/
def decodeSlot (bs : List Byte) (k : Nat) : Option WSlot :=
  let x := Machine.fieldAt bs (32 + 10 * k) 2
  if x / 2 ^ 14 = 0 then
    some ⟨BitVec.ofNat 2 (x / 2 ^ 12), BitVec.ofNat 12 x, recBits bs (34 + 10 * k) 4 32, recBits bs (38 + 10 * k) 4 32⟩
  else none

/-- R222: a slot of the record, or the zero slot where the record does not hold it. -/
def slotOf (bs : List Byte) (units : BitVec 2) (k : Nat) : WSlot :=
  if k < slotsThatFit units then (decodeSlot bs k).getD WSlot.zero else WSlot.zero

/-- R222: WTASK. The reserved bits, and the bytes after the last slot that fits, must be zero. -/
def decodeWTask (bs : List Byte) (units : BitVec 2) (flags opnd : Nat) : Option Instr :=
  let n := slotsThatFit units
  if flags % 4 = 0 ∧ Machine.fieldAt bs 16 4 / 2 ^ 18 = 0 ∧ Machine.fieldAt bs 24 2 / 2 ^ 12 = 0 ∧
      Machine.fieldAt bs (32 + 10 * n) (32 * units.toNat - 10 * n) = 0 ∧
      (List.range n).all (fun k => (decodeSlot bs k).isSome) then
    some (.wtask
      { units := units, pre := decide (flags / 8 % 2 = 1), loopIdx := decide (flags / 4 % 2 = 1)
        tag := BitVec.ofNat 16 opnd
        counts := Vector.ofFn fun i => recBits bs (4 + 2 * i.val) 2 16
        order := recBits bs 16 4 18, poff := recBits bs 20 4 32
        kbuf := recBits bs 24 2 12, koff := recBits bs 26 6 48
        slots := Vector.ofFn fun k => slotOf bs units k.val })
  else none

/-- R214: the record's instruction, or none where R214 or R237 makes it STREAM_ILLEGAL. `bs` holds the whole record. -/
def decodeStream (bs : List Byte) : Option Instr :=
  let w := Machine.fieldAt bs 0 4
  let wop := w / 2 ^ 24
  let units := BitVec.ofNat 2 (w / 2 ^ 20)
  let flags := w / 2 ^ 16 % 16
  let opnd := w % 2 ^ 16
  let buf : BitVec 12 := BitVec.ofNat 12 opnd
  let zero (o n : Nat) : Bool := Machine.fieldAt bs o n == 0
  let bufOk := decide (opnd < 2 ^ 12)
  if 16 ≤ w / 2 ^ 20 % 16 + 12 then none
  else if wop = 0x00 then (if flags = 0 ∧ opnd = 0 then some (.wnop units) else none)
  else if wop = 0x08 then decodeWTask bs units flags opnd
  else if units ≠ 0 then none
  else match wop with
  | 0x01 => if bufOk ∧ zero 4 4 then
      some (.wbuf (decide (flags / 8 = 1)) (BitVec.ofNat 3 flags) buf (recBits bs 8 8 64) (recBits bs 16 16 128)) else none
  | 0x02 => if flags = 0 ∧ bufOk ∧ zero 4 28 then some (.wfree buf) else none
  | 0x10 => if flags % 8 = 0 ∧ bufOk ∧ zero 16 16 ∧ (flags = 8 ∨ buf = 0) then
      some (.wcall (decide (flags = 8)) buf (recBits bs 4 4 32) (recBits bs 8 8 64)) else none
  | 0x11 => if flags = 0 ∧ opnd = 0 ∧ zero 4 28 then some .wret else none
  | 0x12 => if flags / 8 = 0 ∧ bufOk then (wcond? (BitVec.ofNat 3 flags)).bind fun c =>
      some (.wpred c buf (recBits bs 4 4 32) (recBits bs 8 8 64) (recBits bs 16 8 64) (recBits bs 24 8 64)) else none
  | 0x13 => if flags = 0 ∧ opnd = 0 ∧ zero 12 20 then some (.wloop (recBits bs 4 4 32) (recBits bs 8 4 32)) else none
  | 0x14 => if flags = 0 ∧ opnd = 0 ∧ zero 4 28 then some .wend else none
  | 0x18 =>
    if flags = 0 ∧ opnd = 0 ∧ zero 4 28 then some .wfence
    else if flags = 8 ∧ bufOk ∧ zero 4 4 ∧ zero 16 16 then some (.wfenceT buf (recBits bs 8 8 64)) else none
  | 0x19 => if flags / 8 = 0 ∧ bufOk then (wcond? (BitVec.ofNat 3 flags)).bind fun c =>
      some (.wwait c buf (recBits bs 4 4 32) (recBits bs 8 8 64) (recBits bs 16 8 64) (recBits bs 24 8 64)) else none
  | 0x1A =>
    let irq := decide (flags / 8 = 1)
    if bufOk ∧ zero 5 3 ∧ zero 24 8 ∧ (irq ∨ zero 4 1) then
      (if flags % 8 = 0 then some (.wsignalSt irq buf (recBits bs 4 1 8) (recBits bs 8 8 64) (recBits bs 16 8 64))
       else if flags % 8 = 1 then
         some (.wsignalAdd irq buf (recBits bs 4 1 8) (recBits bs 8 8 64) (recBits bs 16 8 64))
       else none)
    else none
  | 0x20 => if flags % 8 = 0 ∧ bufOk ∧ zero 4 4 ∧ zero 16 16 then
      some (.wgraph (decide (flags = 8)) buf (recBits bs 8 8 64)) else none
  | 0x21 => if flags % 8 = 0 ∧ zero 4 28 then some (.wphase (decide (flags = 8)) (BitVec.ofNat 16 opnd)) else none
  | 0x22 =>
    if zero 4 28 then
      match flags with
      | 0 => some (.wcancelLaunch (BitVec.ofNat 16 opnd))
      | 1 => some (.wcancelGraph (BitVec.ofNat 16 opnd))
      | 2 => some (.wcancelPhase (BitVec.ofNat 16 opnd))
      | 3 => some (.wcancelJob (BitVec.ofNat 16 opnd))
      | _ => none
    else none
  | 0x3F => if flags = 0 ∧ zero 4 28 then some (.whalt (BitVec.ofNat 16 opnd)) else none
  | _ => none

/-- R213: the length in bytes of the record whose first bytes are given. -/
def recordBytes (bs : List Byte) : Nat := 32 * (Machine.fieldAt bs 0 4 / 2 ^ 20 % 16 + 1)

/-! ### The encoder -/

/-- The word of a tile instruction, from the encoding tables (R52, R60 to R66). None for the other rows. -/
def encodeTile : Instr → Option (BitVec 32)
  | .add h d a b => some ((BitVec.ofBool h.c) ++ 0#7 ++ h.g ++ d ++ a ++ b ++ 0#6)
  | .sub h d a b => some ((BitVec.ofBool h.c) ++ 0#7 ++ h.g ++ d ++ a ++ b ++ 1#6)
  | .and h d a b => some ((BitVec.ofBool h.c) ++ 0#7 ++ h.g ++ d ++ a ++ b ++ 2#6)
  | .or h d a b => some ((BitVec.ofBool h.c) ++ 0#7 ++ h.g ++ d ++ a ++ b ++ 3#6)
  | .xor h d a b => some ((BitVec.ofBool h.c) ++ 0#7 ++ h.g ++ d ++ a ++ b ++ 4#6)
  | .sll h d a b => some ((BitVec.ofBool h.c) ++ 0#7 ++ h.g ++ d ++ a ++ b ++ 5#6)
  | .srl h d a b => some ((BitVec.ofBool h.c) ++ 0#7 ++ h.g ++ d ++ a ++ b ++ 6#6)
  | .sra h d a b => some ((BitVec.ofBool h.c) ++ 0#7 ++ h.g ++ d ++ a ++ b ++ 7#6)
  | .min h d a b => some ((BitVec.ofBool h.c) ++ 0#7 ++ h.g ++ d ++ a ++ b ++ 8#6)
  | .max h d a b => some ((BitVec.ofBool h.c) ++ 0#7 ++ h.g ++ d ++ a ++ b ++ 9#6)
  | .minu h d a b => some ((BitVec.ofBool h.c) ++ 0#7 ++ h.g ++ d ++ a ++ b ++ 10#6)
  | .maxu h d a b => some ((BitVec.ofBool h.c) ++ 0#7 ++ h.g ++ d ++ a ++ b ++ 11#6)
  | .mul h d a b => some ((BitVec.ofBool h.c) ++ 0#7 ++ h.g ++ d ++ a ++ b ++ 12#6)
  | .mulh h d a b => some ((BitVec.ofBool h.c) ++ 0#7 ++ h.g ++ d ++ a ++ b ++ 13#6)
  | .mulhu h d a b => some ((BitVec.ofBool h.c) ++ 0#7 ++ h.g ++ d ++ a ++ b ++ 14#6)
  | .div h d a b => some ((BitVec.ofBool h.c) ++ 0#7 ++ h.g ++ d ++ a ++ b ++ 15#6)
  | .divu h d a b => some ((BitVec.ofBool h.c) ++ 0#7 ++ h.g ++ d ++ a ++ b ++ 16#6)
  | .rem h d a b => some ((BitVec.ofBool h.c) ++ 0#7 ++ h.g ++ d ++ a ++ b ++ 17#6)
  | .remu h d a b => some ((BitVec.ofBool h.c) ++ 0#7 ++ h.g ++ d ++ a ++ b ++ 18#6)
  | .clz h d a => some ((BitVec.ofBool h.c) ++ 0#7 ++ h.g ++ d ++ a ++ 19#11)
  | .ctz h d a => some ((BitVec.ofBool h.c) ++ 0#7 ++ h.g ++ d ++ a ++ 20#11)
  | .popc h d a => some ((BitVec.ofBool h.c) ++ 0#7 ++ h.g ++ d ++ a ++ 21#11)
  | .andn h d a b => some ((BitVec.ofBool h.c) ++ 0#7 ++ h.g ++ d ++ a ++ b ++ 22#6)
  | .orn h d a b => some ((BitVec.ofBool h.c) ++ 0#7 ++ h.g ++ d ++ a ++ b ++ 23#6)
  | .addi h d a i => some ((BitVec.ofBool h.c) ++ 1#7 ++ h.g ++ d ++ a ++ i)
  | .andi h d a i => some ((BitVec.ofBool h.c) ++ 2#7 ++ h.g ++ d ++ a ++ i)
  | .ori h d a i => some ((BitVec.ofBool h.c) ++ 3#7 ++ h.g ++ d ++ a ++ i)
  | .xori h d a i => some ((BitVec.ofBool h.c) ++ 4#7 ++ h.g ++ d ++ a ++ i)
  | .slli h d a n => some ((BitVec.ofBool h.c) ++ 5#7 ++ h.g ++ d ++ a ++ 0#5 ++ n)
  | .srli h d a n => some ((BitVec.ofBool h.c) ++ 5#7 ++ h.g ++ d ++ a ++ 8#5 ++ n)
  | .srai h d a n => some ((BitVec.ofBool h.c) ++ 5#7 ++ h.g ++ d ++ a ++ 16#5 ++ n)
  | .li h d u => some ((BitVec.ofBool h.c) ++ 6#7 ++ h.g ++ d ++ u)
  | .li16 h d u => some ((BitVec.ofBool h.c) ++ 7#7 ++ h.g ++ d ++ u)
  | .li32 h d u => some ((BitVec.ofBool h.c) ++ 8#7 ++ h.g ++ d ++ u)
  | .li48 h d u => some ((BitVec.ofBool h.c) ++ 9#7 ++ h.g ++ d ++ u)
  | .cmpEq h d a b => some ((BitVec.ofBool h.c) ++ 10#7 ++ h.g ++ 0#2 ++ d ++ a ++ b ++ 0#6)
  | .cmpNe h d a b => some ((BitVec.ofBool h.c) ++ 10#7 ++ h.g ++ 0#2 ++ d ++ a ++ b ++ 1#6)
  | .cmpLt h d a b => some ((BitVec.ofBool h.c) ++ 10#7 ++ h.g ++ 0#2 ++ d ++ a ++ b ++ 2#6)
  | .cmpLe h d a b => some ((BitVec.ofBool h.c) ++ 10#7 ++ h.g ++ 0#2 ++ d ++ a ++ b ++ 3#6)
  | .cmpLtu h d a b => some ((BitVec.ofBool h.c) ++ 10#7 ++ h.g ++ 0#2 ++ d ++ a ++ b ++ 4#6)
  | .cmpLeu h d a b => some ((BitVec.ofBool h.c) ++ 10#7 ++ h.g ++ 0#2 ++ d ++ a ++ b ++ 5#6)
  | .pand h d a b => some ((BitVec.ofBool h.c) ++ 10#7 ++ h.g ++ 0#2 ++ d ++ 0#2 ++ a ++ 0#2 ++ b ++ 6#6)
  | .por h d a b => some ((BitVec.ofBool h.c) ++ 10#7 ++ h.g ++ 0#2 ++ d ++ 0#2 ++ a ++ 0#2 ++ b ++ 7#6)
  | .pxor h d a b => some ((BitVec.ofBool h.c) ++ 10#7 ++ h.g ++ 0#2 ++ d ++ 0#2 ++ a ++ 0#2 ++ b ++ 8#6)
  | .pandn h d a b => some ((BitVec.ofBool h.c) ++ 10#7 ++ h.g ++ 0#2 ++ d ++ 0#2 ++ a ++ 0#2 ++ b ++ 9#6)
  | .cmpiEq h d a i => some ((BitVec.ofBool h.c) ++ 11#7 ++ h.g ++ 0#2 ++ d ++ a ++ 0#3 ++ i)
  | .cmpiNe h d a i => some ((BitVec.ofBool h.c) ++ 11#7 ++ h.g ++ 0#2 ++ d ++ a ++ 1#3 ++ i)
  | .cmpiLt h d a i => some ((BitVec.ofBool h.c) ++ 11#7 ++ h.g ++ 0#2 ++ d ++ a ++ 2#3 ++ i)
  | .cmpiGe h d a i => some ((BitVec.ofBool h.c) ++ 11#7 ++ h.g ++ 0#2 ++ d ++ a ++ 3#3 ++ i)
  | .cmpiLtu h d a i => some ((BitVec.ofBool h.c) ++ 11#7 ++ h.g ++ 0#2 ++ d ++ a ++ 4#3 ++ i)
  | .cmpiGeu h d a i => some ((BitVec.ofBool h.c) ++ 11#7 ++ h.g ++ 0#2 ++ d ++ a ++ 5#3 ++ i)
  | .sel h d a b p => some ((BitVec.ofBool h.c) ++ 12#7 ++ h.g ++ d ++ a ++ b ++ 0#3 ++ p)
  | .addsh h d a b n => some ((BitVec.ofBool h.c) ++ 13#7 ++ h.g ++ d ++ a ++ b ++ n)
  | .br h o => some ((BitVec.ofBool h.c) ++ 16#7 ++ h.g ++ 0#5 ++ o)
  | .call h a o => some ((BitVec.ofBool h.c) ++ 17#7 ++ h.g ++ a ++ o)
  | .jr h a => some ((BitVec.ofBool h.c) ++ 18#7 ++ h.g ++ 0#5 ++ a ++ 0#11)
  | .loop h a o => some ((BitVec.ofBool h.c) ++ 19#7 ++ h.g ++ a ++ o)
  | .crd h d n => some ((BitVec.ofBool h.c) ++ 24#7 ++ h.g ++ d ++ 0#5 ++ n)
  | .cwr h a n => some ((BitVec.ofBool h.c) ++ 25#7 ++ h.g ++ 0#5 ++ a ++ n)
  | .fenceCore h => some ((BitVec.ofBool h.c) ++ 26#7 ++ h.g ++ 0#21)
  | .fenceCluster h => some ((BitVec.ofBool h.c) ++ 26#7 ++ h.g ++ 1#21)
  | .fenceDie h => some ((BitVec.ofBool h.c) ++ 26#7 ++ h.g ++ 2#21)
  | .fencePkg h => some ((BitVec.ofBool h.c) ++ 26#7 ++ h.g ++ 3#21)
  | .fenceSys h => some ((BitVec.ofBool h.c) ++ 26#7 ++ h.g ++ 4#21)
  | .done h => some ((BitVec.ofBool h.c) ++ 27#7 ++ h.g ++ 0#21)
  | .suspend h k => some ((BitVec.ofBool h.c) ++ 27#7 ++ h.g ++ 0#10 ++ k ++ 1#6)
  | .post h d a k => some ((BitVec.ofBool h.c) ++ 27#7 ++ h.g ++ d ++ a ++ k ++ 2#6)
  | .trap h k => some ((BitVec.ofBool h.c) ++ 28#7 ++ h.g ++ 0#10 ++ k)
  | .tret h => some ((BitVec.ofBool h.c) ++ 29#7 ++ h.g ++ 0#21)
  | .ld h d a f o => some ((BitVec.ofBool h.c) ++ 48#7 ++ h.g ++ d ++ a ++ (ldFormCode f) ++ o)
  | .ldAcq h d a f o => some ((BitVec.ofBool h.c) ++ 49#7 ++ h.g ++ d ++ a ++ 0#1 ++ (memSizeCode f) ++ o)
  | .st h d a f o => some ((BitVec.ofBool h.c) ++ 50#7 ++ h.g ++ d ++ a ++ 0#1 ++ (memSizeCode f) ++ o)
  | .stRel h d a f o => some ((BitVec.ofBool h.c) ++ 51#7 ++ h.g ++ d ++ a ++ 0#1 ++ (memSizeCode f) ++ o)
  | .lsaln h => some ((BitVec.ofBool h.c) ++ 52#7 ++ h.g ++ 0#21)
  | .amoAdd h d a b z => some ((BitVec.ofBool h.c) ++ 53#7 ++ h.g ++ d ++ a ++ b ++ 0#4 ++ (amoSizeCode z))
  | .amoAnd h d a b z => some ((BitVec.ofBool h.c) ++ 53#7 ++ h.g ++ d ++ a ++ b ++ 1#4 ++ (amoSizeCode z))
  | .amoOr h d a b z => some ((BitVec.ofBool h.c) ++ 53#7 ++ h.g ++ d ++ a ++ b ++ 2#4 ++ (amoSizeCode z))
  | .amoXor h d a b z => some ((BitVec.ofBool h.c) ++ 53#7 ++ h.g ++ d ++ a ++ b ++ 3#4 ++ (amoSizeCode z))
  | .amoMin h d a b z => some ((BitVec.ofBool h.c) ++ 53#7 ++ h.g ++ d ++ a ++ b ++ 4#4 ++ (amoSizeCode z))
  | .amoMax h d a b z => some ((BitVec.ofBool h.c) ++ 53#7 ++ h.g ++ d ++ a ++ b ++ 5#4 ++ (amoSizeCode z))
  | .amoMinu h d a b z => some ((BitVec.ofBool h.c) ++ 53#7 ++ h.g ++ d ++ a ++ b ++ 6#4 ++ (amoSizeCode z))
  | .amoMaxu h d a b z => some ((BitVec.ofBool h.c) ++ 53#7 ++ h.g ++ d ++ a ++ b ++ 7#4 ++ (amoSizeCode z))
  | .amoSwap h d a b z => some ((BitVec.ofBool h.c) ++ 53#7 ++ h.g ++ d ++ a ++ b ++ 8#4 ++ (amoSizeCode z))
  | .amoCas h d a b z => some ((BitVec.ofBool h.c) ++ 53#7 ++ h.g ++ d ++ a ++ b ++ 9#4 ++ (amoSizeCode z))
  | .qst h d a b t o z => some ((BitVec.ofBool h.c) ++ 54#7 ++ h.g ++ d ++ a ++ b ++ 0#2 ++ (BitVec.ofBool t) ++ (BitVec.ofBool o) ++ (memSizeCode z))
  | .mwaitNe h d a b => some ((BitVec.ofBool h.c) ++ 55#7 ++ h.g ++ d ++ a ++ b ++ 0#6)
  | .mwaitEq h d a b => some ((BitVec.ofBool h.c) ++ 55#7 ++ h.g ++ d ++ a ++ b ++ 1#6)
  | .vadd h m d a b t => some ((BitVec.ofBool h.c) ++ 64#7 ++ h.g ++ m ++ d ++ a ++ b ++ (elemTyCode t))
  | .vsub h m d a b t => some ((BitVec.ofBool h.c) ++ 65#7 ++ h.g ++ m ++ d ++ a ++ b ++ (elemTyCode t))
  | .vmul h m d a b t => some ((BitVec.ofBool h.c) ++ 66#7 ++ h.g ++ m ++ d ++ a ++ b ++ (elemTyCode t))
  | .vfma h m d a b t => some ((BitVec.ofBool h.c) ++ 67#7 ++ h.g ++ m ++ d ++ a ++ b ++ (elemTyCode t))
  | .vmin h m d a b t => some ((BitVec.ofBool h.c) ++ 68#7 ++ h.g ++ m ++ d ++ a ++ b ++ (elemTyCode t))
  | .vmax h m d a b t => some ((BitVec.ofBool h.c) ++ 69#7 ++ h.g ++ m ++ d ++ a ++ b ++ (elemTyCode t))
  | .vdiv h m d a b => some ((BitVec.ofBool h.c) ++ 70#7 ++ h.g ++ m ++ d ++ a ++ b ++ 0#3)
  | .vsqrt h m d a => some ((BitVec.ofBool h.c) ++ 71#7 ++ h.g ++ m ++ d ++ a ++ 0#8)
  | .vexp2 h m d a => some ((BitVec.ofBool h.c) ++ 71#7 ++ h.g ++ m ++ d ++ a ++ 8#8)
  | .vabs h m d a t => some ((BitVec.ofBool h.c) ++ 71#7 ++ h.g ++ m ++ d ++ a ++ 2#5 ++ (elemTyCode t))
  | .vneg h m d a t => some ((BitVec.ofBool h.c) ++ 71#7 ++ h.g ++ m ++ d ++ a ++ 3#5 ++ (elemTyCode t))
  | .vadds h m d a b t => some ((BitVec.ofBool h.c) ++ 72#7 ++ h.g ++ m ++ d ++ a ++ b ++ (elemTyCode t))
  | .vsubs h m d a b t => some ((BitVec.ofBool h.c) ++ 73#7 ++ h.g ++ m ++ d ++ a ++ b ++ (elemTyCode t))
  | .vand h m d a b => some ((BitVec.ofBool h.c) ++ 74#7 ++ h.g ++ m ++ d ++ a ++ b ++ 0#3)
  | .vor h m d a b => some ((BitVec.ofBool h.c) ++ 74#7 ++ h.g ++ m ++ d ++ a ++ b ++ 1#3)
  | .vxor h m d a b => some ((BitVec.ofBool h.c) ++ 74#7 ++ h.g ++ m ++ d ++ a ++ b ++ 2#3)
  | .vandn h m d a b => some ((BitVec.ofBool h.c) ++ 74#7 ++ h.g ++ m ++ d ++ a ++ b ++ 3#3)
  | .vsll h m d a b => some ((BitVec.ofBool h.c) ++ 75#7 ++ h.g ++ m ++ d ++ a ++ b ++ 0#3)
  | .vsrl h m d a b => some ((BitVec.ofBool h.c) ++ 75#7 ++ h.g ++ m ++ d ++ a ++ b ++ 1#3)
  | .vsra h m d a b => some ((BitVec.ofBool h.c) ++ 75#7 ++ h.g ++ m ++ d ++ a ++ b ++ 2#3)
  | .vslli h m d a n => some ((BitVec.ofBool h.c) ++ 75#7 ++ h.g ++ m ++ d ++ a ++ n ++ 3#3)
  | .vsrli h m d a n => some ((BitVec.ofBool h.c) ++ 75#7 ++ h.g ++ m ++ d ++ a ++ n ++ 4#3)
  | .vsrai h m d a n => some ((BitVec.ofBool h.c) ++ 75#7 ++ h.g ++ m ++ d ++ a ++ n ++ 5#3)
  | .vclmulLo h m d a b => some ((BitVec.ofBool h.c) ++ 76#7 ++ h.g ++ m ++ d ++ a ++ b ++ 0#3)
  | .vclmulHi h m d a b => some ((BitVec.ofBool h.c) ++ 76#7 ++ h.g ++ m ++ d ++ a ++ b ++ 1#3)
  | .vpopc32 h m d a b => some ((BitVec.ofBool h.c) ++ 77#7 ++ h.g ++ m ++ d ++ a ++ b ++ 0#3)
  | .vpopc64 h m d a b => some ((BitVec.ofBool h.c) ++ 77#7 ++ h.g ++ m ++ d ++ a ++ b ++ 1#3)
  | .vcmpEq h m d a b t => some ((BitVec.ofBool h.c) ++ 78#7 ++ h.g ++ m ++ 0#2 ++ d ++ a ++ b ++ (elemTyCode t))
  | .vcmpLt h m d a b t => some ((BitVec.ofBool h.c) ++ 79#7 ++ h.g ++ m ++ 0#2 ++ d ++ a ++ b ++ (elemTyCode t))
  | .vcmpLe h m d a b t => some ((BitVec.ofBool h.c) ++ 80#7 ++ h.g ++ m ++ 0#2 ++ d ++ a ++ b ++ (elemTyCode t))
  | .vcmpLtu h m d a b t => some ((BitVec.ofBool h.c) ++ 81#7 ++ h.g ++ m ++ 0#2 ++ d ++ a ++ b ++ (elemTyCode t))
  | .mand h m d a b => some ((BitVec.ofBool h.c) ++ 82#7 ++ h.g ++ m ++ 0#2 ++ d ++ 0#2 ++ a ++ 0#2 ++ b ++ 0#3)
  | .mor h m d a b => some ((BitVec.ofBool h.c) ++ 82#7 ++ h.g ++ m ++ 0#2 ++ d ++ 0#2 ++ a ++ 0#2 ++ b ++ 1#3)
  | .mxor h m d a b => some ((BitVec.ofBool h.c) ++ 82#7 ++ h.g ++ m ++ 0#2 ++ d ++ 0#2 ++ a ++ 0#2 ++ b ++ 2#3)
  | .mandn h m d a b => some ((BitVec.ofBool h.c) ++ 82#7 ++ h.g ++ m ++ 0#2 ++ d ++ 0#2 ++ a ++ 0#2 ++ b ++ 3#3)
  | .mnot h m d a => some ((BitVec.ofBool h.c) ++ 82#7 ++ h.g ++ m ++ 0#2 ++ d ++ 0#2 ++ a ++ 4#8)
  | .mcnt h m d a => some ((BitVec.ofBool h.c) ++ 82#7 ++ h.g ++ m ++ d ++ 0#2 ++ a ++ 5#8)
  | .mfirst h m d a => some ((BitVec.ofBool h.c) ++ 82#7 ++ h.g ++ m ++ d ++ 0#2 ++ a ++ 6#8)
  | .vperm32 h m d a b => some ((BitVec.ofBool h.c) ++ 83#7 ++ h.g ++ m ++ d ++ a ++ b ++ 0#3)
  | .vslideup32 h m d a b => some ((BitVec.ofBool h.c) ++ 83#7 ++ h.g ++ m ++ d ++ a ++ b ++ 1#3)
  | .vslidedn32 h m d a b => some ((BitVec.ofBool h.c) ++ 83#7 ++ h.g ++ m ++ d ++ a ++ b ++ 2#3)
  | .vbcast32 h m d a => some ((BitVec.ofBool h.c) ++ 83#7 ++ h.g ++ m ++ d ++ a ++ 3#8)
  | .vcompress32 h m d a => some ((BitVec.ofBool h.c) ++ 83#7 ++ h.g ++ m ++ d ++ a ++ 4#8)
  | .vexpand32 h m d a => some ((BitVec.ofBool h.c) ++ 83#7 ++ h.g ++ m ++ d ++ a ++ 5#8)
  | .vmov32 h m d a => some ((BitVec.ofBool h.c) ++ 83#7 ++ h.g ++ m ++ d ++ a ++ 6#8)
  | .vperm8 h m d a b => some ((BitVec.ofBool h.c) ++ 84#7 ++ h.g ++ m ++ d ++ a ++ b ++ 0#3)
  | .vslideup8 h m d a b => some ((BitVec.ofBool h.c) ++ 84#7 ++ h.g ++ m ++ d ++ a ++ b ++ 1#3)
  | .vslidedn8 h m d a b => some ((BitVec.ofBool h.c) ++ 84#7 ++ h.g ++ m ++ d ++ a ++ b ++ 2#3)
  | .vbcast8 h m d a => some ((BitVec.ofBool h.c) ++ 84#7 ++ h.g ++ m ++ d ++ a ++ 3#8)
  | .vcompress8 h m d a => some ((BitVec.ofBool h.c) ++ 84#7 ++ h.g ++ m ++ d ++ a ++ 4#8)
  | .vexpand8 h m d a => some ((BitVec.ofBool h.c) ++ 84#7 ++ h.g ++ m ++ d ++ a ++ 5#8)
  | .vmov8 h m d a => some ((BitVec.ofBool h.c) ++ 84#7 ++ h.g ++ m ++ d ++ a ++ 6#8)
  | .vrsum h m d a t => some ((BitVec.ofBool h.c) ++ 85#7 ++ h.g ++ m ++ d ++ a ++ 0#2 ++ (elemTyCode t) ++ 0#3)
  | .vrmax h m d a t => some ((BitVec.ofBool h.c) ++ 85#7 ++ h.g ++ m ++ d ++ a ++ 0#2 ++ (elemTyCode t) ++ 1#3)
  | .vrmin h m d a t => some ((BitVec.ofBool h.c) ++ 85#7 ++ h.g ++ m ++ d ++ a ++ 0#2 ++ (elemTyCode t) ++ 2#3)
  | .vscan h m d a t => some ((BitVec.ofBool h.c) ++ 85#7 ++ h.g ++ m ++ d ++ a ++ 0#2 ++ (elemTyCode t) ++ 3#3)
  | .vcvt h m d a cv r => some ((BitVec.ofBool h.c) ++ 86#7 ++ h.g ++ m ++ d ++ a ++ (convCode cv) ++ (rModeCode r))
  | .vqrec h t a b f => some ((BitVec.ofBool h.c) ++ 87#7 ++ h.g ++ 0#5 ++ t ++ a ++ 0#2 ++ b ++ (qFmtCode3 f))
  | .vld h m d a b => some ((BitVec.ofBool h.c) ++ 88#7 ++ h.g ++ m ++ d ++ a ++ b ++ 0#3)
  | .vlds h m d a b => some ((BitVec.ofBool h.c) ++ 88#7 ++ h.g ++ m ++ d ++ a ++ b ++ 1#3)
  | .vgather h m d a b => some ((BitVec.ofBool h.c) ++ 88#7 ++ h.g ++ m ++ d ++ a ++ b ++ 2#3)
  | .vldq h m d q => some ((BitVec.ofBool h.c) ++ 88#7 ++ h.g ++ m ++ d ++ 0#8 ++ q ++ 3#3)
  | .vst h m d a b => some ((BitVec.ofBool h.c) ++ 89#7 ++ h.g ++ m ++ d ++ a ++ b ++ 0#3)
  | .vsts h m d a b => some ((BitVec.ofBool h.c) ++ 89#7 ++ h.g ++ m ++ d ++ a ++ b ++ 1#3)
  | .vscatter h m d a b => some ((BitVec.ofBool h.c) ++ 89#7 ++ h.g ++ m ++ d ++ a ++ b ++ 2#3)
  | .vstq h m d q => some ((BitVec.ofBool h.c) ++ 89#7 ++ h.g ++ m ++ d ++ 0#8 ++ q ++ 3#3)
  | .vbind h d a => some ((BitVec.ofBool h.c) ++ 90#7 ++ h.g ++ 0#6 ++ d ++ a ++ 0#8)
  | .vunbind h d => some ((BitVec.ofBool h.c) ++ 90#7 ++ h.g ++ 0#6 ++ d ++ 1#13)
  | .vamoAddF32 h m d a => some ((BitVec.ofBool h.c) ++ 91#7 ++ h.g ++ m ++ d ++ a ++ 0#8)
  | .vamoAddBf16 h m d a => some ((BitVec.ofBool h.c) ++ 91#7 ++ h.g ++ m ++ d ++ a ++ 1#8)
  | .vqst h m d a b t o => some ((BitVec.ofBool h.c) ++ 92#7 ++ h.g ++ m ++ d ++ a ++ b ++ 0#1 ++ (BitVec.ofBool t) ++ (BitVec.ofBool o))
  | .mmaDesc h d a b k => some ((BitVec.ofBool h.c) ++ 96#7 ++ h.g ++ 0#1 ++ d ++ a ++ 0#1 ++ b ++ 0#1 ++ (mmaTyCode k) ++ 0#3)
  | .mmaReg h d a b k => some ((BitVec.ofBool h.c) ++ 96#7 ++ h.g ++ 0#1 ++ d ++ a ++ 0#2 ++ b ++ 0#2 ++ (mmaTyCode k) ++ 1#3)
  | .mmaRmt h d a b k => some ((BitVec.ofBool h.c) ++ 96#7 ++ h.g ++ 0#1 ++ d ++ a ++ 0#1 ++ b ++ 0#1 ++ (mmaTyCode k) ++ 2#3)
  | .mldF32 h d a => some ((BitVec.ofBool h.c) ++ 97#7 ++ h.g ++ 0#1 ++ d ++ a ++ 0#11)
  | .mldRaw h d a => some ((BitVec.ofBool h.c) ++ 97#7 ++ h.g ++ 0#1 ++ d ++ a ++ 1#11)
  | .mstF32 h d a => some ((BitVec.ofBool h.c) ++ 98#7 ++ h.g ++ d ++ 0#1 ++ a ++ 0#11)
  | .mstRaw h d a => some ((BitVec.ofBool h.c) ++ 98#7 ++ h.g ++ d ++ 0#1 ++ a ++ 1#11)
  | .mzero h d => some ((BitVec.ofBool h.c) ++ 99#7 ++ h.g ++ 0#1 ++ d ++ 0#16)
  | .msmax h d => some ((BitVec.ofBool h.c) ++ 100#7 ++ h.g ++ 0#1 ++ d ++ 0#17)
  | .mread h d a b => some ((BitVec.ofBool h.c) ++ 101#7 ++ h.g ++ d ++ 0#1 ++ a ++ 0#3 ++ b ++ 0#6)
  | .mwrite h d a b => some ((BitVec.ofBool h.c) ++ 102#7 ++ h.g ++ 0#1 ++ d ++ a ++ 0#3 ++ b ++ 0#6)
  | .mqnt h d a k t => some ((BitVec.ofBool h.c) ++ 103#7 ++ h.g ++ 0#1 ++ d ++ a ++ 0#5 ++ (qFmtCode3 k) ++ t)
  | .cpy2d h d a b => some ((BitVec.ofBool h.c) ++ 112#7 ++ h.g ++ d ++ a ++ b ++ 0#6)
  | .cpy2dCvtRelay h d a b => some ((BitVec.ofBool h.c) ++ 112#7 ++ h.g ++ d ++ a ++ b ++ 1#6)
  | .cpy2dCvtQnt h d a b => some ((BitVec.ofBool h.c) ++ 112#7 ++ h.g ++ d ++ a ++ b ++ 9#6)
  | .cpy2dCvtZexp h d a b => some ((BitVec.ofBool h.c) ++ 112#7 ++ h.g ++ d ++ a ++ b ++ 17#6)
  | .cpy2dRedAddF32 h d a b => some ((BitVec.ofBool h.c) ++ 112#7 ++ h.g ++ d ++ a ++ b ++ 2#6)
  | .cpy2dRedAddBf16 h d a b => some ((BitVec.ofBool h.c) ++ 112#7 ++ h.g ++ d ++ a ++ b ++ 10#6)
  | .cpy2dRedMaxF32 h d a b => some ((BitVec.ofBool h.c) ++ 112#7 ++ h.g ++ d ++ a ++ b ++ 18#6)
  | .cpy2dRedMinF32 h d a b => some ((BitVec.ofBool h.c) ++ 112#7 ++ h.g ++ d ++ a ++ b ++ 26#6)
  | .cpy2dStamp h d a b => some ((BitVec.ofBool h.c) ++ 112#7 ++ h.g ++ d ++ a ++ b ++ 3#6)
  | .cpycan h a => some ((BitVec.ofBool h.c) ++ 113#7 ++ h.g ++ 0#5 ++ a ++ 0#11)
  | .nestLd h a => some ((BitVec.ofBool h.c) ++ 114#7 ++ h.g ++ 0#5 ++ a ++ 0#11)
  | .nestGo h => some ((BitVec.ofBool h.c) ++ 114#7 ++ h.g ++ 1#21)
  | .nestWait h => some ((BitVec.ofBool h.c) ++ 114#7 ++ h.g ++ 2#21)
  | .binit h a b => some ((BitVec.ofBool h.c) ++ 115#7 ++ h.g ++ 0#5 ++ a ++ b ++ 0#6)
  | .bexp h a b => some ((BitVec.ofBool h.c) ++ 115#7 ++ h.g ++ 0#5 ++ a ++ b ++ 1#6)
  | .barrv h a b => some ((BitVec.ofBool h.c) ++ 115#7 ++ h.g ++ 0#5 ++ a ++ b ++ 2#6)
  | .bwait h a b => some ((BitVec.ofBool h.c) ++ 115#7 ++ h.g ++ 0#5 ++ a ++ b ++ 3#6)
  | .btest h d a b => some ((BitVec.ofBool h.c) ++ 115#7 ++ h.g ++ 0#2 ++ d ++ a ++ b ++ 4#6)
  | .krotInstall h d a b => some ((BitVec.ofBool h.c) ++ 120#7 ++ h.g ++ d ++ a ++ b ++ 0#6)
  | .krotQuery h d a b => some ((BitVec.ofBool h.c) ++ 120#7 ++ h.g ++ d ++ a ++ b ++ 0#6)
  | .krotRetire h d a b => some ((BitVec.ofBool h.c) ++ 120#7 ++ h.g ++ d ++ a ++ b ++ 0#6)
  | .krotDestroy h d a b => some ((BitVec.ofBool h.c) ++ 120#7 ++ h.g ++ d ++ a ++ b ++ 0#6)
  | .sealChunks h d a b => some ((BitVec.ofBool h.c) ++ 121#7 ++ h.g ++ d ++ a ++ b ++ 0#6)
  | .unsealChunks h d a b => some ((BitVec.ofBool h.c) ++ 121#7 ++ h.g ++ d ++ a ++ b ++ 1#6)
  | .scrubRegions h d a b => some ((BitVec.ofBool h.c) ++ 121#7 ++ h.g ++ d ++ a ++ b ++ 2#6)
  | .scrubCluster h d a b => some ((BitVec.ofBool h.c) ++ 121#7 ++ h.g ++ d ++ a ++ b ++ 2#6)
  | .scrubCore h d a b => some ((BitVec.ofBool h.c) ++ 121#7 ++ h.g ++ d ++ a ++ b ++ 2#6)
  | .capdrv h d a b => some ((BitVec.ofBool h.c) ++ 122#7 ++ h.g ++ d ++ a ++ b ++ 0#7)
  | .capchk h d a b => some ((BitVec.ofBool h.c) ++ 122#7 ++ h.g ++ 0#2 ++ d ++ a ++ b ++ 1#7)
  | .capld h d a n => some ((BitVec.ofBool h.c) ++ 122#7 ++ h.g ++ d ++ 0#1 ++ a ++ n ++ 2#6)
  | .capst h d a => some ((BitVec.ofBool h.c) ++ 122#7 ++ h.g ++ d ++ a ++ 3#11)
  | .sigchk h d a => some ((BitVec.ofBool h.c) ++ 123#7 ++ h.g ++ d ++ a ++ 0#11)
  | .mext h d a b => some ((BitVec.ofBool h.c) ++ 124#7 ++ h.g ++ d ++ a ++ b ++ 0#6)
  | .slotswQuery h d a b => some ((BitVec.ofBool h.c) ++ 125#7 ++ h.g ++ d ++ a ++ b ++ 0#6)
  | .slotswQuiesce h d a b => some ((BitVec.ofBool h.c) ++ 125#7 ++ h.g ++ d ++ a ++ b ++ 0#6)
  | .slotswSwitch h d a b => some ((BitVec.ofBool h.c) ++ 125#7 ++ h.g ++ d ++ a ++ b ++ 0#6)
  | .slotswBeat h d a b => some ((BitVec.ofBool h.c) ++ 125#7 ++ h.g ++ d ++ a ++ b ++ 0#6)
  | .slotswResume h d a b => some ((BitVec.ofBool h.c) ++ 125#7 ++ h.g ++ d ++ a ++ b ++ 0#6)
  | _ => none

/-- The 16 bits of a Topiary operation (R381). None for the other rows. -/
def encodeTopiary : Instr → Option (BitVec 16)
  | .topiaryLit k => some (1#8 ++ k)
  | .topiaryDup => some (2#8 ++ 0#8)
  | .topiaryDrop => some (3#8 ++ 0#8)
  | .topiarySwap => some (4#8 ++ 0#8)
  | .topiaryLdq k => some (16#8 ++ k)
  | .topiaryLdl k => some (17#8 ++ k)
  | .topiaryStl k => some (18#8 ++ k)
  | .topiaryAdd => some (32#8 ++ 0#8)
  | .topiarySub => some (33#8 ++ 0#8)
  | .topiaryMul => some (34#8 ++ 0#8)
  | .topiaryMin => some (35#8 ++ 0#8)
  | .topiaryMax => some (36#8 ++ 0#8)
  | .topiaryAnd => some (37#8 ++ 0#8)
  | .topiaryOr => some (38#8 ++ 0#8)
  | .topiaryLt => some (39#8 ++ 0#8)
  | .topiaryEq => some (40#8 ++ 0#8)
  | .topiaryJz k => some (48#8 ++ k)
  | .topiaryJmp k => some (49#8 ++ k)
  | .topiaryForq k => some (64#8 ++ k)
  | .topiaryNextq => some (65#8 ++ 0#8)
  | .topiaryPick => some (80#8 ++ 0#8)
  | .topiarySlice => some (81#8 ++ 0#8)
  | .topiaryRet => some (82#8 ++ 0#8)
  | _ => none

/-- R213: word 0 of a record. -/
def wordZero (wop units flags opnd : Nat) : List Byte :=
  Machine.leBytes 4 (opnd + 2 ^ 16 * flags + 2 ^ 20 * units + 2 ^ 24 * wop)

/-- R222: the ten bytes of a slot. -/
def encodeSlot (s : WSlot) : List Byte :=
  Machine.leBytes 2 (s.buf.toNat + 2 ^ 12 * s.mode.toNat) ++ Machine.leBytes 4 s.offset.toNat ++
    Machine.leBytes 4 s.length.toNat

/-- A record's bytes padded with zeros to whole units. -/
def padTo (n : Nat) (bs : List Byte) : List Byte := bs ++ List.replicate (n - bs.length) 0

/-- The bytes of a stream record (R213 to R236). None for the other rows. -/
def encodeStream : Instr → Option (List Byte)
  | .wnop u => some (padTo (32 * (u.toNat + 1)) (wordZero 0 u.toNat 0 0))
  | .wbuf f d b s base => some (wordZero 0x01 0 (d.toNat + 8 * f.toNat) b.toNat ++ Machine.leBytes 4 0 ++
      Machine.leBytes 8 s.toNat ++ Machine.leBytes 16 base.toNat)
  | .wfree b => some (padTo 32 (wordZero 0x02 0 0 b.toNat))
  | .wtask r => some (padTo (32 * (r.units.toNat + 1))
      (wordZero 0x08 r.units.toNat (4 * r.loopIdx.toNat + 8 * r.pre.toNat) r.tag.toNat ++
        r.counts.toList.flatMap (fun c => Machine.leBytes 2 c.toNat) ++ Machine.leBytes 4 r.order.toNat ++
        Machine.leBytes 4 r.poff.toNat ++ Machine.leBytes 2 r.kbuf.toNat ++ Machine.leBytes 6 r.koff.toNat ++
        (r.slots.toList.take (slotsThatFit r.units)).flatMap encodeSlot))
  | .wcall b buf l t => some (padTo 32 (wordZero 0x10 0 (8 * b.toNat) buf.toNat ++ Machine.leBytes 4 l.toNat ++
      Machine.leBytes 8 t.toNat))
  | .wret => some (padTo 32 (wordZero 0x11 0 0 0))
  | .wpred c b s o v m => some (wordZero 0x12 0 (wcondCode c).toNat b.toNat ++ Machine.leBytes 4 s.toNat ++
      Machine.leBytes 8 o.toNat ++ Machine.leBytes 8 v.toNat ++ Machine.leBytes 8 m.toNat)
  | .wloop c e => some (padTo 32 (wordZero 0x13 0 0 0 ++ Machine.leBytes 4 c.toNat ++ Machine.leBytes 4 e.toNat))
  | .wend => some (padTo 32 (wordZero 0x14 0 0 0))
  | .wfence => some (padTo 32 (wordZero 0x18 0 0 0))
  | .wfenceT b o => some (padTo 32 (wordZero 0x18 0 8 b.toNat ++ Machine.leBytes 4 0 ++ Machine.leBytes 8 o.toNat))
  | .wwait c b l o v m => some (wordZero 0x19 0 (wcondCode c).toNat b.toNat ++ Machine.leBytes 4 l.toNat ++
      Machine.leBytes 8 o.toNat ++ Machine.leBytes 8 v.toNat ++ Machine.leBytes 8 m.toNat)
  | .wsignalSt i b vec o v => some (padTo 32 (wordZero 0x1A 0 (8 * i.toNat) b.toNat ++ Machine.leBytes 4 vec.toNat ++
      Machine.leBytes 8 o.toNat ++ Machine.leBytes 8 v.toNat))
  | .wsignalAdd i b vec o v => some (padTo 32 (wordZero 0x1A 0 (1 + 8 * i.toNat) b.toNat ++
      Machine.leBytes 4 vec.toNat ++ Machine.leBytes 8 o.toNat ++ Machine.leBytes 8 v.toNat))
  | .wgraph p b o => some (padTo 32 (wordZero 0x20 0 (8 * p.toNat) b.toNat ++ Machine.leBytes 4 0 ++
      Machine.leBytes 8 o.toNat))
  | .wphase j i => some (padTo 32 (wordZero 0x21 0 (8 * j.toNat) i.toNat))
  | .wcancelLaunch i => some (padTo 32 (wordZero 0x22 0 0 i.toNat))
  | .wcancelGraph i => some (padTo 32 (wordZero 0x22 0 1 i.toNat))
  | .wcancelPhase i => some (padTo 32 (wordZero 0x22 0 2 i.toNat))
  | .wcancelJob i => some (padTo 32 (wordZero 0x22 0 3 i.toNat))
  | .whalt c => some (padTo 32 (wordZero 0x3F 0 0 c.toNat))
  | _ => none

/-- The bytes of an instruction that has an encoding: a tile word, a Topiary operation or a stream record. -/
def encode (i : Instr) : List Byte :=
  match encodeTile i, encodeTopiary i, encodeStream i with
  | some w, _, _ => Machine.leBytes 4 w.toNat
  | none, some w, _ => Machine.leBytes 2 w.toNat
  | none, none, some bs => bs
  | none, none, none => []

/-- The tile instruction in four bytes. -/
def decodeTileBytes (bs : List Byte) : Option Instr := decodeWord (BitVec.ofNat 32 (Machine.fieldAt bs 0 4))

/-- The Topiary operation in two bytes. -/
def decodeTopiaryBytes (bs : List Byte) : Option Instr := decodeTopiary (BitVec.ofNat 16 (Machine.fieldAt bs 0 2))

/-- The instruction of a table word: a 32-bit tile word or a 16-bit Topiary operation, laid out in its bytes and given
to the decoder. (DEDUCED: log 9.) -/
def decodeTableWord (nbits w : Nat) : Option Instr :=
  if nbits = 32 then decodeTileBytes (Machine.leBytes 4 w)
  else if nbits = 16 then decodeTopiaryBytes (Machine.leBytes 2 w)
  else none

end Sys2Proof
end

