-- ==== Sys2Proof/Machine/Crypto.lean ====
section
/-! DEFINITION. AES-256, GHASH, AES-256-GCM, HKDF-SHA-512 and ECDHE on P-384 (R334, R336, R340, R347, R352, R366). The spec names the
functions; their steps are those of FIPS 197, NIST SP 800-38D, RFC 2104, RFC 5869, SEC 1 and SEC 2. PRESUMED: log 6. -/

namespace Sys2Proof.Machine

/-! ### AES-256 (FIPS 197) -/

/-- FIPS 197: the substitution of bytes, sixteen of them in each number, the first lowest. -/
def aesSubst : List Nat :=
  [0x76ABD7FE2B670130C56F6BF27B777C63, 0xC072A49CAFA2D4ADF04759FA7DC982CA,
   0x1531D871F1E5A534CCF73F362693FDB7, 0x75B227EBE28012079A059618C323C704,
   0x842FE329B3D63B52A05A6E1B1A2C8309, 0xCF584C4A39BECB6A5BB1FC20ED00D153,
   0xA89F3C507F02F94585334D43FBAAEFD0, 0xD2F3FF1021DAB6BCF5389D928F40A351,
   0x73195D643D7EA7C41744975FEC130CCD, 0xDB0B5EDE14B8EE4688902A22DC4F8160,
   0x79E4959162ACD3C25C2406490A3A32E0, 0x08AE7A65EAF4566CA94ED58D6D37C8E7,
   0x8A8BBD4B1F74DDE8C6B4A61C2E2578BA, 0x9E1DC186B95735610EF6034866B53E70,
   0xDF2855CEE9871E9B948ED9691198F8E1, 0x16BB54B00F2D99416842E6BF0D89A18C]

/-- FIPS 197: SubBytes of one byte. -/
def aesSub (x : Nat) : Nat := aesSubst.getD (x / 16) 0 / 2 ^ (8 * (x % 16)) % 256

/-- FIPS 197: a byte times x. -/
def aesTimes (x : Nat) : Nat := if x < 128 then 2 * x else (2 * x - 256) ^^^ 0x1B

/-- FIPS 197: MixColumns of one column. -/
def aesMix : List Nat → List Nat
  | [a, b, c, d] =>
    [aesTimes a ^^^ aesTimes b ^^^ b ^^^ c ^^^ d, a ^^^ aesTimes b ^^^ aesTimes c ^^^ c ^^^ d,
     a ^^^ b ^^^ aesTimes c ^^^ aesTimes d ^^^ d, aesTimes a ^^^ a ^^^ b ^^^ c ^^^ aesTimes d]
  | x => x

/-- FIPS 197: the state's columns after ShiftRows: byte 4c + r comes from column c + r. -/
def aesShift (x : List Nat) : List (List Nat) :=
  (List.range 4).map fun c => (List.range 4).map fun r => x.getD (4 * ((c + r) % 4) + r) 0

/-- Two lists of bytes added. -/
def xorBytes (a b : List Nat) : List Nat := List.zipWith (fun x y => x ^^^ y) a b

/-- FIPS 197: the rounds after the first key, the last without MixColumns. -/
def aesRounds : List (List Nat) → List Nat → List Nat
  | [], x => x
  | [k], x => xorBytes ((aesShift (x.map aesSub)).flatten) k
  | k :: ks, x => aesRounds ks (xorBytes ((aesShift (x.map aesSub)).flatMap aesMix) k)

/-- FIPS 197: the cipher of a block under its round keys. (PRESUMED: log 6.) -/
def aesBlock (keys : List (List Nat)) (x : List Nat) : List Nat :=
  match keys with
  | k :: ks => aesRounds ks (xorBytes x k)
  | [] => x

/-- FIPS 197: the words of the key schedule after word i - 1. `ws` holds them, the last first. -/
def aesExpand : Nat → Nat → Nat → List (List Nat) → List (List Nat)
  | 0, _, _, ws => ws
  | n + 1, i, rcon, ws =>
    let t := ws.headD []
    let old := ws.getD 7 []
    if i % 8 = 0 then
      match (t.drop 1 ++ t.take 1).map aesSub with
      | a :: r => aesExpand n (i + 1) (aesTimes rcon) (xorBytes old ((a ^^^ rcon) :: r) :: ws)
      | [] => ws
    else if i % 8 = 4 then aesExpand n (i + 1) rcon (xorBytes old (t.map aesSub) :: ws)
    else aesExpand n (i + 1) rcon (xorBytes old t :: ws)

/-- A list cut into pieces of four. -/
def byFours {α : Type} (n : Nat) (l : List α) : List (List α) := (List.range n).map fun i => (l.drop (4 * i)).take 4

/-- FIPS 197: the fifteen round keys of a key of 32 bytes. -/
def aesKeys (key : List Nat) : List (List Nat) :=
  (byFours 15 (aesExpand 52 8 1 (byFours 8 key).reverse).reverse).map (·.flatten)

/-! ### Blocks as numbers: byte 0 is the most significant (NIST SP 800-38D) -/

/-- The bytes of a number, the most significant first. -/
def msbBytes (n x : Nat) : List Nat := (List.range n).map fun i => x / 2 ^ (8 * (n - 1 - i)) % 256

/-- The number of bytes, the most significant first. -/
def msbNat (bs : List Nat) : Nat := bs.foldl (fun a b => 256 * a + b) 0

/-- R334: AES256 of a block under round keys. -/
def aes (keys : List (List Nat)) (x : Nat) : Nat := msbNat (aesBlock keys (msbBytes 16 x))

/-- The round keys of a key of 256 bits. -/
def keysOf (key : BitVec 256) : List (List Nat) := aesKeys (msbBytes 32 key.toNat)

/-! ### GHASH and GCM (NIST SP 800-38D) -/

/-- NIST SP 800-38D: multiplication in the field of 2^128 elements: `n` bits of x are left, v is y times the power reached. -/
def gfMul : Nat → Nat → Nat → Nat → Nat
  | 0, _, _, z => z
  | n + 1, x, v, z =>
    gfMul n x (if v % 2 = 1 then v / 2 ^^^ 0xE1 * 2 ^ 120 else v / 2) (if x / 2 ^ n % 2 = 1 then z ^^^ v else z)

/-- Bytes as blocks of 16, the last filled with zeros. -/
def blocks16 (bs : List Nat) : List Nat :=
  (List.range ((bs.length + 15) / 16)).map fun i =>
    let b := (bs.drop (16 * i)).take 16
    msbNat (b ++ List.replicate (16 - b.length) 0)

/-- NIST SP 800-38D: GHASH of blocks. -/
def ghashBlocks (h : Nat) (xs : List Nat) : Nat := xs.foldl (fun y x => gfMul 128 (y ^^^ x) h 0) 0

/-- R334: GHASH of additional data and ciphertext, with their lengths. (PRESUMED: log 6.) -/
def ghash (h : Nat) (a c : List Nat) : Nat :=
  ghashBlocks h (blocks16 a ++ blocks16 c ++ [8 * a.length * 2 ^ 64 + 8 * c.length])

/-- NIST SP 800-38D: the counter blocks of a nonce of 96 bits turn bytes into ciphertext, and ciphertext back. (PRESUMED: log 6.) -/
def gcmCrypt (keys : List (List Nat)) (nonce : BitVec 96) (bs : List Nat) : List Nat :=
  (List.range ((bs.length + 15) / 16)).flatMap fun i =>
    xorBytes ((bs.drop (16 * i)).take 16) (msbBytes 16 (aes keys (nonce.toNat * 2 ^ 32 + (2 + i) % 2 ^ 32)))

/-- NIST SP 800-38D: the tag of 128 bits. (PRESUMED: log 6.) -/
def gcmTag (keys : List (List Nat)) (nonce : BitVec 96) (aad cipher : List Nat) : Nat :=
  ghash (aes keys 0) aad cipher ^^^ aes keys (nonce.toNat * 2 ^ 32 + 1)

/-! ### HMAC and HKDF -/

/-- Bytes as the model's bytes, and back. -/
def toBytes (l : List Nat) : List Byte := l.map (BitVec.ofNat 8)
def ofBytes (l : List Byte) : List Nat := l.map (·.toNat)

/-- SHA-512 as bytes. -/
def shaBytes (l : List Nat) : List Nat := ofBytes (leBytes 64 (sha512 (toBytes l)).toNat)

/-- RFC 2104: HMAC-SHA-512. (PRESUMED: log 6.) -/
def hmac (key msg : List Nat) : List Nat :=
  let k := if 128 < key.length then shaBytes key else key
  let k := k ++ List.replicate (128 - k.length) 0
  shaBytes (k.map (· ^^^ 0x5C) ++ shaBytes (k.map (· ^^^ 0x36) ++ msg))

/-- RFC 5869: HKDF-SHA-512 with no salt, its first 256 bits. (PRESUMED: log 6.) -/
def hkdf256 (secret info : List Nat) : BitVec 256 :=
  BitVec.ofNat 256 (msbNat ((hmac (hmac (List.replicate 64 0) secret) (info ++ [1])).take 32))

/-! ### P-384 (SEC 1, SEC 2) -/

/-- SEC 2: the field, the constant of the curve, the number of its points, and its base point. -/
def p384 : Nat := 2 ^ 384 - 2 ^ 128 - 2 ^ 96 + 2 ^ 32 - 1
def p384B : Nat := 0xB3312FA7E23EE7E4988E056BE3F82D19181D9C6EFE8141120314088F5013875AC656398D8A2ED19D2A85C8EDD3EC2AEF
def p384Order : Nat := 0xFFFFFFFFFFFFFFFFFFFFFFFFFFFFFFFFFFFFFFFFFFFFFFFFC7634D81F4372DDF581A0DB248B0A77AECEC196ACCC52973
def p384Base : Nat × Nat :=
  (0xAA87CA22BE8B05378EB1C71EF320AD746E1D3B628BA79B9859F741E082542A385502F25DBF55296C3A545E3872760AB7,
   0x3617DE4A96262C6F5D9E98BF9292DC29F8F41DBD289A147CE9DA3113B5F0B8C00A60B1CE1D7E819D7A431D7C90EA0E5F)

/-- x to the power of the lowest n bits of e in the field, times acc. -/
def fieldPow : Nat → Nat → Nat → Nat → Nat
  | 0, _, _, acc => acc
  | n + 1, x, e, acc => fieldPow n (x * x % p384) (e / 2) (if e % 2 = 1 then acc * x % p384 else acc)

/-- The quotient in the field. -/
def fieldDiv (x y : Nat) : Nat := x * fieldPow 384 (y % p384) (p384 - 2) 1 % p384

/-- SEC 1: the sum of two points. None is the point at infinity. -/
def pointAdd : Option (Nat × Nat) → Option (Nat × Nat) → Option (Nat × Nat)
  | none, q => q
  | p, none => p
  | .some (x, y), .some (u, v) =>
    if x = u ∧ (y + v) % p384 = 0 then none
    else
      let slope := if x = u then fieldDiv (3 * x * x + (p384 - 3)) (2 * y) else fieldDiv (v + (p384 - y)) (u + (p384 - x))
      let z := (slope * slope + 2 * p384 - x - u) % p384
      .some (z, (slope * (x + (p384 - z)) + (p384 - y)) % p384)

/-- SEC 1: the sum of as many copies of q as the lowest n bits of k say, after p. -/
def pointMul : Nat → Nat → Option (Nat × Nat) → Option (Nat × Nat) → Option (Nat × Nat)
  | 0, _, _, p => p
  | n + 1, k, q, p => pointMul n (k / 2) (pointAdd q q) (if k % 2 = 1 then pointAdd p q else p)

/-- SEC 1: whether a pair is a point of the curve. -/
def onCurve (x y : Nat) : Bool := decide (x < p384) && decide (y < p384) && y * y % p384 == (x * x * x + (p384 - 3) * x + p384B) % p384

/-- R352: ECDHE secp384r1 with a private number: the other side's share gives this side's share and the shared secret, its X. None where the
share is no point of the curve. A share is X and then Y, the most significant byte first. (PRESUMED: log 6.) -/
@[irreducible] def ecdhe (priv : Nat) (share : List Byte) : Option (List Byte × BitVec 384) :=
  let x := msbNat (ofBytes (share.take 48))
  let y := msbNat (ofBytes (share.drop 48))
  let k := priv % (p384Order - 1) + 1
  if onCurve x y then
    match pointMul 384 k (some p384Base) none, pointMul 384 k (some (x, y)) none with
    | .some (a, b), .some (c, _) => some (toBytes (msbBytes 48 a ++ msbBytes 48 b), BitVec.ofNat 384 c)
    | _, _ => none
  else none

end Sys2Proof.Machine
end

