-- ==== Sys2Proof/Config.lean ====
section
/-! DEFINITION. What the spec leaves open and the model leaves free: uninterpreted constants, so that nothing can be
proved from a value of theirs. Each is named in an entry of the assumption log. -/

namespace Sys2Proof.Config

/-- R4, R207, R314: which of the agents that could act next does so, by the number of the step. (DESIGN CHOICE: log 2; DESIGN CHOICE: log 56.) -/
opaque pick : Nat → Nat

/-- R4, R200, R160: which of the parts of one access, or of the boxes of one copy, is performed next, by the number of the step. (DESIGN CHOICE: log 2.) -/
opaque partPick : Nat → Nat

/-- R4: how many clk pass in one step, by the number of the step. (DESIGN CHOICE: log 2; DESIGN CHOICE: log 56.) -/
opaque elapsed : Nat → Nat

/-- R384, R388: whether a signature verifies under the RSA-4096 firmware key of the boot ROM: the SHA-512 digest of the
bytes signed, and the signature. (PRESUMED: log 6.) -/
opaque sigOk : BitVec 512 → List Byte → Bool

/-- R330: the bits of a key of the key unit, by its serial number. (PRESUMED: log 6.) -/
opaque keyBits : Nat → BitVec 256

/-- R366: the master secret of a session between two packages, by its number and the shared secret of its KEY_EXCHANGE. (PRESUMED: log 6.) -/
opaque masterSecret : BitVec 16 → BitVec 384 → BitVec 512

/-- R338, R340: where the metadata area of a stack holds a node: stack, level, number of the node. (PRESUMED: log 6.) -/
opaque metaAddr : Nat → Nat → Nat → BitVec 40

/-- R330, R348, R402: the values that the key unit's random number generator draws, by their number. (PRESUMED: log 6.) -/
opaque random : Nat → BitVec 64

/-- R352, R402: the signature that the device identity key makes over a SHA-512 digest. (PRESUMED: log 6.) -/
opaque sign : BitVec 512 → BitVec 4096

/-- R400, R393: the life-cycle state that the fuses hold at reset. (DESIGN CHOICE: log 7.) -/
opaque lifeCycle : BitVec 2

/-- R224: the bytes of a renamable buffer's new version before any task writes them, by address. (DESIGN CHOICE: log 7.) -/
opaque undefinedByte : Nat → Nat → Byte

/-- R353: the digest of the boot ROM (1), and what more the boot ROM measures of the fuses (4) and of the key unit's health (5). (DESIGN CHOICE: log 7.) -/
opaque bootMeasure : BitVec 8 → BitVec 512

/-- R351, R352: the bytes that an attestation answer holds beyond what the spec states: request code, index, offset. (DESIGN CHOICE: log 7; DESIGN CHOICE: log 38.) -/
opaque attest : Nat → Nat → Nat → Byte
opaque attestLen : Nat → Nat → Nat

/-- R353: the raw bit streams of index 0x06: the groups and the protection flag of each partition. (DESIGN CHOICE: log 7.) -/
opaque partitionTable : List (BitVec 16 × Bool) → List Byte

/-- R347: where CREATE places an export window among the gaps of a die's address space. (DESIGN CHOICE: log 35.) -/
opaque exportGap : Nat → Nat

/-- R405: the module's power and its hottest sensor, as the sensors read at a clk. (DESIGN CHOICE: log 7.) -/
opaque sensor : Nat → BitVec 24

/-- R220, R395: where CREATE places a partition's arena, and its length, by partition and number of the creation. (DEDUCED: log 26.) -/
opaque arenaLo : Nat → Nat → BitVec 64
opaque arenaLen : Nat → Nat → Nat

/-- R241: which gap of the arena a new physical buffer takes, by number of the placement. (DEDUCED: log 26.) -/
opaque arenaGap : Nat → Nat

/-- R401: the increments of the two HBM byte meters, by partition, meter and number of the step. (DESIGN CHOICE: log 7.) -/
opaque hbmBytes : Nat → Nat → Nat → BitVec 64

/-- R244: which physical page of another package a page of its address space is, by the page's number. (DESIGN CHOICE: log 47.) -/
opaque remotePage : Nat → Nat

/-- R26, R41: how many packets of zeros at the end of a native code object's range are its padding, by the number of the launch's issue. (DESIGN CHOICE: log 47.) -/
opaque codePad : Nat → Nat

/-- R246: how another package's hub answers a lease request: 0 granted, 1 refused, by number of the step. (DEDUCED: log 26.) -/
opaque remoteLease : Nat → Nat

/-- R355, R407: the cause code and the address of records that the spec gives none: link events and thermal trips. (DESIGN CHOICE: log 35.) -/
opaque reportCause : Nat → Nat
opaque reportAddr : Nat → BitVec 64

/-- R361: how many flits have left a pool before a signal, by number of the signal. (DESIGN CHOICE: log 35.) -/
opaque poolDrain : Nat → Nat

/-- R358: how many slots are free at the far end of a link, by number of the step and link. (DESIGN CHOICE: log 35.) -/
opaque farFree : Nat → Nat → Nat

end Sys2Proof.Config
end

