-- ==== Sys2Proof/Machine/State.lean ====
section
/-! DEFINITION. The state of the DZ7800 package as plain data: the cores with their two contexts, the clusters, the
dies' memory side, the hub, the fabric, the partitions with their front ends and task windows, and the host's view;
and `State.reset`, the package right after reset (R13, R383, R399). -/

namespace Sys2Proof.Machine

/-! ### Registers of one context (R17) -/

/-- One accumulator (R174): 256 elements of E8M39 and the side registers .max and .sum. -/
structure Acc where
  elems : Vector AccWord 256
  max : Vector (BitVec 32) 16
  sum : Vector (BitVec 32) 16
deriving DecidableEq, Repr

/-- R13: an accumulator at unit start. -/
def Acc.zero : Acc := ⟨Vector.replicate 256 0, Vector.replicate 16 0, Vector.replicate 16 0⟩

/-- The register files s, p, v, m and a of one context (R17). Entry 0 of s, p and m is hard-wired: the accessors of
Machine/Ops.lean read it as zero, true and all ones and discard writes to it. -/
structure Regs where
  s : Vector Word 32
  p : Vector Bool 8
  v : Vector Vec 32
  m : Vector Mask 8
  acc : Vector Acc 16
deriving DecidableEq, Repr

/-- R13: the registers at unit start, before the level indices are set. -/
def Regs.zero : Regs :=
  ⟨Vector.replicate 32 0, Vector.replicate 8 false, Vector.replicate 32 0, Vector.replicate 8 0,
    Vector.replicate 16 Acc.zero⟩

/-! ### Accesses in flight (R71, R79, R200) -/

/-- A location after the sequencer's address map and the place table (R19, R25): a byte of the core's own TM, of a
cluster's CM, or a global virtual address (R22). -/
inductive Loc where
  | tm (off : Nat)
  | cm (cluster : Fin 64) (off : Nat)
  | glob (va : Word)
deriving DecidableEq, Repr

/-- A part of an access that is performed at once (R200): at most one naturally aligned 8-byte block, or one request.
`off` is its place in the access's data; `pa` is the die-local physical address of a global part, once its access has been
translated (R302). -/
structure Piece where
  loc : Loc
  off : Nat
  len : Nat
  pa : Option Nat
deriving DecidableEq, Repr

/-- How far the access of a queue entry, or its next element, has come (R302, R365, R70). -/
inductive Stage where
  | waiting
  | xlated
  | sent
  | returned (data : List Byte)
  | failed (c : Cause)
deriving DecidableEq, Repr

/-- What a queue entry does when it performs (R71, R201). -/
inductive QKind where
  | ld (dst : BitVec 5) (form : LdForm)
  | ldAcq (dst : BitVec 5) (size : MemSize)
  | vld (dst : BitVec 5)
  | vldElems (dst : BitVec 5)
  | mld (acc : BitVec 4) (raw : Bool)
  | streamRead (q : BitVec 2) (pos : Nat)
  | capLd (pair : BitVec 5)
  | capChk (pd : BitVec 3) (req : BitVec 128)
  | st (release : Bool)
  | vst
  | vstElems
  | mst
  | lsaln
  | amo (dst : BitVec 5) (op : BitVec 4) (size : AmoSize)
  | vamo (bf16 : Bool)
  | qst (token : BitVec 16) (ordered : Bool) (carry0 carry1 : BitVec 16)
  | capDrv (req : BitVec 128) (parent : Option Loc)
  | capSt (src : Loc)
deriving DecidableEq, Repr

/-- One entry of a context's load and store queues (R79): `ld` and `st` say which queue it stands in (AMO and LSALN
stand in both). `opa`, `opb`, `vec` and `mask` are the captured operands of R318; `data` holds the bytes to store, or
those a load has collected. `sure` says that every part of a store has been found to be writable (R70), and `keep` names
the destination registers that a word of a higher index in its bundle has written (R57). -/
structure QEnt where
  id : Nat
  kind : QKind
  ld : Bool
  st : Bool
  ea : Word
  opa : Word
  opb : Word
  vec : Vec
  mask : Mask
  pix : Nat
  todo : List Piece
  data : List Byte
  stage : Stage
  arrival : Nat
  sure : Bool
  keep : List Nat
  pkt : BitVec 32
  wword : Nat
  word : BitVec 32
deriving DecidableEq, Repr

/-- R185, R184: a descriptor-form MMA still fetching. `aTiles` and `bTiles` are the tiles of the steps fetched so far,
`pix` their number, and `bStage` where the fetch of the next step stands. `tile` is the A tile of that step once it has been
read, `parts` the parts still to be read of the tile that is being read, `got` what has been read of it, and `arrival` when
its requests arose (R207). `lost` says that a word of a higher index in its bundle writes its accumulator (R57). -/
structure MmaRun where
  id : Nat
  acc : BitVec 4
  lost : Bool
  remote : Bool
  ty : MmaTy
  aBase : Word
  aCtl : Word
  bBase : Word
  bCtl : Word
  pix : Nat
  aTiles : List (List Byte)
  bTiles : List (List Byte)
  bStage : Stage
  tile : Option (List Byte)
  parts : List Piece
  got : List Byte
  arrival : Nat
  nest : Bool
  pkt : BitVec 32
  wword : Nat
  word : BitVec 32
deriving DecidableEq, Repr

/-- R115, R195: a VQREC or MQNT still writing its record. `vecs` are VQREC's sources; `acc` is MQNT's accumulator; `headed` says
that bytes 0 to 7 of the record stand. -/
structure Quant where
  id : Nat
  arrival : Nat
  fmt : QFmt
  table : BitVec 3
  vecs : List Vec
  acc : Option (BitVec 4)
  addr : Nat
  headed : Bool
  pix : Nat
  pkt : BitVec 32
  wword : Nat
  word : BitVec 32
deriving DecidableEq, Repr

/-- R318: the captured words of the replay queue, each with its deferred fault. -/
inductive Replay where
  | mem (e : QEnt) (cause : Option Cause)
  | mma (r : MmaRun) (cause : Option Cause)
  | quant (q : Quant) (cause : Option Cause)
deriving DecidableEq, Repr

/-- R87: one entry of the loop stack. -/
structure LoopEnt where
  origin : BitVec 32
  first : BitVec 32
  last : BitVec 32
  reg : BitVec 5
deriving DecidableEq, Repr

/-- R120 to R123: a bound stream register: the descriptor image, the next position, and the positions read ahead with
their bytes or the cause kept for them. -/
structure StreamReg where
  desc : List Byte
  pos : Nat
  got : List (Nat × (List Byte ⊕ Cause))
deriving DecidableEq, Repr

/-- R85: a waiting MWAIT: its address, the compare value, the sense, when it must re-read, the read that it makes with the clk in which
its request arose, and the value found. -/
structure MWait where
  ea : Word
  cmp : Word
  eq : Bool
  due : Nat
  stage : Stage
  part : Option Piece
  arrival : Nat
  found : Option Word
deriving DecidableEq, Repr

/-- R169, R172: the nest engine of one context: the serial number of its last start, the two banks of the n-table, the go
bit, the index vector of the next iteration, and the cause of an emission that stopped the run. -/
structure Nest where
  id : Nat
  shadowValid : Bool
  shadow : List Byte
  activeValid : Bool
  active : List Byte
  go : Bool
  idx : Vector (BitVec 16) 6
  fault : Option Cause
  faultAddr : Word
deriving DecidableEq, Repr

/-- The n-table at unit start (R13). -/
def Nest.zero : Nest := ⟨0, false, List.replicate 256 0, false, List.replicate 256 0, false, Vector.replicate 6 0, none, 0⟩

/-- One hardware context of a core (R17, R369). `pc` is the packet index and `word` the first word of the bundle that
issues next. `viaJr` holds the register value of a JR whose target is still to be fetched (R86). `brkSkip` exempts the
next bundle from breakpoints (R328). `waits` is the place in its packet of the word that the next bundle waits for (R320). -/
structure Ctx where
  regs : Regs
  pc : BitVec 32
  word : Nat
  viaJr : Option Word
  loops : List LoopEnt
  mq : List QEnt
  streams : Vector (Option StreamReg) 4
  nest : Nest
  mmas : List MmaRun
  quants : List Quant
  mwait : Option MWait
  brkSkip : Bool
  waits : Option Nat
deriving DecidableEq, Repr

/-- R13: a context at its start. -/
def Ctx.zero : Ctx :=
  ⟨Regs.zero, 0, 0, none, [], [], Vector.replicate 4 none, Nest.zero, [], [], none, false, none⟩

/-! ### One core -/

/-- R83, R84, R363, R364: an allocated token table entry: FLIGHT, or NOTIFY once its store has landed with waiters. `serial`
is the store's number, `limit` the clk of its expiry, `away` the store once it has left its queue, and `resend`
says that HOLDFULL has answered it. -/
structure TokEnt where
  serial : Nat
  fw : Bool
  pkg : Pkg
  die : BitVec 2
  line : Nat
  span : Nat
  ordered : Bool
  limit : Nat
  waiters : List Pkg
  notify : Bool
  expired : Bool
  away : Option QEnt
  resend : Bool
deriving DecidableEq, Repr

/-- R159: an entry of the range guard: a range of TM or CM held as a source or a destination of engine work. -/
structure GuardEnt where
  owner : Nat
  fw : Bool
  lo : Nat
  len : Nat
  dst : Bool
deriving DecidableEq, Repr

/-- R325: what kind of copy stands in a slot. -/
inductive CopyKind where
  | cpy (f k : BitVec 3)
  | sealing
  | unsealing
deriving DecidableEq, Repr

/-- R160, R365: a box in progress: its number, the parts still to be read or, once `writing`, to be written, the bytes that
they move, and when its requests arose (R207). A part on another package whose message has left is in `away`. A box that has failed
is `dead`: it only waits for the answers of such parts. -/
structure BoxRun where
  num : Nat
  writing : Bool
  parts : List Piece
  away : List Piece
  data : List Byte
  arrival : Nat
  dead : Bool
deriving DecidableEq, Repr

/-- R160 to R162: a copy in flight or held: the descriptor as read at issue, the barrier, the places its addresses had
at issue (R25, R313), the boxes credited with their bytes, where the packed records found so far begin (R165), the boxes in
progress, the stamp as one more of them, whether CPYCAN has cancelled it, and what has stopped it: the cause, its address and
the box. -/
structure Copy where
  id : Nat
  gen : BitVec 8
  kind : CopyKind
  desc : List Byte
  barrier : Option (BitVec 11)
  srcLoc : Loc
  dstLoc : Loc
  stampLoc : Option Loc
  boxes : Nat
  credited : List Nat
  bytes : Nat
  recPos : List Nat
  runs : List BoxRun
  nonce : Word
  nest : Bool
  fw : Bool
  held : Bool
  abandoned : Bool
  cancelled : Bool
  fault : Option Cause
  faultAddr : Word
  faultBox : Nat
deriving DecidableEq, Repr

/-- R12, R255, R316: what the core's unit context holds. -/
inductive UnitSt where
  | none
  | running
  | stopped
deriving DecidableEq, Repr

/-- R17: the control registers held per core. FORECAST's HORIZON counts down from the clk `forecastAt` (R266). TOKLIM, HOLDLIM, FSTAT, FHELD and the places are per partition;
PIX is the replay entry's (R318). -/
structure Ctl where
  tcause : BitVec 8
  tpc : BitVec 32
  tword : BitVec 2
  launchid : BitVec 32
  unitid : BitVec 32
  fwshare : BitVec 8
  brk : Vector Word 8
  rampstep : BitVec 16
  forecast : BitVec 32
  forecastAt : Nat
deriving DecidableEq, Repr

/-- R17: the control registers at reset. LAUNCHID and UNITID have no defined value until a unit starts; the model holds
zero. (DESIGN CHOICE: log 4.) -/
def Ctl.zero : Ctl := ⟨0, 0, 0, 0, 0, 0, Vector.replicate 8 0, 0, 0, 0⟩

/-- R375: an event for a core's firmware context. -/
structure EventRec where
  kind : BitVec 8
  part : BitVec 4
  arg0 : Word
  arg1 : Word
deriving DecidableEq, Repr

/-- R321: a fault record. -/
structure FaultRec where
  addr : Word
  pix : BitVec 32
  core : BitVec 9
  tag : BitVec 16
  unitid : BitVec 32
  launch : BitVec 32
  tpc : BitVec 32
  wop : BitVec 8
  source : BitVec 2
  tword : BitVec 2
  cause : BitVec 8
deriving DecidableEq, Repr

/-- R265, R266: the ramp limiter: the allowance, the work started in the window in quarters of a BF16 step, whether a
step waited, when the window ends, and whether UP has just been changed from 0. -/
structure Ramp where
  allow : Nat
  started : Nat
  waited : Bool
  due : Nat
  step : BitVec 16
deriving DecidableEq, Repr

/-- What a trap records beside the state of the unit (R316, R318): the cause, TPC and TWORD, FADDR, PIX, the handle and the box
of a copy, the token entry, the breakpoint, and the code of a TRAP word. -/
structure TrapInfo where
  cause : Cause
  tpc : BitVec 32
  tword : BitVec 2
  addr : Word
  pix : BitVec 32
  handle : BitVec 16
  box : BitVec 16
  tokent : BitVec 8
  brkn : BitVec 3
  tcode : BitVec 11
deriving DecidableEq, Repr

/-- R156, R157: an event on a barrier in the clk in which it took effect: the barrier and the place of the event in the order
of R157. -/
structure BarMark where
  fw : Bool
  bar : Nat
  clk : Nat
  order : Nat
deriving DecidableEq, Repr

/-- R315: causes pending at the next boundary, other than the faults recorded with their words. -/
structure Pend where
  tokens : List (BitVec 8)
  watchdog : Bool
  preempt : Bool
deriving DecidableEq, Repr

/-- R15: a continuation record, with the partition of its launch. `ready` says that its wait condition has been observed
to hold (R258), `stage` where a read of a word of another package stands, and `spot` the place of a spilled record's image in the
overflow area (R260). -/
structure CRec where
  part : Fin 16
  pkt : BitVec 32
  launch : BitVec 32
  index : Vector (BitVec 16) 6
  posted : Bool
  resumed : Bool
  wkind : BitVec 4
  saved : Vector Word 5
  ready : Bool
  stage : Stage
  spot : Option Nat
deriving DecidableEq, Repr

/-- R326: a save in progress: its slot, and once the unit has been seen Stopped, how many of its tokens had expired. -/
structure SaveReq where
  slot : Word
  expired : Option Nat
deriving DecidableEq, Repr

/-- One core: two contexts and what they share. `index` and `resumed` belong to the unit it runs, `codeBase`, `codePackets`
and `native` to that unit's code object, and `heldAt` is when the core came to hold a unit (R401). `ending` stands while a DONE or a
SUSPEND (with its record) that has issued waits for the other words of its own bundle. `trap` is a trap that waits for what
must finish before its frame (R71, R162), with the serial number of the word whose deferred fault it is; `copyRecs` are the
copy records of the last trap (R325); `barMarks` and `cpyAt` hold the barrier events and the program copy of the present clk
(R157, R160). -/
structure Core where
  unit : Ctx
  fw : Ctx
  st : UnitSt
  ctl : Ctl
  index : Vector (BitVec 16) 6
  resumed : Bool
  tokens : Vector (Option TokEnt) 256
  gens : Vector (BitVec 8) 256
  guard : List GuardEnt
  copies : Vector (Option Copy) 256
  copyGens : Vector (BitVec 8) 256
  replay : List Replay
  pend : Pend
  save : Option SaveReq
  heldRec : Option FaultRec
  heldEvents : List EventRec
  issued : Nat
  heldAt : Option Nat
  ending : Option (Option CRec)
  trap : Option (TrapInfo × Option Nat)
  copyRecs : List (Nat × List Byte)
  barMarks : List BarMark
  cpyAt : Option Nat
  shareUsed : Nat
  shareDue : Nat
  ramp : Ramp
  leaseAsk : Option (Word × Bool)
  fwOn : Bool
  codeBase : Word
  codePackets : Nat
  native : Option (List (BitVec 32))
deriving DecidableEq, Repr

/-- A core with no unit and its firmware context at the start of the image (R13, R383). -/
def Core.zero : Core where
  unit := Ctx.zero
  fw := Ctx.zero
  st := .none
  ctl := Ctl.zero
  index := Vector.replicate 6 0
  resumed := false
  tokens := Vector.replicate 256 none
  gens := Vector.replicate 256 0
  guard := []
  copies := Vector.replicate 256 none
  copyGens := Vector.replicate 256 0
  replay := []
  pend := ⟨[], false, false⟩
  save := none
  heldRec := none
  heldEvents := []
  issued := 0
  heldAt := none
  ending := none
  trap := none
  copyRecs := []
  barMarks := []
  cpyAt := none
  shareUsed := 0
  shareDue := 256
  ramp := ⟨32, 0, false, 1024, 0⟩
  leaseAsk := none
  fwOn := true
  codeBase := 0
  codePackets := 0
  native := none

/-! ### Clusters and dies -/

/-- R211: a line resident in an atomic engine, most recently used first in its list. `behind` and `marks` are the bytes and the tagged
granules that memory holds until the line is written back (R350). -/
structure EngLine where
  addr : Nat
  part : Fin 16
  slot : Option (Fin 64)
  behind : List Byte
  marks : List Nat
deriving DecidableEq, Repr

/-- One cluster: its shard (R258), the records of its shard in the overflow area (R260), the edge's lease cache
(R309) and the atomic engine's resident lines (R211). -/
structure Cluster where
  shard : List CRec
  overflow : List CRec
  leaseCache : List Nat
  lines : List EngLine
deriving DecidableEq, Repr

/-- R303, R306: a cached translation: partition, page base address within the die's virtual space, size code and the
leaf entry. -/
structure TlbEnt where
  part : Fin 16
  base : Nat
  size : BitVec 2
  entry : Word
deriving DecidableEq, Repr

/-- R310: an entry of a pin table, with the page address as its tag. TCNT is no field: `pageTcnt` (Machine/Xlate.lean) counts it from the
transfers themselves. -/
structure PinEnt where
  part : Fin 16
  base : Nat
  size : BitVec 2
  lcnt : Nat
  ep : Bool
  mv : Option Word
deriving DecidableEq, Repr

/-- R303, R310: one translation slice. -/
structure Slice where
  l1 : List TlbEnt
  l2 : List TlbEnt
  pins : List PinEnt
deriving DecidableEq, Repr

/-- R339: the leaf of a 4 KiB page. -/
structure Leaf where
  minors : Vector (BitVec 7) 64
  ksel : Bool
  z : Bool
  major : BitVec 61
deriving DecidableEq, Repr

/-- R339: a leaf as it reads after reset or SCRUB. -/
def Leaf.scrubbed : Leaf := ⟨Vector.replicate 64 0, false, true, 0⟩

/-- R334: what a block's tag word binds: the key (by serial number), the block's virtual address, and the counters. -/
structure BlockTag where
  block : Nat
  key : Nat
  va : Word
  major : BitVec 61
  minor : BitVec 7
deriving DecidableEq, Repr

/-- R331: what a run of regions of a die is claimed for (R370, R396). -/
inductive RegionUse where
  | tenant | reserved | exportWindow
deriving DecidableEq, Repr

/-- R396: one claimed region of 2 MiB: its number within the die, its partition, and its use. -/
structure Region where
  num : Nat
  part : Fin 16
  use : RegionUse
deriving DecidableEq, Repr

/-- One compute die's memory side: root registers (R304), slices (R303), page leaves that differ from the scrubbed leaf
by page number (R339), tag words by block (R334), upper-node counters that differ from zero (R340), the nodes of levels 0 to 3 that
the counter engine holds changed and has not written back (R341), poisoned regions, pages and
stacks (R342, R335), blocks in error, claimed regions (R396), regions not yet scrubbed, the pages reported absent (R306), and the pages whose PRES a slice's copy holds as 0 (R311). -/
structure Die where
  roots : Vector Word 16
  slices : Vector Slice 4
  leaves : List (Nat × Leaf)
  tags : List BlockTag
  nodes : List ((Nat × Nat) × Nat)
  changed : List (Nat × Nat)
  badRegions : List Nat
  badPages : List Nat
  badStacks : Vector Bool 2
  badBlocks : List Nat
  regions : List Region
  unscrubbed : List Nat
  absent : List (Fin 16 × Nat)
  evicted : List (Fin 16 × Nat)
deriving DecidableEq, Repr

/-! ### The hub -/

/-- R331: the states of a key slot. -/
inductive KeySt where
  | free | active | retiring | drained
deriving DecidableEq, Repr

/-- R331, R332: a key slot. Keys are known by serial numbers only, because their bits never leave the key unit. -/
structure KeySlot where
  st : KeySt
  cls : BitVec 2
  part : Fin 16
  epoch : Bool
  serial : Nat
  left : Nat
deriving DecidableEq, Repr

/-- R383, R386: the image slots and the trial. -/
structure Images where
  active : Bool
  csvn : BitVec 32
  verified0 : Bool
  verified1 : Bool
  quiesced : Bool
  trial : Bool
  fallback : Bool
  nbeat : BitVec 4
  hblog : BitVec 8
  beats : BitVec 8
  due : Nat
  handover : Word
deriving DecidableEq, Repr

/-- R353: the measurements that change after boot. -/
structure Measures where
  image : BitVec 512
  svn : BitVec 32
  version : BitVec 16
  part : Vector (BitVec 512) 16
deriving DecidableEq, Repr

/-- R336, R337, R367: a stream of sealed messages or flits: its SID, its partition, the other package where a pair transport
key seals it, its epoch and IV counter, and whether it has used its last IV. -/
structure IvStream where
  sid : BitVec 40
  part : Fin 16
  peer : Option Pkg
  epoch : Bool
  iv : Nat
  exhausted : Bool
deriving DecidableEq, Repr

/-- R364: an entry of the hold queue. -/
structure HoldEnt where
  msg : Msg
  part : Fin 16
  shared : Bool
  carry0 : BitVec 16
  carry1 : BitVec 16
  due : Nat
  expired : Bool
  order : Nat
deriving DecidableEq, Repr

/-- R364: an ordered store that HOLDFULL has answered: its core and its token, and the partition that it was for. Later ordered
stores of the core are answered so too until it has come again. -/
structure Refused where
  spkg : Pkg
  core : Fin 512
  token : BitVec 16
deriving DecidableEq, Repr

/-- R355, R360, R361: one Hedgerow link: whether it is up, its round trip K, the slots in use of its 32 reserved
sub-pools and of the shared pool, the pools under STOP, and those of the far receiver whose last signal was STOP. Pool 2i + c is
sub-pool c of index i; pool 32 is shared. -/
structure Link where
  up : Bool
  k : Nat
  used : Vector Nat 33
  stop : Vector Bool 33
  far : Vector Bool 33
  errors : Nat
deriving DecidableEq, Repr

/-- R357, R358: a message waiting to leave the package, with its local partition and the
edge that seals it: when it began to wait, whether it takes
the escape route, and whether it only passes through. -/
structure OutMsg where
  msg : Msg
  part : Option (Fin 16)
  edge : Option (Fin 64)
  since : Nat
  escape : Bool
  transit : Bool
deriving DecidableEq, Repr

/-- R352, R366: an SPDM session: its id, the other package of a pairing session, whether it is in place, and the shared secret of its
KEY_EXCHANGE. -/
structure Session where
  id : BitVec 16
  peer : Option Pkg
  live : Bool
  shared : BitVec 384 := 0
deriving DecidableEq, Repr

/-- R357, R365: a request from another package, or a Quickset store come to its home, that is being performed: the parts still to be
performed, the bytes read or to be written, when its requests arose (R207), and whether every part has been found to be
writable (R70). -/
structure Inward where
  msg : Msg
  part : Fin 16
  parts : List Piece
  data : List Byte
  arrival : Nat
  sure : Bool
deriving DecidableEq, Repr

/-- R356: the fabric registers and the fabric's queues. `inward` holds, in the order the hub delivers them, the requests that are
being performed at this package's memory. `sent` is what has left on each link, as the outside sees it, and
`flying` the requests that have left and not been answered (R331). -/
structure Fabric where
  hfcfg : Word
  fdmap : Vector Word 16
  swport : List (Nat × BitVec 16)
  links : Vector Link 6
  out : List OutMsg
  sent : List (Fin 6 × Msg)
  flying : List (Fin 16 × Msg)
  hold : Vector (Option HoldEnt) 1024
  holdCount : Nat
  refused : List Refused
  inward : List Inward
  sessions : List Session
  nextSession : BitVec 16
deriving DecidableEq, Repr

/-- R392 to R408: the PF's registers. -/
structure Pf where
  regerr : Bool
  scrubbing : BitVec 16
  free : BitVec 16
  admbase : Word
  admtail : BitVec 32
  admhead : BitVec 32
  walltime : Word
  command : BitVec 3
  effect : BitVec 3
  trip1 : Bool
  trip2 : Bool
  logbase : Word
  logtail : BitVec 32
  loghead : BitVec 32
  loglost : BitVec 32
  logHeld : List FaultRec
  usebase : Word
  usetail : BitVec 32
  usehead : BitVec 32
  sercnt : Vector Word 8
  msix : Vector (BitVec 128) 8
  pba : BitVec 8
  regint : Nat
deriving DecidableEq, Repr

/-- The hub: key slots, key numbering and the tree keys, two of each die (R330), image slots (R383), measurements (R353), IV streams (R337), the
random numbers drawn so far, and which partition owns each cluster group (R393). -/
structure Hub where
  keys : Vector KeySlot 64
  nextKey : Nat
  sysKey : Nat
  treeKeys : Vector Nat 8
  drawn : Nat
  bootid : Word
  images : Images
  measures : Measures
  streams : List IvStream
  owner : Vector (Option (Fin 16)) 16
  hostOut : List (Nat × Word)
  answers : List (List Byte)
deriving DecidableEq, Repr

/-! ### Partitions: host queues, front end, task window (R213 to R301) -/

/-- R287, R288: one host queue's registers. -/
structure HostQueue where
  base : Word
  cfg : Word
  tail : BitVec 32
  head : BitVec 32
  done : BitVec 32
  daddr : Word
  parked : Option Nat
  tails : List (BitVec 32 × Nat)
deriving DecidableEq, Repr

/-- R228: an open WLOOP. -/
structure WLoopEnt where
  start : Word
  last : Word
  left : BitVec 32
  n : BitVec 32
deriving DecidableEq, Repr

/-- R225, R226: one level of the stream: its range and its next record, with its open loops, innermost first. -/
structure Level where
  lo : Word
  hi : Nat
  pos : Word
  loops : List WLoopEnt
deriving DecidableEq, Repr

/-- R297: a block that the front end holds for a level (level number from 0 at the bottom): its bytes, their capability
tags, and what its read has found. -/
structure Block where
  level : Nat
  addr : Word
  data : List Byte
  tags : List Bool
  bad : Option Cause
deriving DecidableEq, Repr

/-- R289, R292: a host queue entry taken by the front end: its queue and QTAG, its segment, and how it stands. `num` is the order in
which entries were read, `fenced` says that its FENCE has been performed, `picks` holds the picks that have started or resumed it, the
last first, by number with the position of each, `unwound` the pick from which it is decoded again (R410), and `bad` says that it failed
R290's checks. -/
structure Entry where
  num : Nat
  queue : Fin 4
  qtag : BitVec 16
  irq : Bool
  fence : Bool
  fenced : Bool
  seg : Word
  len : Nat
  iova : Word
  ended : Bool
  status : BitVec 16
  picks : List (Nat × Word)
  unwound : Option (Nat × Word)
  bad : Bool
  parkedAt : Option Word
deriving DecidableEq, Repr

/-- R232: a WSIGNAL decoded and not yet in effect. the entries of a serial below `after` are the older ones. -/
structure Signal where
  entry : Nat
  after : Nat
  add : Bool
  irq : Bool
  vector : BitVec 8
  addr : Word
  value : Word
  pos : Word
deriving DecidableEq, Repr

/-- R240, R285: the stream's state. -/
inductive StrSt where
  | off | idle | running | stopped | halted
deriving DecidableEq, Repr

/-- R227, R231, R236, R230: what decode waits for. -/
inductive DecWait where
  | none
  | wwait (cond : WCond) (addr value mask : Word) (limit : Option Nat)
  | halt (code : BitVec 16)
  | fault (c : Cause) (pos : Word) (wop : BitVec 8) (entryFault : Bool)
deriving DecidableEq, Repr

/-- R242: one version of a renamable buffer: a physical buffer of the arena. `writer` is the serial of the entry that
writes it while it is pending. -/
structure Version where
  num : Nat
  addr : Word
  writer : Nat
  committed : Bool
deriving DecidableEq, Repr

/-- R215, R220: a logical buffer. A name dropped by WFREE keeps its record while versions or entries need it. -/
structure Buf where
  id : BitVec 12
  uid : Nat
  live : Bool
  fixed : Bool
  depth : Nat
  size : Nat
  base : Word
  arena : Bool
  versions : List Version
deriving DecidableEq, Repr

/-- R222, R247: an operand of a window entry: mode (1 IN, 2 OUT, 3 INOUT, 0 kernel), the buffer, its version if
renamable, and the range. -/
structure Operand where
  slot : Nat
  mode : BitVec 2
  buf : Nat
  version : Option Nat
  addr : Word
  len : Nat
  write : Bool
deriving DecidableEq, Repr

/-- R246, R314: where a lease request stands; `retried` is one that PRESENT has had tried again. -/
inductive LeaseSt where
  | asked | retried | granted | failed (c : Cause)
deriving DecidableEq, Repr

/-- R240: the states of a window entry that is not Free. -/
inductive WinSt where
  | waiting | ready | running | complete | faulted
deriving DecidableEq, Repr

/-- R224, R240, R250 to R253: one window entry. `node` is a graph node's number with the buffers of its graph's plan, `readyAt` the clk
in which it became Ready, and `picked` the number of the pick under which it was decoded (R410). -/
structure WinEnt where
  serial : Nat
  launch : BitVec 32
  st : WinSt
  tag : BitVec 16
  pre : Bool
  counts : Vector (BitVec 16) 6
  order : BitVec 18
  params : Vector Word 16
  ops : List Operand
  leases : List LeaseSt
  code : Word
  codeLen : Nat
  packets : Nat
  native : Option (List (BitVec 32))
  levels : List Nat
  edges : List Nat
  entry : Nat
  pos : Word
  checkpoint : List Level
  node : Option (Nat × List Nat)
  handed : Nat
  outstanding : Nat
  cause : Option Cause
  faultUnit : BitVec 32
  cancelled : Bool
  readyAt : Nat
  picked : Nat
deriving DecidableEq, Repr

/-- R253: a level counter slot: kind 1 graph, 2 phase, 3 job. -/
structure Counter where
  uid : Nat
  kind : BitVec 2
  id : BitVec 16
  closed : Bool
  count : Nat
deriving DecidableEq, Repr

/-- R308: a lease: task leases name the window entry that holds them. -/
structure Lease where
  id : Nat
  lo : Word
  len : Nat
  write : Bool
  holder : Option Nat
deriving DecidableEq, Repr

/-- R380, R382: a run of a Topiary policy: the fields of the four queues as they stood at PICK. -/
structure TopRun where
  pc : Nat
  stack : List (BitVec 32)
  locals : Vector (BitVec 32) 8
  loopPc : Option Nat
  visit : Nat
  passes : Nat
  choice : Option (Fin 4)
  slice : BitVec 32
  fields : Vector (Vector (BitVec 32) 6) 4
  last : Nat
deriving DecidableEq, Repr

/-- R233, R267 to R273: a graph whose nodes are entering the window: its record, the nodes with their parameters, those
that have entered (by serial), its edges, its level counter and the buffers of its plan. -/
structure GraphRun where
  pos : Word
  pre : Bool
  nodes : List (WTaskRec × Vector Word 16)
  done : List (Option Nat)
  edges : List (Nat × Nat)
  gid : BitVec 16
  level : Nat
  plan : List Nat
deriving DecidableEq, Repr

/-- R250, R251: a window fault whose entries are still to leave the window: what the stream stops with. -/
structure WinStop where
  cause : BitVec 8
  pos : Word
  levels : List Level
  node : Option (Nat × List Nat)
  entry : Nat
  order : Nat
deriving DecidableEq, Repr

/-- R285 to R301: one partition's stream front end. `levels` is the call stack, innermost first; `graph` is the graph in
decode, and `node` where in its graph a restart takes up (R251); `skip` says that decode goes on after the record at its position (R285). -/
structure Front where
  st : StrSt
  halt : BitVec 16
  cause : BitVec 8
  veclost : Bool
  regerr : Bool
  pos : Word
  cntsel : Word
  aperbase : Word
  queues : Vector HostQueue 4
  msix : Vector (BitVec 128) 64
  pba : Word
  levels : List Level
  blocks : List Block
  entries : List Entry
  current : Option Nat
  nextEntry : Nat
  nextPick : Nat
  lastPick : Fin 4
  pick : Option Nat
  signals : List Signal
  wait : DecWait
  restart : List Level
  graph : Option GraphRun
  node : Option (Nat × List Nat)
  sliceLen : Nat
  sliceUsed : Nat
  skip : Bool
deriving DecidableEq, Repr

/-- R238 to R256: one partition's task window and its level counters. `entries` is in decode order, oldest first. -/
structure Window where
  entries : List WinEnt
  nextSerial : Nat
  nextLaunch : BitVec 32
  bufs : List Buf
  nextUid : Nat
  counters : List Counter
  phase : Nat
  job : Nat
  phaseId : BitVec 16
  jobId : BitVec 16
  pointer : Nat
  stop : Option WinStop
deriving DecidableEq, Repr

/-- R397: partition states. -/
inductive PartSt where
  | free | creating | live | destroying | wiping
deriving DecidableEq, Repr

/-- R351: TDI states. -/
inductive TdiSt where
  | unlocked | locked | run | error
deriving DecidableEq, Repr

/-- R15, R326: what a saved context holds that the bytes of its slot do not show (R324): the level indices with which the unit started,
and whether it started from a record. (DESIGN CHOICE: log 23.) -/
structure SavedUnit where
  slot : Nat
  launch : BitVec 32
  index : Vector (BitVec 16) 6
  resumed : Bool
deriving DecidableEq, Repr

/-- One partition: its configuration (R283, R395), the registers mirrored in its cores (R17), its leases (R308), its
companding slots (R145), its policy (R379), its meters (R401) and usage chain (R402), and its held fault records
(R323). `overflowAt` holds the flat addresses of the regions of its overflow area (R260). -/
structure Part where
  st : PartSt
  prot : Bool
  groups : BitVec 16
  left : BitVec 32
  tdi : TdiSt
  wiped : Bool
  fdid : BitVec 16
  places : Vector Word 64
  toklim : BitVec 32
  holdlim : BitVec 32
  head : BitVec 13
  tail : BitVec 13
  heldFront : Option FaultRec
  heldWindow : Option FaultRec
  heldHub : List FaultRec
  leases : List Lease
  nextLease : Nat
  exportLo : Word
  exportLen : Nat
  secret : Option (BitVec 512)
  bound : Option (BitVec 16)
  tables : Vector (Option CompTable) 4
  faultBase : Nat
  saves : List Nat
  overflowAt : List Nat
  usedSlots : List Nat
  saved : List SavedUnit
deriving DecidableEq, Repr

/-- R246, R365: an access that the hub makes to another package's memory, or to its own through an atomic engine, for a partition: what
it is for, its range, the bytes that have come, and where its message stands. -/
structure HubAsk where
  key : Nat
  addr : Word
  len : Nat
  got : List Byte
  stage : Stage
deriving DecidableEq, Repr

/-- The rest of a partition: the map entries of its creation (R395, R398), arena, policy, meters and usage chain, and the accesses that
the hub makes for it. -/
structure PartAux where
  maps : List (BitVec 128)
  arenaLo : Word
  arenaLen : Nat
  policy : List (BitVec 16)
  locals : Vector (BitVec 32) 8
  run : Option TopRun
  front : Front
  window : Window
  meters : Vector Word 16
  meterInt : BitVec 32
  meterDue : Nat
  created : Nat
  useSeq : Nat
  usePrev : BitVec 512
  usePend : Option (BitVec 8)
  asks : List HubAsk
deriving DecidableEq, Repr

/-! ### The package -/

/-- What may happen by itself: the turn of an agent that is no instruction stream. Each names the row of the opcode
table whose meaning it runs (Machine/Sched.lean). -/
inductive Event where
  | mwaitReread (core : Fin 512) (fw : Bool)
  | streamRead (core : Fin 512) (fw : Bool)
  | mmaTileFetch (core : Fin 512) (fw : Bool)
  | mmaAccumulate (core : Fin 512) (fw : Bool)
  | nestEmit (core : Fin 512) (fw : Bool)
  | deferredFault (core : Fin 512) (fw : Bool)
  | loadReturn (core : Fin 512) (fw : Bool)
  | storePerform (core : Fin 512) (fw : Bool)
  | leaseLookup (core : Fin 512) (fw : Bool)
  | translate (core : Fin 512) (fw : Bool)
  | counterWrite (core : Fin 512) (fw : Bool)
  | quantBlockWritten (core : Fin 512) (fw : Bool)
  | copyBox (core : Fin 512) (slot : Fin 256)
  | copyStamp (core : Fin 512) (slot : Fin 256)
  | resumeRecord (core : Fin 512)
  | takeTrap (core : Fin 512)
  | tokenExpire (core : Fin 512)
  | watchdog (core : Fin 512)
  | rampWindow (core : Fin 512)
  | saveWrite (core : Fin 512)
  | shardWatch (cluster : Fin 64) (idx : Fin 1024)
  | overflowRefill (cluster : Fin 64)
  | bankRequest (cluster : Fin 64) (bank : Fin 64)
  | atomicEngineRequest (cluster : Fin 64)
  | nodeWriteback (die : Fin 4) (level : Fin 9) (node : BitVec 25)
  | inval (die : Fin 4)
  | invalAll (die : Fin 4)
  | evict (die : Fin 4)
  | evictComplete (die : Fin 4)
  | migrate (die : Fin 4)
  | migrateMove (die : Fin 4)
  | present (die : Fin 4)
  | refuse (die : Fin 4)
  | keyDrained (slot : Fin 64)
  | memSweep (part : Fin 16)
  | handUnit (part : Fin 16)
  | wwaitReread (part : Fin 16)
  | wwaitLimit (part : Fin 16)
  | wsignalEffect (part : Fin 16)
  | haltEffect (part : Fin 16)
  | streamFault (part : Fin 16)
  | fetchBlock (part : Fin 16)
  | leaseGrant (part : Fin 16)
  | issueLaunch (part : Fin 16)
  | retire (part : Fin 16)
  | faultReport (part : Fin 16)
  | cancel (part : Fin 16)
  | pick (part : Fin 16)
  | pickTimeout (part : Fin 16)
  | sliceExpire (part : Fin 16)
  | entryComplete (part : Fin 16)
  | pickq (part : Fin 16)
  | abandon (part : Fin 16)
  | save (part : Fin 16)
  | restore (part : Fin 16)
  | intervalCut (part : Fin 16)
  | regintBoundary
  | create | destroy | wipe | meter
  | heartbeatMissed
  | holdExpire (entry : Fin 1024)
  | escapeRoute (idx : Fin 256)
  | inward
deriving DecidableEq, Repr

/-- Whose turn the next step is: an issue of the acting context, a stream record or a Topiary operation of the acting
partition, an event, or what the outside world does next. (DESIGN CHOICE: log 32.) -/
inductive Turn where
  | issue
  | stream
  | topiary
  | event (e : Event)
  | input
deriving DecidableEq, Repr

/-- What the outside world, or firmware by means that the spec does not give, does to the package: an event that a row of the
opcode table names; a write of host memory; a signal of the receiver at the far end of a link (R361); a policy given to a partition (R379); a root register written (R304); a standing
lease created or released (R308); a read of BAR0 of a VF or of the PF, or a write of it of any size (R281); an access of BAR0 or BAR2 of a
VF by a request that is not on its TDI's IDE stream with the T bit set, a TDISP or SPDM request that is not supported
(R351, R352); and a read of BAR2 of the PF (R392). (DESIGN CHOICE: log 32.) -/
inductive Input where
  | event (i : Instr)
  | hostWrite (iova : Word) (bytes : List Byte)
  | linkSignal (link : Fin 6) (pool : Fin 33) (stop : Bool)
  | policy (p : Fin 16) (ops : List (BitVec 16))
  | root (d : Fin 4) (p : Fin 16) (value : Word)
  | grantLease (p : Fin 16) (lo : Word) (len : Nat) (write : Bool)
  | releaseLease (p : Fin 16) (id : Nat)
  | barRead (fn : Option (Fin 16)) (offset : BitVec 16) (bytes : Nat)
  | barWrite (fn : Option (Fin 16)) (offset : BitVec 16) (bytes : Nat) (value : Word)
  | plainBar0 (p : Fin 16) (offset : BitVec 16) (bytes : Nat) (value : Option Word)
  | plainBar2 (p : Fin 16) (offset : BitVec 34) (size : MemSize) (value : Option Word)
  | attestOther
  | pfBar2Read (offset : BitVec 21) (size : MemSize)
deriving DecidableEq, Repr

/-- How the word in hand ended, beyond its effect: it goes on, it waits at issue, it has taken a trap, or the context
does not go on from its bundle (DONE, SUSPEND, TRAP, SLOTSW). -/
inductive Mark where
  | none | stall | trap | ended
deriving DecidableEq, Repr

/-- R86: where a taken branch goes: a packet, or the whole value of JR's register. -/
inductive Redirect where
  | packet (i : BitVec 32)
  | register (a : Word)
deriving DecidableEq, Repr

/-- The package. `core`, `fw` and `part` name the acting core, context and partition; `snap` holds the register
sources of a bundle in progress (R28); `since` the first serial number of its queue entries; `redirect` is
the target of a taken branch (R86); `word` and `iword` are the place in its packet and the bits of the word in hand, and `last` the place of its bundle's
last word. `tick` and `clk` count steps and
time for the free choices of Config (R4). `inbox` holds what the outside world will do next. -/
structure State where
  cores : Vector Core 512
  clusters : Vector Cluster 64
  dies : Vector Die 4
  parts : Vector Part 16
  aux : Vector PartAux 16
  hub : Hub
  fabric : Fabric
  pf : Pf
  mem : List Host.Cell
  caps : List Nat
  core : Fin 512
  fw : Bool
  part : Fin 16
  turn : Turn
  inbox : List Input
  snap : Option Regs
  mark : Mark
  since : Nat
  redirect : Option Redirect
  word : Nat
  last : Nat
  iword : BitVec 32
  serial : Nat
  tick : Nat
  clk : Nat
  free : Nat
deriving DecidableEq, Repr

/-! ### Reset -/

/-- A cluster after reset: SCRUB kind 1 has been applied (R399). -/
def Cluster.zero : Cluster := ⟨[], [], [], []⟩

/-- A slice with nothing cached. -/
def Slice.zero : Slice := ⟨[], [], []⟩

/-- A die after reset: no page tables, every leaf reads as scrubbed (R399). -/
def Die.zero : Die :=
  ⟨Vector.replicate 16 0, Vector.replicate 4 Slice.zero, [], [], [], [], [], [], Vector.replicate 2 false, [], [], [], [],
    []⟩

/-- R376, R335: die 0 after the hub has written the directory: the block of the directory has been written once, under
the system key. -/
def Die.reset : Die :=
  { Die.zero with
    leaves := [(0x1FC0000, { Leaf.scrubbed with minors := (Vector.replicate 64 0).set 0 1 })]
    tags := [⟨0x1FC0000 * 64, 0, 0, 0, 1⟩] }

/-- R331: a FREE key slot. -/
def KeySlot.zero : KeySlot := ⟨.free, 0, 0, false, 0, 0⟩

/-- R383: the image slots after the boot ROM has verified the ACTIVE image. (DESIGN CHOICE: log 4.) -/
def Images.reset : Images := ⟨false, 0, true, false, false, false, false, 0, 0, 0, 0, 0⟩

/-- A link that is down (R356). -/
def Link.zero : Link := ⟨false, 0, Vector.replicate 33 0, Vector.replicate 33 false, Vector.replicate 33 false, 0⟩

/-- R356: the fabric after reset. -/
def Fabric.zero : Fabric :=
  ⟨0, Vector.replicate 16 0, [], Vector.replicate 6 Link.zero, [], [], [], Vector.replicate 1024 none, 0, [], [], [], 0⟩

/-- R282: an MSI-X entry at reset, masked as PCI Express has it. (PRESUMED: log 5.) -/
def msixReset : BitVec 128 := BitVec.ofNat 128 (2 ^ 96)

/-- R392: the PF's registers after reset. All cluster groups have been scrubbed by the boot ROM (R399), so they are
free. -/
def Pf.zero : Pf :=
  { regerr := false, scrubbing := 0, free := 0, admbase := 0, admtail := 0, admhead := 0, walltime := 0,
    command := 1, effect := 1, trip1 := false, trip2 := false, logbase := 0, logtail := 0, loghead := 0, loglost := 0,
    logHeld := [], usebase := 0, usetail := 0, usehead := 0, sercnt := Vector.replicate 8 0,
    msix := Vector.replicate 8 msixReset, pba := 0, regint := 0 }

/-- R353, R384: the SHA-512 of an image slot that holds zeros: a header of 64 bytes and a signature of 512. -/
def zeroImageDigest : BitVec 512 :=
  0xA34819C51B8729E5FCD54885800EED3FFF9E54A0A582734F8318DBAE2606544C6D648561B668B9DBE9C77B889DAA3C9792DB21AA9F130C754D834678F6E18F56

/-- The hub after reset: fresh tree and system keys (R399), every slot FREE. -/
def Hub.reset : Hub :=
  { keys := Vector.replicate 64 KeySlot.zero, nextKey := 9, sysKey := 0, treeKeys := Vector.ofFn fun i => 1 + i.val, drawn := 1, bootid := Config.random 0,
    images := Images.reset, measures := ⟨zeroImageDigest, 0, 0, Vector.replicate 16 0⟩, streams := [],
    owner := Vector.replicate 16 none, hostOut := [], answers := [] }

/-- R282: a host queue's registers at reset. -/
def HostQueue.zero : HostQueue := ⟨0, 0, 0, 0, 0, 0, none, []⟩

/-- R285: a stream that is Off. -/
def Front.zero : Front :=
  { st := .off, halt := 0, cause := 0, veclost := false, regerr := false, pos := 0, cntsel := 0, aperbase := 0,
    queues := Vector.replicate 4 HostQueue.zero, msix := Vector.replicate 64 msixReset, pba := 0, levels := [], blocks := [],
    entries := [], current := none, nextEntry := 0, nextPick := 0, lastPick := 3, pick := none, signals := [], wait := .none,
    restart := [], graph := none, node := none, sliceLen := 0, sliceUsed := 0, skip := false }

/-- R239, R234: an empty window, in job 0 and phase 0. (DESIGN CHOICE: log 4.) -/
def Window.zero : Window := ⟨[], 0, 1, [], 0, [], 0, 0, 0, 0, 0, none⟩

/-- A partition that is FREE (R397). -/
def Part.zero : Part :=
  { st := .free, prot := false, groups := 0, left := 0, tdi := .unlocked, wiped := true, fdid := 0xFFFF,
    places := Vector.replicate 64 0, toklim := 0x00100000, holdlim := 0x00100000, head := 0, tail := 0,
    heldFront := none, heldWindow := none, heldHub := [], leases := [], nextLease := 0, exportLo := 0, exportLen := 0,
    secret := none, bound := none, tables := Vector.replicate 4 none, faultBase := 0, saves := [], overflowAt := [], usedSlots := [], saved := [] }

/-- The rest of a FREE partition. -/
def PartAux.zero : PartAux :=
  { maps := [], arenaLo := 0, arenaLen := 0, policy := [], locals := Vector.replicate 8 0, run := none, front := Front.zero,
    window := Window.zero, meters := Vector.replicate 16 0, meterInt := 0, meterDue := 0, created := 0, useSeq := 0,
    usePrev := 0, usePend := none, asks := [] }

/-- R376: the firmware directory address (the spec's example value; DESIGN CHOICE in the assumption log). (DESIGN CHOICE: log 4.) -/
def dirAddr : Word := 0x8000001FC0000000

/-- R376: the addresses that the directory names: the package ring, the rings of partitions and of slices, the handover
area and the update status word. The spec's example gives the last two; the others are a DESIGN CHOICE of the assumption
log. (DESIGN CHOICE: log 4.) -/
def pkgRingAddr : Word := dirAddr + 0x20000
def partRingAddr : Word := dirAddr + 0x30000
def sliceRingAddr : Word := dirAddr + 0x60000
def hoverAddr : Word := dirAddr + 0x10000
def updstatAddr : Word := dirAddr + 0x40

/-- R376: the firmware directory. -/
def dirBytes : List Byte :=
  ([1, pkgRingAddr, partRingAddr, sliceRingAddr, hoverAddr, 0, updstatAddr, 0] : List Word).flatMap fun w => leBytes 8 w.toNat

/-- R376: the memory after reset: the directory that the hub has written, at its place on die 0. (DESIGN CHOICE: log 3.) -/
def resetMem : List Host.Cell :=
  (dirBytes.zipIdx).filterMap fun (b, i) => if b = 0 then none else some (2 ^ 40 + 0x1FC0000000 + i, b)

/-- R383: the start state of core n's firmware context: cold boot, so s1 = 0 and s2 = 0; s3 is the directory address
and s4 the core number. The ENTRY packet of an image slot that reads as zero is 0. (DESIGN CHOICE: log 4.) -/
def Core.boot (n : Nat) : Core :=
  let r := Regs.zero
  { Core.zero with
    fw := { Ctx.zero with regs := { r with s := (r.s.set 3 dirAddr).set 4 (BitVec.ofNat 64 n) } } }

/-- The package right after reset (R399, R383): the boot ROM has scrubbed every core and cluster, no partition exists,
and every firmware context stands at the entry of the ACTIVE image. The first turn is an issue of core 0's firmware
context. -/
def State.reset : State :=
  { cores := ⟨((List.range 512).map Core.boot).toArray, by simp⟩
    clusters := Vector.replicate 64 Cluster.zero
    dies := (Vector.replicate 4 Die.zero).set 0 Die.reset
    parts := Vector.replicate 16 Part.zero
    aux := Vector.replicate 16 PartAux.zero
    hub := Hub.reset
    fabric := Fabric.zero
    pf := Pf.zero
    mem := resetMem
    caps := []
    core := 0
    fw := true
    part := 0
    turn := .issue
    inbox := []
    snap := none
    mark := .none
    since := 0
    redirect := none
    word := 0
    last := 0
    iword := 0
    serial := 0
    tick := 0
    clk := 0
    free := 0 }

/-! ### How a step can stop -/

/-- The faults of the model. There are none: every fault of the machine is a trap that is taken (R316), a restart of the
firmware context (R372), or an answer, and every access that the spec forbids has one of these. -/
inductive Fault where
deriving DecidableEq, Repr

/-- The refusals of the model. -/
inductive Refusal where
  /-- Raised by the dispatcher for an instruction that has no meaning in the model yet. Safe: the run ends. -/
  | notModelled (mnemonic : String)
deriving DecidableEq, Repr

end Sys2Proof.Machine
end

