-- ==== Sys2Proof/Machine/Memory.lean ====
section
/-! DEFINITION. The byte stores of the package as one list of cells in canonical form, and the hidden capability tags of
their 16-byte granules (R19, R344). Every space has its own range of addresses: TM of core c, CM of cluster k, the HBM
of die d, image slot i, and the host's memory by IOVA. -/

namespace Sys2Proof.Machine

/-- What a byte that the list does not name reads as: zero, as scrubbing leaves it (R399, R339). (DESIGN CHOICE: log 3.) -/
def unlisted : Byte := 0

/-- The canonical form: addresses strictly rising, and no cell that reads as an unlisted one. (DESIGN CHOICE: log 3.) -/
def Memory.wf : List Host.Cell → Bool
  | [] => true
  | (a, b) :: rest => b != unlisted && (match rest with | [] => true | (c, _) :: _ => decide (a < c)) && Memory.wf rest

/-- One byte. (DESIGN CHOICE: log 3.) -/
def readByte : List Host.Cell → Nat → Byte
  | [], _ => unlisted
  | (a, b) :: rest, x => if a = x then b else readByte rest x

/-- The list with one byte written. (DESIGN CHOICE: log 3.) -/
def writeByte : List Host.Cell → Nat → Byte → List Host.Cell
  | [], x, v => if v = unlisted then [] else [(x, v)]
  | (a, b) :: rest, x, v =>
    if x < a then (if v = unlisted then (a, b) :: rest else (x, v) :: (a, b) :: rest)
    else if x = a then (if v = unlisted then rest else (a, v) :: rest)
    else (a, b) :: writeByte rest x v

/-- `n` bytes from an address. -/
def readMem (m : List Host.Cell) (a n : Nat) : List Byte := (List.range n).map fun i => readByte m (a + i)

/-- The list with bytes written from an address on. -/
def writeMem (m : List Host.Cell) (a : Nat) : List Byte → List Host.Cell
  | [] => m
  | b :: bs => writeMem (writeByte m a b) (a + 1) bs

/-- The list with a range of addresses cleared (SCRUB, R350). -/
def clearMem (m : List Host.Cell) (a n : Nat) : List Host.Cell := m.filter fun c => !(decide (a ≤ c.1) && decide (c.1 < a + n))

/-! ### Spaces -/

/-- A byte of a core's TM. (DESIGN CHOICE: log 3.) -/
def tmAddr (c : Fin 512) (off : Nat) : Nat := c.val * 2 ^ 20 + off

/-- A byte of a cluster's CM. (DESIGN CHOICE: log 3.) -/
def cmAddr (k : Fin 64) (off : Nat) : Nat := 2 ^ 30 + k.val * 2 ^ 23 + off

/-- A byte of a die's physical address space (R338). (DESIGN CHOICE: log 3.) -/
def hbmAddr (d : Fin 4) (p : Nat) : Nat := 2 ^ 40 + d.val * 2 ^ 37 + p

/-- A byte of an image slot (R383). (DESIGN CHOICE: log 3.) -/
def imageAddr (slot : Bool) (off : Nat) : Nat := 2 ^ 44 + slot.toNat * 2 ^ 20 + off

/-- A byte of host memory by IOVA (R279). (DESIGN CHOICE: log 3.) -/
def hostAddr (iova : Nat) : Nat := 2 ^ 64 + iova

/-! ### Capability tags (R344) -/

/-- The granules of a range lose their tags. -/
def clearCaps (caps : List Nat) (a n : Nat) : List Nat :=
  if n = 0 then caps else caps.filter fun g => !(decide (a / 16 ≤ g) && decide (g ≤ (a + n - 1) / 16))

/-- The granule of an address gains its tag. The list stays in rising order. -/
def setCap : List Nat → Nat → List Nat
  | [], g => [g]
  | x :: xs, g => if g < x then g :: x :: xs else if g = x then x :: xs else x :: setCap xs g

/-- Bytes of the package's memory. -/
def State.load (s : State) (a n : Nat) : List Byte := readMem s.mem a n

/-- A number of `n` bytes, little-endian (R3). -/
def State.loadNat (s : State) (a n : Nat) : Nat := leNat (s.load a n)

/-- Bytes are written, and the granules they touch lose their tags (R344). -/
def State.store (s : State) (a : Nat) (bs : List Byte) : State :=
  { s with mem := writeMem s.mem a bs, caps := clearCaps s.caps a bs.length }

/-- A number is written as `n` bytes. -/
def State.storeNat (s : State) (a n x : Nat) : State := s.store a (leBytes n x)

/-- A capability write: 16 bytes and the tag at once (R344). -/
def State.storeCap (s : State) (a : Nat) (bs : List Byte) : State :=
  { s with mem := writeMem s.mem a bs, caps := setCap (clearCaps s.caps a bs.length) (a / 16) }

/-- A range becomes zero and untagged (R350). -/
def State.zero (s : State) (a n : Nat) : State := { s with mem := clearMem s.mem a n, caps := clearCaps s.caps a n }

/-- Whether the granule of an address is tagged. -/
def State.tagged (s : State) (a : Nat) : Bool := s.caps.contains (a / 16)

/-! ### Association lists kept in rising order -/

/-- The list with the value of a key set. -/
def assocSet {α : Type} : List (Nat × α) → Nat → α → List (Nat × α)
  | [], k, v => [(k, v)]
  | (a, b) :: rest, k, v =>
    if k < a then (k, v) :: (a, b) :: rest else if k = a then (k, v) :: rest else (a, b) :: assocSet rest k v

/-- The list with a key removed. -/
def assocDel {α : Type} (l : List (Nat × α)) (k : Nat) : List (Nat × α) := l.filter fun e => e.1 != k

end Sys2Proof.Machine
end

