-- ==== Sys2Proof/Machine/Operands.lean ====
section
/-! DEFINITION. The registers of the acting context and the operand forms of tile words: the hard-wired entries (R17),
the guard (R56), the immediates (R54) and effective addresses (R68). Register sources are read from the snapshot of the
bundle in progress, if there is one (R28). -/

namespace Sys2Proof.Machine

/-- A vector with one entry set. -/
def vput {α : Type} {n : Nat} (v : Vector α n) (i : Fin n) (x : α) : Vector α n := v.set i.val x i.isLt

/-- The number as an index below `n`, wrapped. -/
def ix (n : Nat) [NeZero n] (i : Nat) : Fin n := Fin.ofNat n i

/-! ### The acting context -/

/-- The acting core. -/
def State.cur (s : State) : Core := s.cores[s.core]

/-- One context of a core. -/
def Core.ctx (c : Core) (fw : Bool) : Ctx := if fw then c.fw else c.unit

/-- A core with one context replaced. -/
def Core.setCtx (c : Core) (fw : Bool) (x : Ctx) : Core := if fw then { c with fw := x } else { c with unit := x }

/-- The acting context. -/
def State.ctx (s : State) : Ctx := s.cur.ctx s.fw

/-- A core is replaced. -/
def State.putCore (s : State) (i : Fin 512) (c : Core) : State := { s with cores := vput s.cores i c }

/-- The acting core is replaced. -/
def State.setCur (s : State) (c : Core) : State := s.putCore s.core c

/-- The acting context is replaced. -/
def State.setCtx (s : State) (x : Ctx) : State := s.setCur (s.cur.setCtx s.fw x)

/-- A partition is replaced. -/
def State.putPart (s : State) (i : Fin 16) (p : Part) : State := { s with parts := vput s.parts i p }

/-- The rest of a partition is replaced. -/
def State.putAux (s : State) (i : Fin 16) (p : PartAux) : State := { s with aux := vput s.aux i p }

/-- A cluster is replaced. -/
def State.putCluster (s : State) (i : Fin 64) (c : Cluster) : State := { s with clusters := vput s.clusters i c }

/-- A die is replaced. -/
def State.putDie (s : State) (i : Fin 4) (d : Die) : State := { s with dies := vput s.dies i d }

/-- The cluster of a core (R321: core n is 128·die + 8·cluster + core). -/
def clusterOf (c : Fin 512) : Fin 64 := ix 64 (c.val / 8)

/-- The die of a core. -/
def dieOf (c : Fin 512) : Fin 4 := ix 4 (c.val / 128)

/-- The die of a cluster. -/
def dieOfCluster (k : Fin 64) : Fin 4 := ix 4 (k.val / 16)

/-- R393: the partition that owns a cluster's group of four. -/
def State.partOfCluster (s : State) (k : Fin 64) : Option (Fin 16) := s.hub.owner[ix 16 (k.val / 4)]

/-- The partition of a core. -/
def State.partOf (s : State) (c : Fin 512) : Option (Fin 16) := s.partOfCluster (clusterOf c)

/-- The partition of the acting core. -/
def State.curPart (s : State) : Option (Fin 16) := s.partOf s.core

/-- R401: a meter of a partition counts on. -/
def State.count (s : State) (p : Option (Fin 16)) (i : Fin 16) (n : Nat) : State :=
  match p with
  | some p =>
    let a := s.aux[p]
    s.putAux p { a with meters := vput a.meters i (a.meters[i] + BitVec.ofNat 64 n) }
  | none => s

/-! ### Registers -/

/-- R17: an s register. s0 reads zero. -/
def Regs.getS (r : Regs) (i : BitVec 5) : Word := if i = 0 then 0 else r.s[i.toNat]'i.isLt

/-- R17: an s register is written. A write to s0 is discarded. -/
def Regs.setS (r : Regs) (i : BitVec 5) (x : Word) : Regs := if i = 0 then r else { r with s := r.s.set i.toNat x i.isLt }

/-- R17: a predicate. p0 reads true. -/
def Regs.getP (r : Regs) (i : BitVec 3) : Bool := if i = 0 then true else r.p[i.toNat]'i.isLt

/-- R17: a predicate is written. A write to p0 is discarded. -/
def Regs.setP (r : Regs) (i : BitVec 3) (x : Bool) : Regs := if i = 0 then r else { r with p := r.p.set i.toNat x i.isLt }

/-- R17: a vector register. -/
def Regs.getV (r : Regs) (i : BitVec 5) : Vec := r.v[i.toNat]'i.isLt

/-- A vector register is written. -/
def Regs.setV (r : Regs) (i : BitVec 5) (x : Vec) : Regs := { r with v := r.v.set i.toNat x i.isLt }

/-- R17: a mask register. m0 reads all ones. -/
def Regs.getM (r : Regs) (i : BitVec 3) : Mask := if i = 0 then BitVec.allOnes 256 else r.m[i.toNat]'i.isLt

/-- R17: a mask register is written. A write to m0 is discarded. -/
def Regs.setM (r : Regs) (i : BitVec 3) (x : Mask) : Regs := if i = 0 then r else { r with m := r.m.set i.toNat x i.isLt }

/-- R174: an accumulator. -/
def Regs.getA (r : Regs) (i : BitVec 4) : Acc := r.acc[i.toNat]'i.isLt

/-- An accumulator is written. -/
def Regs.setA (r : Regs) (i : BitVec 4) (x : Acc) : Regs := { r with acc := r.acc.set i.toNat x i.isLt }

/-- The registers that the acting context's word reads (R28). -/
def State.src (s : State) : Regs := s.snap.getD s.ctx.regs

/-- An s register as a source. -/
def State.rs (s : State) (i : BitVec 5) : Word := s.src.getS i

/-- A predicate as a source. -/
def State.rp (s : State) (i : BitVec 3) : Bool := s.src.getP i

/-- A vector register as a source. -/
def State.rv (s : State) (i : BitVec 5) : Vec := s.src.getV i

/-- A mask register as a source. -/
def State.rm (s : State) (i : BitVec 3) : Mask := s.src.getM i

/-- An accumulator as a source. -/
def State.ra (s : State) (i : BitVec 4) : Acc := s.src.getA i

/-- The acting context's registers change. -/
def State.setRegs (s : State) (r : Regs) : State := s.setCtx { s.ctx with regs := r }

/-- An s register of the acting context is written. -/
def State.wrS (s : State) (i : BitVec 5) (x : Word) : State := s.setRegs (s.ctx.regs.setS i x)

/-- A predicate of the acting context is written. -/
def State.wrP (s : State) (i : BitVec 3) (x : Bool) : State := s.setRegs (s.ctx.regs.setP i x)

/-- A vector register of the acting context is written. -/
def State.wrV (s : State) (i : BitVec 5) (x : Vec) : State := s.setRegs (s.ctx.regs.setV i x)

/-- A mask register of the acting context is written. -/
def State.wrM (s : State) (i : BitVec 3) (x : Mask) : State := s.setRegs (s.ctx.regs.setM i x)

/-- An accumulator of the acting context is written. -/
def State.wrA (s : State) (i : BitVec 4) (x : Acc) : State := s.setRegs (s.ctx.regs.setA i x)

/-! ### Guard, immediates and addresses -/

/-- What a step answers. -/
abbrev Out := Host.Outcome State Fault Refusal

/-- R56: a word whose guard is false changes nothing. -/
def guarded (h : Head) (s : State) (f : State → Out) : Out := if s.rp h.g then f s else .next s

/-- R54: an 11-bit signed immediate. -/
def imm11 (i : BitVec 11) : Word := i.signExtend 64

/-- R54: an 8-bit signed immediate. -/
def imm8 (i : BitVec 8) : Word := i.signExtend 64

/-- R62: the bytes of an access. -/
def memBytes : MemSize → Nat
  | .b8 => 1 | .b16 => 2 | .b32 => 4 | .b64 => 8

/-- R62: the bytes of an LD form. -/
def ldBytes : LdForm → Nat
  | .u8 => 1 | .u16 => 2 | .u32 => 4 | .u64 => 8 | .s8 => 1 | .s16 => 2 | .s32 => 4

/-- R62: the bytes of an AMO. -/
def amoBytes : AmoSize → Nat
  | .w32 => 4 | .w64 => 8

/-- R54, R68: the effective address of a scaled signed offset. -/
def effAddr (base : Word) (o : BitVec 8) (scale : Nat) : Word := base + BitVec.ofInt 64 (o.toInt * scale)

end Sys2Proof.Machine
end

