-- ==== Sys2Proof/Machine/Protect.lean ====
section
/-! DEFINITION. The protected memory path (R330 to R342): which key a block is under, reading a block against its tag
word, and the counter engine's writes. Ciphertext is not held: memory holds what the owner reads, and a tag word names
the key, the address and the counters that its TAG binds (R334), so that a block opens exactly when all of them match. -/

namespace Sys2Proof.Machine

/-- Under whose key an access to a die's memory is made: the system key, or a partition's MEM key at a global address
of the access's first byte (R330, R370). (PRESUMED: log 6.) -/
inductive MemKey where
  | system
  | mem (p : Fin 16) (va : Word)
deriving DecidableEq, Repr

/-- R331: the serial number of the partition's MEM key with an epoch bit, if the key still exists. -/
def memSlot (s : State) (p : Fin 16) (epoch : Bool) : Option KeySlot :=
  s.hub.keys.toList.find? fun k => k.st != .free && k.cls == 0 && k.part == p && k.epoch == epoch

/-- R331: the partition's ACTIVE key slot of a class. -/
def activeSlot (s : State) (p : Fin 16) (cls : BitVec 2) : Option KeySlot :=
  s.hub.keys.toList.find? fun k => k.st == .active && k.cls == cls && k.part == p

/-- R330: the key of an access of a partition. An unprotected partition uses the system key. -/
def partKey (s : State) (p : Fin 16) (va : Word) : MemKey := if s.parts[p].prot then .mem p va else .system

/-- R338: whether a die-local physical address exists: two stacks of 64 GiB. -/
def usable (p : Nat) : Bool := decide (p < 2 ^ 37)

/-- R339: the leaf of a page. -/
def leafOf (d : Die) (page : Nat) : Leaf := (d.leaves.lookup page).getD Leaf.scrubbed

/-- R341: a node has changed in the counter engine's cache. -/
def touchNode (d : Die) (level node : Nat) : Die :=
  if d.changed.contains (level, node) then d else { d with changed := (level, node) :: d.changed }

/-- R341: a leaf is written. -/
def setLeaf (d : Die) (page : Nat) (l : Leaf) : Die := touchNode { d with leaves := assocSet d.leaves page l } 0 page

/-- The minor counter of a block. -/
def minorOf (l : Leaf) (block : Nat) : BitVec 7 := l.minors[ix 64 block]

/-- R334: the tag word of a block. -/
def tagOf (d : Die) (block : Nat) : Option BlockTag := d.tags.find? fun t => t.block == block

/-- A tag word is written. -/
def setTag (d : Die) (t : BlockTag) : Die := { d with tags := t :: d.tags.filter fun u => u.block != t.block }

/-- R342: the poison that an access to a page meets. -/
def poisonAt (d : Die) (page : Nat) : Option Cause :=
  if d.badStacks[ix 2 (page / 2 ^ 24)] then some .poison
  else if d.badRegions.contains (page / 2 ^ 9) || d.badPages.contains page then some .integrity
  else none

/-- R347: whether an address lies in a region claimed as an export window, whose bytes are stored with no encryption,
no tags and no counters. (DEDUCED: log 17.) -/
def inExport (d : Die) (p : Nat) : Bool := d.regions.any fun r => r.use == .exportWindow && r.num == p / 2 ^ 21

/-- The va that a block's tag binds: the block's address, or zero under the system key. (DEDUCED: log 49.) -/
def blockVa (k : MemKey) (off : Nat) : Word :=
  match k with
  | .system => 0
  | .mem _ va => (va + BitVec.ofNat 64 off) &&& ~~~63

/-- The serial number of the key that a page's KSEL selects, or none when it has been destroyed. -/
def keyFor (s : State) (k : MemKey) (ksel : Bool) : Option Nat :=
  match k with
  | .system => some s.hub.sysKey
  | .mem p _ => (memSlot s p ksel).map (·.serial)

/-- R334, R339: whether a block opens. A block whose minor is 0 on a page with Z = 1 reads as zero with no check. (PRESUMED: log 6.) -/
def blockOpens (s : State) (d : Fin 4) (block : Nat) (k : MemKey) (va : Word) : Bool :=
  let die := s.dies[d]
  let l := leafOf die (block / 64)
  if l.z && minorOf l block == 0 then !die.badBlocks.contains block
  else
    match tagOf die block, keyFor s k l.ksel with
    | some t, some key =>
      t.key == key && t.va == va && t.major == l.major && t.minor == minorOf l block && !die.badBlocks.contains block
    | _, _ => false

/-- The blocks that `n` bytes from a physical address touch. -/
def blocksOf (p n : Nat) : List Nat :=
  if n = 0 then [] else (List.range ((p + n - 1) / 64 + 1 - p / 64)).map (p / 64 + ·)

/-- R334, R342: a read of a die's memory. -/
def hbmRead (s : State) (d : Fin 4) (p n : Nat) (k : MemKey) : Except Cause (List Byte) :=
  let die := s.dies[d]
  if !usable p || !usable (p + n - 1) then .error .unmapped
  else match (blocksOf p n).findSome? fun b => poisonAt die (b / 64) with
  | some c => .error c
  | none =>
    if (if inExport die p then (blocksOf p n).all fun b => !die.badBlocks.contains b
        else (blocksOf p n).all fun b => blockOpens s d b k (blockVa k (64 * b - 64 * (p / 64)))) then
      .ok (s.load (hbmAddr d p) n)
    else .error .integrity

/-- R335: the page's blocks that hold data, by number. -/
def usedBlocks (l : Leaf) (page : Nat) : List Nat := ((List.range 64).filter fun i => minorOf l i != 0).map (64 * page + ·)

/-- The va of a block of a page, from the va of another block of it. -/
def vaOf (k : MemKey) (from_ block : Nat) : Word :=
  match k with
  | .system => 0
  | .mem _ va => ((va >>> 6) + BitVec.ofNat 64 block - BitVec.ofNat 64 from_) <<< 6

/-- R335: a page is swept to the ACTIVE key: its blocks are re-encrypted with their counters kept, and KSEL flips. A
block that does not open keeps its old tag word. -/
def sweepPage (s : State) (d : Fin 4) (page : Nat) (k : MemKey) (block : Nat) : State :=
  match k with
  | .system => s
  | .mem p _ =>
    let die := s.dies[d]
    let l := leafOf die page
    match activeSlot s p 0 with
    | some a =>
      if a.epoch = l.ksel then s
      else
        let tags := die.tags.map fun t =>
          if t.block / 64 == page && blockOpens s d t.block k (vaOf k block t.block) then { t with key := a.serial } else t
        s.putDie d (setLeaf { die with tags := tags } page { l with ksel := a.epoch })
    | none => s

/-- R335: a block's minor advances, and its tag word is made anew. Past 127 the page is re-keyed: major advances, every
block in use takes minor 1, and the block minor 2. -/
def advanceBlock (s : State) (d : Fin 4) (block : Nat) (k : MemKey) (va : Word) : Except Cause State :=
  let die := s.dies[d]
  let page := block / 64
  let l := leafOf die page
  match keyFor s k l.ksel with
  | none => .error .integrity
  | some key =>
    let bad := die.badBlocks.filter (· != block)
    if (minorOf l block).toNat < 127 then
      let m := minorOf l block + 1
      let die := setLeaf die page { l with minors := vput l.minors (ix 64 block) m }
      .ok (s.putDie d { setTag die ⟨block, key, va, l.major, m⟩ with badBlocks := bad })
    else if l.major.toNat + 1 = 2 ^ 61 then .error .integrity
    else if (usedBlocks l page).all fun b => b == block || blockOpens s d b k (vaOf k block b) then
      let major := l.major + 1
      let minors := Vector.ofFn fun i : Fin 64 =>
        if i = ix 64 block then 2 else if l.minors[i] != 0 then 1 else 0
      let die := (usedBlocks l page).foldl (fun e b => setTag e ⟨b, key, vaOf k block b, major, 1⟩) die
      let die := setTag die ⟨block, key, va, major, 2⟩
      .ok (s.putDie d { setLeaf die page { l with minors := minors, major := major } with badBlocks := bad })
    else .error .integrity

/-- R335: whether a page's major would pass its limit at a write of one of its blocks. -/
def pageFull (d : Die) (block : Nat) : Bool :=
  let l := leafOf d (block / 64)
  (minorOf l block).toNat == 127 && l.major.toNat + 1 == 2 ^ 61

/-- R335: one block of a write: swept first, verified when the write is partial, and advanced. -/
def writeBlock (s : State) (d : Fin 4) (p block : Nat) (full : Bool) (k : MemKey) : Except Cause State :=
  let va := blockVa k (64 * block - 64 * (p / 64))
  let s := sweepPage s d (block / 64) k block
  if full || blockOpens s d block k va then advanceBlock s d block k va else .error .integrity

/-- The blocks that runs of bytes from a physical address touch, each once. -/
def runBlocks (p : Nat) (runs : List (Nat × List Byte)) : List Nat :=
  (runs.flatMap fun (o, bs) => blocksOf (p + o) bs.length).eraseDups

/-- How many bytes of a block runs of bytes from a physical address write. -/
def bytesIn (p : Nat) (runs : List (Nat × List Byte)) (block : Nat) : Nat :=
  (runs.map fun (o, bs) => min (p + o + bs.length) (64 * block + 64) - max (p + o) (64 * block)).sum

/-- R335, R342: a write of runs of bytes to a die's memory, one action on every block that it touches. Nothing is written when
any of its blocks fails. -/
def hbmRuns (s : State) (d : Fin 4) (p : Nat) (runs : List (Nat × List Byte)) (k : MemKey) : Except Cause State :=
  let die := s.dies[d]
  let blocks := runBlocks p runs
  if blocks.any fun b => !usable (64 * b) then .error .unmapped
  else match blocks.findSome? fun b => poisonAt die (b / 64) with
  | some c => .error c
  | none =>
    let put (t : State) : State := runs.foldl (fun u (o, bs) => u.store (hbmAddr d (p + o)) bs) t
    if inExport die p then
      if blocks.any fun b => die.badBlocks.contains b && bytesIn p runs b != 64 then .error .integrity
      else .ok (put (s.putDie d { die with badBlocks := die.badBlocks.filter fun b => !(blocks.contains b && bytesIn p runs b == 64) }))
    else
      match blocks.foldlM (fun t b => writeBlock t d p b (bytesIn p runs b == 64) k) s with
      | .ok t => .ok (put t)
      | .error c => .error c

/-- R335, R342: a write to a die's memory. -/
def hbmWrite (s : State) (d : Fin 4) (p : Nat) (bs : List Byte) (k : MemKey) : Except Cause State := hbmRuns s d p [(0, bs)] k

/-- The hub's and firmware's own writes to reserved device memory, at a flat address of a die, under the system key. A
write that fails changes nothing. -/
def devWrite (s : State) (flat : Nat) (bs : List Byte) : State :=
  let x := flat % 2 ^ 40
  match hbmWrite s (ix 4 (x / 2 ^ 37)) (x % 2 ^ 37) bs .system with
  | .ok t => t
  | .error _ => s

/-- The hub's reads of reserved device memory. A block that does not open reads as zeros. -/
def devRead (s : State) (flat n : Nat) : List Byte :=
  let x := flat % 2 ^ 40
  match hbmRead s (ix 4 (x / 2 ^ 37)) (x % 2 ^ 37) n .system with
  | .ok bs => bs
  | .error _ => List.replicate n 0

/-- R370: the flat address of the die-local physical memory that a firmware address names. (DEDUCED: log 20.) -/
def devAddr (va : Word) : Nat := hbmAddr (ix 4 (va.toNat / 2 ^ 49)) (va.toNat % 2 ^ 40)

/-- R22, R356: this package's coordinates. -/
def ownPkg (s : State) : Pkg := s.fabric.hfcfg.extractLsb' 20 12

/-- R22: the package that a global address names. -/
def pkgOf (va : Word) : Pkg := va.extractLsb' 51 12

/-- R22: the die that a global address names. -/
def dieOfVa (va : Word) : Fin 4 := ix 4 (va.toNat / 2 ^ 49)

/-- R22: the offset within the die's virtual space. -/
def offsetOf (va : Word) : Nat := va.toNat % 2 ^ 49

/-- R370: the firmware's name of a die-local physical address of this package. -/
def fwName (s : State) (d : Fin 4) (p : Nat) : Word :=
  BitVec.ofNat 64 (2 ^ 63 + (ownPkg s).toNat * 2 ^ 51 + d.val * 2 ^ 49 + p)

/-- The partition that holds a region of a die. -/
def regionOwner (s : State) (d : Fin 4) (r : Nat) : Option (Fin 16) :=
  (s.dies[d].regions.find? fun e => e.num == r).map (·.part)

end Sys2Proof.Machine
end

