-- ==== Sys2Proof/Machine/Events.lean ====
section
/-! DEFINITION. What the hardware reports: events to firmware contexts (R374, R375), fault records (R321 to R323), the
package log (R407), and interrupts to the host (R294, R392). -/

namespace Sys2Proof.Machine

/-! ### Causes -/

/-- R18: the causes. -/
def causes : List Cause :=
  [Cause.illegalOp, .illegalChain, .pipeClash, .priv, .misalign, .straddle, .unmapped, .leaseOut, .capTag, .capBounds, .capPerm,
    .integrity, .poison, .keyExhaust, .tokenExpire, .barrierRange, .copyShape, .format, .remote, .brk, .trapInsn, .preempt,
    .watchdog, .streamIllegal, .keySoon, .holdExpire, .fenceOrder]

/-- R18: the cause of a code. -/
def causeOf (x : BitVec 8) : Option Cause := causes.find? fun c => c.code == x

/-- R18: the code of a cause that the spec leaves open: that of one of the causes. (DESIGN CHOICE: log 35.) -/
def freeCause (n : Nat) : BitVec 8 := ((causes[Config.reportCause n % 27]?).getD .remote).code

/-! ### Interrupts -/

/-- R293, R392: an MSI-X vector is raised: with its entry unmasked, the message leaves for the host; otherwise its
pending bit is set. Bit 96 of an entry is its mask. (PRESUMED: log 5.) -/
def pfRaise (s : State) (v : Fin 8) : State :=
  let e := s.pf.msix[v]
  if e.getLsbD 96 then { s with pf := { s.pf with pba := s.pf.pba ||| BitVec.ofNat 8 (2 ^ v.val) } }
  else { s with hub := { s.hub with hostOut := s.hub.hostOut ++ [(e.toNat % 2 ^ 64, (e >>> 64).setWidth 32 |>.setWidth 64)] } }

/-- R281, R293: a vector of a partition's VF is raised. (PRESUMED: log 5.) -/
def vfRaise (s : State) (p : Fin 16) (v : Fin 64) : State :=
  let f := s.aux[p].front
  let e := f.msix[v]
  if e.getLsbD 96 then
    s.putAux p { s.aux[p] with front := { f with pba := f.pba ||| BitVec.ofNat 64 (2 ^ v.val) } }
  else { s with hub := { s.hub with hostOut := s.hub.hostOut ++ [(e.toNat % 2 ^ 64, (e >>> 64).setWidth 32 |>.setWidth 64)] } }

/-! ### The event ring (R374) -/

/-- Where the ring's counters and records stand in TM. -/
def evCount : Nat := 0x7E000
def evTaken : Nat := 0x7E008

/-- R374: whether the ring of a core has space. (DEDUCED: log 43.) -/
def ringFree (s : State) (c : Fin 512) : Bool :=
  ahead (s.loadNat (tmAddr c evCount) 8) (s.loadNat (tmAddr c evTaken) 8) != 64

/-- R375: the bytes of an event record that is counted as number `seq`. (DEDUCED: log 43.) -/
def eventBytes (e : EventRec) (seq : Nat) : List Byte :=
  leBytes 4 (e.kind.toNat + 2 ^ 8 * e.part.toNat) ++ leBytes 4 (seq % 2 ^ 32) ++ leBytes 8 e.arg0.toNat ++
    leBytes 8 e.arg1.toNat ++ leBytes 8 0

/-- R374: an event enters the ring: its record, and then EVCOUNT. (DEDUCED: log 43.) -/
def enterEvent (s : State) (c : Fin 512) (e : EventRec) : State :=
  let n := s.loadNat (tmAddr c evCount) 8
  let s := s.store (tmAddr c (0x7E040 + 32 * (n % 64))) (eventBytes e ((n + 1) % 2 ^ 64))
  s.storeNat (tmAddr c evCount) 8 ((n + 1) % 2 ^ 64)

/-- R374: an event is delivered, or held while the ring is full or earlier events are held. (DEDUCED: log 43.) -/
def deliver (s : State) (c : Fin 512) (e : EventRec) : State :=
  let core := s.cores[c]
  if core.heldEvents.isEmpty && ringFree s c then enterEvent s c e
  else s.putCore c { core with heldEvents := core.heldEvents ++ [e] }

/-- R372: a FWFAULT event is delivered ahead of every held event. (DEDUCED: log 43.) -/
def deliverFirst (s : State) (c : Fin 512) (e : EventRec) : State :=
  let core := s.cores[c]
  if ringFree s c then enterEvent s c e else s.putCore c { core with heldEvents := e :: core.heldEvents }

/-- R374: held events enter, in the order in which they arose, while the ring has space. (DEDUCED: log 43.) -/
def pumpEvents : Nat → State → Fin 512 → State
  | 0, s, _ => s
  | n + 1, s, c =>
    match s.cores[c].heldEvents with
    | [] => s
    | e :: rest =>
      if ringFree s c then pumpEvents n (enterEvent (s.putCore c { s.cores[c] with heldEvents := rest }) c e) c else s

/-- R374: a store of the firmware context to its own work area. A write of EVTAKEN that would pass EVCOUNT or move it
backward is ignored, and space that it frees lets held events in. -/
def afterWorkStore (old s : State) (c : Fin 512) : State :=
  let taken := s.loadNat (tmAddr c evTaken) 8
  let before := old.loadNat (tmAddr c evTaken) 8
  if taken = before then s
  else
    let count := old.loadNat (tmAddr c evCount) 8
    if ahead taken before ≤ ahead count before then pumpEvents 64 s c
    else s.storeNat (tmAddr c evTaken) 8 before

/-- R375: the duty core of a partition is core 0 of its place 0. -/
def dutyCore (s : State) (p : Fin 16) : Fin 512 := ix 512 (8 * (s.parts[p].places[(0 : Fin 64)].toNat % 64))

/-- An event for a partition's duty core. -/
def tell (s : State) (p : Fin 16) (kind : BitVec 8) (arg0 arg1 : Word) : State :=
  deliver s (dutyCore s p) ⟨kind, BitVec.ofNat 4 p.val, arg0, arg1⟩

/-! ### Fault records (R321 to R323) -/

/-- R321: the bytes of a fault record. -/
def faultBytes (r : FaultRec) : List Byte :=
  leBytes 1 r.cause.toNat ++ leBytes 1 (r.tword.toNat + 4 * r.source.toNat) ++ leBytes 1 r.wop.toNat ++ leBytes 1 0 ++
    leBytes 4 r.tpc.toNat ++ leBytes 4 r.launch.toNat ++ leBytes 4 r.unitid.toNat ++ leBytes 2 r.tag.toNat ++
    leBytes 2 r.core.toNat ++ leBytes 4 r.pix.toNat ++ leBytes 8 r.addr.toNat

/-- A hub record with a cause and an address. -/
def hubRec (c : Cause) (addr : Word) : FaultRec := ⟨addr, 0, 0, 0, 0, 0, 0, 0, 3, 0, c.code⟩

/-- The cores of a partition that hold a fault record, in rising order. -/
def holdingCores (s : State) (p : Fin 16) : List (Fin 512) :=
  (List.finRange 512).filter fun c => s.cores[c].heldRec.isSome && s.partOf c == some p

/-- R322: how many records of a partition are held. -/
def heldCount (s : State) (p : Fin 16) : Nat :=
  (holdingCores s p).length + s.parts[p].heldFront.toList.length + s.parts[p].heldWindow.toList.length +
    s.parts[p].heldHub.length

/-- R322: whether the buffer is full. -/
def faultFull (s : State) (p : Fin 16) : Bool := s.parts[p].tail - s.parts[p].head == 4096

/-- R321, R322: a record enters the buffer, TAIL counts it, and firmware is signalled. -/
def enterRecord (s : State) (p : Fin 16) (r : FaultRec) : State :=
  let part := s.parts[p]
  let s := devWrite s (part.faultBase + 32 * (part.tail.toNat % 4096)) (faultBytes r)
  let s := s.putPart p { s.parts[p] with tail := part.tail + 1 }
  tell s p 0x05 ((part.tail + 1).setWidth 64) (BitVec.ofNat 64 (r.cause.toNat + 2 ^ 8 * r.source.toNat))

/-- R323: whether a new record must be held. -/
def mustHold (s : State) (p : Fin 16) : Bool := faultFull s p || heldCount s p != 0

/-- R375: the TRAP event of a core. -/
def trapEvent (s : State) (c : Fin 512) : State :=
  let p := (s.partOf c).getD 0
  deliver s c ⟨0x01, BitVec.ofNat 4 p.val, s.cores[c].ctl.tcause.setWidth 64, s.cores[c].ctl.unitid.setWidth 64⟩

/-- R316, R323: the record of a unit trap, with its TRAP event when it enters. -/
def unitRecord (s : State) (c : Fin 512) (r : FaultRec) : State :=
  match s.partOf c with
  | none => trapEvent s c
  | some p =>
    if mustHold s p then s.putCore c { s.cores[c] with heldRec := some r }
    else trapEvent (enterRecord s p r) c

/-- R216: the record of a front end. -/
def frontRecord (s : State) (p : Fin 16) (r : FaultRec) : State :=
  if mustHold s p then s.putPart p { s.parts[p] with heldFront := some r } else enterRecord s p r

/-- R250: the record of a task window. -/
def windowRecord (s : State) (p : Fin 16) (r : FaultRec) : State :=
  if mustHold s p then s.putPart p { s.parts[p] with heldWindow := some r } else enterRecord s p r

/-- R364: an expired store is dropped in the clk in which its record enters. -/
def dropExpired (s : State) (p : Fin 16) (addr : Word) : State :=
  let hit (h : Option HoldEnt) : Bool :=
    match h with
    | some e => e.expired && e.part == p && e.msg.addr == addr
    | none => false
  match (List.finRange 1024).find? fun i => hit s.fabric.hold[i] with
  | some i => { s with fabric := { s.fabric with hold := vput s.fabric.hold i none } }
  | none => s

/-- R323: what the hub's source does when its record enters. -/
def hubEntered (s : State) (p : Fin 16) (r : FaultRec) : State :=
  if r.cause = Cause.holdExpire.code then dropExpired s p r.addr else s

/-- R323: a record of the hub, held at its source or written. -/
def hubRecord (s : State) (p : Fin 16) (r : FaultRec) : State :=
  if mustHold s p then s.putPart p { s.parts[p] with heldHub := s.parts[p].heldHub ++ [r] }
  else hubEntered (enterRecord s p r) p r

/-- R335, R342: a page whose major would pass its limit is poisoned like a region, and its partition is told. -/
def poisonFullPage (s : State) (d : Fin 4) (block : Nat) : State :=
  let die := s.dies[d]
  let page := block / 64
  if !pageFull die block || die.badPages.contains page then s
  else
    let s := s.putDie d { die with badPages := page :: die.badPages }
    match regionOwner s d (page / 512) with
    | some q => hubRecord s q (hubRec .integrity (fwName s d (4096 * page)))
    | none => s

/-- The state that a failed write leaves: R335's poison for a page at its limit. -/
def hbmFail (s : State) (d : Fin 4) (p n : Nat) : State := (blocksOf p n).foldl (fun t b => poisonFullPage t d b) s

/-- R323: held records enter while the buffer has space: units in rising CORE order, then the front end's, the window's
and the hub's. -/
def releaseHeld : Nat → State → Fin 16 → State
  | 0, s, _ => s
  | n + 1, s, p =>
    if faultFull s p then s
    else
      let part := s.parts[p]
      match holdingCores s p with
      | c :: _ =>
        match s.cores[c].heldRec with
        | some r =>
          releaseHeld n (trapEvent (enterRecord (s.putCore c { s.cores[c] with heldRec := none }) p r) c) p
        | none => s
      | [] =>
        match part.heldFront, part.heldWindow, part.heldHub with
        | some r, _, _ => releaseHeld n (enterRecord (s.putPart p { part with heldFront := none }) p r) p
        | none, some r, _ => releaseHeld n (enterRecord (s.putPart p { part with heldWindow := none }) p r) p
        | none, none, r :: rest =>
          releaseHeld n (hubEntered (enterRecord (s.putPart p { part with heldHub := rest }) p r) p r) p
        | none, none, [] => s

/-! ### The package log (R407) -/

/-- A log record enters the host's ring, and vector 1 is raised. -/
def enterLog (s : State) (r : FaultRec) : State :=
  let a := hostAddr ((s.pf.logbase.toNat + 32 * (s.pf.logtail.toNat % 4096)) % 2 ^ 64)
  pfRaise { s.store a (faultBytes r) with pf := { s.pf with logtail := s.pf.logtail + 1 } } 1

/-- R407: a log record is written, held (up to 64), or counted as lost. -/
def logRecord (s : State) (r : FaultRec) : State :=
  if s.pf.logHeld.isEmpty && s.pf.logtail - s.pf.loghead != 4096 then enterLog s r
  else if s.pf.logHeld.length < 64 then { s with pf := { s.pf with logHeld := s.pf.logHeld ++ [r] } }
  else if s.pf.loglost = BitVec.allOnes 32 then s
  else { s with pf := { s.pf with loglost := s.pf.loglost + 1 } }

/-- R407: held log records enter once space frees. -/
def releaseLog : Nat → State → State
  | 0, s => s
  | n + 1, s =>
    match s.pf.logHeld with
    | [] => s
    | r :: rest =>
      if s.pf.logtail - s.pf.loghead != 4096 then releaseLog n (enterLog { s with pf := { s.pf with logHeld := rest } } r)
      else s

/-- A package log record: TAG holds the partition, or 0xFFFF for the package. -/
def logRec (c : Cause) (tag : BitVec 16) (core : BitVec 9) (addr : Word) : FaultRec :=
  ⟨addr, 0, core, tag, 0, 0, 0, 0, 3, 0, c.code⟩

/-! ### A TDI in ERROR (R351) -/

/-- R254: every entry of a partition's window is cancelled; CANCEL (Machine/Window.lean) carries it out. -/
def cancelWindow (s : State) (p : Fin 16) : State :=
  let w := s.aux[p].window
  s.putAux p { s.aux[p] with window := { w with entries := w.entries.map fun e => { e with cancelled := true } } }

/-- R351: a TDI that is locked or running goes to ERROR: its stream is Stopped and its window's entries are cancelled. (DEDUCED: log 39.) -/
def tdiToError (s : State) (p : Fin 16) : State :=
  if s.parts[p].tdi = .locked ∨ s.parts[p].tdi = .run then
    let s := cancelWindow (s.putPart p { s.parts[p] with tdi := .error }) p
    let f := s.aux[p].front
    if f.st = .off ∨ f.st = .stopped then s
    else
      let pos : Word := match f.current, f.levels with
        | some _, l :: _ => l.pos
        | _, _ => 0
      let f := { f with st := .stopped, cause := 0, pos := pos, restart := f.levels, blocks := [], wait := .none, pick := none }
      vfRaise (s.putAux p { s.aux[p] with front := f, run := none }) p 0
  else s

end Sys2Proof.Machine
end

