-- ==== Sys2Proof/Machine/Xlate.lean ====
section
/-! DEFINITION. Address translation at the owning die (R302 to R306), the firmware context's untranslated addresses
(R370), and reads and writes of global memory of this package through them. -/

namespace Sys2Proof.Machine

/-- The answer of an action that may fault, or that must wait. -/
inductive Res (α : Type) where
  | ok (a : α)
  | fail (c : Cause)
  | wait
deriving DecidableEq, Repr

/-- R307: the size of a page by its code. -/
def pageSize (code : BitVec 2) : Nat := if code = 0 then 2 ^ 16 else if code = 1 then 2 ^ 21 else 2 ^ 30

/-- What a walk finds: a leaf entry with its size code, or a fault with its report to firmware: the kind of R375 and
the size code and address that the report names. -/
inductive Walk where
  | leaf (entry : Word) (size : BitVec 2)
  | absent (size : BitVec 2)
  | bad (table : Nat)
  | none
deriving DecidableEq, Repr

/-- R305: the lowest index bit of a level, how many index bits it has, and the size code of its leaves. -/
def levelShift : Nat → Nat
  | 0 => 16 | 1 => 21 | 2 => 30 | _ => 39
def levelBits : Nat → Nat
  | 0 => 5 | 1 => 9 | 2 => 9 | _ => 10
def levelSize : Nat → BitVec 2
  | 0 => 0 | 1 => 1 | _ => 2

/-- R306: whether an entry with V = 1 breaks the layout at a level. (DEDUCED: log 25.) -/
def badEntry (level : Nat) (e : Word) : Bool :=
  let leaf := e.getLsbD 62
  let addr := e.toNat % 2 ^ 40
  let align := if leaf then pageSize (levelSize level) else if level = 1 then 256 else 4096
  e.extractLsb' 40 18 != 0 || e.extractLsb' 0 8 != 0 || (leaf && level == 3) || (!leaf && level == 0) ||
    addr % align != 0 || decide (2 ^ 37 ≤ addr) || (e.getLsbD 58 && e.getLsbD 59) ||
    (!leaf && !(e.getLsbD 61 && e.getLsbD 60 && e.getLsbD 59 && !e.getLsbD 58))

/-- R305, R306: the walk from the table of a level. (DEDUCED: log 25.) -/
def walkFrom (s : State) (d : Fin 4) (off : Nat) : Nat → Nat → Walk
  | 0, table => walkEntry 0 table (fun _ => .bad table)
  | level + 1, table => walkEntry (level + 1) table (walkFrom s d off level)
where
  /-- One entry of a table. -/
  walkEntry (level table : Nat) (next : Nat → Walk) : Walk :=
    let i := off / 2 ^ levelShift level % 2 ^ levelBits level
    let e : Word := BitVec.ofNat 64 (leNat (devRead s (hbmAddr d (table + 8 * i)) 8))
    if !e.getLsbD 63 then .none
    else if badEntry level e then .bad table
    else if !e.getLsbD 62 then next (e.toNat % 2 ^ 40)
    else if e.getLsbD 61 then .leaf e (levelSize level)
    else .absent (levelSize level)

/-- R304, R306: the walk of an offset of a partition on a die. A page that an EVICT has removed is absent (R311). -/
def walk (s : State) (d : Fin 4) (p : Fin 16) (off : Nat) : Walk :=
  let root := s.dies[d].roots[p]
  match (if root.getLsbD 0 then walkFrom s d off 3 (root.toNat / 2 ^ 13 * 2 ^ 13 % 2 ^ 40) else .none) with
  | .leaf e size =>
    if s.dies[d].evicted.contains (p, off / pageSize size * pageSize size) then .absent size else .leaf e size
  | r => r

/-- R303: whether a cached entry covers an offset of a partition. -/
def tlbHit (p : Fin 16) (off : Nat) (t : TlbEnt) : Bool := t.part == p && t.base == off / pageSize t.size * pageSize t.size

/-- R303, R310: an entry joins a cache of a capacity; from a full one the oldest entry leaves that no pin keeps. (DEDUCED: log 25.) -/
def tlbFill (cap : Nat) (keep : TlbEnt → Bool) (l : List TlbEnt) (t : TlbEnt) : List TlbEnt :=
  if l.contains t then l
  else if l.length < cap then t :: l
  else t :: (l.reverse.eraseP fun e => !keep e).reverse

/-! ### Transfers and pins (R310) -/

/-- Whether two ranges meet. -/
def rangesMeet (a n b m : Nat) : Bool := decide (a < b + m) && decide (b < a + n)

/-- A page of a partition within a die's virtual space: its base and its size code. -/
structure Page where
  part : Fin 16
  base : Nat
  size : BitVec 2
deriving DecidableEq, Repr

/-- The bytes of a page. -/
def Page.bytes (g : Page) : Nat := pageSize g.size

/-- Whether a part that has been translated lies in a page of a die. -/
def Page.touches (g : Page) (d : Fin 4) (p : Piece) : Bool :=
  match p.loc with
  | .glob va => p.pa.isSome && dieOfVa va == d && rangesMeet (offsetOf va) p.len g.base g.bytes
  | _ => false

/-- R160, R183, R310: the transfers of a core's unit: the parts of each box of a copy and of each tile fetch that are still to be
performed. The firmware's addresses are not translated. -/
def coreTransfers (k : Core) : List (List Piece) :=
  (k.copies.toList.flatMap fun y => match y with
    | some y => if y.fw then [] else y.runs.map (·.parts)
    | none => []) ++ (k.unit.mmas.filter (·.remote)).map (·.parts)

/-- The parts of the accesses of a core's unit that are still to be performed. -/
def corePieces (k : Core) : List Piece :=
  k.unit.mq.flatMap (·.todo) ++ (match k.unit.mwait with
    | some w => w.part.toList
    | none => [])

/-- R310: how many transfers to or from a page are in flight: boxes, tile fetches and Hedgerow transfers. -/
def transfersOn (s : State) (d : Fin 4) (g : Page) : Nat :=
  ((List.finRange 512).map fun c => if s.partOf c == some g.part then
    ((coreTransfers s.cores[c]).filter fun l => l.any (g.touches d)).length else 0).foldl (· + ·) 0 +
  (s.fabric.inward.filter fun x => x.part == g.part && x.msg.spkg != ownPkg s && x.parts.any (g.touches d)).length

/-- R211, R310: how many lines of a physical range of a die are resident in atomic engines. -/
def linesAt (s : State) (d : Fin 4) (pa n : Nat) : Nat :=
  ((s.clusters.toList.map fun k => (k.lines.filter fun l =>
    decide (l.addr < hbmAddr d pa + n) && decide (hbmAddr d pa < l.addr + 128)).length)).foldl (· + ·) 0

/-- R211: whether a line of a physical range of a die is resident in an atomic engine. -/
def linesIn (s : State) (d : Fin 4) (pa n : Nat) : Bool := linesAt s d pa n != 0

/-- R310: TCNT of a page that lies at a place. -/
def pageTcnt (s : State) (d : Fin 4) (g : Page) (pa : Option Nat) : Nat :=
  transfersOn s d g + (match pa with
    | some a => linesAt s d a g.bytes
    | none => 0)

/-- The die-local physical address that a leaf entry names. -/
def leafAddr (e : Word) : Nat := e.toNat % 2 ^ 40 / 256 * 256

/-- The page of a cached translation. -/
def TlbEnt.page (t : TlbEnt) : Page := ⟨t.part, t.base, t.size⟩

/-- R310: the pin entry of a page. -/
def Slice.pin? (sl : Slice) (g : Page) : Option PinEnt := sl.pins.find? fun e => e.part == g.part && e.base == g.base

/-- R310: whether a page is pinned. -/
def pagePinned (s : State) (d : Fin 4) (sl : Slice) (t : TlbEnt) : Bool :=
  (sl.pin? t.page).any (·.lcnt != 0) || pageTcnt s d t.page (some (leafAddr t.entry)) != 0

/-- R303: the two levels of a slice take an entry; a page that is pinned keeps its place in the second. (DEDUCED: log 25.) -/
def fillSlice (s : State) (d : Fin 4) (i : Fin 4) (l2 : Bool) (t : TlbEnt) : State :=
  let die := s.dies[d]
  let sl := die.slices[i]
  let sl' := { sl with l1 := tlbFill 2048 (fun _ => false) sl.l1 t, l2 := if l2 then tlbFill 16384 (pagePinned s d sl) sl.l2 t else sl.l2 }
  s.putDie d { die with slices := vput die.slices i sl' }

/-- R310, R311, R314: whether a transfer may pin a page now: not while an eviction of it is due, nor while the pin table is full and does
not hold the page. An entry of the table that only transfers keep is one of the second-level cache. (DEDUCED: log 25.) -/
def mayPin (s : State) (d : Fin 4) (sl : Slice) (t : TlbEnt) : Bool :=
  let tcnt (u : TlbEnt) : Nat := pageTcnt s d u.page (some (leafAddr u.entry))
  let only (u : TlbEnt) : Bool := (sl.pin? u.page).isNone && tcnt u != 0
  match sl.pin? t.page with
  | some e => !e.ep || e.lcnt != 0 || tcnt t != 0
  | none => decide (sl.pins.length + sl.l2.length < 4096) || tcnt t != 0 ||
    decide (sl.pins.length + (sl.l2.filter only).length < 4096)

/-- R375: ARG1 of an XLATE event. -/
def xlateArg (report : Nat) (d : Fin 4) (size : BitVec 2) : Word :=
  BitVec.ofNat 64 (report + 16 * d.val + 4096 * size.toNat)

/-- R306: a page-absent report, sent once for each page until PRESENT or REFUSE. -/
def reportAbsent (s : State) (d : Fin 4) (p : Fin 16) (va : Word) (size : BitVec 2) : State :=
  let page := offsetOf va / pageSize size * pageSize size
  let die := s.dies[d]
  if die.absent.contains (p, page) then s
  else
    tell (s.putDie d { die with absent := (p, page) :: die.absent }) p 0x08
      (BitVec.ofNat 64 (va.toNat / pageSize size * pageSize size)) (xlateArg 0 d size)

/-- R306, R407: a walk-error report, with its package log record. -/
def reportBad (s : State) (d : Fin 4) (p : Fin 16) (table : Nat) : State :=
  logRecord (tell s p 0x08 (BitVec.ofNat 64 table) (xlateArg 1 d 0))
    (logRec .unmapped (BitVec.ofNat 16 p.val) 0 (BitVec.ofNat 64 table))

/-- R312: whether the page of an offset is being moved. (DEDUCED: log 24.) -/
def pageMoving (s : State) (d : Fin 4) (p : Fin 16) (off : Nat) : Bool :=
  s.dies[d].slices.toList.any fun sl => sl.pins.any fun e =>
    e.mv.isSome && e.part == p && e.base == off / pageSize e.size * pageSize e.size

/-- R303, R306: an access's translation at its die: the state with what the caches and reports gained, and the
die-local physical address. -/
def translateUnit (s : State) (p : Fin 16) (va : Word) (write : Bool) : State × Res Nat :=
  let d := dieOfVa va
  let off := offsetOf va
  let home : Fin 4 := ix 4 (off / 2 ^ 21)
  let die := s.dies[d]
  let sl := die.slices[home]
  let use (t : TlbEnt) (s : State) : State × Res Nat :=
    if (if write then t.entry.getLsbD 59 else t.entry.getLsbD 60) then
      (s, .ok (leafAddr t.entry + off % pageSize t.size))
    else (s, .fail .leaseOut)
  if pageMoving s d p off then (s, .wait)
  else match sl.l1.find? (tlbHit p off) with
  | some t => use t s
  | none =>
    match sl.l2.find? (tlbHit p off) with
    | some t => use t (fillSlice s d home false t)
    | none =>
      let other := (List.range 3).findSome? fun i =>
        let o := die.slices[ix 4 (home.val + 1 + i)]
        (o.l1.find? (tlbHit p off)).orElse fun _ => o.l2.find? (tlbHit p off)
      match other with
      | some t => use t (fillSlice s d home true t)
      | none =>
        match walk s d p off with
        | .leaf e size =>
          let t : TlbEnt := ⟨p, off / pageSize size * pageSize size, size, e⟩
          use t (fillSlice s d home true t)
        | .absent size => (reportAbsent s d p va size, .fail .unmapped)
        | .bad table => (reportBad s d p table, .fail .unmapped)
        | .none => (s, .fail .unmapped)

/-- R370: whether a die-local address lies in a tenant region of a protected partition. -/
def tenantProtected (s : State) (d : Fin 4) (p : Nat) : Bool :=
  s.dies[d].regions.any fun r => r.use == .tenant && s.parts[r.part].prot && r.num == p / 2 ^ 21

/-- R370: the checks of a firmware address that are made at issue. (DEDUCED: log 20.) -/
def fwCheck (s : State) (va : Word) (n : Nat) : Option Cause :=
  if pkgOf va ≠ ownPkg s then some .remote
  else if offsetOf va / 2 ^ 40 ≠ 0 then some .unmapped
  else if tenantProtected s (dieOfVa va) (offsetOf va) || tenantProtected s (dieOfVa va) (offsetOf va + n - 1) then
    some .priv
  else none

/-- The physical address of an access of a context of a partition. (DEDUCED: log 11.) -/
def translate (s : State) (fw : Bool) (p : Option (Fin 16)) (va : Word) (write : Bool) : State × Res Nat :=
  if fw then
    match fwCheck s va 1 with
    | some c => (s, .fail c)
    | none => (s, .ok (va.toNat % 2 ^ 40))
  else
    match p with
    | some p => translateUnit s p va write
    | none => (s, .fail .unmapped)

/-- R310: a pin of the page of an address that has just been translated: its translation stays in the home slice. None while the pin
must wait. (DEDUCED: log 25.) -/
def pinVa (s : State) (p : Fin 16) (va : Word) : Option State :=
  let d := dieOfVa va
  let home : Fin 4 := ix 4 (offsetOf va / 2 ^ 21)
  let sl := s.dies[d].slices[home]
  match sl.l1.find? (tlbHit p (offsetOf va)) with
  | some t => if mayPin s d sl t then some (fillSlice s d home true t) else none
  | none => some s

/-- R310: the translation of a part of a transfer, which pins its page. -/
def translatePin (s : State) (fw : Bool) (p : Option (Fin 16)) (va : Word) (write : Bool) : State × Res Nat :=
  match translate s fw p va write, fw, p with
  | (s, .ok pa), false, some p => match pinVa s p va with
    | some s => (s, .ok pa)
    | none => (s, .wait)
  | r, _, _ => r

/-- R330, R370: the key of an access of a context. -/
def accessKey (s : State) (fw : Bool) (p : Option (Fin 16)) (va : Word) : MemKey :=
  if fw then .system else match p with
  | some p => partKey s p va
  | none => .system

/-- A range cut at the boundaries of aligned blocks of `b` bytes: offset and length of each part. -/
def cutAt (b a n : Nat) : List (Nat × Nat) :=
  if n = 0 then []
  else (List.range ((a + n - 1) / b + 1 - a / b)).map fun i =>
    let lo := max a (b * (a / b + i))
    (lo - a, min (a + n) (b * (a / b + i + 1)) - lo)

/-- The parts of a global range, each within one 64-byte block. -/
def globParts (va : Word) (n : Nat) : List (Word × Nat × Nat) :=
  (cutAt 64 va.toNat n).map fun (o, l) => (va + BitVec.ofNat 64 o, o, l)

/-- A read of global memory of this package by a context of a partition. -/
def globRead (s : State) (fw : Bool) (p : Option (Fin 16)) (va : Word) (n : Nat) : State × Res (List Byte) :=
  (globParts va n).foldl (fun (acc : State × Res (List Byte)) part =>
    match acc with
    | (s, .ok got) =>
      match translate s fw p part.1 false with
      | (s, .ok pa) =>
        match hbmRead s (dieOfVa part.1) pa part.2.2 (accessKey s fw p part.1) with
        | .ok bs => (s, .ok (got ++ bs))
        | .error c => (s, .fail c)
      | (s, .fail c) => (s, .fail c)
      | (s, .wait) => (s, .wait)
    | r => r) (s, .ok [])

/-- The translations of a whole range, for an action that must not be done in part (R160). -/
def globXlate (s : State) (fw : Bool) (p : Option (Fin 16)) (va : Word) (n : Nat) (write : Bool) :
    State × Res (List (Fin 4 × Nat × Nat × Nat × Word)) :=
  (globParts va n).foldl (fun (acc : State × Res (List (Fin 4 × Nat × Nat × Nat × Word))) part =>
    match acc with
    | (s, .ok got) =>
      match translate s fw p part.1 write with
      | (s, .ok pa) => (s, .ok (got ++ [(dieOfVa part.1, pa, part.2.1, part.2.2, part.1)]))
      | (s, .fail c) => (s, .fail c)
      | (s, .wait) => (s, .wait)
    | r => r) (s, .ok [])

/-- A write of global memory of this package: translated whole, and then written part by part. A part that fails stops
the write. -/
def globWrite (s : State) (fw : Bool) (p : Option (Fin 16)) (va : Word) (bs : List Byte) : State × Res Unit :=
  match globXlate s fw p va bs.length true with
  | (s, .fail c) => (s, .fail c)
  | (s, .wait) => (s, .wait)
  | (s, .ok parts) =>
    match parts.foldlM (fun t (d, pa, o, l, a) => hbmWrite t d pa ((bs.drop o).take l) (accessKey t fw p a)) s with
    | .ok t => (t, .ok ())
    | .error c => (parts.foldl (fun t (d, pa, _, l, _) => hbmFail t d pa l) s, .fail c)

/-- R309: the leases of a partition. -/
def leasesOf (s : State) (p : Option (Fin 16)) : List Lease :=
  match p with
  | some p => s.parts[p].leases
  | none => []

/-- Whether a lease holds a range. -/
def Lease.covers (l : Lease) (va : Word) (n : Nat) : Bool :=
  decide (l.lo.toNat ≤ va.toNat) && decide (va.toNat + n ≤ l.lo.toNat + l.len)

/-- Whether a lease meets a range. -/
def Lease.meets (l : Lease) (va : Word) (n : Nat) : Bool :=
  decide (l.lo.toNat < va.toNat + n) && decide (va.toNat < l.lo.toNat + l.len)

/-- R68 step 3, R309: the verdict of the whole lease table on an access. (DEDUCED: log 26.) -/
def leaseVerdict (ls : List Lease) (va : Word) (n : Nat) (write : Bool) : Option Cause :=
  if ls.any fun l => l.covers va n && (l.write || !write) then none
  else if ls.any fun l => l.covers va n then some .leaseOut
  else if ls.any fun l => l.meets va n then some .straddle
  else some .leaseOut

end Sys2Proof.Machine
end

