-- ==== Sys2Proof/Machine/Barrier.lean ====
section
/-! DEFINITION. Barrier objects (R155 to R157, R371) and the range guard (R159). -/

namespace Sys2Proof.Machine

/-- R155: where barrier n of a context lies in TM; the firmware context has eight (R371). -/
def barrierOff (fw : Bool) (n : Nat) : Nat := if fw then 0x7FE00 + 8 * n else 0x78000 + 8 * n

/-- R155, R371: how many barriers a context can name. -/
def barrierMax (fw : Bool) : Nat := if fw then 8 else 2048

/-- R155: a barrier object. -/
structure Bar where
  v : Bool
  phase : Bool
  ovf : Bool
  init : BitVec 12
  arrive : BitVec 12
  pend : BitVec 32
deriving DecidableEq, Repr

/-- The object of an image. -/
def Bar.ofWord (w : Word) : Bar :=
  ⟨w.getLsbD 63, w.getLsbD 62, w.getLsbD 61, w.extractLsb' 44 12, w.extractLsb' 32 12, w.extractLsb' 0 32⟩

/-- The image of an object. -/
def Bar.toWord (b : Bar) : Word :=
  BitVec.ofBool b.v ++ BitVec.ofBool b.phase ++ BitVec.ofBool b.ovf ++ 0#5 ++ b.init ++ b.arrive ++ b.pend

/-- R156: the flip test that follows every event. -/
def Bar.flip (b : Bar) : Bar :=
  if b.v && !b.ovf && b.arrive == 0 && b.pend == 0 then { b with phase := !b.phase, arrive := b.init } else b

/-- R156: PEND changes by an amount, or OVF is set when the exact result leaves its range. -/
def Bar.change (b : Bar) (x : Int) : Bar :=
  let y := b.pend.toInt + x
  if -(2 ^ 31) ≤ y ∧ y < 2 ^ 31 then { b with pend := BitVec.ofInt 32 y } else { b with ovf := true }

/-- R156, R157: an event: on an object with V = 0 it only sets OVF. -/
def Bar.event (b : Bar) (f : Bar → Bar) : Bar := if b.v then (f b).flip else { b with ovf := true }

/-- BARRV's arrival (R156). -/
def Bar.arriveOne (b : Bar) : Bar := if b.arrive = 0 then { b with ovf := true } else { b with arrive := b.arrive - 1 }

/-- R167: BINIT. -/
def Bar.start (c : BitVec 12) : Bar := ⟨true, false, false, c, c, 0⟩

/-- Barrier n of a context of a core. -/
def getBar (s : State) (c : Fin 512) (fw : Bool) (n : Nat) : Bar :=
  Bar.ofWord (BitVec.ofNat 64 (s.loadNat (tmAddr c (barrierOff fw n)) 8))

/-- The barrier is written. -/
def putBar (s : State) (c : Fin 512) (fw : Bool) (n : Nat) (b : Bar) : State :=
  s.storeNat (tmAddr c (barrierOff fw n)) 8 b.toWord.toNat

/-- R157: the place of an event among those that reach a barrier in one clk: program copies by slot, copies of the nest engine by
slot, and then the program's word. -/
inductive BarSource where
  | copy (slot : Fin 256)
  | emitted (slot : Fin 256)
  | word
deriving DecidableEq, Repr

/-- R157: the order of sources. -/
def BarSource.order : BarSource → Nat
  | .copy slot => slot.val
  | .emitted slot => 256 + slot.val
  | .word => 512

/-- R157: whether an event of a source may take effect on a barrier in this clk: none that comes after it has done so. -/
def barFree (s : State) (c : Fin 512) (fw : Bool) (n : Nat) (x : BarSource) : Bool :=
  s.cores[c].barMarks.all fun m => !(m.fw == fw && m.bar == n && m.clk == s.clk && decide (x.order < m.order))

/-- R157: an event has taken effect in this clk. -/
def markBar (s : State) (c : Fin 512) (fw : Bool) (n : Nat) (x : BarSource) : State :=
  let core := s.cores[c]
  s.putCore c { core with barMarks := ⟨fw, n, s.clk, x.order⟩ :: core.barMarks.filter fun m => m.clk == s.clk }

/-- An event on a barrier. -/
def barEvent (s : State) (c : Fin 512) (fw : Bool) (n : Nat) (x : BarSource) (f : Bar → Bar) : State :=
  putBar (markBar s c fw n x) c fw n ((getBar s c fw n).event f)

/-- R156: a credit of bytes; a copy may name no barrier. -/
def credit (s : State) (c : Fin 512) (fw : Bool) (n : Option (BitVec 11)) (x : BarSource) (bytes : Nat) : State :=
  match n with
  | some n => barEvent s c fw n.toNat x fun b => b.change (-(bytes : Int))
  | none => s

/-- R162: the squash of a copy returns its credited bytes. -/
def squash (s : State) (c : Fin 512) (fw : Bool) (n : Option (BitVec 11)) (x : BarSource) (bytes : Nat) : State :=
  match n with
  | some n => barEvent s c fw n.toNat x fun b => b.change bytes
  | none => s

/-! ### The range guard (R159) -/

/-- The flat address of a scratchpad location, or none for global space. -/
def scratch (c : Fin 512) : Loc → Option Nat
  | .tm off => some (tmAddr c off)
  | .cm k off => some (cmAddr k off)
  | .glob _ => none

/-- Whether a range meets an entry. -/
def GuardEnt.meets (g : GuardEnt) (lo len : Nat) : Bool := decide (g.lo < lo + len) && decide (lo < g.lo + g.len)

/-- R159: whether a new engine range must wait for an earlier one. -/
def engineHeld (c : Core) (lo len : Nat) (dst : Bool) : Bool := c.guard.any fun g => g.meets lo len && (dst || g.dst)

/-- R159: the guard entries that an instruction needs: one for each range that lies in TM or CM. -/
def guardNeeds (ranges : List (Option Nat × Nat × Bool)) : List (Nat × Nat × Bool) :=
  ranges.filterMap fun (a, n, dst) => a.map fun lo => (lo, n, dst)

/-- R159: whether the guard can take the ranges now. -/
def guardOk (c : Core) (rs : List (Nat × Nat × Bool)) : Bool :=
  decide (c.guard.length + rs.length ≤ 16) && rs.all fun (lo, n, dst) => !engineHeld c lo n dst

/-- The ranges are taken for an owner. -/
def takeGuard (c : Core) (owner : Nat) (fw : Bool) (rs : List (Nat × Nat × Bool)) : Core :=
  { c with guard := c.guard ++ rs.map fun (lo, n, dst) => ⟨owner, fw, lo, n, dst⟩ }

/-- Every range of an owner is released. -/
def dropGuard (c : Core) (owner : Nat) : Core := { c with guard := c.guard.filter fun g => g.owner != owner }

end Sys2Proof.Machine
end

