-- ==== Sys2Proof/Machine/Access.lean ====
section
/-! DEFINITION. The sequencer's address map and its checks (R19, R20, R68), places (R24, R25), and the entries of the load
and store queues (R79, R200). -/

namespace Sys2Proof.Machine

/-- R19: the rows of the address map; with bit 63 set the address is global. -/
inductive Row where
  | general | barriers | trapArea | work | args | ownCm
  | place (k : Fin 64)
  | hole
  | global
deriving DecidableEq, Repr

/-- R19: the row of an address. -/
def rowOf (a : Nat) : Row :=
  if 2 ^ 63 ≤ a then .global
  else if a < 0x78000 then .general
  else if a < 0x7C000 then .barriers
  else if a < 0x7E000 then .trapArea
  else if a < 0x7FF00 then .work
  else if a < 0x80000 then .args
  else if 0x1000000 ≤ a ∧ a < 0x1800000 then .ownCm
  else if 0x100000000 ≤ a ∧ a < 0x140000000 ∧ a % 2 ^ 24 < 2 ^ 23 then .place (ix 64 (a / 2 ^ 24))
  else .hole

/-- R19: whether a window begins within a range that starts in a hole. -/
def crossesWindow (lo hi : Nat) : Bool :=
  (decide (lo < 0x1000000) && decide (0x1000000 ≤ hi)) ||
    (decide (lo < 0x140000000) && (List.range 64).any fun k =>
      decide (lo < 0x100000000 + k * 2 ^ 24) && decide (0x100000000 + k * 2 ^ 24 ≤ hi))

/-- R20 step 1: whether the bytes of a range do not all lie in one row. -/
def crossesRows (a n : Nat) : Bool := rowOf a != rowOf (a + n - 1) || (rowOf a == .hole && crossesWindow a (a + n - 1))

/-- What an access does at an address: a read, a write, or MWAIT's read (R85). -/
inductive Intent where
  | read | write | watch
deriving DecidableEq, Repr

/-- R24: the cluster of a place of the acting core's partition, if its entry is valid. -/
def placeCluster (s : State) (c : Fin 512) (k : Fin 64) : Option (Fin 64) :=
  match s.partOf c with
  | none => none
  | some p => if s.parts[p].places[k].getLsbD 63 then some (ix 64 (s.parts[p].places[k].toNat % 64)) else none

/-- R20, R25: the checks of a local access of `n` bytes by a context of a core, and the location it reaches. -/
def localCheck (s : State) (c : Fin 512) (fw : Bool) (a n : Nat) (i : Intent) : Except Cause Loc :=
  if crossesRows a n then .error .straddle
  else match rowOf a with
  | .hole => .error .unmapped
  | .place k =>
    match placeCluster s c k with
    | some cl => .ok (.cm cl (a % 2 ^ 23))
    | none => .error .unmapped
  | .ownCm => .ok (.cm (clusterOf c) (a % 2 ^ 23))
  | .general => .ok (.tm a)
  | .barriers => if i = .read then .ok (.tm a) else .error .barrierRange
  | .trapArea => if fw then .ok (.tm a) else .error .priv
  | .work => if fw then .ok (.tm a) else .error .priv
  | .args => if fw || i != .write then .ok (.tm a) else .error .priv
  | .global => .error .unmapped

/-- R347: whether a range meets the partition's export window. -/
def meetsExport (s : State) (p : Option (Fin 16)) (va : Word) (n : Nat) : Bool :=
  match p with
  | some p =>
    decide (s.parts[p].exportLo.toNat < va.toNat + n) &&
      decide (va.toNat < s.parts[p].exportLo.toNat + s.parts[p].exportLen)
  | none => false

/-- R68 step 3, R309, R347, R370: the checks of a global access against the whole lease table. -/
def globalVerdict (s : State) (c : Fin 512) (fw : Bool) (va : Word) (n : Nat) (write : Bool) : Option Cause :=
  if fw then fwCheck s va n
  else match leaseVerdict (leasesOf s (s.partOf c)) va n write with
  | some e => some e
  | none => if meetsExport s (s.partOf c) va n then some .capPerm else none

/-- R309: whether the cluster edge can decide an access from its cached lease records. -/
def edgeKnows (s : State) (va : Word) (n : Nat) (write : Bool) : Bool :=
  s.fw || s.cur.leaseAsk == some (va, true) ||
    (leasesOf s s.curPart).any fun l =>
      s.clusters[clusterOf s.core].leaseCache.contains l.id && l.covers va n && (l.write || !write)

/-- R68: the checks of an access at issue, after alignment. An access that the edge cannot decide waits for the hub. -/
def checkAddr (s : State) (ea : Word) (n : Nat) (i : Intent) : Res Loc :=
  if ea.getLsbD 63 then
    if edgeKnows s ea n (i == .write) then
      match globalVerdict s s.core s.fw ea n (i == .write) with
      | some c => .fail c
      | none => .ok (.glob ea)
    else .wait
  else match localCheck s s.core s.fw ea.toNat n i with
  | .ok l => .ok l
  | .error c => .fail c

/-- R119: the checks of one element while its word performs, against the whole table. -/
def checkElem (s : State) (c : Fin 512) (fw : Bool) (ea : Word) (n : Nat) (write : Bool) : Except Cause Loc :=
  if ea.toNat % n ≠ 0 then .error .misalign
  else if ea.getLsbD 63 then
    match globalVerdict s c fw ea n write with
    | some e => .error e
    | none => .ok (.glob ea)
  else localCheck s c fw ea.toNat n (if write then .write else .read)

/-! ### Queue entries -/

/-- A location further on. -/
def Loc.add : Loc → Nat → Loc
  | .tm off, n => .tm (off + n)
  | .cm k off, n => .cm k (off + n)
  | .glob va, n => .glob (va + BitVec.ofNat 64 n)

/-- The number whose low bits are the location's alignment. -/
def Loc.num : Loc → Nat
  | .tm off => off
  | .cm _ off => off
  | .glob va => va.toNat

/-- R200: the parts in which an access of `n` bytes is performed: the naturally aligned 8-byte blocks it touches. (DEDUCED: log 12.) -/
def piecesOf (l : Loc) (n : Nat) : List Piece := (cutAt 8 l.num n).map fun (o, m) => ⟨l.add o, o, m, none⟩

/-- R117: the parts of a masked contiguous vector access that hold an active byte. (DEDUCED: log 12.) -/
def maskedPieces (l : Loc) (first n : Nat) (m : Mask) : List Piece :=
  ((piecesOf l n).map fun p => { p with off := p.off + first }).filter fun p =>
    (List.range p.len).any fun i => m.getLsbD (p.off + i)

/-- Whether a queue entry is an acquire (R78). -/
def QEnt.isAcq (e : QEnt) : Bool :=
  match e.kind with
  | .ldAcq _ _ => true
  | _ => false

/-- A new entry of a kind for the word in hand. -/
def newEnt (s : State) (kind : QKind) (ld st : Bool) (ea : Word) (todo : List Piece) : QEnt :=
  { id := s.serial, kind := kind, ld := ld, st := st, ea := ea, opa := 0, opb := 0, vec := 0, mask := 0, pix := 0,
    todo := todo, data := [], stage := .waiting, arrival := s.clk, sure := false, keep := [], pkt := s.ctx.pc, wword := s.word, word := s.iword }

/-- An entry joins the queues of the acting context. -/
def pushEnt (s : State) (e : QEnt) : State :=
  { s.setCtx { s.ctx with mq := s.ctx.mq ++ [e] } with serial := s.serial + 1 }

/-- The entries of earlier bundles (R28: the words of a bundle act together). -/
def olderEnts (s : State) : List QEnt := if s.snap.isSome then s.ctx.mq.filter fun e => decide (e.id < s.since) else s.ctx.mq

/-- R71: whether an entry counts as a captured word that may stand in the replay queue: a load until its data has returned, a
request until it has left the core. One that has been translated has left it. -/
def QEnt.capturable (e : QEnt) : Bool :=
  let back := match e.stage with
    | .returned _ => true
    | _ => false
  let waits := match e.stage with
    | .sent | .returned _ | .xlated => false
    | _ => true
  match e.kind with
  | .ld _ _ | .ldAcq _ _ | .vld _ | .mld _ _ | .capLd _ | .capChk _ _ => !back
  | .vldElems _ | .vstElems => true
  | .amo _ _ _ | .vamo _ | .qst _ _ _ _ | .capDrv _ _ | .capSt _ => waits
  | .streamRead _ _ | .st _ | .vst | .mst | .lsaln => false

/-- R71: how many capturable words of the unit context are outstanding. -/
def captured (x : Ctx) : Nat :=
  (x.mq.filter QEnt.capturable).length + (x.mmas.filter fun r => decide (r.pix ≤ r.aCtl.toNat / 2 ^ 48 % 16)).length + x.quants.length

/-- R71: a ninth capturable word stalls. The firmware context's words are never captured. -/
def captureFull (s : State) : Bool := !s.fw && decide (8 ≤ captured s.ctx)

/-- R78, R202: engine words and MWAIT wait for earlier acquires. -/
def acqWaits (s : State) : Bool := (olderEnts s).any QEnt.isAcq

/-- Whether an earlier store still to perform meets a range of the acting core's TM (R153, R121, R171). -/
def storesMeet (s : State) (off n : Nat) : Bool :=
  (olderEnts s).any fun e => e.st && match e.kind with
    | .vstElems => true
    | _ => e.todo.any fun p => match p.loc with
      | .tm o => decide (o < off + n) && decide (off < o + p.len)
      | _ => false

/-- R28: whether a word of a serial number issued before the bundle in hand. -/
def State.before (s : State) (id : Nat) : Bool := s.snap.isNone || decide (id < s.since)

/-- R28: the words in flight of a context that issued before the bundle in hand. -/
def State.older (s : State) (x : Ctx) : Ctx :=
  { x with
    mq := x.mq.filter fun e => s.before e.id
    mmas := x.mmas.filter fun r => s.before r.id
    quants := x.quants.filter fun q => s.before q.id
    nest := { x.nest with go := x.nest.go && s.before x.nest.id } }

/-- Those of the acting context. -/
def State.olderCtx (s : State) : Ctx := s.older s.ctx

/-- R80, R159: whether a store of the acting context into a location meets a range that an earlier engine word holds. -/
def guardStalls (s : State) (l : Loc) (n : Nat) : Bool :=
  match scratch s.core l with
  | some a => s.cur.guard.any fun g => s.before g.owner && g.fw == s.fw && g.meets a n
  | none => false

/-- A word that cannot issue yet changes nothing. -/
def stall (s : State) : Out := .next { s with mark := .stall }

/-- R309: a word that waits for the hub's answer about a lease. -/
def stallAsk (s : State) (va : Word) : Out :=
  .next { s.setCur { s.cur with leaseAsk := some (va, s.cur.leaseAsk == some (va, true)) } with mark := .stall }

end Sys2Proof.Machine
end

