-- ==== Sys2Proof/Machine/Fabric.lean ====
section
/-! DEFINITION. Messages to other packages (R356 to R359), the IV streams they use (R336, R337), and the token table
(R82, R83, R363). A message waits in the send queue until a link of its route is up and keyed; it then leaves. -/

namespace Sys2Proof.Machine

/-! ### Message kinds (R357) -/

def kRd : BitVec 5 := 0x01
def kRdrsp : BitVec 5 := 0x02
def kWr : BitVec 5 := 0x03
def kWrack : BitVec 5 := 0x04
def kQst : BitVec 5 := 0x05
def kLand : BitVec 5 := 0x06
def kRel : BitVec 5 := 0x07
def kAmo : BitVec 5 := 0x08
def kAmorsp : BitVec 5 := 0x09
def kVamo : BitVec 5 := 0x0A
def kRed : BitVec 5 := 0x0B
def kTile : BitVec 5 := 0x0C
def kTilersp : BitVec 5 := 0x0D
def kHoldfull : BitVec 5 := 0x0E
def kErr : BitVec 5 := 0x0F

/-- R356: the fabric domain of a partition, if it is a member of one. -/
def fdidOf (s : State) (p : Fin 16) : Option (BitVec 16) :=
  if s.fabric.fdmap[p].getLsbD 63 then some (s.fabric.fdmap[p].extractLsb' 0 16) else none

/-- R356: the local partition of a fabric domain. (DEDUCED: log 34.) -/
def partOfFdid (s : State) (f : BitVec 16) : Option (Fin 16) := (List.finRange 16).find? fun p => fdidOf s p == some f

/-- The coordinate of a package in a dimension: 0 x, 1 y, 2 z. -/
def coord (p : Pkg) (dim : Nat) : Nat := p.toNat / 2 ^ (8 - 4 * dim) % 16

/-- R356: the ring size of a dimension. -/
def ringSize (s : State) (dim : Nat) : Nat := s.fabric.hfcfg.toNat / 2 ^ (52 - 4 * dim) % 16 + 1

/-- R356: whether the package is in switched mode. -/
def switched (s : State) : Bool := s.fabric.hfcfg.getLsbD 62

/-- R357: whether a package is attached. (DEDUCED: log 34.) -/
def attached (s : State) (p : Pkg) : Bool :=
  s.fabric.hfcfg.getLsbD 63 &&
    (if switched s then match s.fabric.swport.lookup p.toNat with
      | some e => e.getLsbD 15
      | none => false
     else (List.range 3).all fun d => decide (coord p d < ringSize s d))

/-- R358: the link toward a package in a dimension: the shorter way, the positive one at half the ring; links are
numbered +x, −x, +y, −y, +z, −z. None when the coordinate is reached. (DEDUCED: log 34.) -/
def linkToward (s : State) (here p : Pkg) (dim : Nat) : Option (Fin 6) :=
  let n := ringSize s dim
  let fwd := (coord p dim + n - coord here dim % n) % n
  if fwd = 0 then none else if 2 * fwd ≤ n then some (ix 6 (2 * dim)) else some (ix 6 (2 * dim + 1))

/-- R358, R359: the links that a message may ever take here, in order of preference. -/
def routes (s : State) (m : OutMsg) : List (Fin 6) :=
  if switched s then
    if m.msg.cls then [ix 6 m.msg.dpkg.toNat]
    else
      let plane := m.msg.addr.toNat / 128 % 64 % 6
      ix 6 plane :: (List.finRange 6).filter fun k => k.val != plane
  else
    let dims := (List.range 3).filterMap (linkToward s (ownPkg s) m.msg.dpkg)
    if m.msg.cls || m.escape then dims.take 1 else dims

/-- The coordinate of the next package over a torus link, in the link's dimension. -/
def nextCoord (s : State) (k : Fin 6) : Nat :=
  let n := ringSize s (k.val / 2)
  let c := coord (ownPkg s) (k.val / 2)
  if k.val % 2 = 0 then (c + 1) % n else (c + n - 1) % n

/-- R358, R360: whether a message that leaves on a torus link has then crossed the dateline of the link's ring: every hop goes the same
way around it from the sending package on. -/
def crossedDateline (s : State) (m : Msg) (k : Fin 6) : Bool :=
  let start := coord m.spkg (k.val / 2)
  if k.val % 2 = 0 then decide (nextCoord s k < start) else decide (start < nextCoord s k)

/-- R360: the pools at the far end of a link that take a message's flits: its reserved sub-pool on the ordered or the escape route, and
the shared pool. -/
def sendPools (s : State) (m : OutMsg) (k : Fin 6) : List (Fin 33) :=
  let sub := ix 33 (2 * (m.msg.fdid.toNat % 16) + (!switched s && crossedDateline s m.msg k).toNat)
  if m.msg.cls || m.escape then [sub, 32] else [32]

/-- R361: whether a pool that takes the message's flits has last signalled GO. -/
def linkGo (s : State) (m : OutMsg) (k : Fin 6) : Bool := (sendPools s m k).any fun i => !s.fabric.links[k].far[i]

/-- R358, R359: the outputs that a message may take now: in switched mode an adaptive one leaves its plane only while that plane is
stopped or down. (DEDUCED: log 34.) -/
def outputs (s : State) (m : OutMsg) : List (Fin 6) :=
  match routes s m with
  | k :: rest => if switched s && !m.msg.cls && s.fabric.links[k].up && linkGo s m k then [k] else if switched s && !m.msg.cls then rest else k :: rest
  | [] => []

/-- The package at the far end of a torus link, or the destination in switched mode. -/
def farEnd (s : State) (m : OutMsg) (k : Fin 6) : Pkg :=
  if switched s then m.msg.dpkg
  else
    let dim := k.val / 2
    BitVec.ofNat 12 ((ownPkg s).toNat + nextCoord s k * 2 ^ (8 - 4 * dim) - coord (ownPkg s) dim * 2 ^ (8 - 4 * dim))

/-- R366: whether a session with a package is in place. -/
def hasSession (s : State) (p : Pkg) : Bool := s.fabric.sessions.any fun e => e.live && e.peer == some p

/-- R336: the SID of a cluster edge, and of a link. -/
def edgeSid (s : State) (k : Fin 64) : BitVec 40 :=
  BitVec.ofNat 40 ((ownPkg s).toNat * 2 ^ 26 + k.val / 16 * 2 ^ 24 + k.val % 16 * 2 ^ 20)
def linkSid (s : State) (k : Fin 6) : BitVec 40 := BitVec.ofNat 40 (2 * 2 ^ 38 + (ownPkg s).toNat * 2 ^ 26 + k.val * 2 ^ 20)

/-- R336: the SID of the host port, and of a UCIe link group: the die that sends, the group, and the direction, 1 away from the hub or
toward the lower die number. -/
def hostSid (s : State) : BitVec 40 := BitVec.ofNat 40 (3 * 2 ^ 38 + (ownPkg s).toNat * 2 ^ 26)
def ucieSid (s : State) (die : Fin 4) (group : Nat) (back : Bool) : BitVec 40 :=
  BitVec.ofNat 40 (2 ^ 38 + (ownPkg s).toNat * 2 ^ 26 + die.val * 2 ^ 24 + group * 2 ^ 20 + back.toNat * 2 ^ 19)

/-- R336, R367: what names a stream of a partition: its SID, and the other package under a pair transport key. -/
abbrev StreamId := BitVec 40 × Option Pkg

/-- R336: the stream of an id of a partition, at IV 0 if it has not sent. (DEDUCED: log 37.) -/
def streamOf (s : State) (p : Fin 16) (id : StreamId) : IvStream :=
  (s.hub.streams.find? fun x => x.sid == id.1 && x.peer == id.2 && x.part == p).getD
    ⟨id.1, p, id.2, ((activeSlot s p 1).map (·.epoch)).getD false, 0, false⟩

/-- R337: whether a stream can still send. Unprotected partitions seal nothing. -/
def ivOpen (s : State) (p : Fin 16) (id : StreamId) : Bool := !s.parts[p].prot || !(streamOf s p id).exhausted

/-- R337: a stream uses its next IV, with the hub records of its limits. Unprotected partitions seal nothing. (DEDUCED: log 37.) -/
def useIv (s : State) (p : Fin 16) (id : StreamId) : State :=
  if !s.parts[p].prot then s
  else
    let x := streamOf s p id
    let last := decide (x.iv = 2 ^ 48 - 1)
    let x' : IvStream := { x with iv := if last then x.iv else x.iv + 1, exhausted := last }
    let s := { s with hub := { s.hub with streams := x' :: s.hub.streams.filter fun y => !(y.sid == id.1 && y.peer == id.2 && y.part == p) } }
    if x.iv = 2 ^ 48 - 2 ^ 24 then hubRecord s p (hubRec .keySoon (id.1.setWidth 64))
    else if last then hubRecord s p (hubRec .keyExhaust (id.1.setWidth 64))
    else s

/-! ### The token table (R82, R83, R363) -/

/-- R82: a token's entry and generation. -/
def tokEntry (t : BitVec 16) : Fin 256 := ix 256 t.toNat
def tokGen (t : BitVec 16) : BitVec 8 := t.extractLsb' 8 8

/-- R83: the entry of a live token. -/
def liveTok (c : Core) (t : BitVec 16) : Option TokEnt :=
  if t ≠ 0 ∧ c.gens[tokEntry t] = tokGen t then
    match c.tokens[tokEntry t] with
    | some e => if e.notify then none else some e
    | none => none
  else none

/-- R82: the generation after one: 0 is skipped. -/
def nextGen (g : BitVec 8) : BitVec 8 := if g = 255 then 1 else g + 1

/-- R83: the first free entry of the table. -/
def freeTok (c : Core) : Option (Fin 256) := (List.finRange 256).find? fun i => c.tokens[i].isNone

/-- R89, R80: whether a token of a core issued before a serial number, with a destination of the kind given, is still to
land. -/
def tokenOut (c : Core) (fw : Bool) (before : Nat) (f : TokEnt → Bool) : Bool :=
  c.tokens.toList.any fun t => match t with
    | some e => e.fw == fw && !e.notify && decide (e.serial < before) && f e
    | none => false

/-- A message joins the send queue, for a local partition or for none, sealed by an edge or by none. -/
def sendFor (s : State) (p : Option (Fin 16)) (edge : Option (Fin 64)) (m : Msg) : State :=
  { s with fabric := { s.fabric with out := s.fabric.out ++ [⟨m, p, edge, s.clk, false, false⟩] } }

/-- The message of a core's request, or of its edge. -/
def coreMsg (s : State) (c : Fin 512) (p : Fin 16) (kind : BitVec 5) (addr : Word) (payload : List Byte) : Msg :=
  { kind := kind, cls := false, opx := 0, len := BitVec.ofNat 16 payload.length, spkg := ownPkg s
    sdie := BitVec.ofNat 2 (c.val / 128), sclu := BitVec.ofNat 4 (c.val / 8), score := BitVec.ofNat 3 c.val
    dpkg := pkgOf addr, ddie := addr.extractLsb' 49 2, addr := addr, fdid := (fdidOf s p).getD 0, token := 0
    carry0 := 0, carry1 := 0, payload := payload }

/-- A message of a core of a local partition joins the send queue. -/
def send (s : State) (p : Fin 16) (m : Msg) : State :=
  sendFor s (some p) (some (ix 64 (16 * m.sdie.toNat + m.sclu.toNat))) m

/-! ### Accesses of the hub for a partition (R246, R365) -/

/-- The kinds of access: of decode, a signal's write, BAR2's, a block's fetch, the choice of a launch's code, and a core's fetch. -/
def askDecode : Nat := 0
def askSignal : Nat := 1
def askBar2 : Nat := 2
def askBlock : Nat := 3
def askCode : Nat := 4
def askFetch (c : Fin 512) : Nat := 5 + c.val

/-- A partition's accesses change. -/
def modAsks (s : State) (p : Fin 16) (f : List HubAsk → List HubAsk) : State :=
  s.putAux p { s.aux[p] with asks := f s.aux[p].asks }

/-- The accesses of a kind are forgotten. -/
def dropAsks (s : State) (p : Fin 16) (key : Nat) : State :=
  if s.aux[p].asks.isEmpty then s else modAsks s p fun l => l.filter fun a => a.key != key

/-- An access of a kind to a range. -/
def findAsk (s : State) (p : Fin 16) (key : Nat) (va : Word) (n : Nat) : Option HubAsk :=
  s.aux[p].asks.find? fun a => a.key == key && a.addr == va && a.len == n

/-- An access takes the place of the one of its kind and range. -/
def putAsk (s : State) (p : Fin 16) (a : HubAsk) : State :=
  modAsks s p fun l => a :: l.filter fun b => !(b.key == a.key && b.addr == a.addr && b.len == a.len)

/-- R357, R375: a request that the hub makes for a partition: it names the partition's duty core as its sender. (DEDUCED: log 29.) -/
def hubMsg (s : State) (p : Fin 16) (kind : BitVec 5) (va : Word) (payload : List Byte) : Msg :=
  coreMsg s (dutyCore s p) p kind va payload

/-- R357: the next part of a read that the hub makes: a message moves at most 1,024 bytes. -/
def askNext (s : State) (p : Fin 16) (a : HubAsk) : State :=
  let n := min 1024 (a.len - a.got.length)
  send (putAsk s p { a with stage := .sent }) p { hubMsg s p kRd (a.addr + BitVec.ofNat 64 a.got.length) [] with len := BitVec.ofNat 16 n }

/-- R227, R246, R365: bytes of another package's memory, read for a partition. What has come stays until the accesses of its kind are
forgotten. -/
def hubRead (s : State) (p : Fin 16) (key : Nat) (va : Word) (n : Nat) : State × Res (List Byte) :=
  match findAsk s p key va n with
  | none => if n = 0 then (s, .ok []) else (askNext s p ⟨key, va, n, [], .waiting⟩, .wait)
  | some a =>
    match a.stage with
    | .returned bs =>
      let a := { a with got := a.got ++ bs, stage := .waiting }
      if a.got.length < n then (askNext s p a, .wait) else (putAsk s p a, .ok a.got)
    | .waiting => if a.got.length < n then (s, .wait) else (s, .ok a.got)
    | .failed k => (dropAsks s p key, .fail k)
    | .xlated | .sent => (s, .wait)

/-- R357: the answer to an access that the hub has made for a partition: to a read, to a write or an AMO, or to either. -/
def toHub (s : State) (p : Fin 16) (reads : Option Bool) (addr : Word) (st : Stage) : Option State :=
  (s.aux[p].asks.find? fun a => a.stage == .sent && a.addr + BitVec.ofNat 64 a.got.length == addr &&
    reads.all fun r => r == (a.len != 0)).map fun a => putAsk s p { a with stage := st }

/-- R357: the answer to a message: it goes back to the sender's core. Its TOKEN is zero unless it is a LAND. -/
def answerMsg (s : State) (m : Msg) (kind : BitVec 5) (payload : List Byte) : Msg :=
  { m with kind := kind, cls := false, opx := 0, len := BitVec.ofNat 16 payload.length, spkg := ownPkg s, dpkg := m.spkg,
           ddie := m.sdie, token := 0, carry0 := 0, carry1 := 0, payload := payload }

/-- The core that an answer is for: the header keeps the requester's die, cluster and core. -/
def msgCore (m : Msg) : Fin 512 := ix 512 (128 * m.sdie.toNat + 8 * m.sclu.toNat + m.score.toNat)

/-- R364: the REL of a token to a waiting package. -/
def relMsg (s : State) (c : Fin 512) (p : Fin 16) (t : BitVec 16) (dst : Pkg) : Msg :=
  { coreMsg s c p kRel (BitVec.ofNat 64 (dst.toNat * 2 ^ 51)) [] with cls := true, token := t, dpkg := dst }

/-- R255, R257: whether a core is held for tokens of its last unit that are still to land. -/
def tokensHeld (s : State) (c : Fin 512) : Bool :=
  s.cores[c].tokens.toList.any fun t => match t with
    | some e => !e.fw && !e.notify && !e.expired && decide (s.clk < e.limit)
    | none => false

/-- R401: once a core holds no unit and no token holds it back, the clk it was held are counted. -/
def settleHold (s : State) (c : Fin 512) : State :=
  let core := s.cores[c]
  match core.heldAt with
  | some t =>
    if core.st = .none && !tokensHeld s c then (s.putCore c { core with heldAt := none }).count (s.partOf c) 0 (s.clk - t) else s
  | none => s

/-- R363, R364: a token has landed: its entry is freed, or in NOTIFY until its release notices have left. -/
def landToken (s : State) (c : Fin 512) (t : BitVec 16) : State :=
  let core := s.cores[c]
  match liveTok core t with
  | none => s
  | some e =>
    (settleHold · c) <| if e.waiters.isEmpty then s.putCore c { core with tokens := vput core.tokens (tokEntry t) none }
    else
      let p := (s.partOf c).getD 0
      let s := s.putCore c { core with tokens := vput core.tokens (tokEntry t) (some { e with notify := true }) }
      e.waiters.foldl (fun s d => send s p (relMsg s c p t d)) s

/-- R363: a NOTIFY entry is freed once its last REL has left. -/
def freeNotified (s : State) (c : Fin 512) (t : BitVec 16) : State :=
  let core := s.cores[c]
  match core.tokens[tokEntry t] with
  | some e =>
    if e.notify && !(s.fabric.out.any fun m => m.msg.kind == kRel && m.msg.token == t && msgCore m.msg == c) then
      s.putCore c { core with tokens := vput core.tokens (tokEntry t) none }
    else s
  | none => s

/-- R337: whether all of some streams can still send, and each uses its next IV. -/
def allOpen (s : State) (p : Fin 16) (ids : List StreamId) : Bool := ids.all (ivOpen s p)
def useAll (s : State) (p : Fin 16) (ids : List StreamId) : State := ids.foldl (fun s id => useIv s p id) s

/-- R333, R336: the link groups that a transfer between two dies passes: the one that joins neighbours, and between dies that are not
neighbours the two by way of the next die. (DESIGN CHOICE: log 46.) -/
def dieHops (s : State) (a b : Fin 4) : List StreamId :=
  let hop (x y : Fin 4) : StreamId := (ucieSid s x (4 + (if (x.val + 1) % 4 = y.val then x.val else y.val)) (decide (y.val < x.val)), none)
  if a = b then []
  else if (a.val + 1) % 4 = b.val ∨ (b.val + 1) % 4 = a.val then [hop a b]
  else [hop a (ix 4 (a.val + 1)), hop (ix 4 (a.val + 1)) b]

/-- R333, R336: the streams that seal a message from one edge of this package to another: the sending edge's, and those of the link
groups on its way. One IV of each is counted for one message. (DESIGN CHOICE: log 46.) -/
def edgeHops (s : State) (src dst : Fin 64) : List StreamId := (edgeSid s src, none) :: dieHops s (dieOfCluster src) (dieOfCluster dst)

/-- R333, R336: the stream of the link group between a die and the hub, toward the hub or back. -/
def hubHop (s : State) (d : Fin 4) (back : Bool) : StreamId := (ucieSid s d d.val back, none)

/-- R333: the streams of a transfer between two edges of this package: its request and its answer. -/
def crossIds (s : State) (src dst : Fin 64) : List StreamId := edgeHops s src dst ++ edgeHops s dst src

/-- R333, R336: a transfer between two edges of this package uses IVs for the request and for its answer. -/
def sealCross (s : State) (p : Option (Fin 16)) (src dst : Fin 64) : State :=
  match p with
  | some p => useAll s p (crossIds s src dst)
  | none => s

/-- R337: whether every stream of a transfer can still send. -/
def crossOpen (s : State) (p : Option (Fin 16)) (src dst : Fin 64) : Bool :=
  match p with
  | some p => allOpen s p (crossIds s src dst)
  | none => true

/-- R333: the streams of an access of BAR2 of a TDI in RUN to an edge: the host port's, then the edge's for its answer. -/
def hostIds (s : State) (k : Fin 64) : List StreamId :=
  let d := dieOfCluster k
  [(hostSid s, none), hubHop s d true, (edgeSid s k, none), hubHop s d false]

/-! ### Leaving the package (R358) -/

/-- R333, R336, R366: the streams that seal a message on its way out: its edge's and its die's link group's, where an edge of this
package seals it, and the link's. (DEDUCED: log 37.) -/
def sealers (s : State) (m : OutMsg) (k : Fin 6) : List StreamId :=
  (m.edge.toList.flatMap fun e => [(edgeSid s e, some m.msg.dpkg), hubHop s (dieOfCluster e) false]) ++ [(linkSid s k, none)]

/-- R336: a message with the epoch and the IV under which its edge seals it. -/
def sealedAs (s : State) (p : Fin 16) (id : StreamId) (m : Msg) : Msg :=
  if s.parts[p].prot then
    let x := streamOf s p id
    { m with epoch := x.epoch, iv := BitVec.ofNat 48 x.iv }
  else m

/-- R357: the messages that ask another package for something. -/
def isRequest (k : BitVec 5) : Bool := [kRd, kWr, kQst, kAmo, kVamo, kRed, kTile].contains k

/-- R331: a request that has left is undelivered until its answer comes. -/
def noteSent (s : State) (o : OutMsg) (m : Msg) : State :=
  match o.part with
  | some p => if isRequest m.kind && !o.transit then { s with fabric := { s.fabric with flying := s.fabric.flying ++ [(p, m)] } } else s
  | none => s

/-- R357: whether a message answers a request: of its core, and at its address or of its token. -/
def answers (a m : Msg) : Bool :=
  msgCore a == msgCore m &&
    if a.kind = kLand then m.kind == kQst && m.token == a.token
    else m.addr == a.addr && (a.kind == kErr || match m.kind with
      | 0x01 => a.kind == kRdrsp
      | 0x03 | 0x0A | 0x0B => a.kind == kWrack
      | 0x08 => a.kind == kAmorsp
      | 0x0C => a.kind == kTilersp
      | 0x05 => a.kind == kHoldfull
      | _ => false)

/-- R331: an answer has come: the request is undelivered no more. -/
def noteAnswer (s : State) (p : Fin 16) (a : Msg) : State :=
  match s.fabric.flying.find? fun x => x.1 == p && answers a x.2 with
  | some x => { s with fabric := { s.fabric with flying := s.fabric.flying.erase x } }
  | none => s

/-- R337: whether every stream that seals a message can still send. Nothing of an unprotected partition is counted. (DEDUCED: log 37.) -/
def canSeal (s : State) (m : OutMsg) (k : Fin 6) : Bool :=
  match m.part with
  | some p => (sealers s m k).all (ivOpen s p)
  | none => true

/-- R358, R361: the link on which a waiting message can leave now: up, keyed, with a pool that takes its flits; among several the one
with the most free slots, and of equals the first. How many slots are free at the far end is a free value: no signal tells it. (DESIGN CHOICE: log 35.) -/
def canLeave (s : State) (m : OutMsg) : Option (Fin 6) :=
  let ok := (outputs s m).filter fun k => s.fabric.links[k].up && linkGo s m k && hasSession s (farEnd s m k) && canSeal s m k
  ok.foldl (fun best k => match best with
    | none => some k
    | some b => if Config.farFree s.tick b.val < Config.farFree s.tick k.val then some k else some b) none

/-- R401: the payload bytes of a message that leaves are counted for its partition. -/
def countSent (s : State) (m : OutMsg) : State :=
  if m.transit then s else s.count m.part 7 m.msg.payload.length

/-- A message leaves on a link. -/
def leaveOn (s : State) (m : OutMsg) (k : Fin 6) (rest : List OutMsg) : State :=
  let s := countSent s m
  let msg := match m.part, m.edge with
    | some p, some e => sealedAs s p (edgeSid s e, some m.msg.dpkg) m.msg
    | _, _ => m.msg
  let s := { s with fabric := { s.fabric with sent := s.fabric.sent ++ [(k, msg)], out := rest } }
  let s := match m.part with
    | some p => useAll s p (sealers s m k)
    | none => s
  let s := noteSent s m msg
  if m.msg.kind = kRel ∧ !m.transit then freeNotified s (msgCore m.msg) m.msg.token else s

/-- R358, R367: the messages that can leave do so in order. An ordered message never passes an earlier one of its domain to its
package. -/
def flushFrom : List OutMsg → State → List OutMsg → State
  | [], s, kept => { s with fabric := { s.fabric with out := kept } }
  | m :: rest, s, kept =>
    let behind := m.msg.cls && kept.any fun k => k.msg.cls && k.msg.dpkg == m.msg.dpkg && k.msg.fdid == m.msg.fdid
    match (if behind || s.pf.trip2 then none else canLeave s m) with
    | none => flushFrom rest s (kept ++ [m])
    | some k => flushFrom rest (leaveOn s m k (kept ++ rest)) kept

/-- Every message that can leave does. -/
def flushOut (s : State) : State := flushFrom s.fabric.out s []

end Sys2Proof.Machine
end

