-- ==== Sys2Proof/Machine/Queue.lean ====
section
/-! DEFINITION. Performing the entries of the load and store queues (R71, R77 to R81, R116 to R119, R130, R199 to R201,
R345): which entry may perform, its next part, and what performing a part does. -/

namespace Sys2Proof.Machine

/-! ### Read-modify-write (R81) -/

/-- R62: the operations of AMO by their codes. -/
def amoNew (op : BitVec 4) (n : Nat) (old b cmp : Nat) : Nat :=
  let m := 2 ^ (8 * n)
  let sg (x : Nat) : Int := if 2 * x < m then x else (x : Int) - m
  match op.toNat with
  | 0 => (old + b) % m
  | 1 => old &&& b
  | 2 => old ||| b
  | 3 => old ^^^ b
  | 4 => if sg old < sg b then old else b
  | 5 => if sg old < sg b then b else old
  | 6 => min old b
  | 7 => max old b
  | 8 => b
  | _ => if old = cmp then b else old

/-- R77: the register value of a load. -/
def ldValue (f : LdForm) (bs : List Byte) : Word :=
  match f with
  | .u8 | .u16 | .u32 | .u64 => BitVec.ofNat 64 (leNat bs)
  | .s8 => (BitVec.ofNat 8 (leNat bs)).signExtend 64
  | .s16 => (BitVec.ofNat 16 (leNat bs)).signExtend 64
  | .s32 => (BitVec.ofNat 32 (leNat bs)).signExtend 64

/-- Bytes put at an offset of a list, with zeros before them where the list ends earlier. -/
def patch (old : List Byte) (o : Nat) (bs : List Byte) : List Byte :=
  old.take o ++ List.replicate (o - old.length) 0 ++ bs ++ old.drop (o + bs.length)

/-- The bytes of a vector. -/
def vecBytes (v : Vec) : List Byte := (List.range 256).map fun i => lane 8 v i

/-- The vector of 256 bytes. -/
def bytesVec (bs : List Byte) : Vec := ofLanes 8 256 fun i => bs.getD i 0

/-- R117: a register takes the active bytes of a load. -/
def mergeBytes (m : Mask) (old : Vec) (bs : List Byte) : Vec := mapLanes 1 m old fun i => bs.getD i 0

/-- R188: the side registers' bytes at the end of an image. -/
def sideImage (a : Acc) : List Byte :=
  a.max.toList.flatMap (fun x => leBytes 4 x.toNat) ++ a.sum.toList.flatMap (fun x => leBytes 4 x.toNat)

/-- R188: the raw image of an accumulator. -/
def rawImage (a : Acc) : List Byte := a.elems.toList.flatMap (fun x => leBytes 8 x.toNat) ++ sideImage a

/-- R151: an element as FP32. -/
def readOut (x : AccWord) : Nat := FloatFmt.f32.round .rne (FloatFmt.e8m39.value x.toNat)

/-- R188, R189: the FP32 image of an accumulator. -/
def f32Image (a : Acc) : List Byte := a.elems.toList.flatMap (fun x => leBytes 4 (readOut x)) ++ sideImage a

/-- R189: an FP32 value as an E8M39 element, exactly. -/
def accOfF32 (x : Nat) : AccWord := BitVec.ofNat 48 (FloatFmt.e8m39.round .rne (FloatFmt.f32.value x))

/-! ### Targets -/

/-- Where a part is performed: a scratchpad byte by its flat address, or a die's physical memory under a key. -/
inductive Target where
  | flat (a : Nat)
  | hbm (d : Fin 4) (p : Nat) (k : MemKey)
deriving DecidableEq, Repr

/-- A read at a target. -/
def targetRead (s : State) (t : Target) (n : Nat) : Except Cause (List Byte) :=
  match t with
  | .flat a => .ok (s.load a n)
  | .hbm d p k => hbmRead s d p n k

/-- R317, R374: the parts of the trap area, and of the event ring's head, that hold nothing: first byte and length, as offsets in TM. -/
def trapGaps : List (Nat × Nat) := [(0x7C148, 0x38), (0x7C3C0, 0x40), (0x7C600, 0xA00), (0x7D200, 0xE00), (0x7E010, 0x30)]

/-- R7, R317, R374: the reserved bytes of a core's trap area and work area read as zero after a store of `n` bytes at a flat address. -/
def clearGaps (s : State) (a n : Nat) : State :=
  let off := a % 2 ^ 20
  if decide (a < 2 ^ 30) && decide (off < 0x7E040) && decide (0x7C148 < off + n) then
    trapGaps.foldl (fun t (o, l) => t.zero (a / 2 ^ 20 * 2 ^ 20 + o) l) s
  else s

/-- A write at a target. -/
def targetWrite (s : State) (t : Target) (bs : List Byte) : Except Cause State :=
  match t with
  | .flat a => .ok (clearGaps (s.store a bs) a bs.length)
  | .hbm d p k => hbmWrite s d p bs k

/-- R116, R130: a write of several runs of bytes at a target, as one action: each run is its offset and its bytes. -/
def targetRuns (s : State) (t : Target) (runs : List (Nat × List Byte)) : Except Cause State :=
  match t with
  | .flat a => .ok (runs.foldl (fun u (o, bs) => clearGaps (u.store (a + o) bs) (a + o) bs.length) s)
  | .hbm d p k => hbmRuns s d p runs k

/-- A target further on. -/
def Target.add : Target → Nat → Target
  | .flat a, n => .flat (a + n)
  | .hbm d p (.mem q va), n => .hbm d (p + n) (.mem q (va + BitVec.ofNat 64 n))
  | .hbm d p .system, n => .hbm d (p + n) .system

/-- The flat address of a target. -/
def Target.addr : Target → Nat
  | .flat a => a
  | .hbm d p _ => hbmAddr d p

/-- R344: a capability write at a target. -/
def targetCap (s : State) (t : Target) (bs : List Byte) : Except Cause State :=
  match targetWrite s t bs with
  | .ok s => .ok (s.storeCap t.addr bs)
  | .error c => .error c

/-- The target of a local location. -/
def localTarget (c : Fin 512) (l : Loc) : Option Target := (scratch c l).map .flat

/-- The bytes of a context's own store of TM, with the event ring's rule for the work area (R374). -/
def writtenTm (old s : State) (c : Fin 512) (fw : Bool) (t : Target) : State :=
  match t with
  | .flat _ => if fw then afterWorkStore old s c else s
  | .hbm _ _ _ => s

/-! ### Capabilities (R343, R345) -/

/-- A capability's fields. -/
def capPart (c : BitVec 128) : Nat := c.toNat / 2 ^ 112 % 16
def capPerm (c : BitVec 128) : BitVec 8 := c.extractLsb' 104 8
def capLen (c : BitVec 128) : Nat := c.toNat / 2 ^ 64 % 2 ^ 40 + 1
def capBase (c : BitVec 128) : Nat := c.toNat % 2 ^ 64

/-- The range of one capability lies in that of another. -/
def capWithin (q par : BitVec 128) : Bool :=
  decide (capBase par ≤ capBase q) && decide (capBase q + capLen q ≤ capBase par + capLen par)

/-- R345: CAPDRV's checks of its parent and request. -/
def deriveCheck (own : Nat) (tag : Bool) (par q : BitVec 128) : Option Cause :=
  if !tag then some .capTag
  else if capPart par ≠ own ∨ !(capPerm par).getLsbD 3 then some .capPerm
  else if q.extractLsb' 112 16 ≠ 0 ∨ capPerm q &&& ~~~capPerm par ≠ 0 then some .capPerm
  else if !capWithin q par then some .capBounds
  else none

/-- R345: the checks of CAPLD and CAPST. -/
def heldCheck (own : Nat) (tag : Bool) (c : BitVec 128) : Option Cause :=
  if !tag then some .capTag else if capPart c ≠ own then some .capPerm else none

/-- R343, R345: what CAPCHK writes. -/
def coverCheck (own : Nat) (tag : Bool) (c q : BitVec 128) : Bool :=
  tag && capPart c == own && capWithin q c && (capPerm q &&& ~~~capPerm c) == 0

/-- The capability with an owner. -/
def withPart (q : BitVec 128) (own : Nat) : BitVec 128 :=
  (q &&& ~~~(BitVec.ofNat 128 (15 * 2 ^ 112))) ||| BitVec.ofNat 128 (own % 16 * 2 ^ 112)

/-- Sixteen bytes as a capability. -/
def capOf (bs : List Byte) : BitVec 128 := BitVec.ofNat 128 (leNat bs)

/-! ### Which entry, and which part of it -/

/-- R79: the head of each queue. -/
def loadHead (x : Ctx) : Option QEnt := x.mq.find? (·.ld)
def storeHead (x : Ctx) : Option QEnt := x.mq.find? (·.st)

/-- R118: the next active element of a strided, gather or scatter word. -/
def nextElem (m : Mask) (pix : Nat) : Option Nat := (List.range 64).find? fun i => decide (pix ≤ i) && m.getLsbD (4 * i)

/-- R118: an element's address: `opa` is 1 for the offset forms, with the offsets in `vec`; else `opb` is the stride. -/
def elemAddr (e : QEnt) (i : Nat) : Word :=
  if e.opa = 1 then e.ea + (lane 32 e.vec i).setWidth 64 else e.ea + BitVec.ofNat 64 i * e.opb

/-- Whether the entry moves element by element. -/
def QEnt.byElem (e : QEnt) : Bool :=
  match e.kind with
  | .vldElems _ | .vstElems => true
  | _ => false

/-- Whether an entry writes memory when it performs. -/
def QEnt.writes (e : QEnt) : Bool :=
  match e.kind with
  | .ld _ _ | .ldAcq _ _ | .vld _ | .vldElems _ | .mld _ _ | .streamRead _ _ | .capLd _ | .capChk _ _ | .lsaln => false
  | .capDrv _ parent => parent.isNone || e.pix == 1
  | .capSt _ => e.pix == 1
  | _ => true

/-- Which of several things comes next, by a number. -/
def pickFrom {α : Type} (n : Nat) : List α → Option α
  | [] => none
  | [x] => some x
  | x :: xs => some ((x :: xs).getD (n % (xs.length + 1)) x)

/-- R345: whether the parts of an entry are performed in turn: the parent of a capability is read before it is written. -/
def QEnt.inTurn (e : QEnt) : Bool :=
  match e.kind with
  | .capDrv _ _ | .capSt _ => true
  | _ => false

/-- R200: the next part of an entry, any of those that are left: none when all are done; a failed element check is its fault. (DEDUCED: log 12.) -/
def nextPiece (s : State) (c : Fin 512) (fw : Bool) (e : QEnt) : Option (Except Cause Piece) :=
  if e.byElem && e.todo.isEmpty then
    (nextElem e.mask e.pix).map fun i =>
      match checkElem s c fw (elemAddr e i) 4 e.writes with
      | .ok l => .ok ⟨l, 4 * i, 4, none⟩
      | .error k => .error k
  else (if e.inTurn then e.todo.head? else pickFrom (Config.partPick s.tick) e.todo).map .ok

/-! ### Order within and between the queues (R78 to R80, R199, R201) -/

/-- A number that tells where a location lies: scratchpad bytes above every address. -/
def locKey (c : Fin 512) (l : Loc) : Nat :=
  match l with
  | .glob va => va.toNat
  | l => 2 ^ 80 + (scratch c l).getD 0

/-- R202, R205: whether a load older than a word has still to read a byte of a range. -/
def loadsMeet (s : State) (c : Fin 512) (fw : Bool) (id lo len : Nat) : Bool :=
  let hit (l : Loc) (n : Nat) : Bool := decide (locKey c l < lo + len) && decide (lo < locKey c l + n)
  (s.cores[c].ctx fw).mq.any fun e =>
    e.ld && decide (e.id < id) &&
      (if e.byElem then
         (List.range 64).any fun i => decide (e.pix ≤ i) && e.mask.getLsbD (4 * i) &&
           (match checkElem s c fw (elemAddr e i) 4 false with
            | .ok l => hit l 4
            | .error _ => false)
       else e.todo.any fun p => hit p.loc p.len)

/-- R70, R71: an entry that has failed holds back nothing while a trap waits for the stores before it. -/
def QEnt.failed (e : QEnt) : Bool :=
  match e.stage with
  | .failed _ => true
  | _ => false

/-- The entries of a context before another. -/
def entsBefore (s : State) (c : Fin 512) (fw : Bool) (id : Nat) : List QEnt :=
  let core := s.cores[c]
  ((core.ctx fw).mq.takeWhile fun f => f.id != id).filter fun f => !(!fw && core.trap.isSome && f.failed)

/-- R199: whether a Quickset store older than an entry has still to land on a line of a part. An expired one holds nothing back. (DEDUCED: log 18.) -/
def lineHeld (s : State) (c : Fin 512) (fw : Bool) (id : Nat) (p : Piece) : Bool :=
  match p.loc with
  | .glob va => tokenOut s.cores[c] fw id fun k => !k.expired &&
      decide (k.line ≤ (va.toNat + p.len - 1) / 128) && decide (va.toNat / 128 < k.line + k.span)
  | _ => false

/-- R205: whether a Quickset store must wait for an older load of its bytes. -/
def qstWaits (s : State) (c : Fin 512) (fw : Bool) (e : QEnt) : Bool :=
  e.todo.any fun p => loadsMeet s c fw e.id (locKey c p.loc) p.len

/-- R200: the parts of an entry that may be performed next, whichever comes first. -/
def frontParts (s : State) (c : Fin 512) (fw : Bool) (e : QEnt) : List Piece :=
  if e.byElem && e.todo.isEmpty then
    match nextPiece s c fw e with
    | some (.ok p) => [p]
    | _ => []
  else if e.inTurn then e.todo.take 1 else e.todo

/-- R79, R78, R80, R199, R201, R205: whether an entry may perform: it heads each queue it stands in, a store waits for earlier
acquires and for Quickset stores to its lines, a Quickset store for earlier loads of its bytes, and a release for every earlier
entry and token. -/
def mayPerform (s : State) (c : Fin 512) (fw : Bool) (e : QEnt) : Bool :=
  let old := entsBefore s c fw e.id
  old.all (fun f => !(f.ld && e.ld) && !(f.st && e.st) && !(e.st && f.isAcq)) &&
    (match e.kind with
     | .st true => old.isEmpty && !tokenOut s.cores[c] fw e.id (fun k => !k.expired)
     | .qst _ _ _ _ => !qstWaits s c fw e
     | _ => !e.st || (frontParts s c fw e).all fun p => !lineHeld s c fw e.id p)

/-- An entry of a context is replaced. -/
def putEnt (s : State) (c : Fin 512) (fw : Bool) (e : QEnt) : State :=
  let core := s.cores[c]
  let x := core.ctx fw
  s.putCore c (core.setCtx fw { x with mq := x.mq.map fun f => if f.id = e.id then e else f })

/-- An entry leaves its queues. -/
def dropEnt (s : State) (c : Fin 512) (fw : Bool) (id : Nat) : State :=
  let core := s.cores[c]
  let x := core.ctx fw
  s.putCore c (core.setCtx fw { x with mq := (x.mq.filter fun f => f.id != id).map fun f => { f with arrival := max f.arrival s.clk } })

/-- The registers of a context of a core change. -/
def modRegs (s : State) (c : Fin 512) (fw : Bool) (f : Regs → Regs) : State :=
  let core := s.cores[c]
  let x := core.ctx fw
  s.putCore c (core.setCtx fw { x with regs := f x.regs })

/-- R57: a register of an entry's result is written, unless a word of a higher index in the entry's bundle has written it. -/
def QEnt.result (e : QEnt) (s : State) (c : Fin 512) (fw : Bool) (reg : Nat) (f : Regs → Regs) : State :=
  if e.keep.contains reg then s else modRegs s c fw f

/-- R117: the active bytes of a part, each a run of its own. -/
def activeRuns (m : Mask) (p : Piece) (bs : List Byte) : List (Nat × List Byte) :=
  ((List.range p.len).filter fun i => m.getLsbD (p.off + i)).map fun i => (i, (bs.drop i).take 1)

/-- R117: the active bytes of a part are written, as one action. -/
def writeActive (s : State) (t : Target) (m : Mask) (p : Piece) (bs : List Byte) : Except Cause State :=
  let runs := activeRuns m p bs
  if runs.length = p.len then targetWrite s t bs else targetRuns s t runs

/-- R130: a VAMO at a target: one action on the line that reads and writes its active elements alone. With none it does
nothing. -/
def vamoAt (s : State) (t : Target) (b16 : Bool) (m : Mask) (v : Vec) : Except Cause State :=
  let w := if b16 then 2 else 4
  let on := (List.range (128 / w)).filter fun i => m.getLsbD (w * i)
  match on.foldlM (fun bs i => (targetRead s (t.add (w * i)) w).map (patch bs (w * i))) (List.replicate 128 0) with
  | .error k => .error k
  | .ok old =>
    let new := vecBytes (vamoLine (if b16 then .bf16 else .f32) m (bytesVec old) v)
    targetRuns s t (on.map fun i => (w * i, (new.drop (w * i)).take w))

/-- R165, R210: the target of a translated part of global memory. -/
def globTarget (s : State) (c : Fin 512) (fw : Bool) (va : Word) (pa : Nat) : Target :=
  .hbm (dieOfVa va) pa (accessKey s fw (s.partOf c) va)

/-- Where a part of an access of a context of a core is performed. -/
def partTarget (s : State) (c : Fin 512) (fw : Bool) (p : Piece) : Target :=
  match p.loc with
  | .glob va => globTarget s c fw va (p.pa.getD 0)
  | l => .flat ((scratch c l).getD 0)

/-- The block of a die's memory in which a translated part lies. -/
def Piece.block? (p : Piece) : Option (Fin 4 × Nat) :=
  match p.loc, p.pa with
  | .glob va, some pa => some (dieOfVa va, pa / 64)
  | _, _ => none

/-- R335, R342: the parts of a write that a part is performed with, lowest first: all eight of its block of a die's memory, where every
byte of each is written, so that the edge writes the block whole. None where the part is performed alone. (DEDUCED: log 12.) -/
def blockMates (parts : List Piece) (whole : Piece → Bool) (p : Piece) : List Piece :=
  match p.block? with
  | none => []
  | some (d, b) =>
    let l := parts.filter fun q => q.block? == some (d, b) && q.len == 8 && whole q
    let l := (List.range 8).filterMap fun i => l.find? fun q => q.pa == some (64 * b + 8 * i)
    if l.length = 8 then l else []

/-- The parts of a write of which each is performed alone or leads those performed with it. -/
def leaders (parts : List Piece) (whole : Piece → Bool) : List Piece :=
  parts.filter fun p => (blockMates parts whole p).headD p == p

/-- A write to a block, or a part of one: `mates` with their bytes as one action, or `alone`. -/
def writeMates (s : State) (mates : List Piece) (target : Piece → Target) (bytes : Piece → List Byte)
    (alone : Except Cause State) : Except Cause State :=
  match mates with
  | [] => alone
  | q :: _ => targetWrite s (target q) (mates.flatMap bytes)

/-- R117: whether every byte of a part of an entry is written. A mask of zero stands for no mask, as an entry of which no byte is
active has no part. -/
def QEnt.whole (e : QEnt) (p : Piece) : Bool := e.mask == 0 || (List.range p.len).all fun i => e.mask.getLsbD (p.off + i)

/-- R116, R117, R335: a part of a store is written, with the parts that are performed with it. -/
def storePart (s : State) (c : Fin 512) (fw : Bool) (e : QEnt) (p : Piece) (t : Target) : Except Cause (State × QEnt) :=
  let bytes (q : Piece) : List Byte := (e.data.drop q.off).take q.len
  let mates := blockMates e.todo e.whole p
  let alone := if e.mask = 0 then targetWrite s t (bytes p) else writeActive s t e.mask p (bytes p)
  (writeMates s mates (partTarget s c fw) bytes alone).map fun s' =>
    (writtenTm s s' c fw t, { e with todo := e.todo.filter fun q => q != p && !mates.contains q })

/-- What performing a part does to memory and to its entry. -/
def performPart (s : State) (c : Fin 512) (fw : Bool) (e : QEnt) (p : Piece) (t : Target) : Except Cause (State × QEnt) :=
  let own := ((s.partOf c).getD 0).val
  let rest := e.todo.erase p
  match e.kind with
  | .ld _ _ | .ldAcq _ _ | .vld _ | .mld _ _ | .streamRead _ _ =>
    (targetRead s t p.len).map fun bs => (s, { e with data := patch e.data p.off bs, todo := rest })
  | .vldElems d =>
    (targetRead s t 4).map fun bs =>
      (e.result s c fw d.toNat fun r => r.setV d (bytesVec (patch (vecBytes (r.getV d)) p.off bs)), { e with pix := p.off / 4 + 1, todo := [] })
  | .capLd _ =>
    match targetRead s t 16 with
    | .error k => .error k
    | .ok bs =>
      match heldCheck own (s.tagged t.addr) (capOf bs) with
      | some k => .error k
      | none => .ok (s, { e with data := bs, todo := rest })
  | .capChk _ _ =>
    (targetRead s t 16).map fun bs => (s, { e with data := bs, todo := rest, opa := if s.tagged t.addr then 1 else 0 })
  | .st _ | .mst | .qst _ _ _ _ | .vst => storePart s c fw e p t
  | .vstElems =>
    (targetWrite s t ((e.data.drop p.off).take 4)).map fun s' =>
      (writtenTm s s' c fw t, { e with pix := p.off / 4 + 1, todo := [] })
  | .lsaln => .ok (s, e)
  | .amo _ op size =>
    let n := amoBytes size
    match targetRead s t n with
    | .error k => .error k
    | .ok old =>
      let new := amoNew op n (leNat old) (e.opa.toNat % 2 ^ (8 * n)) (e.opb.toNat % 2 ^ (8 * n))
      (targetWrite s t (leBytes n new)).map fun s' => (writtenTm s s' c fw t, { e with data := old, todo := rest })
  | .vamo b16 =>
    (vamoAt s t b16 e.mask e.vec).map fun s' => (writtenTm s s' c fw t, { e with todo := rest })
  | .capDrv q parent =>
    if parent.isSome && e.pix == 0 then
      match targetRead s t 16 with
      | .error k => .error k
      | .ok bs =>
        match deriveCheck own (s.tagged t.addr) (capOf bs) q with
        | some k => .error k
        | none => .ok (s, { e with todo := rest, pix := 1 })
    else (targetCap s t e.data).map fun s' => (writtenTm s s' c fw t, { e with todo := rest })
  | .capSt _ =>
    if e.pix = 0 then
      match targetRead s t 16 with
      | .error k => .error k
      | .ok bs =>
        match heldCheck own (s.tagged t.addr) (capOf bs) with
        | some k => .error k
        | none => .ok (s, { e with data := bs, todo := rest, pix := 1 })
    else (targetCap s t e.data).map fun s' => (writtenTm s s' c fw t, { e with todo := rest })

/-- R188, R189: the accumulator of a raw or an FP32 image. -/
def accOfImage (raw : Bool) (bs : List Byte) : Acc :=
  let side := if raw then 2048 else 1024
  { elems := Vector.ofFn fun i : Fin 256 =>
      if raw then BitVec.ofNat 48 (fieldAt bs (8 * i.val) 6) else accOfF32 (fieldAt bs (4 * i.val) 4)
    max := Vector.ofFn fun i : Fin 16 => BitVec.ofNat 32 (fieldAt bs (side + 4 * i.val) 4)
    sum := Vector.ofFn fun i : Fin 16 => BitVec.ofNat 32 (fieldAt bs (side + 64 + 4 * i.val) 4) }

/-- What an entry writes to its context when its last part has performed. -/
def finishEnt (s : State) (c : Fin 512) (fw : Bool) (e : QEnt) : State :=
  let own := ((s.partOf c).getD 0).val
  match e.kind with
  | .ld d f => e.result s c fw d.toNat fun r => r.setS d (ldValue f e.data)
  | .ldAcq d _ => e.result s c fw d.toNat fun r => r.setS d (BitVec.ofNat 64 (leNat e.data))
  | .vld d => e.result s c fw d.toNat fun r => r.setV d (mergeBytes e.mask (r.getV d) e.data)
  | .mld a raw => e.result s c fw a.toNat fun r => r.setA a (accOfImage raw e.data)
  | .streamRead q pos =>
    let core := s.cores[c]
    let x := core.ctx fw
    let core := dropGuard core e.id
    match x.streams[q.toNat]'q.isLt with
    | some sr =>
      let sr := if pos = 2 ^ 64 then sr else { sr with got := sr.got ++ [(pos, .inl e.data)] }
      s.putCore c (core.setCtx fw { x with streams := x.streams.set q.toNat (some sr) q.isLt })
    | none => s.putCore c core
  | .capLd pair =>
    let s := e.result s c fw pair.toNat fun r => r.setS pair (BitVec.ofNat 64 (fieldAt e.data 0 8))
    e.result s c fw (pair + 1).toNat fun r => r.setS (pair + 1) (BitVec.ofNat 64 (fieldAt e.data 8 8))
  | .capChk pd q => e.result s c fw pd.toNat fun r => r.setP pd (coverCheck own (e.opa == 1) (capOf e.data) q)
  | .amo d _ _ => e.result s c fw d.toNat fun r => r.setS d (BitVec.ofNat 64 (leNat e.data))
  | .qst t _ _ _ => landToken s c t
  | _ => s

/-- R118: an entry by elements has passed over the elements that are not active. -/
def QEnt.skipIdle (e : QEnt) : QEnt := if e.byElem then { e with pix := (nextElem e.mask e.pix).getD 64 } else e

/-- Whether an entry has no part left. -/
def entDone (e : QEnt) : Bool :=
  match e.kind with
  | .lsaln => true
  | .vldElems _ | .vstElems => (nextElem e.mask e.pix).isNone
  | _ => e.todo.isEmpty

/-- An entry whose last part is done takes effect and leaves; another waits for its next part, whose request arises now for an
element and arose with the access for a part of it. -/
def settleEnt (s : State) (c : Fin 512) (fw : Bool) (e : QEnt) : State :=
  if entDone e then dropEnt (finishEnt s c fw e) c fw e.id
  else
    let stage : Stage := if e.byElem || e.inTurn || e.stage != .xlated then .waiting else .xlated
    putEnt s c fw { e.skipIdle with stage := stage, arrival := if e.byElem || e.inTurn then s.clk else e.arrival }

/-- R70, R119: a fault found after issue stays with its entry. -/
def failEnt (s : State) (c : Fin 512) (fw : Bool) (e : QEnt) (k : Cause) : State :=
  putEnt s c fw { e.skipIdle with stage := .failed k }

/-- R335: the state that a failed write at a target leaves. -/
def targetFail (s : State) (t : Target) (n : Nat) : State :=
  match t with
  | .flat _ => s
  | .hbm d p _ => hbmFail s d p n

/-- R70: the first of an entry's parts that could not be performed if all were performed now. -/
def firstBad (s : State) (c : Fin 512) (fw : Bool) (e : QEnt) : List Piece → Option (Piece × Cause)
  | [] => none
  | p :: ps =>
    match performPart s c fw e p (partTarget s c fw p) with
    | .ok (t, e) => firstBad t c fw e ps
    | .error k => some (p, k)

/-- R70: what stops an entry whole before it transfers its first byte. -/
def wholeFault (s : State) (c : Fin 512) (fw : Bool) (e : QEnt) : Option (Piece × Cause) :=
  if e.byElem || e.inTurn || !e.writes || e.sure || e.todo.length ≤ 1 then none else firstBad s c fw e (leaders e.todo e.whole)

/-- R70: a part is performed. A store with a part that could not be performed transfers no byte; one that has begun passes over a
part that has failed since. (DEDUCED: log 12.) -/
def runPart (s : State) (c : Fin 512) (fw : Bool) (e : QEnt) (p : Piece) : State :=
  let t := partTarget s c fw p
  match wholeFault s c fw e with
  | some (q, k) => failEnt (targetFail s (partTarget s c fw q) q.len) c fw e k
  | none =>
    match performPart s c fw e p t with
    | .ok (s, e) => settleEnt s c fw { e with sure := true }
    | .error k =>
      let s := if e.writes then targetFail s t p.len else s
      if e.sure && e.writes then settleEnt s c fw { e with todo := e.todo.erase p } else failEnt s c fw e k

/-! ### Atomic engine lines (R209 to R211) -/

/-- R209: the home cluster within its die of a physical address. -/
def homeOf (p : Nat) : Nat := (List.range 8).foldl (fun h g => h ^^^ (p / 2 ^ (7 + 4 * g) % 16)) 0

/-- The home cluster of a physical address of a die. -/
def homeCluster (d : Fin 4) (p : Nat) : Fin 64 := ix 64 (16 * d.val + homeOf p)

/-- R211: the ACTIVE memory key slot of a partition. -/
def memKeySlot (s : State) (part : Fin 16) : Option (Fin 64) :=
  (List.finRange 64).find? fun i => s.hub.keys[i].st == .active && s.hub.keys[i].cls == 0 && s.hub.keys[i].part == part

/-- R211: a line is or becomes resident, most recently used first. For a new one the least recently used of 64 to which no request is
in progress leaves; none while every one is busy. -/
def touchLine (s : State) (k : Fin 64) (line : Nat) (part : Fin 16) (busy : Nat → Bool) : Option State :=
  let cl := s.clusters[k]
  let rest := cl.lines.filter fun l => l.addr != line
  let me : EngLine := match cl.lines.find? fun l => l.addr == line with
    | some l => { l with part := part, slot := memKeySlot s part }
    | none => ⟨line, part, memKeySlot s part, s.load line 128, s.caps.filter fun g => decide (line / 16 ≤ g) && decide (g < line / 16 + 8)⟩
  let put (ls : List EngLine) : State := s.putCluster k { cl with lines := me :: ls }
  if rest.length < 64 then some (put rest)
  else (rest.reverse.find? fun l => !busy l.addr).map fun l => put (rest.erase l)

/-- R211: whether a line is resident in an engine. -/
def resident (s : State) (k : Fin 64) (line : Nat) : Bool := s.clusters[k].lines.any fun l => l.addr == line

/-- R81: whether an entry is performed by a bank or an atomic engine as a read-modify-write. -/
def QEnt.isRmw (e : QEnt) : Bool :=
  match e.kind with
  | .amo _ _ _ | .vamo _ | .capDrv _ _ | .capSt _ => true
  | _ => false

end Sys2Proof.Machine
end

