-- ==== Sys2Proof/Machine/CopyBox.lean ====
section
/-! DEFINITION. Copies (R152 to R166, R347, R348): the descriptor, its checks of shape, format and alignment, the boxes
and the bytes each moves, and performing one whole box with its credit. Boxes are performed in ascending number. -/

namespace Sys2Proof.Machine

/-! ### The copy descriptor (R152) -/

def dSrc (d : List Byte) : Nat := fieldAt d 0 8
def dDst (d : List Byte) : Nat := fieldAt d 8 8
def dSPitch (d : List Byte) : Int := (BitVec.ofNat 32 (fieldAt d 16 4)).toInt
def dDPitch (d : List Byte) : Int := (BitVec.ofNat 32 (fieldAt d 20 4)).toInt
def dWidth (d : List Byte) : Nat := fieldAt d 24 4
def dHeight (d : List Byte) : Nat := fieldAt d 28 2
def dBoxW (d : List Byte) : Nat := fieldAt d 32 2
def dBoxH (d : List Byte) : Nat := fieldAt d 34 2
def dESize (d : List Byte) : Nat := byteAt d 36
def dFmt (d : List Byte) : Nat := byteAt d 37
def dTable (d : List Byte) : Nat := byteAt d 38
def dStampAddr (d : List Byte) : Nat := fieldAt d 40 8
def dStampVal (d : List Byte) : Nat := fieldAt d 48 8

/-- R65: the variants of CPY2D. -/
inductive Variant where
  | plain | relay | quant | zexp
  | reduce (f32 : Bool) (op : BitVec 2)
  | stamp
deriving DecidableEq, Repr

/-- R65: the variant of a word's F and K: of a reduce, op 0 is ADD, 2 MAX and 3 MIN. -/
def variantOf (f k : BitVec 3) : Option Variant :=
  match f.toNat, k.toNat with
  | 0, 0 => some .plain
  | 1, 0 => some .relay
  | 1, 1 => some .quant
  | 1, 2 => some .zexp
  | 2, 0 => some (.reduce true 0)
  | 2, 1 => some (.reduce false 0)
  | 2, 2 => some (.reduce true 2)
  | 2, 3 => some (.reduce true 3)
  | 3, 0 => some .stamp
  | _, _ => none

/-- R142: the record size of a format code that quantise and expand accept. -/
def fmtSize (code : Nat) : Option Nat :=
  match recFmtOf code with
  | some .zero => none
  | some f => some f.size
  | none => none

/-- R153: boxes across, and the number of boxes. -/
def boxesX (v : Variant) (d : List Byte) : Nat :=
  match v with
  | .quant => dWidth d / 64
  | .zexp => 1
  | _ => (dWidth d + dBoxW d - 1) / dBoxW d
def boxCount (v : Variant) (d : List Byte) : Nat :=
  match v with
  | .quant => dWidth d / 64 * (dHeight d / 16)
  | .zexp => dHeight d
  | _ => boxesX v d * ((dHeight d + dBoxH d - 1) / dBoxH d)

/-- R154: the element size of a variant. -/
def elemSize (v : Variant) (d : List Byte) : Nat :=
  match v with
  | .relay => 2 ^ dESize d
  | .reduce f32 _ => if f32 then 4 else 2
  | _ => 1

/-- R152, R154: COPY_SHAPE. -/
def shapeOk (v : Variant) (d : List Byte) : Bool :=
  let recs := v == .quant || v == .zexp
  let zero (o n : Nat) : Bool := fieldAt d o n == 0
  zero 56 8 && zero 39 1 && zero 30 2 &&
    (v == .stamp || (zero 40 8 && zero 48 8)) &&
    (recs || (zero 37 1 && (v == .relay || zero 36 1))) && (v == .quant || zero 38 1) && (!recs || zero 36 1) &&
    decide (1 ≤ dHeight d) && decide (1 ≤ dWidth d) && decide (dWidth d ≤ 16777216) &&
    (if recs then zero 32 4 else decide (1 ≤ dBoxW d) && decide (1 ≤ dBoxH d)) &&
    decide (boxCount v d ≤ 65536) &&
    (match v with
     | .relay => decide (dESize d ≤ 3) && dWidth d % elemSize v d == 0 && dBoxW d % elemSize v d == 0
     | .quant => dWidth d % 64 == 0 && dHeight d % 16 == 0 &&
         decide (((dWidth d / 64 * (fmtSize (dFmt d)).getD 0 : Nat) : Int) ≤ dDPitch d)
     | .zexp => (fmtSize (dFmt d)).getD (dWidth d) == dWidth d && dSPitch d == 0 && decide ((dWidth d : Int) ≤ dDPitch d)
     | .reduce _ _ => dWidth d % elemSize v d == 0 && dBoxW d % elemSize v d == 0
     | _ => true)

/-- R145: the companding table of a slot; slot 0 is the identity. (DEDUCED: log 8.) -/
def tableOf (s : State) (c : Fin 512) (t : Nat) : Option CompTable :=
  if t = 0 then none else match s.partOf c with
  | some p => s.parts[p].tables[ix 4 (t - 1)]
  | none => none

/-- R145: whether a slot may be named: slot 0, or a slot that holds a valid table. -/
def tableValid (s : State) (c : Fin 512) (t : Nat) : Bool := t == 0 || (decide (t ≤ 4) && (tableOf s c t).isSome)

/-- R154: FORMAT. -/
def formatOk (s : State) (c : Fin 512) (v : Variant) (d : List Byte) : Bool :=
  match v with
  | .quant => (fmtSize (dFmt d)).isSome && decide (dTable d ≤ 4) && (dFmt d != 0x20 || dTable d == 0) &&
      tableValid s c (dTable d)
  | .zexp => (fmtSize (dFmt d)).isSome
  | _ => true

/-- R154: MISALIGN. -/
def alignOk (v : Variant) (d : List Byte) : Bool :=
  let e := elemSize v d
  match v with
  | .plain => true
  | .stamp => dStampAddr d % 8 == 0
  | .relay | .reduce _ _ => dSrc d % e == 0 && dDst d % e == 0 && dSPitch d % e == 0 && dDPitch d % e == 0
  | .quant => dSrc d % 4 == 0 && dSPitch d % 4 == 0 && dDst d % 16 == 0 && dDPitch d % 16 == 0
  | .zexp => dSrc d % 16 == 0 && dDst d % 16 == 0 && dDPitch d % 16 == 0

/-- R154: the cause of a descriptor's own faults: shape, then format, then alignment. (DEDUCED: log 11.) -/
def descFault (s : State) (c : Fin 512) (v : Variant) (d : List Byte) : Option Cause :=
  if !shapeOk v d then some .copyShape
  else if !formatOk s c v d then some .format
  else if !alignOk v d then some .misalign
  else none

/-- The lowest and the highest byte of `rows` rows at a pitch, each `len` bytes long, as offsets. -/
def rowSpan (rows : Nat) (pitch : Int) (len : Nat) : Int × Int :=
  let last := ((rows : Int) - 1) * pitch
  (min 0 last, max 0 last + len - 1)

/-- R159, R165: the source and destination envelopes as offsets from SRC and DST. -/
def srcSpan (v : Variant) (d : List Byte) : Int × Int :=
  match v with
  | .zexp => (0, (dHeight d * dWidth d : Nat) - 1)
  | _ => rowSpan (dHeight d) (dSPitch d) (dWidth d)
def dstSpan (v : Variant) (d : List Byte) : Int × Int :=
  match v with
  | .relay => rowSpan (dWidth d / elemSize v d) (dDPitch d) (dHeight d * elemSize v d)
  | .quant => rowSpan (dHeight d / 16) (dDPitch d) (dWidth d / 64 * (fmtSize (dFmt d)).getD 0)
  | .zexp => rowSpan (dHeight d) (dDPitch d) (dWidth d)
  | _ => rowSpan (dHeight d) (dDPitch d) (dWidth d)

/-! ### What a box moves (R153, R164, R165) -/

/-- A location at a signed offset. -/
def Loc.addI : Loc → Int → Loc
  | .tm off, z => .tm ((off : Int) + z).toNat
  | .cm k off, z => .cm k ((off : Int) + z).toNat
  | .glob va, z => .glob (va + BitVec.ofInt 64 z)

/-- R153: the rows and the row bytes of a box. -/
def boxRows (d : List Byte) (v : Variant) (b : Nat) : List Nat :=
  let by_ := b / boxesX v d
  (List.range (min ((by_ + 1) * dBoxH d) (dHeight d) - by_ * dBoxH d)).map (by_ * dBoxH d + ·)
def boxFirst (d : List Byte) (v : Variant) (b : Nat) : Nat := b % boxesX v d * dBoxW d
def boxLen (d : List Byte) (v : Variant) (b : Nat) : Nat := min (boxFirst d v b + dBoxW d) (dWidth d) - boxFirst d v b

/-- The source segments of a box, as offsets from SRC. Of a packed record, which begins at `pos`, the header comes first
(R165). -/
def srcSegs (v : Variant) (d : List Byte) (b pos : Nat) : List (Int × Nat) :=
  match v with
  | .quant =>
    (List.range 16).map fun r =>
      ((16 * (b / boxesX v d) + r : Nat) * dSPitch d + (64 * (b % boxesX v d) : Nat), 64)
  | .zexp => [((pos : Int), 16)]
  | _ => (boxRows d v b).map fun (r : Nat) => (r * dSPitch d + (boxFirst d v b : Nat), boxLen d v b)

/-- R165: the record of a tile of FP32 values, FLAGS zero. -/
def quantRecord (q : QFmt) (tab : Option CompTable) (t : Nat) (xs : List Val) : List Byte :=
  (List.range 8).foldl (fun bs j => (qBlockWrites q tab xs j).foldl (fun bs (o, w) => patch bs o w) bs)
    (qHeader q t xs ++ List.replicate ((qRecFmt q).size - 8) 0)

/-- R113: the quantised format of a code. -/
def qFmtOf (code : Nat) : QFmt :=
  match code with
  | 0x10 => .e4m3 | 0x11 => .e5m2 | 0x12 => .cb4 | 0x13 => .int8 | _ => .bf16

/-- The E-byte elements of a list of bytes. -/
def chunks (e : Nat) (bs : List Byte) : List (List Byte) := (List.range (bs.length / e)).map fun i => (bs.drop (e * i)).take e

/-- R142, R165: the header of a packed record that expand reads: none is the deferred fault FORMAT; otherwise how many of the
record's bytes are read, and whether it is a ZERO record. Expand looks up no companding table, so steps 1 to 3 of R142 apply. (DEDUCED: log 12.) -/
def expandHeader (d hdr : List Byte) : Option (Nat × Bool) :=
  match recHeader (fun _ => true) hdr with
  | some .zero => some (16, true)
  | some _ => if byteAt hdr 0 = dFmt d then some (dWidth d, false) else none
  | none => none

/-- The destination segments of a box, as offsets from DST, from the bytes of its source segments. None is the deferred fault
FORMAT. -/
def dstSegs (s : State) (c : Fin 512) (v : Variant) (d : List Byte) (b : Nat) (src : List (List Byte)) :
    Option (List (Int × List Byte)) :=
  match v with
  | .relay =>
    let e := elemSize v d
    let rows := boxRows d v b
    some ((List.range (boxLen d v b / e)).map fun (i : Nat) =>
      (((boxFirst d v b / e + i : Nat) : Int) * dDPitch d + (rows.headD 0 * e : Nat),
        src.flatMap fun bs => (bs.drop (e * i)).take e))
  | .quant =>
    let vals := src.flatMap fun row => (chunks 4 row).map fun x => FloatFmt.f32.value (leNat x)
    let q := qFmtOf (dFmt d)
    some [(((b / boxesX v d : Nat) : Int) * dDPitch d + (b % boxesX v d * (qRecFmt q).size : Nat),
      quantRecord q (tableOf s c (dTable d)) (dTable d) vals)]
  | .zexp =>
    let bs := src.flatten
    (expandHeader d (bs.take 16)).map fun (_, zero) =>
      if zero then
        let hdr := leBytes 1 (dFmt d) ++ [0] ++ (bs.drop 2).take 1 ++ [0] ++ leBytes 4 0x3F800000
        [((b : Int) * dDPitch d, hdr ++ List.replicate (dWidth d - 8) 0)]
      else [((b : Int) * dDPitch d, bs)]
  | _ => some (((boxRows d v b).zip src).map fun ((r : Nat), bs) => (r * dDPitch d + (boxFirst d v b : Nat), bs))

/-- R153: the box bytes of a box. -/
def boxBytes (k : CopyKind) (d : List Byte) (b : Nat) : Nat :=
  match k with
  | .cpy f kk =>
    match variantOf f kk with
    | some .quant => (fmtSize (dFmt d)).getD 0
    | some .zexp => dWidth d
    | some v => (boxRows d v b).length * boxLen d v b
    | none => 0
  | .sealing => min 4096 (fieldAt d 16 4 - 4096 * b) + 16 + if b = 0 then 64 else 0
  | .unsealing => min 4096 (fieldAt d 16 4 - 4096 * b)

/-! ### SEAL and UNSEAL (R347, R348) -/

/-- R347, R348: the source segments of chunk b of a SEAL or an UNSEAL. Every chunk of an UNSEAL reads the stored header, which
its tag binds. (DEDUCED: log 12.) -/
def sealSrc (k : Copy) (b : Nat) : List (Int × Nat) :=
  let n := min 4096 (fieldAt k.desc 16 4 - 4096 * b)
  match k.kind with
  | .unsealing => [((0 : Int), 64), (((64 + 4112 * b : Nat) : Int), n + 16)]
  | _ => [(((4096 * b : Nat) : Int), n)]

/-- R347: the header of an image. -/
def sealHeader (k : Copy) : List Byte :=
  [0x53, 0x45, 0x41, 0x4C] ++ (k.desc.drop 16).take 4 ++ (k.desc.drop 24).take 8 ++ leBytes 8 k.nonce.toNat ++
    List.replicate 40 0

/-- R347: the key of an image's chunks, from the seal secret, the label and the nonce, as round keys. (DEDUCED: log 49.) -/
def sealKeys (secret : BitVec 512) (label nonce : Word) : List (List Nat) :=
  keysOf (hkdf256 (msbBytes 64 secret.toNat) ([0x73, 0x65, 0x61, 0x6C] ++ msbBytes 8 label.toNat ++ msbBytes 8 nonce.toNat))

/-- R347: the nonce of chunk b. -/
def chunkNonce (b : Nat) : BitVec 96 := BitVec.ofNat 96 (b % 2 ^ 32 * 2 ^ 64)

/-- R347: AES-256-GCM adds a key stream to the bytes: sealing and opening a chunk are one operation on them. -/
def sealCrypt (keys : List (List Nat)) (b : Nat) (bs : List Byte) : List Byte := toBytes (gcmCrypt keys (chunkNonce b) (ofBytes bs))

/-- R347: the 16 bytes of the tag of a chunk's ciphertext, with the header and the chunk's number bound into it. (DEDUCED: log 49.) -/
def sealTag (keys : List (List Nat)) (b : Nat) (hdr cipher : List Byte) : List Byte :=
  toBytes (msbBytes 16 (gcmTag keys (chunkNonce b) (ofBytes hdr ++ msbBytes 4 b) (ofBytes cipher)))

/-- R347, R348: what chunk b writes. An image whose header or tag does not verify is INTEGRITY. -/
def sealDst (s : State) (c : Fin 512) (k : Copy) (b : Nat) (src : List (List Byte)) : Option (List (Int × List Byte)) :=
  let n := min 4096 (fieldAt k.desc 16 4 - 4096 * b)
  let label : Word := BitVec.ofNat 64 (fieldAt k.desc 24 8)
  let key := match s.partOf c with
    | some p => (s.parts[p].secret).getD 0
    | none => 0
  match k.kind with
  | .unsealing =>
    let hdr := src.headD []
    let nonce : Word := BitVec.ofNat 64 (fieldAt hdr 16 8)
    let body := src.getLastD []
    let keys := sealKeys key label nonce
    if b = 0 ∧ hdr.take 16 ≠ (sealHeader k).take 16 then none
    else if sealTag keys b hdr (body.take n) ≠ body.drop n then none
    else some [(((4096 * b : Nat) : Int), sealCrypt keys b (body.take n))]
  | _ =>
    let aad := sealHeader k
    let keys := sealKeys key label k.nonce
    let cipher := sealCrypt keys b (src.headD [])
    some ((if b = 0 then [((0 : Int), aad)] else []) ++
      [(((64 + 4112 * b : Nat) : Int), cipher ++ sealTag keys b aad cipher)])

/-! ### A copy and its boxes -/

/-- The variant of a copy's word. -/
def Copy.variant (k : Copy) : Variant :=
  match k.kind with
  | .cpy f kk => (variantOf f kk).getD .plain
  | _ => .plain

/-- R165: the bytes of an element of a reduce: its format and operation. -/
def Copy.reduceOf (k : Copy) : Option (Bool × BitVec 2) :=
  match k.variant with
  | .reduce f32 op => some (f32, op)
  | _ => none

/-- The source segments of a box of any copy. -/
def Copy.srcOf (k : Copy) (b : Nat) : List (Loc × Nat) :=
  (match k.kind with
   | .cpy _ _ => srcSegs k.variant k.desc b (k.recPos.getD b 0)
   | _ => sealSrc k b).map fun (o, n) => (k.srcLoc.addI o, n)

/-- The destination segments of a box of any copy, or the box's own fault. -/
def Copy.dstOf (s : State) (c : Fin 512) (k : Copy) (b : Nat) (src : List (List Byte)) : Except Cause (List (Loc × List Byte)) :=
  let put (l : List (Int × List Byte)) : List (Loc × List Byte) := l.map fun (o, bs) => (k.dstLoc.addI o, bs)
  match k.kind with
  | .cpy _ _ => match dstSegs s c k.variant k.desc b src with
    | some segs => .ok (put segs)
    | none => .error .format
  | _ => match sealDst s c k b src with
    | some segs => .ok (put segs)
    | none => .error .integrity

/-- R160: whether destination bytes of a copy may overlap each other: its boxes are then performed one by one, and each in
order. -/
def Copy.overlaps (k : Copy) : Bool :=
  let near (rows len : Nat) : Bool := decide (1 < rows) && decide ((dDPitch k.desc).natAbs < len)
  match k.kind, k.variant with
  | .cpy _ _, .relay => near (dWidth k.desc / elemSize .relay k.desc) (dHeight k.desc * elemSize .relay k.desc)
  | .cpy _ _, .quant => false
  | .cpy _ _, .zexp => false
  | .cpy _ _, _ => near (dHeight k.desc) (dWidth k.desc)
  | _, _ => false

/-- R159, R165, R347: the source and destination envelopes of a copy, as offsets from its locations. -/
def Copy.spans (k : Copy) : (Int × Int) × (Int × Int) :=
  let n := fieldAt k.desc 16 4
  let image : Int × Int := (0, (64 + n + 16 * ((n + 4095) / 4096) : Nat) - 1)
  let plain : Int × Int := (0, (n : Int) - 1)
  match k.kind with
  | .cpy _ _ => (srcSpan k.variant k.desc, dstSpan k.variant k.desc)
  | .sealing => (plain, image)
  | .unsealing => (image, plain)

/-- R159: the guard entries of a copy, by the places that its addresses had at issue. -/
def Copy.needs (c : Fin 512) (k : Copy) : List (Nat × Nat × Bool) :=
  let lo (l : Loc) (o : Int × Int) : Option Nat := scratch c (l.addI o.1)
  let len (o : Int × Int) : Nat := (o.2 + 1 - o.1).toNat
  guardNeeds [(lo k.srcLoc k.spans.1, len k.spans.1, false), (lo k.dstLoc k.spans.2, len k.spans.2, true)]

/-- A copy of a core is replaced. -/
def putCopy (s : State) (c : Fin 512) (slot : Fin 256) (k : Option Copy) : State :=
  let core := s.cores[c]
  s.putCore c { core with copies := vput core.copies slot k }

/-- R165: the number that the stamp of a copy has among its boxes. -/
def Copy.stampBox (k : Copy) : Nat := k.boxes

/-- Whether every box of a copy is credited. -/
def Copy.allCredited (k : Copy) : Bool := decide (k.boxes ≤ k.credited.length)

/-- R160: the lowest box of a copy that has not started. -/
def nextStart (k : Copy) : Option Nat :=
  if k.boxes ≤ k.credited.length then none
  else (List.range k.boxes).find? fun b => !k.credited.contains b && !(k.runs.any fun r => r.num == b)

/-- The lowest box of a copy that is not credited. -/
def nextBox (k : Copy) : Option Nat := (List.range k.boxes).find? fun b => !k.credited.contains b

/-- The box of a copy in progress is replaced. -/
def Copy.putRun (k : Copy) (r : BoxRun) : Copy := { k with runs := k.runs.map fun q => if q.num = r.num then r else q }

/-- A box of a copy is no longer in progress. -/
def Copy.dropRun (k : Copy) (b : Nat) : Copy := { k with runs := k.runs.filter fun r => r.num != b }

/-- R161: a box stops: it is no longer in progress, once what it has asked of other packages is answered. -/
def Copy.stopRun (k : Copy) (b : Nat) : Copy :=
  { k with runs := k.runs.filterMap fun r =>
      if r.num != b then some r else if r.away.isEmpty then none else some { r with parts := [], dead := true } }

/-- R161: a box stops at a fault, and the copy starts no other. A copy that CPYCAN has cancelled
has no fault: the box stays undone (R166). (DEDUCED: log 12.) -/
def copyFault (s : State) (c : Fin 512) (slot : Fin 256) (k : Copy) (b : Nat) (e : Cause) (addr : Word) : State :=
  let k := k.stopRun b
  putCopy s c slot (some (if k.cancelled || k.fault.isSome then k
    else { k with fault := some e, faultAddr := addr, faultBox := if b = k.stampBox then 0 else b }))

/-- R157: the source of a copy's credits. -/
def creditSource (slot : Fin 256) (k : Copy) : BarSource := if k.nest then .emitted slot else .copy slot

/-- R157: whether a copy may credit its barrier in this clk. -/
def creditFree (s : State) (c : Fin 512) (slot : Fin 256) (k : Copy) : Bool :=
  match k.barrier with
  | some n => barFree s c k.fw n.toNat (creditSource slot k)
  | none => true

/-- R159: a copy's source range is released once every source byte has been read, and its destination range once every box has
been credited. -/
def releaseRanges (s : State) (c : Fin 512) (k : Copy) : State :=
  let core := s.cores[c]
  let read := (nextStart k).isNone && k.runs.all (·.writing)
  s.putCore c { core with guard := core.guard.filter fun g =>
    !(g.owner == k.id && ((read && !g.dst) || k.allCredited)) }

/-- R160, R159: a copy ends: its slot and its guard entries are freed. -/
def endCopy (s : State) (c : Fin 512) (slot : Fin 256) (k : Copy) : State :=
  let s := putCopy s c slot none
  s.putCore c (dropGuard s.cores[c] k.id)

/-- R156, R160: a box is credited; its number joins the record of credited boxes. With the last one the copy ends, unless its stamp is
still to be written. -/
def creditBox (s : State) (c : Fin 512) (slot : Fin 256) (k : Copy) (b : Nat) : State :=
  let n := boxBytes k.kind k.desc b
  let k := { k.dropRun b with credited := k.credited ++ [b], bytes := k.bytes + n }
  let s := credit (releaseRanges (putCopy s c slot (some k)) c k) c k.fw k.barrier (creditSource slot k) n
  if k.allCredited && k.variant != .stamp then endCopy s c slot k else s

/-- The box bytes of the boxes that are not credited. -/
def bytesLeft (k : Copy) : Nat :=
  ((List.range k.boxes).filter fun b => !k.credited.contains b).foldl (fun n b => n + boxBytes k.kind k.desc b) 0

/-- R166: a cancelled copy with no box in progress: the boxes that are left are credited as one event, which is made even for no
bytes, and the copy ends. (DESIGN CHOICE: log 44.) -/
def endCancel (s : State) (c : Fin 512) (slot : Fin 256) (k : Copy) : State :=
  credit (endCopy s c slot k) c k.fw k.barrier (creditSource slot k) (bytesLeft k)

/-! ### The parts of a box -/

/-- Whether a location lies on another package. -/
def Loc.remote (s : State) : Loc → Bool
  | .glob va => pkgOf va != ownPkg s
  | _ => false

/-- R200, R165, R357: the parts of a segment: messages of at most 1,024 bytes for another package, else elements of a reduce, or
the naturally aligned 8-byte blocks. -/
def segParts (s : State) (elem : Option Nat) (l : Loc) (n : Nat) : List Piece :=
  let every (m : Nat) : List Piece := (List.range ((n + m - 1) / m)).map fun i => ⟨l.add (m * i), m * i, min m (n - m * i), none⟩
  if l.remote s then every 1024 else match elem with
    | some e => every e
    | none => piecesOf l n

/-- The parts of several segments, with their places in the bytes of all of them together. -/
def layParts (s : State) (elem : Option Nat) : Nat → List (Loc × Nat) → List Piece
  | _, [] => []
  | o, (l, n) :: rest => (segParts s elem l n).map (fun p => { p with off := o + p.off }) ++ layParts s elem (o + n) rest

/-- The address of a location for a frame: a global address, or the offset in its window. -/
def locAddr (l : Loc) : Word :=
  match l with
  | .glob va => va
  | l => BitVec.ofNat 64 l.num

/-- R160, R161, R183: the parts of a transfer are checked against the leases and translated whole; a failure names the address
that gave it. -/
def xlateParts (s : State) (c : Fin 512) (fw write : Bool) : List Piece → State × Except (Option (Cause × Word)) (List Piece)
  | [] => (s, .ok [])
  | p :: ps =>
    let rest (s : State) (p : Piece) : State × Except (Option (Cause × Word)) (List Piece) :=
      match xlateParts s c fw write ps with
      | (s, .ok l) => (s, .ok (p :: l))
      | r => r
    match p.loc with
    | .glob va =>
      if !va.getLsbD 63 then (s, .error (some (.unmapped, va)))
      else match (if fw then fwCheck s va p.len else leaseVerdict (leasesOf s (s.partOf c)) va p.len write) with
      | some k => (s, .error (some (k, va)))
      | none =>
        if p.loc.remote s then rest s p
        else match translatePin s fw (s.partOf c) va write with
        | (s, .ok pa) => rest s { p with pa := some pa }
        | (s, .fail k) => (s, .error (some (k, va)))
        | (s, .wait) => (s, .error none)
    | _ => rest s p

/-- R333: the edge of another cluster that a part of a core's transfer crosses, if it leaves the core's own edge sealed: another
cluster's CM, or memory of another die. -/
def partEdge (c : Fin 512) (p : Piece) : Option (Fin 64) :=
  match p.loc with
  | .cm k _ => if k = clusterOf c then none else some k
  | .glob va => match p.pa with
    | some pa => if dieOf c = dieOfVa va then none else some (homeCluster (dieOfVa va) pa)
    | none => none
  | .tm _ => none

/-- R333, R336, R337: a transfer of a core is sealed once with each other edge that it touches; none while one of them cannot send.
The firmware context's is not sealed. (DEDUCED: log 37.) -/
def crossParts (s : State) (c : Fin 512) (fw : Bool) (ps : List Piece) : Option State :=
  let edges := (ps.filterMap (partEdge c)).eraseDups
  let p := s.partOf c
  if fw then some s
  else if edges.all (crossOpen s p (clusterOf c)) then some (edges.foldl (fun t k => sealCross t p (clusterOf c) k) s)
  else none

/-- R165: one element of a reduce. -/
def reduceElem (f32 : Bool) (op : BitVec 2) (old new : List Byte) : List Byte :=
  let e := if f32 then 4 else 2
  let fmt := if f32 then FloatFmt.f32 else FloatFmt.bf16
  let a := fmt.value (leNat old)
  let b := fmt.value (leNat new)
  leBytes e (fmt.round .rne (if op = 0 then a.add b else if op = 2 then a.max b else a.min b))

/-- The bytes of a part within those of its box. -/
def BoxRun.bytesOf (r : BoxRun) (p : Piece) : List Byte := (r.data.drop p.off).take p.len

/-- R335: the parts of a box that a part is written with: those of its block. A reduce acts on each element by itself, and a copy
whose bytes overlap keeps their order. -/
def Copy.mates (k : Copy) (parts : List Piece) (p : Piece) : List Piece :=
  if k.overlaps || k.reduceOf.isSome then [] else blockMates parts (fun _ => true) p

/-- R164, R165: a part of a box is written, with the parts that are performed with it: a reduce combines its element with what stands
there. -/
def writePart (s : State) (c : Fin 512) (k : Copy) (r : BoxRun) (mates : List Piece) (p : Piece) : Except Cause State :=
  let t := partTarget s c k.fw p
  match k.reduceOf with
  | some (f32, op) =>
    match targetRead s t p.len with
    | .ok old => targetWrite s t (reduceElem f32 op old (r.bytesOf p))
    | .error e => .error e
  | none => writeMates s mates (partTarget s c k.fw) r.bytesOf (targetWrite s t (r.bytesOf p))

/-- R160, R161: the first part of a box that could not be written if all of `parts` were written now. -/
def firstUnwritable (s : State) (c : Fin 512) (k : Copy) (r : BoxRun) (parts : List Piece) : List Piece → Option (Piece × Cause)
  | [] => none
  | p :: ps =>
    let mates := k.mates parts p
    if p.loc.remote s || mates.headD p != p then firstUnwritable s c k r parts ps
    else match writePart s c k r mates p with
    | .ok t => firstUnwritable t c k r parts ps
    | .error e => some (p, e)

/-- R160: the parts of one phase of a box are checked, translated and sealed whole, and the phase begins. -/
def beginPhase (s : State) (c : Fin 512) (slot : Fin 256) (k : Copy) (r : BoxRun) : State :=
  match xlateParts s c k.fw r.writing r.parts with
  | (s, .error (some (e, va))) => copyFault s c slot k r.num e va
  | (s, .error none) => s
  | (s, .ok parts) =>
    let r := { r with parts := parts, arrival := s.clk }
    match (if r.writing then firstUnwritable s c k r parts parts else none) with
    | some (p, e) => copyFault (targetFail s (partTarget s c k.fw p) p.len) c slot k r.num e (locAddr p.loc)
    | none =>
      match crossParts s c k.fw parts with
      | some s =>
        let k := if k.runs.any (·.num == r.num) then k.putRun r else { k with runs := k.runs ++ [r] }
        releaseRanges (putCopy s c slot (some k)) c k
      | none => s

/-- The phase in which a box reads segments, after what it has already read. -/
def readPhase (s : State) (b : Nat) (have_ : List Byte) (segs : List (Loc × Nat)) : BoxRun :=
  ⟨b, false, layParts s none have_.length segs, [], have_ ++ List.replicate ((segs.map (·.2)).sum) 0, s.clk, false⟩

/-- R160: a box starts: it reads its source. -/
def startBox (s : State) (c : Fin 512) (slot : Fin 256) (k : Copy) (b : Nat) : State :=
  beginPhase s c slot k (readPhase s b [] (k.srcOf b))

/-- The lengths of segments cut a list of bytes. -/
def cutBytes : List Nat → List Byte → List (List Byte)
  | [], _ => []
  | n :: ns, bs => bs.take n :: cutBytes ns (bs.drop n)

/-- R160, R164, R165: a box whose source has been read writes its destination. -/
def writePhase (s : State) (c : Fin 512) (slot : Fin 256) (k : Copy) (r : BoxRun) : State :=
  let segs := k.srcOf r.num
  let lens := if k.variant = .zexp then [r.data.length] else segs.map (·.2)
  match k.dstOf s c r.num (cutBytes lens r.data) with
  | .error e => copyFault s c slot k r.num e (locAddr (segs.headD (k.srcLoc, 0)).1)
  | .ok segs =>
    let elem := k.reduceOf.map fun x => if x.1 then 4 else 2
    let parts := layParts s elem 0 (segs.map fun (l, bs) => (l, bs.length))
    beginPhase s c slot k { r with writing := true, parts := parts, data := segs.flatMap (·.2) }

/-- R165: where the packed record after a box begins, once the box's header has been read. -/
def Copy.learnPos (k : Copy) (b n : Nat) : Copy :=
  if k.recPos.length = b + 1 then { k with recPos := k.recPos ++ [k.recPos.getD b 0 + n] } else k

/-- R142, R160, R165: the source of a box has been read as far as it was asked for. An expanded record goes on after its header;
a box that is credited already was read for the place of the next record only. -/
def readDone (s : State) (c : Fin 512) (slot : Fin 256) (k : Copy) (r : BoxRun) : State :=
  match k.variant, r.data.length with
  | .zexp, 16 =>
    let at_ := k.recPos.getD r.num 0
    match expandHeader k.desc r.data with
    | none => copyFault s c slot k r.num .format (locAddr (k.srcLoc.addI at_))
    | some (n, zero) =>
      let k := k.learnPos r.num n
      let s := putCopy s c slot (some k)
      if k.credited.contains r.num then putCopy s c slot (some (k.dropRun r.num))
      else if zero then writePhase s c slot k r
      else beginPhase s c slot k (readPhase s r.num r.data [(k.srcLoc.addI (at_ + 16), n - 16)])
  | _, _ => writePhase s c slot k r

/-- R160: whether a copy may go on: not held, not stopped by a fault, not abandoned. -/
def Copy.active (k : Copy) : Bool := !k.held && !k.abandoned && k.fault.isNone

/-- R161, R162: whether a copy may start a box: it is active and not cancelled, and no trap of its unit waits, unless the copy is
one that runs to its end first. -/
def Copy.starts (core : Core) (k : Copy) : Bool :=
  k.active && !k.cancelled && (k.fw || core.trap.isNone || (k.reduceOf.isSome && decide (256 < k.boxes)))

/-- R160, R165: the box that a copy starts next: an expanded record needs to know where it begins. -/
def boxToStart (core : Core) (k : Copy) : Option Nat :=
  if !k.starts core || (k.overlaps && !k.runs.isEmpty) then none
  else match nextStart k with
  | none => none
  | some b =>
    if k.variant ≠ .zexp ∨ b < k.recPos.length then some b
    else
      let last := k.recPos.length - 1
      if k.runs.any (·.num == last) then none else some last

/-- R165: whether a copy's stamp is to be written now. -/
def stampDue (core : Core) (k : Copy) : Bool :=
  k.variant == .stamp && k.starts core && k.allCredited && k.runs.isEmpty

/-- R165, R313: the stamp is written as a release at the place that it had at issue. -/
def startStamp (s : State) (c : Fin 512) (slot : Fin 256) (k : Copy) : State :=
  let va : Word := BitVec.ofNat 64 (dStampAddr k.desc)
  let l := k.stampLoc.getD (.glob va)
  beginPhase s c slot k ⟨k.stampBox, true, layParts s none 0 [(l, 8)], [], leBytes 8 (dStampVal k.desc), s.clk, false⟩

/-- R65, R357: the reduce operation of a message: the K of the variant. -/
def redOpx (f32 : Bool) (op : BitVec 2) : BitVec 8 := if !f32 then 1 else op.setWidth 8

/-- R365: a request of a copy to another package. -/
def copyMsg (s : State) (c : Fin 512) (kind : BitVec 5) (va : Word) (len : Nat) (bs : List Byte) : Msg :=
  { coreMsg s c ((s.partOf c).getD 0) kind va bs with len := BitVec.ofNat 16 len }

/-- R357, R365: the request of a part of a box on another package. -/
def partMsg (s : State) (c : Fin 512) (k : Copy) (r : BoxRun) (p : Piece) : Msg :=
  let va := locAddr p.loc
  let bs := r.bytesOf p
  if !r.writing then copyMsg s c kRd va p.len []
  else match k.reduceOf with
  | some (f32, op) => { copyMsg s c kRed va p.len bs with opx := redOpx f32 op }
  | none => { copyMsg s c kWr va p.len bs with opx := if r.num = k.stampBox then 1 else 0 }

/-- R365: the request of a part leaves, and the part waits for its answer. -/
def sendPart (s : State) (c : Fin 512) (slot : Fin 256) (k : Copy) (r : BoxRun) (p : Piece) : State :=
  let r' := { r with parts := r.parts.erase p, away := r.away ++ [p] }
  send (putCopy s c slot (some (k.putRun r'))) ((s.partOf c).getD 0) (partMsg s c k r p)

/-- R202: whether a box that writes must wait for older loads of its context. -/
def boxWaits (s : State) (c : Fin 512) (k : Copy) (p : Piece) : Bool := loadsMeet s c k.fw k.id (locKey c p.loc) p.len

/-- R160: the parts of a box that the engine may perform now: any of them, or the first where the copy's bytes overlap, and none of
which a load older than the copy has still to read a byte that it writes. -/
def boxParts (s : State) (c : Fin 512) (k : Copy) (r : BoxRun) : List Piece :=
  (if k.overlaps then r.parts.take 1 else r.parts).filter fun p =>
    !r.writing || !(p :: k.mates r.parts p).any (boxWaits s c k)

/-- R160, R161: a part of a box is performed. A write that has failed since its box was checked stops the box. (DEDUCED: log 12.) -/
def runBoxPart (s : State) (c : Fin 512) (slot : Fin 256) (k : Copy) (r : BoxRun) (p : Piece) : State :=
  let t := partTarget s c k.fw p
  if r.writing then
    let mates := k.mates (boxParts s c k r) p
    match writePart s c k r mates p with
    | .ok s => putCopy s c slot (some (k.putRun { r with parts := r.parts.filter fun q => q != p && !mates.contains q }))
    | .error e => copyFault (targetFail s t p.len) c slot k r.num e (locAddr p.loc)
  else
    match targetRead s t p.len with
    | .ok bs => putCopy s c slot (some (k.putRun { r with parts := r.parts.erase p, data := patch r.data p.off bs }))
    | .error e => copyFault s c slot k r.num e (locAddr p.loc)

/-- R160, R165: a box with nothing left to do in its phase goes on: it writes what it has read, or it is credited; the stamp ends
its copy. -/
def endPhase (s : State) (c : Fin 512) (slot : Fin 256) (k : Copy) (r : BoxRun) : State :=
  if r.dead then putCopy s c slot (some (k.dropRun r.num))
  else if !r.writing then readDone s c slot k r
  else if r.num = k.stampBox then endCopy s c slot k
  else creditBox s c slot k r.num

end Sys2Proof.Machine
end

