-- ==== Sys2Proof/Machine/MatrixCore.lean ====
section
/-! DEFINITION. The matrix unit's shared work: operand descriptors and tiles (R177 to R184), the exact sums of MMA (R185,
R149), the softmax step (R193), and the block writes of VQREC and MQNT (R114, R115, R195). -/

namespace Sys2Proof.Machine

/-! ### Operand descriptors (R178) -/

def cEsp (w : Word) : Bool := w.getLsbD 63
def cRot (w : Word) : Nat := w.toNat / 2 ^ 52 % 64
def cKt (w : Word) : Nat := w.toNat / 2 ^ 48 % 16 + 1
def cTPitch (w : Word) : Nat := w.toNat / 2 ^ 28 % 2 ^ 20
def cRPitch (w : Word) : Nat := w.toNat % 2 ^ 16

/-- R178: the reserved bits of a control word are zero. -/
def cReservedOk (w : Word) : Bool := w.extractLsb' 58 5 == 0 && w.extractLsb' 16 12 == 0

/-- R179: the bytes of a typed tile's row: 16 elements. -/
def rowBytes : MmaTy → Nat
  | .bf16 | .f16 => 32
  | .cb4 => 8
  | _ => 16

/-- R179: the bytes of a tile in a register group. -/
def tileSize (t : MmaTy) : Nat := 16 * rowBytes t

/-- R182, R184: the extent of a tile: 528 for REC. -/
def tileExtent (t : MmaTy) (c : Word) : Nat :=
  match t with
  | .recd => 528
  | t => 15 * cRPitch c + rowBytes t

/-- R181: the address that the matrix unit reads for a plain address of a CM window; z is the row or the step. -/
def espalier (c : Word) (z a : Nat) : Nat :=
  let bank := (a / 32 % 64 + cRot c + (if cEsp c then z else 0)) % 64
  a / 2048 * 2048 + 32 * bank + a % 32

/-- Whether an address lies in a CM window. -/
def inCmWindow (a : Nat) : Bool :=
  match rowOf a with
  | .ownCm | .place _ => true
  | _ => false

/-- R181, R200: the parts of `n` bytes of a local operand from a location: the naturally aligned 8-byte blocks, each through the
Espalier mapping for CM. `off` is their place in the tile. -/
def operandParts (c : Word) (z off : Nat) (l : Loc) (n : Nat) : List Piece :=
  (piecesOf l n).map fun p =>
    { p with off := off + p.off, loc := match p.loc with
      | .cm k o => .cm k (espalier c z o)
      | l => l }

/-- R142, R184: a record whose header passes, cut to its size; the rest is FORMAT. -/
def recordOf (s : State) (core : Fin 512) (bs : List Byte) : Except Cause (List Byte) :=
  match recHeader (tableValid s core) (bs.take 16) with
  | some f => .ok (bs.take f.size)
  | none => .error .format

/-- R179: the rows of a typed tile within the bytes of its extent. -/
def tileOfExtent (ty : MmaTy) (c : Word) (bs : List Byte) : List Byte :=
  (List.range 16).flatMap fun r => (bs.drop (r * cRPitch c)).take (rowBytes ty)

/-- R183, R184: the tile of step t of a remote operand from the bytes of its whole extent. -/
def remoteTile (s : State) (core : Fin 512) (ty : MmaTy) (c : Word) (bs : List Byte) : Except Cause (List Byte) :=
  match ty with
  | .recd => recordOf s core bs
  | ty => .ok (tileOfExtent ty c bs)

/-! ### Values and sums -/

/-- R179: the value of element (r, c) of a tile. -/
def tileValue (s : State) (core : Fin 512) (ty : MmaTy) (bs : List Byte) (r c : Nat) : Val :=
  match ty with
  | .recd =>
    match recFmtOf (byteAt bs 0) with
    | some f => recElem (tableOf s core) f bs r c
    | none => .nan
  | .bf16 => FloatFmt.bf16.value (fieldAt bs (32 * r + 2 * c) 2)
  | .f16 => FloatFmt.f16.value (fieldAt bs (32 * r + 2 * c) 2)
  | .e4m3 => FloatFmt.e4m3.value (byteAt bs (16 * r + c))
  | .e5m2 => FloatFmt.e5m2.value (byteAt bs (16 * r + c))
  | .int8 => intVal (BitVec.ofNat 8 (byteAt bs (16 * r + c))).toInt
  | .cb4 => cb4Value (byteAt bs (8 * r + c / 2) / (if c % 2 = 0 then 1 else 16) % 16)

/-- R185, R149: the accumulator after the products of the steps' tiles, each element one exact sum rounded once. -/
def mmaSum (va vb : List Byte → Nat → Nat → Val) (a : Acc) (steps : List (List Byte × List Byte)) : Acc :=
  { a with elems := Vector.ofFn fun e : Fin 256 =>
      let i := e.val / 16
      let j := e.val % 16
      let prods := steps.flatMap fun (x, y) => (List.range 16).map fun k => (va x i k).mul (vb y k j)
      BitVec.ofNat 48 (FloatFmt.e8m39.round .rne (exactSum (FloatFmt.e8m39.value a.elems[e].toNat :: prods))) }

/-- R185: an MMA's result. -/
def mmaResult (s : State) (core : Fin 512) (ty : MmaTy) (a : Acc) (steps : List (List Byte × List Byte)) : Acc :=
  mmaSum (tileValue s core ty) (tileValue s core ty) a steps

/-- R179: the steps of a register group. -/
def groupSteps (ty : MmaTy) (a b : List Byte) : List (List Byte × List Byte) :=
  (List.range (1024 / tileSize ty)).map fun t =>
    ((a.drop (t * tileSize ty)).take (tileSize ty), (b.drop (t * tileSize ty)).take (tileSize ty))

/-! ### MSMAX (R193) -/

/-- R193: the ceiling of a value, an integer: a zero is +0. Infinities stay. (DEDUCED: log 8.) -/
def valCeil : Val → Val
  | .num neg m => let z := roundInt .rup neg m; .num (decide (z < 0)) (z.natAbs : Rat)
  | v => v

/-- R193: RNE in a format of x · 2^y for an exact y of at most 0. Where y is no integer, 2^y is irrational, so no tie
exists; below −600 every finite product rounds to zero. (DEDUCED: log 8.) -/
def scaleExp2 (f : FloatFmt) (x : Val) (y : Rat) : Nat :=
  let y := if y < -600 then -600 else y
  let frac := y - y.floor
  if frac = 0 then f.round .rne (x.mul (.num false (pow2 y.floor)))
  else
    let r := exp2Frac frac.num.natAbs frac.den.log2 (2 ^ (exp2Bits + 1)) (2 ^ exp2Bits)
    f.round .rne (x.mul (.num false ((r : Rat) * pow2 (y.floor - exp2Bits))))

/-- R193: RNE of x times corr, where corr is 2^d for a difference d of two FP32 values, 0 for −∞. -/
def rescale (f : FloatFmt) (x d : Val) : Nat :=
  match d with
  | .num neg m => scaleExp2 f x (signed neg m)
  | _ => f.round .rne (x.mul (.num false 0))

/-- R193: one row of the softmax step: the score row, the output row, .max and .sum. -/
def softmaxRow (xs : List AccWord) (ys : List AccWord) (mx sm : BitVec 32) :
    List AccWord × List AccWord × BitVec 32 × BitVec 32 :=
  let f := FloatFmt.f32
  let x := xs.map fun e => f.value (readOut e)
  let old := f.value mx.toNat
  if x.any (fun v => v = .nan || v = .inf false) || old = .nan then
    (xs.map fun _ => BitVec.ofNat 48 FloatFmt.e8m39.canonNan, ys.map fun _ => BitVec.ofNat 48 FloatFmt.e8m39.canonNan,
      BitVec.ofNat 32 f.canonNan, BitVec.ofNat 32 f.canonNan)
  else
    let new := old.max (valCeil (x.foldl Val.max (.inf true)))
    let d := if new.eq old then Val.num false 0 else old.add new.negate
    let p := x.map fun v => if v = .inf true then 0 else f.exp2 (v.add new.negate)
    let s := (treeReduce (floatRedNode .sum) 4 p).headD 0
    let sum := f.round .rne ((f.value (rescale f (f.value sm.toNat) d)).add (f.value s))
    (p.map accOfF32, ys.map (fun y => BitVec.ofNat 48 (rescale FloatFmt.e8m39 (FloatFmt.e8m39.value y.toNat) d)),
      BitVec.ofNat 32 (f.round .rne new), BitVec.ofNat 32 sum)

/-- R193: MSMAX on a score accumulator and its output accumulator. (DEDUCED: log 8.) -/
def softmax (a b : Acc) : Acc × Acc :=
  let row (v : Vector AccWord 256) (i : Nat) : List AccWord := (v.toList.drop (16 * i)).take 16
  let rows := (List.range 16).map fun i => softmaxRow (row a.elems i) (row b.elems i) a.max[ix 16 i] a.sum[ix 16 i]
  let pick (g : List AccWord × List AccWord × BitVec 32 × BitVec 32 → List AccWord) : Vector AccWord 256 :=
    let l := rows.flatMap g
    Vector.ofFn fun e : Fin 256 => l.getD e.val 0
  ({ elems := pick (·.1), max := Vector.ofFn fun i : Fin 16 => (rows.map (·.2.2.1)).getD i.val 0,
     sum := Vector.ofFn fun i : Fin 16 => (rows.map (·.2.2.2)).getD i.val 0 },
   { b with elems := pick (·.2.1) })

/-! ### MREAD, MWRITE, MZERO (R190, R191) -/

/-- R191: rows 4g to 4g + 3 as a vector. -/
def readRows (a : Acc) (g : Nat) : Vec := ofLanes 32 64 fun i => BitVec.ofNat 32 (readOut a.elems[ix 256 (64 * g + i)])

/-- R191: rows 4g to 4g + 3 from a vector. -/
def writeRows (a : Acc) (v : Vec) (g : Nat) : Acc :=
  { a with elems := Vector.ofFn fun e : Fin 256 =>
      if e.val / 64 = g then accOfF32 (lane 32 v (e.val % 64)).toNat else a.elems[e] }

/-- R190: MZERO. -/
def accCleared : Acc := ⟨Vector.replicate 256 0, Vector.replicate 16 0xFF800000, Vector.replicate 16 0⟩

/-! ### Runs and quantisers in progress -/

/-- The runs of a context change. -/
def modMmas (s : State) (c : Fin 512) (fw : Bool) (f : List MmaRun → List MmaRun) : State :=
  let core := s.cores[c]
  let x := core.ctx fw
  s.putCore c (core.setCtx fw { x with mmas := f x.mmas })

/-- A run is replaced. -/
def putMma (s : State) (c : Fin 512) (fw : Bool) (r : MmaRun) : State :=
  modMmas s c fw fun l => l.map fun q => if q.id = r.id then r else q

/-- How many steps a run has (R178). -/
def MmaRun.steps (r : MmaRun) : Nat := cKt r.aCtl

/-- R184: whether a fault has stopped a run's fetch. -/
def MmaRun.stopped (r : MmaRun) : Bool :=
  match r.bStage with
  | .failed _ => true
  | _ => false

/-- R176, R187: the run that fetches next: the first whose steps are not all fetched, unless its own fault or that of an earlier run
on its accumulator has stopped it. -/
def fetchingMma (x : Ctx) : Option MmaRun :=
  x.mmas.find? fun r => decide (r.pix < r.steps) && !r.stopped &&
    (x.mmas.takeWhile fun q => q.id != r.id).all fun q => !(q.acc == r.acc && q.stopped)

/-- R183, R184: the operand of the step in hand that a run fetches now, B once the A tile has been read: its base, its control word,
and whether it is remote. -/
def MmaRun.operand (r : MmaRun) : Word × Word × Bool :=
  if r.tile.isNone then (r.aBase, r.aCtl, false) else (r.bBase, r.bCtl, r.remote)

/-- R179: the address of the tile that a run fetches now. -/
def MmaRun.tileAt (r : MmaRun) : Word := r.operand.1 + BitVec.ofNat 64 (r.pix * cTPitch r.operand.2.1)

/-- R184: a run's fetch is stopped by a fault. -/
def mmaFail (s : State) (c : Fin 512) (fw : Bool) (r : MmaRun) (k : Cause) : State :=
  putMma s c fw { r with bStage := .failed k, parts := [] }

/-- R184: a tile of the step in hand has been read and checked. With the B tile the step is fetched: both tiles are kept and the count
goes up, and the guard is released after the last. -/
def mmaGot (s : State) (c : Fin 512) (fw : Bool) (r : MmaRun) (tile : List Byte) : State :=
  match r.tile with
  | none => putMma s c fw { r with tile := some tile, parts := [], got := [], bStage := .waiting }
  | some a =>
    let r := { r with aTiles := r.aTiles ++ [a], bTiles := r.bTiles ++ [tile], pix := r.pix + 1, bStage := .waiting,
                      tile := none, parts := [], got := [] }
    let s := putMma s c fw r
    if r.pix = r.steps then s.putCore c (dropGuard s.cores[c] r.id) else s

/-- R183, R207: the requests for parts of a tile leave, once the transfer can be sealed. `got` has room for their bytes. -/
def mmaAsk (s : State) (c : Fin 512) (fw : Bool) (r : MmaRun) (parts : List Piece) (got : List Byte) : State :=
  match crossParts s c fw parts with
  | some s => putMma s c fw { r with parts := parts, got := got, arrival := s.clk }
  | none => s

/-- R184: more bytes of a local tile record are asked for. -/
def mmaAskRec (s : State) (c : Fin 512) (fw : Bool) (r : MmaRun) (l : Loc) (n : Nat) : State :=
  let m := r.got.length
  mmaAsk s c fw r (operandParts r.operand.2.1 r.pix m (l.add m) (n - m)) (r.got ++ List.replicate (n - m) 0)

/-- R183, R184: the fetch of a tile begins. A local tile is checked over its extent as one access, of a record its header first; a
remote one is checked and translated whole, or asked for from its package. (DEDUCED: log 16.) -/
def mmaStart (s : State) (c : Fin 512) (fw : Bool) (r : MmaRun) : State :=
  let va := r.tileAt
  let ctl := r.operand.2.1
  if r.operand.2.2 then
    let n := tileExtent r.ty ctl
    match (if fw then fwCheck s va n else globalVerdict s c fw va n false) with
    | some k => mmaFail s c fw r k
    | none =>
      if pkgOf va ≠ ownPkg s then
        putMma (send s ((s.partOf c).getD 0) (copyMsg s c kTile va n [])) c fw { r with bStage := .sent }
      else match xlateParts s c fw false (piecesOf (.glob va) n) with
      | (s, .ok parts) => mmaAsk s c fw r parts (List.replicate n 0)
      | (s, .error (some (k, _))) => mmaFail s c fw r k
      | (s, .error none) => s
  else
    match localCheck s c fw va.toNat (if r.ty = .recd then 16 else tileExtent r.ty ctl) .read with
    | .error k => mmaFail s c fw r k
    | .ok l =>
      if r.ty = .recd then mmaAskRec s c fw r l 16
      else
        let w := rowBytes r.ty
        mmaAsk s c fw r ((List.range 16).flatMap fun i => operandParts ctl i (w * i) (l.add (i * cRPitch ctl)) w)
          (List.replicate (16 * w) 0)

/-- R142, R184: the header of a local tile record has been read: the record is checked over its own size, and then its header. (DESIGN CHOICE: log 44.) -/
def mmaHeader (s : State) (c : Fin 512) (fw : Bool) (r : MmaRun) : State :=
  match recFmtOf (byteAt r.got 0) with
  | none => mmaFail s c fw r .format
  | some f =>
    match localCheck s c fw r.tileAt.toNat f.size .read with
    | .error k => mmaFail s c fw r k
    | .ok l =>
      match recHeader (tableValid s c) r.got with
      | none => mmaFail s c fw r .format
      | some _ => if f.size = 16 then mmaGot s c fw r r.got else mmaAskRec s c fw r l f.size

/-- R183, R184: what has been read of a tile is complete. -/
def mmaEnd (s : State) (c : Fin 512) (fw : Bool) (r : MmaRun) (bs : List Byte) : State :=
  if r.operand.2.2 then
    match remoteTile s c r.ty r.operand.2.1 bs with
    | .ok tile => mmaGot s c fw r tile
    | .error k => mmaFail s c fw r k
  else if r.ty = .recd ∧ bs.length = 16 then mmaHeader s c fw r
  else mmaGot s c fw r bs

/-- R184, R200: a part of a tile is read. -/
def runTilePart (s : State) (c : Fin 512) (fw : Bool) (r : MmaRun) (p : Piece) : State :=
  match targetRead s (partTarget s c fw p) p.len with
  | .ok bs => putMma s c fw { r with parts := r.parts.erase p, got := patch r.got p.off bs }
  | .error k => mmaFail s c fw r k

/-- R183, R184: the fetch of a run goes on where no part of a tile waits to be read: the next tile is asked for, or what has come is
taken. -/
def mmaTurn (s : State) (c : Fin 512) (fw : Bool) (r : MmaRun) : State :=
  match r.bStage with
  | .sent => s
  | .returned bs => mmaEnd s c fw r bs
  | _ => if r.got.isEmpty then mmaStart s c fw r else mmaEnd s c fw r r.got

/-! ### The ramp limiter and the meters of tile steps (R265, R401) -/

/-- R265: the weight of a record in quarters of a BF16 step. -/
def recWeight (bs : List Byte) : Nat :=
  match recFmtOf (byteAt bs 0) with
  | some .bf16 => 4
  | some .zero | some .cb4 => 1
  | _ => 2

/-- R265: the weight of a tile step, in quarters of a BF16 step. -/
def stepWeight (ty : MmaTy) (a b : List Byte) : Nat :=
  match ty with
  | .bf16 | .f16 => 4
  | .e4m3 | .e5m2 | .int8 => 2
  | .cb4 => 1
  | .recd => max (recWeight a) (recWeight b)

/-- R265: whether tile steps of some weights may start in the window: at most 8·a of weight 1. -/
def rampAllows (c : Core) (ws : List Nat) : Bool := decide (c.ramp.started + ws.sum ≤ 32 * c.ramp.allow)

/-- R265: a tile step waits on the cap. -/
def rampWaits (s : State) (c : Fin 512) : State :=
  let core := s.cores[c]
  s.putCore c { core with ramp := { core.ramp with waited := true } }

/-- R265, R401: tile steps start. Those of a unit count in the meters of its partition. (DEDUCED: log 16.) -/
def rampStart (s : State) (c : Fin 512) (fw : Bool) (ws : List Nat) : State :=
  let core := s.cores[c]
  let s := s.putCore c { core with ramp := { core.ramp with started := core.ramp.started + ws.sum } }
  if fw then s
  else ws.foldl (fun t w => t.count (s.partOf c) (if w = 4 then 1 else if w = 2 then 2 else 3) 1) s

/-- R175, R185: the run whose sum is formed next: every step fetched, and no earlier run on its accumulator. -/
def readyMma (x : Ctx) : Option MmaRun :=
  x.mmas.find? fun r => r.pix == r.steps &&
    (x.mmas.takeWhile fun q => q.id != r.id).all fun q => q.acc != r.acc

/-- R57, R185: a run's sum is written, unless a later word of its bundle writes the accumulator, and the run ends. -/
def mmaFinish (s : State) (c : Fin 512) (fw : Bool) (r : MmaRun) : State :=
  let s := if r.lost then s else modRegs s c fw fun g => g.setA r.acc (mmaResult s c r.ty (g.getA r.acc) (r.aTiles.zip r.bTiles))
  modMmas s c fw fun l => l.filter fun q => q.id != r.id

/-- R112, R194: the 256 values that a quantiser writes. -/
def quantValues (x : Ctx) (q : Quant) : List Val :=
  match q.acc with
  | some a => (x.regs.getA a).elems.toList.map fun e => FloatFmt.e8m39.value e.toNat
  | none => q.vecs.flatMap fun v => (List.range 64).map fun i => FloatFmt.f32.value (lane 32 v i).toNat

/-- A context's quantisers change. -/
def modQuants (s : State) (c : Fin 512) (fw : Bool) (f : List Quant → List Quant) : State :=
  let core := s.cores[c]
  let x := core.ctx fw
  s.putCore c (core.setCtx fw { x with quants := f x.quants })

/-- R114, R115: bytes 0 to 7 of the record are written, or its next block; after the last block the word completes. -/
def quantStep (s : State) (c : Fin 512) (fw : Bool) (q : Quant) : State :=
  let xs := quantValues (s.cores[c].ctx fw) q
  let put (s : State) (ws : List (Nat × List Byte)) (q : Quant) : State :=
    modQuants (ws.foldl (fun s (o, bs) => s.store (tmAddr c (q.addr + o)) bs) s) c fw fun l =>
      l.map fun r => if r.id = q.id then q else r
  if !q.headed then put s [(0, qHeader q.fmt q.table.toNat xs)] { q with headed := true }
  else if q.pix < 8 then put s (qBlockWrites q.fmt (tableOf s c q.table.toNat) xs q.pix) { q with pix := q.pix + 1 }
  else
    let s := modQuants s c fw fun l => l.filter fun r => r.id != q.id
    s.putCore c (dropGuard s.cores[c] q.id)

end Sys2Proof.Machine
end

