-- ==== Sys2Proof/Machine/Streams.lean ====
section
/-! DEFINITION. Stream registers (R120 to R123): the descriptor, its positions, and issuing the read of a position. -/

namespace Sys2Proof.Machine

/-! ### The descriptor (R120) -/

def qBase (d : List Byte) : Nat := fieldAt d 0 8
def qStore (d : List Byte) : Bool := byteAt d 8 % 2 == 1
def qCount (d : List Byte) (i : Nat) : Nat := fieldAt d (10 + 2 * i) 2
def qStride (d : List Byte) (i : Nat) : Int := (BitVec.ofNat 32 (fieldAt d (16 + 4 * i) 4)).toInt

/-- R121: the reserved bits are zero and every count is at least 1. -/
def qShapeOk (d : List Byte) : Bool :=
  fieldAt d 28 4 == 0 && fieldAt d 8 2 / 2 == 0 && (List.range 3).all fun i => qCount d i != 0

/-- R121: the base and every stride are multiples of 32. -/
def qAligned (d : List Byte) : Bool := qBase d % 32 == 0 && (List.range 3).all fun i => qStride d i % 32 == 0

/-- R120: how many positions the stream has. -/
def qTotal (d : List Byte) : Nat := qCount d 0 * qCount d 1 * qCount d 2

/-- R120: where position k lies, computed exactly. -/
def qPlace (d : List Byte) (k : Nat) : Int :=
  let i0 := k % qCount d 0
  let i1 := k / qCount d 0 % qCount d 1
  let i2 := k / qCount d 0 / qCount d 1
  (qBase d : Int) + i0 * qStride d 0 + i1 * qStride d 1 + i2 * qStride d 2

/-- R121: the lowest and the highest byte of any position. -/
def qSpan (d : List Byte) : Int × Int :=
  let ends (i : Nat) : Int := ((qCount d i : Int) - 1) * qStride d i
  let lo := (List.range 3).foldl (fun z i => z + min 0 (ends i)) (qBase d : Int)
  let hi := (List.range 3).foldl (fun z i => z + max 0 (ends i)) (qBase d : Int)
  (lo, hi + 255)

/-- Where position k lies, as an address. -/
def qAddr (d : List Byte) (k : Nat) : Word := BitVec.ofInt 64 (qPlace d k)

/-! ### Reads -/

/-- Whether the read of a position is in the load queue. -/
def readInFlight (x : Ctx) (q : BitVec 2) (k : Nat) : Bool := x.mq.any fun e => e.kind == .streamRead q k

/-- What a stream keeps of a position: its bytes, or the cause of the read's failure. -/
def keepPos (s : State) (c : Fin 512) (fw : Bool) (q : BitVec 2) (k : Nat) (r : List Byte ⊕ Cause) : State :=
  let core := s.cores[c]
  let x := core.ctx fw
  match x.streams[q.toNat]'q.isLt with
  | some sr =>
    s.putCore c (core.setCtx fw
      { x with streams := x.streams.set q.toNat (some { sr with got := sr.got ++ [(k, r)] }) q.isLt })
  | none => s

/-- R122: whether the guard can take the 256 bytes of a read. -/
def readFits (s : State) (c : Fin 512) (fw : Bool) (d : List Byte) (k : Nat) : Bool :=
  match localCheck s c fw (qAddr d k).toNat 256 .read with
  | .ok l => guardOk s.cores[c] (guardNeeds [(scratch c l, 256, false)])
  | .error _ => true

/-- R122, R123: the read of position k is issued: an entry of the load queue that holds its bytes in the guard, or the
cause of its failure kept with the position. -/
def issueRead (s : State) (c : Fin 512) (fw : Bool) (q : BitVec 2) (d : List Byte) (k : Nat) : State :=
  if !decide (k < qTotal d) then s
  else match localCheck s c fw (qAddr d k).toNat 256 .read with
  | .error e => keepPos s c fw q k (.inr e)
  | .ok l =>
    let core := s.cores[c]
    let x := core.ctx fw
    let e : QEnt :=
      { id := s.serial, kind := .streamRead q k, ld := true, st := false, ea := qAddr d k, opa := 0, opb := 0, vec := 0,
        mask := 0, pix := 0, todo := piecesOf l 256, data := [], stage := .waiting, arrival := s.clk, sure := false, keep := [], pkt := x.pc,
        wword := s.word, word := s.iword }
    let core := takeGuard (core.setCtx fw { x with mq := x.mq ++ [e] }) s.serial fw (guardNeeds [(scratch c l, 256, false)])
    { s.putCore c core with serial := s.serial + 1 }

/-- R123: the positions from k to k + 3 of a bound load stream whose reads have not been issued since its context was stopped. -/
def lackingReads (x : Ctx) (q : BitVec 2) : List Nat :=
  match x.streams[q.toNat]'q.isLt with
  | some sr =>
    if qStore sr.desc then []
    else ((List.range 4).map (sr.pos + ·)).filter fun k =>
      decide (k < qTotal sr.desc) && (sr.got.lookup k).isNone && !readInFlight x q k
  | none => []

/-- R123: whether any stream of a context lacks a read. -/
def readsLack (x : Ctx) : Bool := (List.range 4).any fun q => !(lackingReads x (BitVec.ofNat 2 q)).isEmpty

/-- R123, R159: the reads that a stream lacks are issued, in order, as far as the guard can take them. (DEDUCED: log 14.) -/
def reissueReads (s : State) (c : Fin 512) (fw : Bool) (q : BitVec 2) : State :=
  match (s.cores[c].ctx fw).streams[q.toNat]'q.isLt with
  | some sr => (lackingReads (s.cores[c].ctx fw) q).foldl (fun t k =>
      if readFits t c fw sr.desc k then issueRead t c fw q sr.desc k else t) s
  | none => s

/-- R123: the reads that the streams of a context lack are issued. -/
def reissueAll (s : State) (c : Fin 512) (fw : Bool) : State :=
  (List.range 4).foldl (fun t q => reissueReads t c fw (BitVec.ofNat 2 q)) s

/-- Every bound stream forgets what it has read ahead. -/
def forgetReads (x : Ctx) : Ctx := { x with streams := x.streams.map fun q => q.map fun sr => { sr with got := [] } }

/-- The mark of a read whose stream is gone. -/
def noPos : Nat := 2 ^ 64

/-- R121: a stream register is released: reads in flight for it complete into nothing. -/
def releaseStream (s : State) (c : Fin 512) (fw : Bool) (q : BitVec 2) : State :=
  let core := s.cores[c]
  let x := core.ctx fw
  let mq := x.mq.map fun e => match e.kind with
    | .streamRead p k => { e with kind := .streamRead p (if p = q then noPos else k) }
    | _ => e
  s.putCore c (core.setCtx fw { x with mq := mq, streams := x.streams.set q.toNat none q.isLt })

end Sys2Proof.Machine
end

