-- ==== Sys2Proof/Machine/Fetch.lean ====
section
/-! DEFINITION. Fetching packets (R26, R383, R384), bundles (R27), and where a context goes after a bundle (R28, R86,
R87). -/

namespace Sys2Proof.Machine

/-- R384: the packets of code of the ACTIVE image, and its entry packet. -/
def imagePackets (s : State) : Nat := s.loadNat (imageAddr s.hub.images.active 16) 4
def imageEntry (s : State) : Nat := s.loadNat (imageAddr s.hub.images.active 12) 4

/-- R26, R384: where packet i of the ACTIVE image lies. -/
def imagePacket (s : State) (i : Nat) : Nat := imageAddr s.hub.images.active (64 + 12 * i)

/-- The three words of a packet's bytes. -/
def packetWords (bs : List Byte) : List (BitVec 32) := (List.range 3).map fun i => BitVec.ofNat 32 (fieldAt bs (4 * i) 4)

/-- R26, R246: bytes of a code object, of this package or of another. -/
def codeRead (s : State) (p : Option (Fin 16)) (key : Nat) (va : Word) (n : Nat) : State × Res (List Byte) :=
  match p with
  | some p =>
    if pkgOf va = ownPkg s then globRead s false (some p) va n
    else match hubRead s p key va n with
    | (s, .ok bs) => (dropAsks s p key, .ok bs)
    | r => r
  | none => globRead s false p va n

/-- R26: the packet that a context fetches at an index. A unit's code is read through the owning die's
translation, unless it is a native form that the hub has made of a portable variant (R278). -/
def fetchPacket (s : State) (c : Fin 512) (fw : Bool) (pc : BitVec 32) : State × Res (List (BitVec 32)) :=
  if fw then
    if decide (pc.toNat < imagePackets s) then (s, .ok (packetWords (s.load (imagePacket s pc.toNat) 12)))
    else (s, .fail .unmapped)
  else
    let core := s.cores[c]
    if decide (core.codePackets ≤ pc.toNat) then (s, .fail .unmapped)
    else
      match core.native with
      | some ws => (s, .ok ((ws.drop (3 * pc.toNat)).take 3))
      | none =>
      match codeRead s (s.partOf c) (askFetch c) (core.codeBase + BitVec.ofNat 64 (12 * pc.toNat)) 12 with
      | (s, .ok bs) => (s, .ok (packetWords bs))
      | (s, .fail k) => (s, .fail k)
      | (s, .wait) => (s, .wait)

/-- R51: the chain bit of a word. -/
def chained (w : BitVec 32) : Bool := w.getLsbD 31

/-- Whether word i of a packet is chained to the next. -/
def chainedAt (ws : List (BitVec 32)) (i : Nat) : Bool := chained (ws.getD i 0)

/-- R27: the first word of the bundle that holds word i. -/
def bundleFirst (ws : List (BitVec 32)) : Nat → Nat
  | 0 => 0
  | i + 1 => if chainedAt ws i then bundleFirst ws i else i + 1

/-- R27: the last word of the bundle that begins at word i. -/
def bundleLast (ws : List (BitVec 32)) (i : Nat) : Nat :=
  if chainedAt ws i && decide (i < 2) then (if chainedAt ws (i + 1) && decide (i < 1) then i + 2 else i + 1) else i

/-- R27: the pipe of a word, by its opcode. -/
inductive Pipe where
  | s | m | x
deriving DecidableEq, Repr

/-- R27: the pipes by opcode ranges; 0x7E and 0x7F select none. -/
def pipeOf (w : BitVec 32) : Option Pipe :=
  let op := (w.extractLsb' 24 7).toNat
  if op < 0x30 then some .s else if op < 0x40 then some .m else if op < 0x78 then some .x
  else if op < 0x7E then some .s else none

/-- R87: the end of a loop body: the counts of the loops that end here go down, and the context goes back or on. (DEDUCED: log 15.) -/
def loopEnd (r : Regs) (pc : BitVec 32) : List LoopEnt → Regs × List LoopEnt × BitVec 32
  | [] => (r, [], pc + 1)
  | t :: rest =>
    if t.last = pc then
      let n := r.getS t.reg - 1
      let r := r.setS t.reg n
      if n ≠ 0 then (r, t :: rest, t.first) else loopEnd r pc rest
    else (r, t :: rest, pc + 1)

/-- R29: the s registers that entries of a context's queues still have to write. -/
def pendingS (l : List QEnt) : List (BitVec 5) :=
  l.flatMap fun e => match e.kind with
    | .ld d _ | .ldAcq d _ | .amo d _ _ => [d]
    | .capLd d => [d, d + 1]
    | _ => []

/-- R87: whether the end of the loop bodies that end at this packet reads a register that an entry still has to write. -/
def countPending (x : Ctx) (l : List QEnt) : Bool :=
  (x.loops.takeWhile fun t => t.last == x.pc).any fun t => (pendingS l).contains t.reg

/-- R28, R86, R87: the context after a bundle whose last word is `last`: a taken branch, the next bundle of the packet,
the next packet, or a loop's first packet. -/
def Ctx.advance (x : Ctx) (redirect : Option Redirect) (last : Nat) : Ctx :=
  match redirect with
  | some (.packet i) => { x with pc := i, word := 0, viaJr := none }
  | some (.register a) => { x with pc := a.setWidth 32, word := 0, viaJr := some a }
  | none =>
    if last < 2 then { x with word := last + 1, viaJr := none }
    else
      let (r, ls, pc) := loopEnd x.regs x.pc x.loops
      { x with regs := r, loops := ls, pc := pc, word := 0, viaJr := none }

/-- R87: a context that has issued the last bundle of its packet and has still to handle the end of the packet does so. (DEDUCED: log 15.) -/
def Ctx.endPacket (x : Ctx) : Ctx :=
  if x.word < 3 then x
  else
    let (r, ls, pc) := loopEnd x.regs x.pc x.loops
    { x with regs := r, loops := ls, pc := pc, word := 0, viaJr := none }

/-- The boundary at which the unit context of a core stands. -/
def atBoundary (s : State) (c : Fin 512) : State := s.putCore c { s.cores[c] with unit := s.cores[c].unit.endPacket }

/-- The acting context moves past its bundle. -/
def advance (s : State) : State :=
  { s.setCtx (s.ctx.advance s.redirect s.last) with redirect := none }

end Sys2Proof.Machine
end

