-- ==== Sys2Proof/Machine/Ops.lean ====
section
/-! DEFINITION. Taking a trap as one shared operation (R315 to R319), the return from one (R96, R123, R162, R173), a
fault of the firmware context (R372) and the restart of firmware contexts (R383, R386, R387). -/

namespace Sys2Proof.Machine

/-! ### Settling words in flight (R71, R119, R184, R187) -/

/-- R71: whether an entry is captured at a trap. Stores and MLD drain, stream reads and LSALN are dropped, and a request
that has left the core completes. (DEDUCED: log 10.) -/
def QEnt.captures (e : QEnt) : Bool :=
  match e.kind with
  | .mld _ _ => false
  | _ => e.capturable

/-- Whether a trap waits for an entry until it is done. (DEDUCED: log 10.) -/
def QEnt.drains (e : QEnt) : Bool :=
  match e.kind with
  | .streamRead _ _ | .lsaln => false
  | _ => !e.captures

/-- The fault that a stage records. -/
def Stage.cause : Stage → Option Cause
  | .failed c => some c
  | _ => none

/-- The serial number of a captured word. -/
def Replay.id : Replay → Nat
  | .mem e _ => e.id
  | .mma r _ => r.id
  | .quant q _ => q.id

/-- The recorded cause of a captured word. -/
def Replay.cause : Replay → Option Cause
  | .mem _ c => c
  | .mma _ c => c
  | .quant _ c => c

/-- R318: the PIX of a captured word. -/
def Replay.pix : Replay → Nat
  | .mem e _ => if e.byElem then e.pix else 0
  | .mma r _ => r.pix
  | .quant q _ => q.pix

/-- A captured word takes its place in program order. -/
def insertReplay (r : Replay) : List Replay → List Replay
  | [] => [r]
  | q :: qs => if r.id < q.id then r :: q :: qs else q :: insertReplay r qs

/-- A queue entry takes its place in program order. -/
def insertEnt (e : QEnt) : List QEnt → List QEnt
  | [] => [e]
  | f :: fs => if e.id < f.id then e :: f :: fs else f :: insertEnt e fs

/-- R372: an entry of a firmware context performs to its end, or to its fault. (DEDUCED: log 20.) -/
def drainEnt : Nat → State → Fin 512 → Nat → State
  | 0, s, _, _ => s
  | n + 1, s, c, id =>
    match s.cores[c].fw.mq.find? (·.id == id) with
    | none => s
    | some e =>
      if e.failed || (e.kind == .st true && tokenOut s.cores[c] true e.id fun _ => true) then s
      else match nextPiece s c true e with
      | none => settleEnt s c true e
      | some (.error k) => failEnt s c true e k
      | some (.ok p) =>
        match xlateParts s c true e.writes [p] with
        | (s, .ok [p']) => drainEnt n (runPart s c true { e with todo := p' :: e.todo.erase p } p') c id
        | (s, .error (some (k, _))) => failEnt s c true e k
        | (s, _) => s

/-- R372: every entry of a firmware context's queues drains, oldest first. (DEDUCED: log 20.) -/
def drainAll (s : State) (c : Fin 512) : State :=
  (s.cores[c].fw.mq.map (·.id)).foldl (fun t id => drainEnt 512 t c id) s

/-- R187: every MMA that is fully fetched and not behind another of its accumulator completes. -/
def finishMmas : Nat → State → Fin 512 → Bool → State
  | 0, s, _, _ => s
  | n + 1, s, c, fw =>
    match readyMma (s.cores[c].ctx fw) with
    | some r => finishMmas n (mmaFinish s c fw r) c fw
    | none => s

/-- Guard entries of several owners are released. -/
def dropGuards (c : Core) (ids : List Nat) : Core := ids.foldl dropGuard c

/-- The ids of the stream reads in a queue. -/
def streamIds (x : Ctx) : List Nat :=
  (x.mq.filter fun e => match e.kind with | .streamRead _ _ => true | _ => false).map (·.id)

/-- R71, R115, R119, R184: the captured words of the unit context, in program order. -/
def capturedWords (x : Ctx) : List Replay :=
  let mems := (x.mq.filter QEnt.captures).map fun e => Replay.mem e e.stage.cause
  let all := mems ++ x.mmas.map (fun r => .mma r r.bStage.cause) ++ x.quants.map (fun q => .quant q none)
  all.foldl (fun l r => insertReplay r l) []

/-- R71: the words in flight of the unit context are settled: captured, dropped, or gone with their fault. `taken` names the word whose
fault is taken: a store leaves with its fault. (DEDUCED: log 10.) -/
def settleWords (s : State) (c : Fin 512) (taken : Option Nat) : State :=
  let core := s.cores[c]
  let x := core.unit
  let kept := x.mq.filter fun e => e.drains && taken != some e.id
  let core := dropGuards { core with replay := capturedWords x } (streamIds x)
  s.putCore c { core with unit := { forgetReads x with mq := kept, mmas := [], quants := [], mwait := none } }

/-! ### Copies at a trap (R162) -/

/-- Whether a copy reduces. -/
def Copy.reduces (k : Copy) : Bool := k.reduceOf.isSome

/-- R162: a copy that cannot be resumed: its barrier's OVF is set. -/
def abandonCopy (s : State) (c : Fin 512) (slot : Fin 256) (k : Copy) : State :=
  let s := putCopy s c slot (some { k with abandoned := true, held := true })
  match k.barrier with
  | some n => barEvent s c k.fw n.toNat (creditSource slot k) fun b => { b with ovf := true }
  | none => s

/-- R349: a SEAL that is reissued whole draws a fresh NONCE. -/
def freshNonce (s : State) (k : Copy) : State × Copy :=
  match k.kind with
  | .sealing =>
    ({ s with hub := { s.hub with drawn := s.hub.drawn + 1 } }, { k with nonce := Config.random s.hub.drawn })
  | _ => (s, k)

/-- R159, R162: a copy to be reissued whole holds its ranges anew. -/
def holdRanges (s : State) (c : Fin 512) (k : Copy) : State :=
  s.putCore c (takeGuard (dropGuard s.cores[c] k.id) k.id k.fw (k.needs c))

/-- R162: a copy of more than 256 boxes is squashed: its barrier takes back the bytes that it had credited. -/
def squashCopy (s : State) (c : Fin 512) (slot : Fin 256) (k : Copy) : State :=
  let (s, k') := freshNonce s { k with held := true, credited := [], bytes := 0, recPos := [0], fault := none }
  squash (holdRanges (putCopy s c slot (some k')) c k') c false k.barrier (creditSource slot k) k.bytes

/-- R325: the STATE of a copy's record. -/
def copyState (k : Copy) : Nat := if k.abandoned then 3 else if 256 < k.boxes then 2 else if k.nest then 4 else 1

/-- Bytes extended with zeros to a length. -/
def padTo (n : Nat) (bs : List Byte) : List Byte := bs ++ List.replicate (n - bs.length) 0

/-- R325: the record of a copy slot. -/
def copyRecord (slot : Fin 256) (k : Option Copy) : List Byte :=
  match k with
  | none => List.replicate 128 0
  | some k =>
    let map := if copyState k = 2 ∨ copyState k = 3 then 0 else k.credited.foldl (fun n b => n ||| 2 ^ b) 0
    let variant := match k.kind with
      | .cpy f v => f.toNat + 8 * v.toNat
      | .sealing => 64
      | .unsealing => 128
    let bar := match k.barrier with
      | some n => n.toNat
      | none => 0xFFFF
    padTo 128 (padTo 64 k.desc ++ leBytes 32 map ++ leBytes 2 (if k.nest then 0 else k.gen.toNat * 256 + slot.val) ++
      leBytes 2 bar ++ leBytes 1 variant ++ leBytes 1 (copyState k) ++ leBytes 8 (if k.kind = .sealing then k.nonce.toNat else 0))

/-- R162: what a trap does to one copy of the unit, whose boxes in progress have finished. -/
def settleCopy (s : State) (c : Fin 512) (slot : Fin 256) : State :=
  match s.cores[c].copies[slot] with
  | none => s
  | some k =>
    if k.fw || k.held then s
    else if k.boxes ≤ 256 then putCopy s c slot (some { k with held := true })
    else if k.reduces then abandonCopy s c slot k
    else squashCopy s c slot k

/-- R325: the records of the copies of the unit that have not ended. -/
def writeRecords (s : State) (c : Fin 512) : State :=
  let core := s.cores[c]
  s.putCore c { core with copyRecs := (List.finRange 256).filterMap fun i =>
    (core.copies[i].filter (!·.fw)).map fun k => (i.val, copyRecord i (some k)) }

/-- R162, R325: the copies of the unit are settled, and their records written. (DEDUCED: log 10.) -/
def settleCopies (s : State) (c : Fin 512) : State :=
  writeRecords ((List.finRange 256).foldl (fun t slot => settleCopy t c slot) s) c

/-- R162, R166: whether a copy does not hold back a trap: none of its boxes is in progress, it is not being cancelled, and one that
must run to its end has been stopped by its own fault. -/
def Copy.settled (k : Copy) : Bool :=
  k.fw || k.held || (k.runs.isEmpty && !k.cancelled && (!(k.reduces && decide (256 < k.boxes)) || k.fault.isSome))

/-- R71, R162, R187: whether everything that must finish before a trap's frame has finished: stores have drained and requests that
have left the core have come back, every MMA fully fetched has written its accumulator, and boxes in progress are credited. (DEDUCED: log 10.) -/
def trapReady (s : State) (c : Fin 512) : Bool :=
  let core := s.cores[c]
  core.unit.mq.all (fun e => !e.drains || e.failed) && core.unit.mmas.all (fun r => r.pix != r.steps) &&
    core.copies.toList.all fun k => match k with
      | some k => k.settled
      | none => true

/-! ### The trap frame (R317, R318) -/

/-- A trap with a cause at a word, with the faulting address. -/
def TrapInfo.at (cause : Cause) (tpc : BitVec 32) (tword : BitVec 2) (addr : Word) : TrapInfo :=
  ⟨cause, tpc, tword, addr, 0, 0, 0, 0, 0, 0⟩

/-- R318: the frame header. -/
def frameHeader (core : Core) (t : TrapInfo) : List Byte :=
  leBytes 8 (t.cause.code.toNat + 2 ^ 8 * t.tword.toNat + 2 ^ 53 * t.tcode.toNat) ++ leBytes 8 0 ++
    leBytes 4 t.tpc.toNat ++ leBytes 4 t.pix.toNat ++ leBytes 4 core.ctl.launchid.toNat ++ leBytes 4 core.ctl.unitid.toNat ++
    leBytes 5 0 ++
    leBytes 1 (min core.replay.length 8 + 16 * core.unit.loops.length + 128 * core.unit.nest.go.toNat) ++
    leBytes 1 t.brkn.toNat ++ leBytes 1 t.tokent.toNat ++ leBytes 2 t.box.toNat ++ leBytes 2 t.handle.toNat ++
    core.unit.nest.idx.toList.flatMap (fun i => leBytes 2 i.toNat) ++ leBytes 8 t.addr.toNat

/-- R57, R318: the destination register or 0xFF for one that a later word of the bundle has written, the payload slot or 0xFF, OPA, OPB and the token of a captured memory word. (DEDUCED: log 16.) -/
def entFields (e : QEnt) (slot : Nat) : Nat × Nat × Word × Word × BitVec 16 :=
  let dst (d : Nat) : Nat := if e.keep.contains d then 0xFF else d
  match e.kind with
  | .ld d _ | .ldAcq d _ => (dst d.toNat, 0xFF, 0, 0, 0)
  | .vld d => (dst d.toNat, 0xFF, 0, 0, 0)
  | .vldElems d => (dst d.toNat, if e.opa = 1 then slot else 0xFF, 0, if e.opa = 1 then 0 else e.opb, 0)
  | .vstElems => (0xFF, slot, 0, if e.opa = 1 then 0 else e.opb, 0)
  | .capLd pair => (pair.toNat, 0xFF, 0, 0, 0)
  | .capChk pd _ => (dst pd.toNat, 0xFF, 0, 0, 0)
  | .amo d op _ => (dst d.toNat, 0xFF, e.opa, if op = 9 then e.opb else 0, 0)
  | .vamo _ => (0xFF, slot, 0, 0, 0)
  | .qst t _ c0 c1 => (0xFF, if e.mask = 0 then 0xFF else slot, e.opa, BitVec.ofNat 64 (c0.toNat + 2 ^ 16 * c1.toNat), t)
  | _ => (0xFF, 0xFF, 0, 0, 0)

/-- R318: one replay entry. -/
def replayBytes (r : Replay) (i : Nat) : List Byte :=
  let head (word : BitVec 32) (wword : Nat) (pkt : BitVec 32) : List Byte :=
    leBytes 4 word.toNat ++ leBytes 4 wword ++ leBytes 4 pkt.toNat ++ leBytes 1 i ++
      leBytes 1 (match r.cause with | some c => c.code.toNat | none => 0) ++ leBytes 4 r.pix
  match r with
  | .mem e _ =>
    let (dreg, pay, opa, opb, tok) := entFields e i
    head e.word e.wword e.pkt ++ leBytes 1 dreg ++ leBytes 1 pay ++ leBytes 2 tok.toNat ++ leBytes 2 0x8000 ++
      leBytes 8 e.ea.toNat ++ leBytes 8 opa.toNat ++ leBytes 8 opb.toNat ++ leBytes 16 0
  | .mma q _ =>
    head q.word q.wword q.pkt ++ leBytes 1 q.acc.toNat ++ leBytes 1 i ++ leBytes 2 0 ++ leBytes 2 0x8000 ++
      leBytes 8 q.aBase.toNat ++ leBytes 8 0 ++ leBytes 8 0 ++ leBytes 16 0
  | .quant q _ =>
    head q.word q.wword q.pkt ++ leBytes 1 (match q.acc with | some a => a.toNat | none => 0xFF) ++
      leBytes 1 (if q.acc.isSome then 0xFF else i) ++ leBytes 2 0 ++ leBytes 2 0x8000 ++ leBytes 8 q.addr ++ leBytes 8 0 ++
      leBytes 8 0 ++ leBytes 16 0

/-- R317: one loop stack entry. -/
def loopBytes (l : LoopEnt) : List Byte :=
  leBytes 4 l.origin.toNat ++ leBytes 4 l.first.toNat ++ leBytes 4 l.last.toNat ++ leBytes 1 l.reg.toNat ++ leBytes 1 1 ++
    leBytes 2 0

/-- The sequencer address that a guard entry reports: a TM offset, the own-CM window, or the lowest place of another
cluster. (DEDUCED: log 16.) -/
def guardAddr (s : State) (c : Fin 512) (lo : Nat) : Nat :=
  if lo < 2 ^ 30 then lo % 2 ^ 20
  else
    let k := ix 64 (lo % 2 ^ 30 / 2 ^ 23)
    let off := lo % 2 ^ 23
    if k = clusterOf c then 0x1000000 + off
    else
      let p := ((List.finRange 64).find? fun i => placeCluster s c i == some k).getD 0
      0x100000000 + p.val * 2 ^ 24 + off

/-- R317: one stream register. -/
def streamBytes (q : Option StreamReg) : List Byte :=
  match q with
  | some sr => (padTo 32 sr.desc).take 32 ++ leBytes 4 sr.pos ++ leBytes 1 1 ++ leBytes 27 0
  | none => leBytes 64 0

/-- R317: the trap area as (offset in TM, bytes), header first. -/
def frameParts (s : State) (c : Fin 512) (t : TrapInfo) : List (Nat × List Byte) :=
  let core := s.cores[c]
  let x := core.unit
  [(0x7C000, frameHeader core t),
   (0x7C040, (List.finRange 32).flatMap fun i => leBytes 8 (x.regs.getS (BitVec.ofFin i)).toNat),
   (0x7C140, leBytes 1 ((List.finRange 8).foldl (fun n i => n + 2 ^ i.val * (x.regs.getP (BitVec.ofFin i)).toNat) 0)),
   (0x7C180, (x.loops.reverse.take 4).flatMap loopBytes),
   (0x7C1C0, x.streams.toList.flatMap streamBytes),
   (0x7C2C0, (core.guard.take 16).flatMap fun g =>
      leBytes 8 (guardAddr s c g.lo) ++ leBytes 4 g.len ++ leBytes 1 g.dst.toNat ++ leBytes 3 0),
   (0x7C400, (x.nest.shadow ++ x.nest.active).take 512),
   (0x7D000, ((core.replay.take 8).zipIdx).flatMap fun (r, i) => replayBytes r i)]

/-- R316, R317: the trap area is written whole; what it does not hold reads as zero. -/
def writeFrame (s : State) (c : Fin 512) (t : TrapInfo) : State :=
  (frameParts s c t).foldl (fun u (o, bs) => u.store (tmAddr c o) bs) (s.zero (tmAddr c 0x7C000) 0x2000)

/-! ### Taking a trap (R316) -/

/-- The TAG of a launch, or zero. -/
def launchTag (s : State) (c : Fin 512) : BitVec 16 :=
  match s.partOf c with
  | some p =>
    match s.aux[p].window.entries.find? fun e => e.launch == s.cores[c].ctl.launchid with
    | some e => e.tag
    | none => 0
  | none => 0

/-- R321: the record of a unit trap. -/
def unitFault (s : State) (c : Fin 512) (t : TrapInfo) : FaultRec :=
  let ctl := s.cores[c].ctl
  { addr := t.addr, pix := t.pix, core := BitVec.ofNat 9 c.val, tag := launchTag s c, unitid := ctl.unitid,
    launch := ctl.launchid, tpc := t.tpc, wop := 0, source := 0, tword := t.tword, cause := t.cause.code }

/-- R316: a trap of the unit context of a core takes effect, in the order of the rule. `taken` is the serial number of the word whose
deferred fault is taken. (DEDUCED: log 10.) -/
def takeTrap (s : State) (c : Fin 512) (taken : Option Nat) (t : TrapInfo) : State :=
  let s := settleCopies (settleWords s c taken) c
  let core := s.cores[c]
  let core := { core with
    st := .stopped
    trap := none
    ctl := { core.ctl with tcause := t.cause.code, tpc := t.tpc, tword := t.tword } }
  let s := writeFrame (s.putCore c core) c t
  let s := if t.cause = .preempt then trapEvent s c else unitRecord s c (unitFault s c t)
  { s with mark := .trap }

/-- R316: a trap of the unit context of a core: the context stops issuing, and the trap takes effect once what must finish before its
frame has finished. (DEDUCED: log 10.) -/
def startTrap (s : State) (c : Fin 512) (taken : Option Nat) (t : TrapInfo) : State :=
  if trapReady s c then takeTrap s c taken t
  else { s.putCore c { s.cores[c] with trap := some (t, taken) } with mark := .trap }

/-! ### Firmware contexts (R372, R383, R386, R387) -/

/-- R383: the start state of a core's firmware context, for a reason. -/
def bootFw (s : State) (c : Fin 512) (reason : Nat) : State :=
  let core := s.cores[c]
  let r := Regs.zero
  let regs := ((((r.s.set 1 (if reason = 0 then 0 else s.hub.images.handover)).set 2 (BitVec.ofNat 64 reason)).set 3 dirAddr).set 4
    (BitVec.ofNat 64 c.val))
  s.putCore c { core with fw := { Ctx.zero with regs := { r with s := regs }, pc := BitVec.ofNat 32 (imageEntry s) } }

/-- R372: the firmware context's words in flight complete or are discarded. (DEDUCED: log 20.) -/
def settleFw (s : State) (c : Fin 512) : State :=
  let core := s.cores[c]
  let x := core.fw
  let gone := streamIds x ++ x.mmas.map (·.id) ++ x.quants.map (·.id)
  let s := s.putCore c { dropGuards core gone with
    fw := { x with mq := x.mq.filter fun e => e.drains, mmas := [], quants := [], mwait := none } }
  let s := (List.finRange 256).foldl (fun t slot => match t.cores[c].copies[slot] with
    | some k => if k.fw && k.fault.isSome then endCopy t c slot k else t
    | none => t) s
  drainAll s c

/-- Every firmware context of the package restarts. -/
def restartAll (s : State) (reason : Nat) : State :=
  (List.finRange 512).foldl (fun t c => bootFw (settleFw t c) c reason) s

/-- R385, R387: REASON and BEATS are written to the handover header. -/
def writeOutcome (s : State) (reason : Nat) : State :=
  devWrite s (devAddr s.hub.images.handover + 6) [BitVec.ofNat 8 reason, s.hub.images.beats]

/-- R387: a trial rolls back. (DEDUCED: log 20; DEDUCED: log 22.) -/
def rollBack (s : State) (reason : Nat) : State :=
  let s := (List.finRange 512).foldl (fun t c => settleFw t c) s
  let s := writeOutcome s reason
  let i := s.hub.images
  let i := { i with active := i.fallback, trial := false,
                    verified0 := i.verified0 && i.active, verified1 := i.verified1 && !i.active }
  restartAll { s with hub := { s.hub with images := i } } 2

/-- R372, R386: a fault of a core's firmware context. (DEDUCED: log 20.) -/
def fwFault (s : State) (c : Fin 512) (cause : Cause) : State :=
  let pkt := s.cores[c].fw.pc
  let part := (s.partOf c).getD 0
  let s := settleFw s c
  let s := logRecord s (logRec cause 0xFFFF (BitVec.ofNat 9 c.val) (pkt.setWidth 64))
  let s :=
    if s.hub.images.trial then rollBack s 2
    else
      deliverFirst (bootFw s c 3) c ⟨0x07, BitVec.ofNat 4 part.val, cause.code.setWidth 64, pkt.setWidth 64⟩
  { s with mark := .trap }

/-! ### A fault of the word in hand (R69) -/

/-- R69: a fault found at issue: the acting context's trap, naming the word in hand. -/
def raiseAt (s : State) (cause : Cause) (addr : Word) : Out :=
  if s.fw then .next (fwFault s s.core cause)
  else .next (startTrap s s.core none (.at cause s.ctx.pc (BitVec.ofNat 2 s.word) addr))

/-- A fault with no address. -/
def raise (s : State) (cause : Cause) : Out := raiseAt s cause 0

/-- What follows a check: the fault, the wait, or the rest. -/
def onRes {α : Type} (r : Res α) (s : State) (ea : Word) (f : α → Out) : Out :=
  match r with
  | .ok a => f a
  | .fail c => raiseAt s c ea
  | .wait => stallAsk s ea

/-! ### Return from a trap (R96) -/

/-- R25: the location of an address by the place table as it stands. (DEDUCED: log 14.) -/
def relocate (s : State) (c : Fin 512) (ea : Word) : Option Loc :=
  match rowOf ea.toNat with
  | .global => some (.glob ea)
  | .hole => none
  | .place k => (placeCluster s c k).map fun cl => .cm cl (ea.toNat % 2 ^ 23)
  | .ownCm => some (.cm (clusterOf c) (ea.toNat % 2 ^ 23))
  | _ => some (.tm ea.toNat)

/-- R117: the first active byte of a mask and the length up to the last. -/
def maskSpan (m : Mask) : Option (Nat × Nat) :=
  match (List.range 256).find? (fun i => m.getLsbD i), (List.range 256).reverse.find? (fun i => m.getLsbD i) with
  | some a, some b => some (a, b + 1 - a)
  | _, _ => none

/-- The parts of a contiguous vector access from its location and mask. -/
def vecPieces (l : Nat → Option Loc) (m : Mask) : List Piece :=
  match maskSpan m with
  | some (a, n) => match l a with
    | some l => maskedPieces l a n m
    | none => []
  | none => []

/-- The parts that a re-injected entry has still to perform, under the place table as it stands. -/
def freshTodo (s : State) (c : Fin 512) (e : QEnt) : Option (List Piece) :=
  let one (n : Nat) : Option (List Piece) := (relocate s c e.ea).map fun l => [⟨l, 0, n, none⟩]
  match e.kind with
  | .ld _ f => (relocate s c e.ea).map fun l => piecesOf l (ldBytes f)
  | .ldAcq _ z => one (memBytes z)
  | .vld _ =>
    match maskSpan e.mask with
    | some (a, n) => (relocate s c (e.ea + BitVec.ofNat 64 a)).map fun l => maskedPieces l a n e.mask
    | none => some []
  | .capLd _ | .capChk _ _ => one 16
  | .amo _ _ z => one (amoBytes z)
  | .vamo _ => one 128
  | .vldElems _ | .vstElems => some []
  | .capDrv _ _ | .capSt _ =>
    (relocate s c e.ea).map fun l => (e.todo.dropLast.map fun p => { p with pa := none }) ++ [⟨l, 0, 16, none⟩]
  | _ => some (e.todo.map fun p => { p with pa := none })

/-- R96: a captured word returns to its queue as if it had never been interrupted. A place that is no longer valid is
its fault. (DEDUCED: log 14.) -/
def reinject (s : State) (c : Fin 512) (r : Replay) : State :=
  let core := s.cores[c]
  let x := core.unit
  match r with
  | .mem e _ =>
    let e := match freshTodo s c e with
      | some todo => { e with todo := todo, stage := .waiting, sure := false, arrival := s.clk }
      | none => { e with stage := .failed .unmapped, arrival := s.clk }
    s.putCore c { core with unit := { x with mq := insertEnt e x.mq } }
  | .mma q _ => s.putCore c { core with unit := { x with mmas := x.mmas ++ [{ q with bStage := .waiting, tile := none, parts := [], got := [] }] } }
  | .quant q _ => s.putCore c { core with unit := { x with quants := x.quants ++ [{ q with headed := false }] } }

/-- R317: the registers that TRET reloads from the frame's image. (DEDUCED: log 14.) -/
def frameRegs (s : State) (c : Fin 512) (r : Regs) : Regs :=
  let r := (List.finRange 32).foldl (fun r i => r.setS (BitVec.ofFin i)
    (BitVec.ofNat 64 (s.loadNat (tmAddr c (0x7C040 + 8 * i.val)) 8))) r
  let pb := s.loadNat (tmAddr c 0x7C140) 1
  (List.finRange 8).foldl (fun r i => r.setP (BitVec.ofFin i) (pb.testBit i.val)) r

/-- R317: the loop stack of the frame's image, innermost first. (DEDUCED: log 14.) -/
def frameLoops (s : State) (c : Fin 512) : List LoopEnt :=
  ((List.range 4).filterMap fun i =>
    let bs := s.load (tmAddr c (0x7C180 + 16 * i)) 16
    if byteAt bs 13 % 2 = 1 then
      some ⟨BitVec.ofNat 32 (fieldAt bs 0 4), BitVec.ofNat 32 (fieldAt bs 4 4), BitVec.ofNat 32 (fieldAt bs 8 4),
        BitVec.ofNat 5 (byteAt bs 12)⟩
    else none).reverse

/-- R162: the copies of the unit go on; an abandoned one is gone. (DEDUCED: log 14.) -/
def resumeCopies (s : State) (c : Fin 512) : State :=
  (List.finRange 256).foldl (fun t slot =>
    match t.cores[c].copies[slot] with
    | some k =>
      if k.fw then t
      else if k.abandoned then endCopy t c slot k
      else putCopy t c slot (some { k with held := false, fault := none })
    | none => t) s

/-- R96, R123, R162, R173: the unit context of a core resumes from its frame. A DONE or SUSPEND that has issued goes on, unless firmware
has moved TPC to another packet. (DEDUCED: log 14.) -/
def returnFromTrap (s : State) (c : Fin 512) : State :=
  let core := s.cores[c]
  let x := core.unit
  let x := { x with
    regs := frameRegs s c x.regs
    loops := frameLoops s c
    pc := core.ctl.tpc
    word := core.ctl.tword.toNat
    viaJr := none
    brkSkip := true
    waits := none
    nest := { x.nest with fault := none, faultAddr := 0 } }
  let words := core.replay
  let ending := if core.ctl.tpc = core.unit.pc then core.ending else none
  let s := s.putCore c { core with unit := x, replay := [], st := .running, issued := s.clk, ending := ending }
  let s := words.foldl (fun t r => reinject t c r) s
  let s := resumeCopies s c
  reissueAll s c false

end Sys2Proof.Machine
end

