-- ==== Sys2Proof/Machine/Hold.lean ====
section
/-! DEFINITION. Messages of single accesses (R357, R365), the hold queue (R363, R364), and the landing of Quickset stores. A
payload that moves only some of its bytes is followed by one enable byte for each of them, and bit 1 of OPX says so. -/

namespace Sys2Proof.Machine

/-! ### Bytes with enables -/

/-- The bytes of a part of a store and, where some are not moved, their enables. -/
def enabledBytes (m : Mask) (off : Nat) (bs : List Byte) : List Byte × Bool :=
  let on := (List.range bs.length).map fun i => m.getLsbD (off + i)
  if m = 0 || on.all id then (bs, false) else (bs ++ on.map fun b => BitVec.ofNat 8 b.toNat, true)

/-- The runs of bytes that a payload moves: offset and bytes. -/
def payloadRuns (m : Msg) : List (Nat × List Byte) :=
  if m.opx.getLsbD 1 then
    let n := m.payload.length / 2
    (List.range n).filterMap fun i =>
      if byteAt m.payload (n + i) = 0 then none else some (i, (m.payload.drop i).take 1)
  else [(0, m.payload)]

/-! ### Landing (R364) -/

/-- R333: the edge that seals the answer to a request: that of the home cluster of its address, once that is known. -/
def homeEdge (s : State) (p : Fin 16) (va : Word) : Option (Fin 64) :=
  let d := dieOfVa va
  match walk s d p (offsetOf va) with
  | .leaf e size => some (homeCluster d (leafAddr e + offsetOf va % pageSize size))
  | _ => none

/-- The answer to a request that has been performed joins the send queue. (DEDUCED: log 18.) -/
def answer (s : State) (p : Fin 16) (m : Msg) (kind : BitVec 5) (payload : List Byte) : State :=
  sendFor s (some p) (homeEdge s p m.addr) (answerMsg s m kind payload)

/-- R364: a Quickset store that has been performed lands: the issuing core is told. -/
def landed (s : State) (p : Fin 16) (m : Msg) : State :=
  if m.spkg = ownPkg s then landToken s (msgCore m) m.token
  else sendFor s (some p) (homeEdge s p m.addr) { answerMsg s m kLand [] with cls := true, token := m.token }

/-- R357: the failure of a request is answered with ERR. -/
def errAnswer (s : State) (p : Fin 16) (m : Msg) (c : Cause) : State :=
  sendFor s (some p) (homeEdge s p m.addr) { answerMsg s m kErr [] with opx := c.code, addr := m.addr }

/-- R70, R364: a Quickset store of this package that failed after it left its queue stands there again with its fault. -/
def failAway (s : State) (c : Fin 512) (t : BitVec 16) (k : Cause) : State :=
  let core := s.cores[c]
  match core.tokens[tokEntry t] with
  | some e =>
    match e.away with
    | some q =>
      let core := { core with tokens := vput core.tokens (tokEntry t) (some { e with away := none }) }
      let x := core.ctx e.fw
      s.putCore c (core.setCtx e.fw { x with mq := insertEnt { q with stage := .failed k } x.mq })
    | none => s
  | none => s

/-! ### Requests at their home (R200, R365) -/

/-- R62, R365: the bytes of an AMO message. -/
def amoMsgBytes (m : Msg) : Nat := if m.opx.toNat % 4 = 2 then 4 else 8

/-- R65, R365: the bytes of an element of a RED message. -/
def redMsgBytes (m : Msg) : Nat := if m.opx = 1 then 2 else 4

/-- R365: whether a request only reads. -/
def msgReads (m : Msg) : Bool := m.kind == kRd || m.kind == kTile

/-- R209: whether a request is performed by an atomic engine. -/
def msgRmw (m : Msg) : Bool := m.kind == kAmo || m.kind == kVamo || m.kind == kRed

/-- R200, R365: the parts of a request: its naturally aligned 8-byte blocks, those of a write that hold a byte to be moved, or what an
atomic engine performs at once. -/
def inwardParts (m : Msg) : List Piece :=
  let every (e : Nat) (n : Nat) : List Piece :=
    (List.range (n / e)).map fun i => ⟨.glob (m.addr + BitVec.ofNat 64 (e * i)), e * i, e, none⟩
  if msgReads m then piecesOf (.glob m.addr) m.len.toNat
  else if m.kind = kAmo then every (amoMsgBytes m) (amoMsgBytes m)
  else if m.kind = kVamo then every 128 128
  else if m.kind = kRed then every (redMsgBytes m) m.payload.length
  else
    let runs := payloadRuns m
    let n := (runs.map fun (o, bs) => o + bs.length).foldl max 0
    (piecesOf (.glob m.addr) n).filter fun p => runs.any fun (o, bs) => decide (o < p.off + p.len) && decide (p.off < o + bs.length)

/-- R302, R365: the parts of an access of a context of a partition are translated whole. Those of a transfer pin their pages (R310). -/
def xlateAll (s : State) (pin fw : Bool) (p : Option (Fin 16)) (write : Bool) : List Piece → State × Res (List Piece)
  | [] => (s, .ok [])
  | q :: qs =>
    let rest (s : State) (q : Piece) : State × Res (List Piece) :=
      match xlateAll s pin fw p write qs with
      | (s, .ok l) => (s, .ok (q :: l))
      | r => r
    match q.loc with
    | .glob va =>
      match (if pin then translatePin s fw p va write else translate s fw p va write) with
      | (s, .ok pa) => rest s { q with pa := some pa }
      | (s, .fail k) => (s, .fail k)
      | (s, .wait) => (s, .wait)
    | _ => rest s q

/-- R70, R357: a request that has failed is answered, a Quickset store of this package stands in its queue again, or the hub's own access
has failed. -/
def inwardFail (s : State) (p : Fin 16) (m : Msg) (k : Cause) : State :=
  if m.spkg ≠ ownPkg s then errAnswer s p m k
  else if m.kind = kQst then failAway s (msgCore m) m.token k
  else (toHub s p (some (msgReads m)) m.addr (.failed k)).getD s

/-- R302, R365: a request comes to its home: it is translated, and its parts are performed from now on. None while its page is being
moved. -/
def enterInward (s : State) (p : Fin 16) (m : Msg) : Option State :=
  let hop := hubHop s (ix 4 m.ddie.toNat) true
  if !ivOpen s p hop then none
  else match xlateAll (useIv s p hop) (m.spkg != ownPkg s) false (some p) (!msgReads m) (inwardParts m) with
  | (s, .ok parts) => some { s with fabric := { s.fabric with inward := s.fabric.inward ++ [⟨m, p, parts, [], s.clk, false⟩] } }
  | (s, .fail k) => some (inwardFail s p m k)
  | (_, .wait) => none

/-- R364, R365: a request whose parts have all been performed is answered. -/
def endInward (s : State) (x : Inward) : State :=
  let m := x.msg
  if m.kind ≠ kQst ∧ m.spkg = ownPkg s then (toHub s x.part (some (msgReads m)) m.addr (.returned x.data)).getD s
  else if m.kind = kRd then answer s x.part m kRdrsp x.data
  else if m.kind = kTile then answer s x.part m kTilersp x.data
  else if m.kind = kAmo then answer s x.part m kAmorsp x.data
  else if m.kind = kQst then landed s x.part m
  else answer s x.part m kWrack []

/-- R209, R232, R365: a write or an AMO of 8 bytes that the hub makes for a partition, at its home. None while its page is being moved. -/
def hubWrite (s : State) (p : Fin 16) (key : Nat) (m : Msg) : State × Res Unit :=
  match findAsk s p key m.addr 0 with
  | none =>
    let t := putAsk s p ⟨key, m.addr, 0, [], .sent⟩
    if m.dpkg ≠ ownPkg s then (send t p m, .wait)
    else match enterInward t p m with
    | some t => (t, .wait)
    | none => (s, .wait)
  | some a =>
    match a.stage with
    | .returned _ => (dropAsks s p key, .ok ())
    | .failed k => (dropAsks s p key, .fail k)
    | _ => (s, .wait)

/-! ### The hold queue (R364) -/

/-- How many entries of a partition, and how many shared ones, are in use. -/
def heldBy (s : State) (p : Fin 16) : Nat :=
  (s.fabric.hold.toList.filter fun h => match h with | some e => e.part == p && !e.shared | none => false).length
def sharedInUse (s : State) : Nat :=
  (s.fabric.hold.toList.filter fun h => match h with | some e => e.shared | none => false).length

/-- R364: a carrying store takes a hold entry: a reserved one of its partition, else a shared one; none if both are
full. -/
def holdEnter (s : State) (p : Fin 16) (m : Msg) : Option State :=
  let shared := decide (32 ≤ heldBy s p)
  if shared && decide (512 ≤ sharedInUse s) then none
  else
    match (List.finRange 1024).find? fun i => s.fabric.hold[i].isNone with
    | none => none
    | some i =>
      let e : HoldEnt := ⟨m, p, shared, m.carry0, m.carry1, s.clk + s.parts[p].holdlim.toNat, false, s.fabric.holdCount⟩
      some { s with fabric := { s.fabric with hold := vput s.fabric.hold i (some e), holdCount := s.fabric.holdCount + 1 } }

/-- R83: the address at which a Quickset store moves its first byte, and how many it spans. -/
def QEnt.span (e : QEnt) : Nat × Nat :=
  let lo := (e.todo.head?.map (·.off)).getD 0
  (lo, ((e.todo.getLast?.map fun q => q.off + q.len).getD lo) - lo)

/-- R357: the tokens of a core whose stores have left for an address, by entry. -/
def awayAt (c : Core) (addr : Word) : List (Fin 256 × TokEnt) :=
  (List.finRange 256).filterMap fun i => match c.tokens[i] with
    | some k => match k.away with
      | some e => if e.ea + BitVec.ofNat 64 e.span.1 = addr then some (i, k) else none
      | none => none
    | none => none

/-- R357: the oldest store of a core that has left for an address and waits for its answer. (DEDUCED: log 36.) -/
def oldestAway (c : Core) (addr : Word) : Option (Fin 256 × TokEnt) :=
  ((awayAt c addr).filter fun x => !x.2.notify && !x.2.resend).foldl (fun best x => match best with
    | none => some x
    | some b => if x.2.serial < b.2.serial then some x else some b) none

/-- R364: HOLDFULL has come back to a core for an address: its store is kept, to be sent again. (DEDUCED: log 18.) -/
def holdFull (s : State) (c : Fin 512) (addr : Word) : State :=
  let core := s.cores[c]
  match oldestAway core addr with
  | some (i, k) => s.putCore c { core with tokens := vput core.tokens i (some { k with resend := true }) }
  | none => s

/-- R83, R212: whether two messages are ordered stores of one core. -/
def sameOrder (a b : Msg) : Bool := a.cls && b.cls && a.spkg == b.spkg && msgCore a == msgCore b

/-- R83, R212: whether an earlier ordered store of a message's core is still held. -/
def heldBefore (s : State) (m : Msg) : Bool :=
  s.fabric.hold.toList.any fun h => match h with
    | some e => !e.expired && sameOrder e.msg m
    | none => false

/-- R83, R364: whether an ordered store that HOLDFULL has answered must come before a message of its core. -/
def refusedBefore (s : State) (m : Msg) : Bool :=
  m.cls && match s.fabric.refused.find? fun r => r.spkg == m.spkg && r.core == msgCore m with
    | some r => r.token != m.token
    | none => false

/-- R364: a store is answered with HOLDFULL. An ordered one keeps its place in the order of its core. (DEDUCED: log 18.) -/
def answerFull (s : State) (p : Fin 16) (m : Msg) : State :=
  let me : Refused := ⟨m.spkg, msgCore m, m.token⟩
  let s := if m.cls && !s.fabric.refused.contains me then
      { s with fabric := { s.fabric with refused := s.fabric.refused ++ [me] } } else s
  if m.spkg = ownPkg s then holdFull s (msgCore m) m.addr
  else sendFor s (some p) none { answerMsg s m kHoldfull [] with cls := true }

/-- R83, R364: a Quickset store arrives at its package's hub: it goes on to its home, is held, or is answered with HOLDFULL. An ordered
one stays behind the earlier ones of its core. None while its page is being moved. (DEDUCED: log 18.) -/
def arriveQst (s : State) (p : Fin 16) (m : Msg) : Option State :=
  if refusedBefore s m then some (answerFull s p m)
  else
    let t := { s with fabric := { s.fabric with refused := s.fabric.refused.filter fun r => r != ⟨m.spkg, msgCore m, m.token⟩ } }
    if m.carry0 = 0 ∧ m.carry1 = 0 ∧ !heldBefore s m then enterInward t p m
    else match holdEnter t p m with
    | some t => some t
    | none => some (answerFull s p m)

/-- R364: the carries of one entry that a release notice clears. -/
def clearCarry (src : Pkg) (core : Fin 512) (t : BitVec 16) (h : Option HoldEnt) : Option HoldEnt :=
  h.map fun e =>
    if e.msg.spkg == src && msgCore e.msg == core && !e.expired then
      { e with carry0 := if e.carry0 = t then 0 else e.carry0, carry1 := if e.carry1 = t then 0 else e.carry1 }
    else e

/-- R83, R364: whether a held store may go on: it has no carry left, and no earlier ordered one of its core is held. -/
def mayGo (s : State) (e : HoldEnt) : Bool :=
  e.carry0 == 0 && e.carry1 == 0 && !e.expired && s.fabric.hold.toList.all fun h => match h with
    | some f => f.expired || !(sameOrder f.msg e.msg && decide (f.order < e.order))
    | none => true

/-- R364: the oldest held store that may go on. -/
def freeHold (s : State) : Option (Fin 1024 × HoldEnt) :=
  (List.finRange 1024).foldl (fun best i => match s.fabric.hold[i], best with
    | some e, none => if mayGo s e then some (i, e) else none
    | some e, some (j, f) => if mayGo s e && decide (e.order < f.order) then some (i, e) else some (j, f)
    | none, b => b) none

/-- R364: stores that may go on do so in arrival order. -/
def releaseHolds : Nat → State → State
  | 0, s => s
  | n + 1, s =>
    match freeHold s with
    | some (i, e) =>
      match enterInward { s with fabric := { s.fabric with hold := vput s.fabric.hold i none } } e.part
          { e.msg with carry0 := 0, carry1 := 0 } with
      | some s => releaseHolds n s
      | none => s
    | none => s

/-- R364: a release notice. -/
def arriveRel (s : State) (src : Pkg) (core : Fin 512) (t : BitVec 16) : State :=
  releaseHolds 1024 { s with fabric := { s.fabric with hold := s.fabric.hold.map (clearCarry src core t) } }

/-! ### Sending the parts of accesses to other packages -/

/-- R62: an operation and a size as OPX holds them. (DEDUCED: log 18.) -/
def amoOpx (op : BitVec 4) (z : AmoSize) : BitVec 8 := BitVec.ofNat 8 (4 * op.toNat + (match z with | .w32 => 2 | .w64 => 3))

/-- R83, R131: the message of a Quickset store. (DEDUCED: log 18.) -/
def qstMsg (s : State) (c : Fin 512) (e : QEnt) (p : Fin 16) : Msg :=
  let (lo, n) := e.span
  let (bs, on) := enabledBytes e.mask lo ((e.data.drop lo).take n)
  let m := coreMsg s c p kQst (e.ea + BitVec.ofNat 64 lo) bs
  match e.kind with
  | .qst t o c0 c1 => { m with cls := o, token := t, carry0 := c0, carry1 := c1, opx := if on then 2 else 0 }
  | _ => m

/-- R199, R365: whether a plain store must travel on the ordered class: a Quickset store of its core to its lines is still to land. An
expired one is not waited for, and its line keeps its order so. (DEDUCED: log 18.) -/
def storeOrdered (s : State) (c : Fin 512) (fw : Bool) (e : QEnt) : Bool :=
  e.todo.any fun p => match p.loc with
    | .glob va => tokenOut s.cores[c] fw e.id fun k =>
        decide (k.line ≤ (va.toNat + p.len - 1) / 128) && decide (va.toNat / 128 < k.line + k.span)
    | _ => false

/-- R77, R357, R365: the request of an access to another package, one message for all its parts, or for one element. None for an
access that has no message. (DEDUCED: log 18.) -/
def entMsg (s : State) (c : Fin 512) (fw : Bool) (e : QEnt) (va : Word) (lo n : Nat) : Option Msg :=
  let part := (s.partOf c).getD 0
  let rd := some { coreMsg s c part kRd va [] with len := BitVec.ofNat 16 n }
  let wr (rel : Bool) :=
    let (bs, on) := enabledBytes (if e.byElem then 0 else e.mask) lo ((e.data.drop lo).take n)
    some { coreMsg s c part kWr va bs with opx := (if rel then 1 else 0) + (if on then 2 else 0), cls := storeOrdered s c fw e }
  match e.kind with
  | .ld _ _ | .ldAcq _ _ | .vld _ | .vldElems _ | .mld _ _ | .streamRead _ _ => rd
  | .st rel => wr rel
  | .vst | .vstElems | .mst => wr false
  | .amo _ op z =>
    let n := amoBytes z
    some { coreMsg s c part kAmo va (leBytes n e.opa.toNat ++ leBytes n e.opb.toNat) with opx := amoOpx op z }
  | .vamo b =>
    some { coreMsg s c part kVamo va ((vecBytes e.vec).take 128 ++ leBytes 16 (e.mask.toNat % 2 ^ 128)) with
      opx := if b then 1 else 0 }
  | _ => none

/-- R363, R364: a Quickset store goes to its package's hub: this one's, or another's. None while a stream that seals it can send no more
(R337). -/
def sendHub (s : State) (p : Fin 16) (m : Msg) : Option State :=
  if m.dpkg = ownPkg s then
    let e : StreamId := (edgeSid s (clusterOf (msgCore m)), none)
    let ids := [e, hubHop s (ix 4 m.sdie.toNat) false]
    if allOpen s p ids then arriveQst (useAll s p ids) p (sealedAs s p e m) else none
  else some (send s p m)

/-- R363: a Quickset store leaves its queue; its token keeps it until it lands. Carries that have landed are dropped, and one whose
carries have all landed keeps its own class. -/
def sendQst (s : State) (c : Fin 512) (fw : Bool) (e : QEnt) : State :=
  match e.kind with
  | .qst t o c0 c1 =>
    let core := s.cores[c]
    let live (x : BitVec 16) : BitVec 16 := if (liveTok core x).isSome then x else 0
    let e := { e with kind := .qst t o (live c0) (live c1) }
    let p := (s.partOf c).getD 0
    let core := match core.tokens[tokEntry t] with
      | some k => { core with tokens := vput core.tokens (tokEntry t) (some { k with away := some e }) }
      | none => core
    (sendHub (dropEnt (s.putCore c core) c fw e.id) p (qstMsg s c e p)).getD s
  | _ => s

/-- R83, R212: whether an earlier ordered store of a core to a package has left its queue and not landed. -/
def orderedAway (s : State) (c : Fin 512) (e : QEnt) : Bool :=
  s.cores[c].tokens.toList.any fun t => match t with
    | some k => k.ordered && !k.notify && k.away.isSome && k.pkg == pkgOf e.ea && decide (k.serial < e.id)
    | none => false

/-- R83: whether a Quickset store goes through the hub: it leaves the package, it carries a live token, or it is ordered and stays behind
an earlier one that has. -/
def throughHub (s : State) (c : Fin 512) (e : QEnt) : Bool :=
  match e.kind with
  | .qst _ o c0 c1 =>
    pkgOf e.ea != ownPkg s || (liveTok s.cores[c] c0).isSome || (liveTok s.cores[c] c1).isSome || (o && orderedAway s c e)
  | _ => false

/-- R364: a store that HOLDFULL answered is sent again once its carried tokens have landed, in the order of their issue. (DEDUCED: log 18.) -/
def resendQst (s : State) (c : Fin 512) (i : Fin 256) : State :=
  match s.cores[c].tokens[i] with
  | some k =>
    match k.resend, k.away with
    | true, some e =>
      match e.kind with
      | .qst t _ c0 c1 =>
        let core := s.cores[c]
        let earlier := core.tokens.toList.any fun x => match x with
          | some q => q.resend && q.pkg == k.pkg && decide (q.serial < k.serial)
          | none => false
        if (liveTok core c0).isSome || (liveTok core c1).isSome || earlier then s
        else
          let e := { e with kind := .qst t true 0 0 }
          let core := { core with tokens := vput core.tokens i (some { k with away := some e, resend := false, ordered := true }) }
          let p := (s.partOf c).getD 0
          (sendHub (s.putCore c core) p (qstMsg s c e p)).getD s
      | _ => s
    | _, _ => s
  | none => s

end Sys2Proof.Machine
end

