-- ==== Sys2Proof/Machine/Request.lean ====
section
/-! DEFINITION. The requests that wait at a core's TM, at the banks of CM, at memory and at the atomic engines (R207 to R211), and
performing one of them. -/

namespace Sys2Proof.Machine

/-! ### Who asks -/

/-- What a request belongs to: an entry of a queue, a box of a copy, an MMA's tile, an MWAIT, or a request of another package. -/
inductive Agent where
  | ent (c : Fin 512) (fw : Bool) (e : QEnt)
  | box (c : Fin 512) (slot : Fin 256) (k : Copy) (r : BoxRun)
  | tile (c : Fin 512) (fw : Bool) (r : MmaRun)
  | watch (c : Fin 512) (fw : Bool) (w : MWait)
  | inward (i : Nat) (x : Inward)
deriving DecidableEq, Repr

/-- A request: who makes it, and the part that it is for. -/
structure Req where
  who : Agent
  piece : Piece
deriving DecidableEq, Repr

/-- R207: the clk in which a request arose. -/
def Req.arrival (q : Req) : Nat :=
  match q.who with
  | .ent _ _ e => e.arrival
  | .box _ _ _ r => r.arrival
  | .tile _ _ r => r.arrival
  | .watch _ _ w => w.arrival
  | .inward _ x => x.arrival

/-- The core that makes a request. -/
def Req.core? (q : Req) : Option (Fin 512) :=
  match q.who with
  | .ent c _ _ | .box c _ _ _ | .tile c _ _ | .watch c _ _ => some c
  | .inward _ _ => none

/-- Whether a request is the firmware's. -/
def Req.fw (q : Req) : Bool :=
  match q.who with
  | .ent _ fw _ | .tile _ fw _ | .watch _ fw _ => fw
  | .box _ _ k _ => k.fw
  | .inward _ _ => false

/-- R345: whether an entry's next part is a read-modify-write, and not the read of a parent. -/
def QEnt.rmwNow (e : QEnt) : Bool :=
  e.isRmw && match e.kind with
    | .capSt _ => e.pix == 1
    | .capDrv _ p => p.isNone || e.pix == 1
    | _ => true

/-- R81, R165, R209: whether a request is a read-modify-write. -/
def Req.isRmw (q : Req) : Bool :=
  match q.who with
  | .ent _ _ e => e.rmwNow
  | .box _ _ k r => r.writing && k.reduceOf.isSome
  | .inward _ x => msgRmw x.msg
  | _ => false

/-- Whether a request writes. -/
def Req.writes (q : Req) : Bool :=
  match q.who with
  | .ent _ _ e => e.writes
  | .box _ _ _ r => r.writing
  | .inward _ x => !msgReads x.msg
  | _ => false

/-- R207: the rank of a request at a bank of a cluster. -/
def bankRank (k : Fin 64) (q : Req) : Nat :=
  let home := (q.core?.map clusterOf) == some k
  if q.isRmw then 5 else if !q.writes then 1 else if !home then 2
  else match q.who with
    | .box _ _ _ _ => 3
    | _ => 4

/-- R207: the place of a request among those of equal arrival and rank: by core, program copies before those of the nest engine, the
unit's context before the firmware's, and in rank 5 the home cluster's first. (DESIGN CHOICE: log 45.) -/
def Req.place (k : Fin 64) (q : Req) : Nat :=
  let (c, nest, fw) : Nat × Bool × Bool := match q.who with
    | .ent c fw _ | .tile c fw _ | .watch c fw _ => (c.val, false, fw)
    | .box c _ y _ => (c.val, y.nest, y.fw)
    | .inward i _ => (512 + i, false, false)
  let away := (q.core?.map clusterOf) != some k
  (if q.isRmw && away then 2 ^ 16 else 0) + 4 * c + 2 * nest.toNat + fw.toNat

/-- R207: the key of a request at a bank. -/
def Req.bankKey (k : Fin 64) (q : Req) : Nat × Nat × Nat := (q.arrival, bankRank k q, q.place k)

/-- R210: the port of a request at an engine, and its place there. The hub port delivers this package's cores in ascending number and
then what other packages ask, in the order of its arrival. (DESIGN CHOICE: log 45.) -/
def Req.engineKey (k : Fin 64) (q : Req) : Nat × Nat × Nat :=
  let port := match q.core? with
    | some c => if clusterOf c = k then 1 else if dieOf c = dieOfCluster k then 2 else 3
    | none => 3
  (q.arrival, port, q.place k % 2 ^ 16)

/-- The lexicographic order of keys. -/
def keyLt (a b : Nat × Nat × Nat) : Bool :=
  decide (a.1 < b.1) || (a.1 == b.1 && (decide (a.2.1 < b.2.1) || (a.2.1 == b.2.1 && decide (a.2.2 < b.2.2))))

/-- The requests of a list with the least key. -/
def leastReqs (key : Req → Nat × Nat × Nat) (l : List Req) : List Req := l.filter fun q => l.all fun r => !keyLt (key r) (key q)

/-! ### What a core asks for -/

/-- The head of a queue that may perform now. -/
def readyHead (s : State) (c : Fin 512) (fw : Bool) (e : Option QEnt) : Option QEnt :=
  match e with
  | some e => if mayPerform s c fw e then some e else none
  | none => none

/-- The heads of both queues that may perform, the load queue's first. -/
def readyHeads (s : State) (c : Fin 512) (fw : Bool) : List QEnt :=
  let core := s.cores[c]
  let x := core.ctx fw
  let waits := !fw && core.trap.isSome
  let head (f : QEnt → Bool) : Option QEnt := x.mq.find? fun e => f e && !(waits && e.failed)
  let l := readyHead s c fw (head (·.ld))
  let t := readyHead s c fw (head (·.st))
  l.toList ++ (t.toList.filter fun e => !e.ld)

/-- R333: whether a part lies beyond the edge of the core's cluster, so that its access must pass the edge first. -/
def beyondEdge (c : Fin 512) (fw : Bool) (p : Piece) : Bool :=
  match p.loc with
  | .tm _ => false
  | .cm k _ => !fw && k != clusterOf c
  | .glob _ => true

/-- The parts of an entry whose requests stand where they are performed. -/
def entParts (s : State) (c : Fin 512) (fw : Bool) (e : QEnt) : List Piece :=
  match e.stage with
  | .waiting => (frontParts s c fw e).filter fun p => !beyondEdge c fw p
  | .xlated => if e.inTurn then e.todo.take 1 else e.todo
  | _ => []

/-- The requests of an entry. -/
def entReqs (s : State) (c : Fin 512) (fw : Bool) (e : QEnt) : List Req := (entParts s c fw e).map fun p => ⟨.ent c fw e, p⟩

/-- R160, R202: the requests of a copy's boxes. -/
def copyReqs (s : State) (c : Fin 512) (slot : Fin 256) : List Req :=
  match s.cores[c].copies[slot] with
  | some k =>
    if k.held || k.abandoned then []
    else k.runs.flatMap fun r => ((boxParts s c k r).filter fun p => !p.loc.remote s).map fun p => ⟨.box c slot k r, p⟩
  | none => []

/-- R183, R184: the requests of an MMA that fetches. -/
def tileReqs (s : State) (c : Fin 512) (fw : Bool) : List Req :=
  match fetchingMma (s.cores[c].ctx fw) with
  | some r => r.parts.map fun p => ⟨.tile c fw r, p⟩
  | none => []

/-- R85: the request of an MWAIT. -/
def watchReqs (s : State) (c : Fin 512) (fw : Bool) : List Req :=
  match (s.cores[c].ctx fw).mwait with
  | some w => w.part.toList.map fun p => ⟨.watch c fw w, p⟩
  | none => []

/-- Every request of a context's own words. -/
def ctxReqs (s : State) (c : Fin 512) (fw : Bool) : List Req :=
  ((readyHeads s c fw).flatMap fun e => entReqs s c fw e) ++ tileReqs s c fw ++ watchReqs s c fw

/-- Every request of a core. -/
def coreReqs (s : State) (c : Fin 512) : List Req :=
  ctxReqs s c false ++ ctxReqs s c true ++ (List.finRange 256).flatMap fun slot => copyReqs s c slot

/-- R83, R200: the requests of what other packages ask. An ordered store waits for the earlier ones of its core. -/
def inwardReqs (s : State) : List Req :=
  (s.fabric.inward.zipIdx).flatMap fun (x, i) =>
    if (s.fabric.inward.take i).any fun y => sameOrder y.msg x.msg then []
    else x.parts.map fun p => ⟨.inward i x, p⟩

/-- Every request of the package. -/
def allReqs (s : State) : List Req := ((List.finRange 512).flatMap fun c => coreReqs s c) ++ inwardReqs s

/-! ### Performing a request -/

/-- A context's MWAIT changes. -/
def putMwait (s : State) (c : Fin 512) (fw : Bool) (w : MWait) : State :=
  let core := s.cores[c]
  s.putCore c (core.setCtx fw { core.ctx fw with mwait := some w })

/-- R85: a value that MWAIT has read: it satisfies, or the wait goes on for at most 4,096 clk. -/
def mwaitRead (s : State) (c : Fin 512) (fw : Bool) (w : MWait) (v : Word) : State :=
  if (v == w.cmp) == w.eq then putMwait s c fw { w with stage := .waiting, part := none, found := some v }
  else putMwait s c fw { w with stage := .waiting, part := none, due := s.clk + 4096 }

/-- R85: MWAIT's read is performed. -/
def runWatch (s : State) (c : Fin 512) (fw : Bool) (w : MWait) (p : Piece) : State :=
  match targetRead s (partTarget s c fw p) p.len with
  | .ok bs => mwaitRead s c fw w (BitVec.ofNat 64 (leNat bs))
  | .error k => putMwait s c fw { w with stage := .failed k, part := none }

/-- The bytes of a request of another package that lie in one of its parts, as runs from the part's first byte. -/
def runsIn (m : Msg) (p : Piece) : List (Nat × List Byte) :=
  (payloadRuns m).filterMap fun (o, bs) =>
    let lo := max o p.off
    let hi := min (o + bs.length) (p.off + p.len)
    if lo < hi then some (lo - p.off, (bs.drop (lo - o)).take (hi - lo)) else none

/-- R62, R81: what an AMO message does to the old bytes. The payload holds sB and then sD. -/
def amoBytesOf (m : Msg) (n : Nat) (old : List Byte) : List Byte :=
  leBytes n (amoNew (BitVec.ofNat 4 (m.opx.toNat / 4)) n (leNat old) (fieldAt m.payload 0 n) (fieldAt m.payload n n))

/-- Whether a request writes every byte of a part. -/
def wholeIn (m : Msg) (p : Piece) : Bool := ((runsIn m p).map (·.2.length)).sum == p.len

/-- R365: where a part of a request is performed. -/
def inwardTarget (s : State) (x : Inward) (p : Piece) : Target :=
  match p.loc with
  | .glob va => .hbm (dieOfVa va) (p.pa.getD 0) (accessKey s false (some x.part) va)
  | .tm _ | .cm _ _ => .flat 0

/-- R165, R365: what a part of a request does to memory and to the request. -/
def performInward (s : State) (x : Inward) (p : Piece) (t : Target) : Except Cause (State × Inward) :=
  let m := x.msg
  let rest := { x with parts := x.parts.erase p, sure := true }
  if msgReads m then (targetRead s t p.len).map fun bs => (s, { rest with data := patch x.data p.off bs })
  else if m.kind = kAmo then
    match targetRead s t p.len with
    | .ok old => (targetWrite s t (amoBytesOf m p.len old)).map fun s => (s, { rest with data := old })
    | .error k => .error k
  else if m.kind = kVamo then
    (vamoAt s t (m.opx.getLsbD 0) (BitVec.ofNat 256 (fieldAt m.payload 128 16)) (bytesVec (m.payload.take 128))).map fun s => (s, rest)
  else if m.kind = kRed then
    match targetRead s t p.len with
    | .ok old =>
      (targetWrite s t (reduceElem (m.opx != 1) (m.opx.setWidth 2) old ((m.payload.drop p.off).take p.len))).map fun s => (s, rest)
    | .error k => .error k
  else
    let mates := blockMates x.parts (wholeIn m) p
    let bytes (q : Piece) : List Byte := (runsIn m q).flatMap (·.2)
    (writeMates s mates (inwardTarget s x) bytes (targetRuns s t (runsIn m p))).map fun s =>
      (s, { rest with parts := x.parts.filter fun q => q != p && !mates.contains q })

/-- R70: the first part of a request that could not be performed if all were performed now. -/
def badInward (s : State) (x : Inward) : List Piece → Option (Piece × Cause)
  | [] => none
  | p :: ps =>
    match performInward s x p (inwardTarget s x p) with
    | .ok (t, y) => badInward t y ps
    | .error k => some (p, k)

/-- The requests of other packages change. -/
def setInward (s : State) (l : List Inward) : State := { s with fabric := { s.fabric with inward := l } }

/-- R70, R200, R365: a part of a request of another package is performed; the request is answered after its last. A request with a part
that could not be performed transfers no byte. -/
def runInward (s : State) (i : Nat) (x : Inward) (p : Piece) : State :=
  let fail (q : Piece) (k : Cause) : State :=
    let s := if msgReads x.msg then s else targetFail s (inwardTarget s x q) q.len
    inwardFail (setInward s (s.fabric.inward.eraseIdx i)) x.part x.msg k
  match (if x.sure then none else badInward s x (leaders (p :: x.parts.erase p) (wholeIn x.msg))) with
  | some (q, k) => fail q k
  | none =>
    match performInward s x p (inwardTarget s x p) with
    | .error k => fail p k
    | .ok (s, y) =>
      if y.parts.isEmpty then endInward (setInward s (s.fabric.inward.eraseIdx i)) y
      else setInward s (s.fabric.inward.set i y)

/-- A request is performed. -/
def Req.run (q : Req) (s : State) : State :=
  match q.who with
  | .ent c fw e => runPart s c fw e q.piece
  | .box c slot k r => runBoxPart s c slot k r q.piece
  | .tile c fw r => runTilePart s c fw r q.piece
  | .watch c fw w => runWatch s c fw w q.piece
  | .inward i x => runInward s i x q.piece

/-! ### Where a request is performed -/

/-- R207: a request at a bank of a cluster. -/
def Req.inBank (k bank : Fin 64) (q : Req) : Bool :=
  match q.piece.loc with
  | .cm cl off => cl == k && off / 32 % 64 == bank.val
  | _ => false

/-- R208: a request at a core's TM. -/
def Req.inTm (q : Req) : Bool :=
  match q.piece.loc with
  | .tm _ => true
  | _ => false

/-- R209: the home cluster of a request for memory, and its line. -/
def Req.line (q : Req) : Option (Fin 64 × Nat) :=
  match q.piece.loc, q.piece.pa with
  | .glob va, some pa => some (homeCluster (dieOfVa va) pa, hbmAddr (dieOfVa va) (pa / 128 * 128))
  | _, _ => none

/-- R209, R210: whether a request is performed at its line's engine: a read-modify-write, or an access to a resident line. -/
def Req.atEngine (s : State) (q : Req) : Bool :=
  match q.line with
  | some (k, line) => q.isRmw || resident s k line
  | none => false

/-- R207: the requests that a bank performs next. (DESIGN CHOICE: log 45.) -/
def bankRequests (s : State) (k bank : Fin 64) : List Req :=
  leastReqs (·.bankKey k) (((List.finRange 512).flatMap fun c => coreReqs s c).filter (·.inBank k bank))

/-- R208: the requests that a core's TM performs next. -/
def tmRequests (s : State) (c : Fin 512) : List Req :=
  leastReqs (·.bankKey (clusterOf c)) ((coreReqs s c).filter (·.inTm))

/-- R210: whether an engine must first wait for a write to a line that it does not hold: one already sent to memory. -/
def writesAhead (all : List Req) (line : Nat) (q : Req) : Bool :=
  all.any fun r => !r.isRmw && r.writes && r.line.any (fun l => l.2 == line) && decide (r.arrival < q.arrival)

/-- R210: the requests that a cluster's engine performs next: of each line the first, once the writes sent to memory before it have
performed. (DESIGN CHOICE: log 45.) -/
def engineRequests (s : State) (k : Fin 64) : List Req :=
  let all := allReqs s
  let mine := all.filter fun q => q.line.any (fun l => l.1 == k) && q.atEngine s
  mine.filter fun q =>
    (mine.all fun r => r.line != q.line || !keyLt (r.engineKey k) (q.engineKey k)) &&
      q.line.any fun l => resident s k l.2 || !writesAhead all l.2 q

/-- R210, R211: an engine performs a request; the line becomes the most recently used, and its page is pinned (R310). None while no line
can leave for it, or the pin must wait. -/
def runAtEngine (s : State) (k : Fin 64) (q : Req) : Option State :=
  match q.line with
  | some (_, line) =>
    let part := match q.who with
      | .inward _ x => x.part
      | _ => (q.core?.bind s.partOf).getD 0
    let busy (a : Nat) : Bool := (allReqs s).any fun r => r.line.any (fun l => l.2 == a) && r.isRmw
    let pinned := match q.piece.loc with
      | .glob va => if q.fw || resident s k line then some s else pinVa s part va
      | _ => some s
    (pinned.bind fun s => touchLine s k line part busy).map q.run
  | none => none

/-- R200, R208: the requests of one agent that it may perform by itself now: those at TM whose turn it is, and those at memory that no
engine performs. -/
def ownTurns (s : State) (c : Fin 512) (l : List Req) : List Req :=
  let tm := tmRequests s c
  l.filter fun q => if q.inTm then tm.contains q else q.line.isSome && !q.atEngine s

/-- One of an agent's requests that it may perform by itself now is performed. -/
def runOwn (s : State) (c : Fin 512) (l : List Req) : State :=
  match pickFrom (Config.partPick s.tick) (ownTurns s c l) with
  | some q => q.run s
  | none => s

end Sys2Proof.Machine
end

