-- ==== Sys2Proof/Machine/Mem.lean ====
section
/-! DEFINITION. The scalar memory words (R68, R77 to R85): at issue each joins the load queue, the store queue or both, and
the events of this file perform the queues' heads (R199 to R211, R302, R335). -/

namespace Sys2Proof.Machine

/-! ### Issue -/

/-- R114, R195: whether an access meets a record that an earlier VQREC or MQNT of the context is still writing. -/
def recordMeets (s : State) (l : Loc) (n : Nat) : Bool :=
  match l with
  | .tm off => s.ctx.quants.any fun q => s.before q.id && decide (off < q.addr + (qRecFmt q.fmt).size) && decide (q.addr < off + n)
  | _ => false

/-- R68: a naturally aligned access, or MISALIGN. -/
def aligned (s : State) (ea : Word) (n : Nat) (f : Out) : Out :=
  if ea.toNat % n ≠ 0 then raiseAt s .misalign ea else f

/-- A load enters the load queue (R79, R71, R114). -/
def issueLoad (s : State) (kind : QKind) (ea : Word) (n : Nat) (pieces : Loc → List Piece) : Out :=
  onRes (checkAddr s ea n .read) s ea fun l =>
    if captureFull s || recordMeets s l n then stall s else .next (pushEnt s (newEnt s kind true false ea (pieces l)))

/-- A store enters the store queue (R80). -/
def issueStore (s : State) (kind : QKind) (ea : Word) (n : Nat) (data : List Byte) : Out :=
  onRes (checkAddr s ea n .write) s ea fun l =>
    if guardStalls s l n || recordMeets s l n then stall s
    else .next (pushEnt s { newEnt s kind false true ea (piecesOf l n) with data := data })

/-- R77: LD. -/
def execLd (h : Head) (d : BitVec 5) (a : BitVec 5) (f : LdForm) (o : BitVec 8) (s : State) : Out :=
  guarded h s fun s =>
    let n := ldBytes f
    issueLoad s (.ld d f) (effAddr (s.rs a) o n) n fun l => piecesOf l n

/-- R78: LD.ACQ. -/
def execLdAcq (h : Head) (d : BitVec 5) (a : BitVec 5) (f : MemSize) (o : BitVec 8) (s : State) : Out :=
  guarded h s fun s =>
    let n := memBytes f
    let ea := effAddr (s.rs a) o n
    aligned s ea n (issueLoad s (.ldAcq d f) ea n fun l => piecesOf l n)

/-- R80: ST. -/
def execSt (h : Head) (d : BitVec 5) (a : BitVec 5) (f : MemSize) (o : BitVec 8) (s : State) : Out :=
  guarded h s fun s =>
    let n := memBytes f
    issueStore s (.st false) (effAddr (s.rs a) o n) n (leBytes n (s.rs d).toNat)

/-- R80: ST.REL. -/
def execStRel (h : Head) (d : BitVec 5) (a : BitVec 5) (f : MemSize) (o : BitVec 8) (s : State) : Out :=
  guarded h s fun s =>
    let n := memBytes f
    let ea := effAddr (s.rs a) o n
    aligned s ea n (issueStore s (.st true) ea n (leBytes n (s.rs d).toNat))

/-- R79: LSALN enters both queues. -/
def execLsaln (h : Head) (s : State) : Out :=
  guarded h s fun s => .next (pushEnt s (newEnt s .lsaln true true 0 []))

/-- R81: an AMO enters both queues; CAS compares with sD. -/
def issueAmo (op : BitVec 4) (h : Head) (d a b : BitVec 5) (z : AmoSize) (s : State) : Out :=
  guarded h s fun s =>
    let n := amoBytes z
    let ea := s.rs a
    aligned s ea n (onRes (checkAddr s ea n .write) s ea fun l =>
      if captureFull s || guardStalls s l n || recordMeets s l n then stall s
      else .next (pushEnt s { newEnt s (.amo d op z) true true ea [⟨l, 0, n, none⟩] with opa := s.rs b, opb := s.rs d }))

/-- AMO_ADD (R81). -/
def execAmoAdd (h : Head) (d : BitVec 5) (a : BitVec 5) (b : BitVec 5) (z : AmoSize) (s : State) : Out := issueAmo 0 h d a b z s

/-- AMO_AND (R81). -/
def execAmoAnd (h : Head) (d : BitVec 5) (a : BitVec 5) (b : BitVec 5) (z : AmoSize) (s : State) : Out := issueAmo 1 h d a b z s

/-- AMO_OR (R81). -/
def execAmoOr (h : Head) (d : BitVec 5) (a : BitVec 5) (b : BitVec 5) (z : AmoSize) (s : State) : Out := issueAmo 2 h d a b z s

/-- AMO_XOR (R81). -/
def execAmoXor (h : Head) (d : BitVec 5) (a : BitVec 5) (b : BitVec 5) (z : AmoSize) (s : State) : Out := issueAmo 3 h d a b z s

/-- AMO_MIN (R81). -/
def execAmoMin (h : Head) (d : BitVec 5) (a : BitVec 5) (b : BitVec 5) (z : AmoSize) (s : State) : Out := issueAmo 4 h d a b z s

/-- AMO_MAX (R81). -/
def execAmoMax (h : Head) (d : BitVec 5) (a : BitVec 5) (b : BitVec 5) (z : AmoSize) (s : State) : Out := issueAmo 5 h d a b z s

/-- AMO_MINU (R81). -/
def execAmoMinu (h : Head) (d : BitVec 5) (a : BitVec 5) (b : BitVec 5) (z : AmoSize) (s : State) : Out := issueAmo 6 h d a b z s

/-- AMO_MAXU (R81). -/
def execAmoMaxu (h : Head) (d : BitVec 5) (a : BitVec 5) (b : BitVec 5) (z : AmoSize) (s : State) : Out := issueAmo 7 h d a b z s

/-- AMO_SWAP (R81). -/
def execAmoSwap (h : Head) (d : BitVec 5) (a : BitVec 5) (b : BitVec 5) (z : AmoSize) (s : State) : Out := issueAmo 8 h d a b z s

/-- AMO_CAS (R81). -/
def execAmoCas (h : Head) (d : BitVec 5) (a : BitVec 5) (b : BitVec 5) (z : AmoSize) (s : State) : Out := issueAmo 9 h d a b z s

/-! ### Quickset stores (R82, R83, R363) -/

/-- R363: what a carried token asks of its carrying store: nothing, the ordered class, a waiter, or to wait. -/
inductive Carry where
  | nothing
  | ordered
  | waiter
  | wait
deriving DecidableEq, Repr

/-- Whether a token's store is still in the core's store queue or in the edge's send queue. -/
def inSendQueue (s : State) (c : Fin 512) (fw : Bool) (t : BitVec 16) : Bool :=
  ((s.cores[c].ctx fw).mq.any fun e => match e.kind with | .qst u _ _ _ => u == t | _ => false) ||
    s.fabric.out.any fun m => m.msg.kind == kQst && m.msg.token == t && msgCore m.msg == c

/-- R363: the case of one carried token for a store to a package. -/
def carryCase (s : State) (t : BitVec 16) (dst : Pkg) : Carry :=
  match liveTok s.cur t with
  | none => .nothing
  | some k =>
    if k.pkg = dst then
      if k.ordered || inSendQueue s s.core s.fw t then .ordered else .wait
    else if k.waiters.contains dst || decide (k.waiters.length < 4) then .waiter
    else .wait

/-- R363: a token's store takes the ordered class, wherever it still waits. -/
def makeOrdered (s : State) (t : BitVec 16) : State :=
  let core := s.cur
  match liveTok core t with
  | none => s
  | some k =>
    let x := core.ctx s.fw
    let mq := x.mq.map fun e => match e.kind with
      | .qst u o c0 c1 => if u = t then { e with kind := .qst u true c0 c1 } else { e with kind := .qst u o c0 c1 }
      | _ => e
    let core := { core with tokens := vput core.tokens (tokEntry t) (some { k with ordered := true }) }
    let out := s.fabric.out.map fun m =>
      if m.msg.kind = kQst ∧ m.msg.token = t ∧ msgCore m.msg = s.core then { m with msg := { m.msg with cls := true } } else m
    { s.setCur (core.setCtx s.fw { x with mq := mq }) with fabric := { s.fabric with out := out } }

/-- R363: a destination joins a token's waiters. -/
def addWaiter (s : State) (t : BitVec 16) (dst : Pkg) : State :=
  let core := s.cur
  match liveTok core t with
  | some k =>
    if k.waiters.contains dst then s
    else s.setCur { core with tokens := vput core.tokens (tokEntry t) (some { k with waiters := k.waiters ++ [dst] }) }
  | none => s

/-- What a carried token does to the state. (DEDUCED: log 18.) -/
def applyCarry (s : State) (t : BitVec 16) (dst : Pkg) : Carry → State
  | .ordered => makeOrdered s t
  | .waiter => addWaiter s t dst
  | _ => s

/-- R199: whether the core has a token still to land on a line of the range. -/
def lineBusy (c : Core) (ea : Word) (n : Nat) : Bool :=
  let lo := ea.toNat / 128
  let hi := (ea.toNat + n - 1) / 128
  c.tokens.toList.any fun t => match t with
    | some k => !k.notify && decide (k.line ≤ hi) && decide (lo < k.line + k.span)
    | none => false

/-- R82, R83: the generation after that of a free entry, and the token of the entry under it. -/
def nextToken (c : Core) (i : Fin 256) : BitVec 8 × BitVec 16 := (nextGen c.gens[i], nextGen c.gens[i] ++ BitVec.ofNat 8 i.val)

/-- R84: whether an address lies in a die window of this package that holds nothing: one on which the partition has no page tables
(R304). (DEDUCED: log 18.) -/
def holeWindow (s : State) (va : Word) : Bool :=
  !s.fw && pkgOf va == ownPkg s && match s.curPart with
    | some p => !(s.dies[dieOfVa va].roots[p]).getLsbD 0
    | none => true

/-- R83, R84, R131: the address checks of a Quickset store that moves `n` bytes from `lo`, after its alignment. -/
def qstChecks (s : State) (ea : Word) (lo n : Nat) (f : Out) : Out :=
  let at_ := ea + BitVec.ofNat 64 lo
  if !ea.getLsbD 63 || holeWindow s at_ then raiseAt s .unmapped ea
  else onRes (checkAddr s at_ n .write) s at_ fun _ => f

/-- R131: a Quickset store that moves no byte takes a token that has landed at once: its entry is free again, under its next generation. (DEDUCED: log 18.) -/
def emptyQst (s : State) (d : BitVec 5) : Out :=
  match freeTok s.cur with
  | none => stall s
  | some i =>
    let (gen, tok) := nextToken s.cur i
    .next ((s.setCur { s.cur with gens := vput s.cur.gens i gen }).wrS d (tok.setWidth 64))

/-- R83, R131, R363: a Quickset store of checked bytes: it takes a token and joins the store queue. `m` is zero for a whole
store, or the byte mask. -/
def issueQst (s : State) (d : BitVec 5) (carries : BitVec 16 × BitVec 16) (o : Bool) (ea : Word) (lo n : Nat) (m : Mask)
    (data : List Byte) (opa : Word) : Out :=
  let dst := pkgOf ea
  let k0 := carryCase s carries.1 dst
  let k1 := carryCase s carries.2 dst
  match freeTok s.cur with
  | none => stall s
  | some i =>
    if captureFull s || k0 == .wait || k1 == .wait then stall s
    else
      let at_ := ea + BitVec.ofNat 64 lo
      let s := applyCarry (applyCarry s carries.1 dst k0) carries.2 dst k1
      let ordered := o || k0 != .nothing || k1 != .nothing || lineBusy s.cur at_ n
      let core := s.cur
      let (gen, tok) := nextToken core i
      let lim := match s.curPart with | some p => s.parts[p].toklim.toNat | none => 0x100000
      let ent : TokEnt :=
        { serial := s.serial, fw := s.fw, pkg := dst, die := at_.extractLsb' 49 2, line := at_.toNat / 128
          span := (at_.toNat + n - 1) / 128 + 1 - at_.toNat / 128, ordered := ordered, limit := s.clk + lim, waiters := []
          notify := false, expired := false, away := none, resend := false }
      let s := s.setCur { core with tokens := vput core.tokens i (some ent), gens := vput core.gens i gen }
      let carry (k : Carry) (t : BitVec 16) : BitVec 16 := if k = .waiter then t else 0
      let l : Loc := .glob at_
      let todo := if m = 0 then piecesOf l n else maskedPieces l lo n m
      let e := { newEnt s (.qst tok ordered (carry k0 carries.1) (carry k1 carries.2)) false true ea todo with
        data := data, mask := m, opa := opa }
      .next ((pushEnt s e).wrS d (tok.setWidth 64))

/-- The tokens that a .T form carries, from sD. -/
def carriedTokens (t : Bool) (x : Word) : BitVec 16 × BitVec 16 :=
  if t then (x.extractLsb' 0 16, x.extractLsb' 16 16) else (0, 0)

/-- R83: QST. -/
def execQst (h : Head) (d : BitVec 5) (a : BitVec 5) (b : BitVec 5) (t : Bool) (o : Bool) (z : MemSize) (s : State) : Out :=
  guarded h s fun s =>
    let n := memBytes z
    let ea := s.rs a
    aligned s ea n (qstChecks s ea 0 n
      (issueQst s d (carriedTokens t (s.rs d)) o ea 0 n 0 (leBytes n (s.rs b).toNat) (s.rs b)))

/-! ### MWAIT (R85) -/

/-- R79, R85, R114: MWAIT waits for the entries and the records before it, and then for a read that satisfies it. -/
def issueMwait (eq : Bool) (h : Head) (d a b : BitVec 5) (s : State) : Out :=
  guarded h s fun s =>
    let ea := s.rs a
    aligned s ea 8 (onRes (checkAddr s ea 8 .watch) s ea fun l =>
      if !(olderEnts s).isEmpty || recordMeets s l 8 then stall s
      else
        let x := s.ctx
        let fresh : MWait := ⟨ea, s.rs b, eq, s.clk, .waiting, none, s.clk, none⟩
        match x.mwait with
        | none => stall (s.setCtx { x with mwait := some fresh })
        | some w =>
          if w.ea ≠ ea ∨ w.cmp ≠ s.rs b ∨ w.eq ≠ eq then stall (s.setCtx { x with mwait := some fresh })
          else match w.stage, w.found with
          | .failed c, _ => raiseAt s c ea
          | _, some v => .next ((s.setCtx { x with mwait := none }).wrS d v)
          | _, none => stall s)

/-- MWAIT_NE (R85). -/
def execMwaitNe (h : Head) (d : BitVec 5) (a : BitVec 5) (b : BitVec 5) (s : State) : Out := issueMwait false h d a b s

/-- MWAIT_EQ (R85). -/
def execMwaitEq (h : Head) (d : BitVec 5) (a : BitVec 5) (b : BitVec 5) (s : State) : Out := issueMwait true h d a b s

/-- R85: MWAIT asks for its word: a read at the core's own windows, at memory, or of another package. -/
def askWatch (s : State) (c : Fin 512) (fw : Bool) (w : MWait) : State :=
  match relocate s c w.ea with
  | none => putMwait s c fw { w with stage := .failed .unmapped }
  | some l =>
    if l.remote s then
      putMwait (send s ((s.partOf c).getD 0) { coreMsg s c ((s.partOf c).getD 0) kRd w.ea [] with len := 8 }) c fw { w with stage := .sent }
    else match xlateAll s false fw (s.partOf c) false [⟨l, 0, 8, none⟩] with
    | (s, .ok parts) =>
      match crossParts s c fw parts with
      | some s => putMwait s c fw { w with part := parts.head?, arrival := s.clk }
      | none => s
    | (s, .fail k) => putMwait s c fw { w with stage := .failed k }
    | (s, .wait) => s

/-- R85: MWAIT reads its word again. -/
def execMwaitReread (core : Fin 512) (fw : Bool) (s : State) : Out :=
  match (s.cores[core].ctx fw).mwait with
  | none => .next s
  | some w =>
    match w.stage, w.found, w.part with
    | .returned bs, none, _ => .next (mwaitRead s core fw w (BitVec.ofNat 64 (leNat bs)))
    | .waiting, none, none => .next (askWatch s core fw w)
    | .waiting, none, some _ => .next (runOwn s core (watchReqs s core fw))
    | _, _, _ => .next s

/-! ### Performing (R79, R199 to R211) -/

/-- What has come back from another package takes effect: a load's bytes, an AMO's old value, a write's acknowledgement. -/
def takeReturned (s : State) (c : Fin 512) (fw : Bool) (e : QEnt) (bs : List Byte) : State :=
  let lo := (e.todo.head?.map (·.off)).getD 0
  match e.kind with
  | .ld _ _ | .ldAcq _ _ | .vld _ | .mld _ _ | .streamRead _ _ | .amo _ _ _ =>
    settleEnt s c fw { e with data := patch e.data lo bs, todo := [] }
  | .vldElems d =>
    settleEnt (e.result s c fw d.toNat fun r => r.setV d (bytesVec (patch (vecBytes (r.getV d)) lo bs))) c fw
      { e with pix := lo / 4 + 1, todo := [] }
  | .vstElems => settleEnt s c fw { e with pix := lo / 4 + 1, todo := [] }
  | _ => settleEnt s c fw { e with todo := [] }

/-- An entry at the head of its queue goes on where it stands: what has come back is taken, one with no part left ends, an element that
fails its checks stops it, and a part of it that is its turn is performed, at memory only where `mem` says so. -/
def turnEnt (s : State) (c : Fin 512) (fw : Bool) (e : QEnt) (mem : Bool) : State :=
  match e.stage with
  | .returned bs => takeReturned s c fw e bs
  | .sent | .failed _ => s
  | _ =>
    match nextPiece s c fw e with
    | none => settleEnt s c fw e
    | some (.error k) => failEnt s c fw e k
    | some (.ok _) => runOwn s c ((entReqs s c fw e).filter fun q => q.inTm || mem)

/-- The head of one of a context's queues that may perform. -/
def headOf (s : State) (c : Fin 512) (fw : Bool) (f : QEnt → Bool) : Option QEnt := (readyHeads s c fw).find? f

/-- R77, R79: the head of a load queue performs its next part, or takes what has come back for it. -/
def execLoadReturn (core : Fin 512) (fw : Bool) (s : State) : Out :=
  match headOf s core fw (·.ld) with
  | some e => match e.kind with
    | .streamRead _ _ => .next s
    | _ => .next (turnEnt s core fw e true)
  | none => .next s

/-- R80, R79: the head of a store queue performs its next part in its core, or takes its acknowledgement. -/
def execStorePerform (core : Fin 512) (fw : Bool) (s : State) : Out :=
  match headOf s core fw (·.st) with
  | some e => .next (turnEnt s core fw e false)
  | none => .next s

/-- R335: the counter engine performs the next part of a store at the die's memory. -/
def execCounterWrite (core : Fin 512) (fw : Bool) (s : State) : Out :=
  match headOf s core fw (·.st) with
  | some e => if e.ld then .next s else .next (runOwn s core ((entReqs s core fw e).filter fun q => !q.inTm))
  | none => .next s

/-- R207: a bank performs the first of its requests. -/
def execBankRequest (cluster : Fin 64) (bank : Fin 64) (s : State) : Out :=
  match pickFrom (Config.partPick s.tick) (bankRequests s cluster bank) with
  | some q => .next (q.run s)
  | none => .next s

/-- R209 to R211: an atomic engine performs the first of its requests to a line; the line becomes resident. -/
def execAtomicEngineRequest (cluster : Fin 64) (s : State) : Out :=
  match pickFrom (Config.partPick s.tick) (engineRequests s cluster) with
  | some q => .next ((runAtEngine s cluster q).getD s)
  | none => .next s

/-- R200, R365: what another package asks goes on at this package's memory; a request with nothing left to perform is answered. -/
def execInward (s : State) : Out :=
  match (List.range s.fabric.inward.length).find? fun i => (s.fabric.inward[i]?).any fun x => x.parts.isEmpty with
  | some i => .next (match s.fabric.inward[i]? with
    | some x => endInward (setInward s (s.fabric.inward.eraseIdx i)) x
    | none => s)
  | none =>
    match pickFrom (Config.partPick s.tick) ((inwardReqs s).filter fun q => !q.atEngine s) with
    | some q => .next (q.run s)
    | none => .next s

/-- R302, R303, R333, R365: an access passes its core's edge whole: it is translated at its die, or sent to its package as one
message. -/
def translateEnt (s : State) (c : Fin 512) (fw : Bool) (e : QEnt) : State :=
  let parts := frontParts s c fw e
  let lo := (parts.head?.map (·.off)).getD 0
  let hi := (parts.getLast?.map fun p => p.off + p.len).getD lo
  if throughHub s c e then sendQst s c fw e
  else match parts.head? with
  | none => s
  | some p =>
    if p.loc.remote s then
      match entMsg s c fw e (locAddr p.loc) lo (hi - lo) with
      | some m => putEnt (send s ((s.partOf c).getD 0) m) c fw { e with todo := parts, stage := .sent }
      | none => failEnt s c fw e .remote
    else match xlateAll s false fw (s.partOf c) e.writes parts with
    | (s, .ok parts) =>
      match crossParts s c fw parts with
      | some s => putEnt s c fw { e with todo := if e.inTurn then parts ++ e.todo.drop 1 else parts, stage := .xlated, arrival := s.clk }
      | none => s
    | (s, .fail k) => failEnt s c fw e k
    | (s, .wait) => s

/-- R303: the first head of a context that waits at its edge passes it. -/
def execTranslate (core : Fin 512) (fw : Bool) (s : State) : Out :=
  match (readyHeads s core fw).find? fun e => e.stage == .waiting && (frontParts s core fw e).any (beyondEdge core fw) with
  | some e => .next (translateEnt s core fw e)
  | none => .next s

/-- R309: the hub answers a cluster edge: the verdict is known, and the leases that cover the access join the edge's
cache of 64. -/
def execLeaseLookup (core : Fin 512) (fw : Bool) (s : State) : Out :=
  let c := s.cores[core]
  match c.leaseAsk with
  | some (va, false) =>
    if fw then .next s
    else
      let k := clusterOf core
      let cl := s.clusters[k]
      let ids := ((leasesOf s (s.partOf core)).filter fun l => l.covers va 1).map (·.id)
      let cache := (ids ++ cl.leaseCache.filter fun i => !ids.contains i).take 64
      .next ((s.putCore core { c with leaseAsk := some (va, true) }).putCluster k { cl with leaseCache := cache })
  | _ => .next s

/-! ### Deferred faults (R70) and tokens (R84) -/

/-- The address of the part at which an entry failed. (DEDUCED: log 11.) -/
def failAddr (e : QEnt) : Word :=
  if e.byElem then elemAddr e e.pix
  else match e.todo.head? with
  | some p => (match p.loc with | .glob va => va | _ => e.ea + BitVec.ofNat 64 p.off)
  | none => e.ea

/-- A deferred fault of a context that waits to be taken: the word's serial number, cause, address and PIX, and for a copy
its slot. -/
structure Deferred where
  id : Nat
  cause : Cause
  addr : Word
  pix : Nat
  slot : Option (Fin 256)
deriving DecidableEq, Repr

/-- R70, R161, R172, R184: the deferred faults of a context. -/
def deferredFaults (s : State) (c : Fin 512) (fw : Bool) : List Deferred :=
  let core := s.cores[c]
  let x := core.ctx fw
  (x.mq.filterMap fun e => e.stage.cause.map fun k => ⟨e.id, k, failAddr e, if e.byElem then e.pix else 0, none⟩) ++
    (x.mmas.filterMap fun r => r.bStage.cause.map fun k =>
      ⟨r.id, k, r.tileAt, r.pix, none⟩) ++
    ((List.finRange 256).filterMap fun i => match core.copies[i] with
      | some k => if k.fw == fw && !k.held then k.fault.map fun e => ⟨k.id, e, k.faultAddr, 0, some i⟩ else none
      | none => none) ++
    (match x.nest.fault with
     | some k => [⟨s.serial, k, x.nest.faultAddr, 0, none⟩]
     | none => [])

/-- R315: the oldest word's deferred fault. -/
def oldestFault (s : State) (c : Fin 512) (fw : Bool) : Option Deferred :=
  (deferredFaults s c fw).foldl (fun best d => match best with
    | none => some d
    | some b => if d.id < b.id then some d else some b) none

/-- R161: the handle and the box of a copy that has faulted. -/
def copyWhere (s : State) (c : Fin 512) (slot : Option (Fin 256)) : BitVec 16 × BitVec 16 :=
  match slot with
  | some i =>
    match s.cores[c].copies[i] with
    | some k =>
      let gen : BitVec 16 := k.gen ++ BitVec.ofNat 8 i.val
      (if k.nest then 0 else gen, BitVec.ofNat 16 k.faultBox)
    | none => (0, 0)
  | none => (0, 0)

/-- R70, R315: a deferred fault is taken before the first bundle that has not issued. -/
def takeDeferred (s : State) (c : Fin 512) (d : Deferred) : State :=
  let s := atBoundary s c
  let x := s.cores[c].unit
  let (handle, box) := copyWhere s c d.slot
  startTrap s c (some d.id)
    { TrapInfo.at d.cause x.pc (BitVec.ofNat 2 x.word) d.addr with pix := BitVec.ofNat 32 d.pix, handle := handle, box := box }

/-- R316: whether a core's unit context may begin to take a trap: it runs, and no trap of it has begun. -/
def trapFree (s : State) (c : Fin 512) : Bool := s.cores[c].st == .running && s.cores[c].trap.isNone

/-- R70: a fault found after issue: the faulting word stands in the replay queue with its cause, and the trap is taken. In
a firmware context it is that context's fault (R372). -/
def execDeferredFault (core : Fin 512) (fw : Bool) (s : State) : Out :=
  match oldestFault s core fw with
  | none => .next s
  | some d =>
    if fw then .next (fwFault s core d.cause)
    else if trapFree s core then .next (takeDeferred s core d)
    else .next s

/-- R364: the stores of a core that HOLDFULL answered are sent again as their carried tokens have landed. -/
def resendAll (s : State) (c : Fin 512) : State :=
  (List.finRange 256).foldl (fun s i => match s.cores[c].tokens[i] with
    | some k => if k.resend then resendQst s c i else s
    | none => s) s

/-- R84: a store that has not landed within its limit. The turn of the token table also sends what HOLDFULL kept. -/
def execTokenExpire (core : Fin 512) (s : State) : Out :=
  let s := resendAll s core
  let c := s.cores[core]
  let due (i : Fin 256) : Bool := match c.tokens[i] with
    | some k => !k.notify && !k.expired && decide (k.limit ≤ s.clk)
    | none => false
  match (List.finRange 256).find? due with
  | none => .next s
  | some i =>
    match c.tokens[i] with
    | some k =>
      let c := { c with tokens := vput c.tokens i (some { k with expired := true }) }
      if k.fw then .next (fwFault (s.putCore core c) core .tokenExpire)
      else if c.st = .none then .next (settleHold (s.putCore core c) core)
      else .next (s.putCore core { c with pend := { c.pend with tokens := c.pend.tokens ++ [BitVec.ofNat 8 i.val] } })
    | none => .next s

end Sys2Proof.Machine
end

