-- ==== Sys2Proof/Machine/Control.lean ====
section
/-! DEFINITION. Control words: branches (R86), the hardware loop (R87), control registers (R17, R88), fences (R89), TRAP
and TRET (R95, R96). -/

namespace Sys2Proof.Machine

/-! ### Branches (R86) and LOOP (R87) -/

/-- R54: a branch target: the word's packet and a signed offset. -/
def target (s : State) (o : BitVec 16) : BitVec 32 := s.ctx.pc + o.signExtend 32

/-- R86: a taken branch to a packet. -/
def goto (s : State) (i : BitVec 32) : State := { s with redirect := some (.packet i) }

/-- R86: BR. -/
def execBr (h : Head) (o : BitVec 16) (s : State) : Out := guarded h s fun s => .next (goto s (target s o))

/-- R86: CALL links to the next packet. -/
def execCall (h : Head) (a : BitVec 5) (o : BitVec 16) (s : State) : Out :=
  guarded h s fun s => .next (goto (s.wrS a ((s.ctx.pc + 1).setWidth 64)) (target s o))

/-- R86: JR. -/
def execJr (h : Head) (a : BitVec 5) (s : State) : Out :=
  guarded h s fun s => .next { s with redirect := some (.register (s.rs a)) }

/-- R87: the loop stack with an entry of the origin and every entry above it popped. (DEDUCED: log 15.) -/
def popOrigin (origin : BitVec 32) (l : List LoopEnt) : List LoopEnt :=
  if l.any (fun t => t.origin == origin) then (l.dropWhile fun t => t.origin != origin).drop 1 else l

/-- R87: LOOP. (DEDUCED: log 15.) -/
def execLoop (h : Head) (a : BitVec 5) (o : BitVec 16) (s : State) : Out :=
  guarded h s fun s =>
    let x := s.ctx
    if s.rs a = 0 then .next (goto s (x.pc + o.setWidth 32 + 1))
    else
      let l := popOrigin x.pc x.loops
      if l.length = 4 then raise s .illegalOp
      else .next (goto (s.setCtx { x with loops := ⟨x.pc, x.pc + 1, x.pc + o.setWidth 32, a⟩ :: l }) (x.pc + 1))

/-! ### Control registers (R17, R88) -/

/-- R266: FORECAST with its HORIZON counted down. -/
def forecastNow (s : State) (c : Ctl) : BitVec 32 :=
  c.forecast.extractLsb' 24 8 ++ BitVec.ofNat 24 (c.forecast.toNat % 2 ^ 24 - (s.clk - c.forecastAt))

/-- R322: the FSTAT of a partition. -/
def fstat (s : State) (p : Fin 16) : Word :=
  let part := s.parts[p]
  BitVec.ofNat 64 (part.tail.toNat + 2 ^ 16 * part.head.toNat + if heldCount s p = 0 then 0 else 2 ^ 31)

/-- R318: the replay entry whose fault is TCAUSE. (DEDUCED: log 13.) -/
def pixEntry (c : Core) : Option Replay := c.replay.find? fun r => r.cause.any fun k => k.code == c.ctl.tcause

/-- R318: PIX mirrors that entry's, and otherwise reads zero. (DEDUCED: log 13.) -/
def pixNow (c : Core) : BitVec 32 := (pixEntry c).elim 0 fun r => BitVec.ofNat 32 r.pix

/-- The value of a partition's register, or its reset value on a core of no partition. (DEDUCED: log 20.) -/
def partReg (s : State) (reset : Word) (f : Fin 16 → Word) : Word :=
  match s.curPart with
  | some p => f p
  | none => reset

/-- R17: the value of a control register. -/
def readCtl (s : State) (n : Nat) : Word :=
  let c := s.cur.ctl
  if n = 0x000 then c.tcause.setWidth 64
  else if n = 0x001 then c.tpc.setWidth 64
  else if n = 0x002 then c.tword.setWidth 64
  else if n = 0x003 then (pixNow s.cur).setWidth 64
  else if n = 0x010 then c.launchid.setWidth 64
  else if n = 0x011 then c.unitid.setWidth 64
  else if n = 0x020 then c.fwshare.setWidth 64
  else if 0x030 ≤ n ∧ n ≤ 0x037 then c.brk[ix 8 (n - 0x030)]
  else if n = 0x040 then partReg s 0x00100000 fun p => s.parts[p].toklim.setWidth 64
  else if n = 0x041 then partReg s 0x00100000 fun p => s.parts[p].holdlim.setWidth 64
  else if n = 0x042 then partReg s 0 (fstat s)
  else if n = 0x043 then partReg s 0 fun p => BitVec.ofNat 64 (min 65535 (heldCount s p))
  else if n = 0x050 then c.rampstep.setWidth 64
  else if n = 0x051 then (forecastNow s c).setWidth 64
  else partReg s 0 fun p => s.parts[p].places[ix 64 (n - 0x100)]

/-- R17: the registers that a unit may read. -/
def unitReads (n : Nat) : Bool :=
  n == 0x003 || n == 0x010 || n == 0x011 || n == 0x040 || n == 0x051 || (decide (0x100 ≤ n) && decide (n ≤ 0x13F))

/-- R88: the registers that the firmware context may write. -/
def fwWrites (n : Nat) : Bool := n != 0x010 && n != 0x011

/-- R88: CRD. -/
def execCrd (h : Head) (d : BitVec 5) (n : BitVec 11) (s : State) : Out :=
  guarded h s fun s =>
    if s.fw || unitReads n.toNat then .next (s.wrS d (readCtl s n.toNat)) else raise s .priv

/-- The acting core's control registers change. -/
def modCtl (s : State) (f : Ctl → Ctl) : State := s.setCur { s.cur with ctl := f s.cur.ctl }

/-- Tiles cut to a number of steps; a step that was never fetched has bytes that the spec leaves open. (DEDUCED: log 13.) -/
def cutTiles (free n : Nat) (l : List (List Byte)) : List (List Byte) :=
  l.take n ++ (List.range (n - l.length)).map fun i => (List.range 528).map fun j => Config.undefinedByte free (528 * i + j)

/-- R318, R319: a captured word with its PIX written. A word that is not a long instruction keeps its zero. (DEDUCED: log 13.) -/
def setPix (free v : Nat) : Replay → Replay
  | .mem e c => .mem (if e.byElem then { e with pix := v } else e) c
  | .mma r c =>
    let n := min v r.steps
    .mma { r with pix := n, aTiles := cutTiles free n r.aTiles, bTiles := cutTiles (free + 1) n r.bTiles } c
  | .quant q c => .quant { q with pix := v } c

/-- R318: a CWR to PIX writes the entry whose fault is TCAUSE, and nothing where there is none. (DEDUCED: log 13.) -/
def writePix (s : State) (v : BitVec 32) : State :=
  let c := s.cur
  match pixEntry c with
  | some r =>
    let replay := c.replay.map fun q => if q.id = r.id then setPix s.free v.toNat q else q
    { s.setCur { c with replay := replay } with free := s.free + 2 }
  | none => s

/-- R25: whether a unit of a partition is running or Stopped on a core. -/
def unitsOn (s : State) (p : Fin 16) : Bool :=
  (List.finRange 512).any fun c => s.partOf c == some p && s.cores[c].st != .none

/-- R24: the fields of a place entry. -/
def placeEntry (x : Word) : Word := x &&& 0x800000000000003F

/-- R24, R25: a write of a place entry. None is PRIV. R351: a change while the TDI is locked moves it to ERROR. -/
def writePlace (s : State) (n : Nat) (x : Word) : Option State :=
  match s.curPart with
  | some p =>
    if unitsOn s p || (x.getLsbD 63 && s.partOfCluster (ix 64 (x.toNat % 64)) != some p) then none
    else
      let t := s.putPart p { s.parts[p] with places := vput s.parts[p].places (ix 64 n) (placeEntry x) }
      some (if s.parts[p].places[ix 64 n] = placeEntry x then t else tdiToError t p)
  | none => if x.getLsbD 63 then none else some s

/-- R322: a write of HEAD that neither passes TAIL nor goes backward, and what enters the space that it frees. -/
def writeFstat (s : State) (p : Fin 16) (h : BitVec 13) : State :=
  let part := s.parts[p]
  if (h - part.head).toNat ≤ (part.tail - part.head).toNat then
    releaseHeld 4096 (s.putPart p { part with head := h }) p
  else s

/-- A partition's register is written; a core of no partition has none. (DEDUCED: log 20.) -/
def modPart (s : State) (f : Part → Part) : State :=
  match s.curPart with
  | some p => s.putPart p (f s.parts[p])
  | none => s

/-- R328: the fields of a breakpoint. -/
def brkFields (x : Word) : Word := x &&& 0xFFFF0003FFFFFFFF

/-- R88: what a control register does when it is written. None is PRIV. -/
def writeCtl (s : State) (n : Nat) (x : Word) : Option State :=
  if n = 0x000 then some (modCtl s fun c => { c with tcause := x.setWidth 8 })
  else if n = 0x001 then some (modCtl s fun c => { c with tpc := x.setWidth 32 })
  else if n = 0x002 then some (modCtl s fun c => { c with tword := x.setWidth 2 })
  else if n = 0x003 then some (writePix s (x.setWidth 32))
  else if n = 0x020 then some (modCtl s fun c => { c with fwshare := x.setWidth 8 })
  else if 0x030 ≤ n ∧ n ≤ 0x037 then some (modCtl s fun c => { c with brk := vput c.brk (ix 8 (n - 0x030)) (brkFields x) })
  else if n = 0x040 then some (modPart s fun p => { p with toklim := x.setWidth 32 })
  else if n = 0x041 then some (modPart s fun p => { p with holdlim := x.setWidth 32 })
  else if n = 0x042 then some (match s.curPart with | some p => writeFstat s p (x.extractLsb' 16 13) | none => s)
  else if n = 0x043 then some s
  else if n = 0x050 then some (modCtl s fun c => { c with rampstep := x.setWidth 16 })
  else if n = 0x051 then some (modCtl s fun c => { c with forecast := x.setWidth 32, forecastAt := s.clk })
  else if 0x100 ≤ n then writePlace s (n - 0x100) x
  else none

/-- R88: CWR. -/
def execCwr (h : Head) (a : BitVec 5) (n : BitVec 11) (s : State) : Out :=
  guarded h s fun s =>
    if s.fw || n == 0x051 then
      match writeCtl s n.toNat (s.rs a) with
      | some t => .next t
      | none => raise s .priv
    else raise s .priv

/-! ### FENCE (R89) -/

/-- R89: the tokens that a scope waits for. -/
inductive Scope where
  | core | die | pkg | sys
deriving DecidableEq, Repr

/-- R89: whether a token's destination lies in a scope. -/
def inScope (s : State) (z : Scope) (t : TokEnt) : Bool :=
  match z with
  | .core => false
  | .die => t.pkg == ownPkg s && t.die == BitVec.ofNat 2 (s.core.val / 128)
  | .pkg => t.pkg == ownPkg s
  | .sys => true

/-- The first serial number that is not older than the word in hand. -/
def sinceNow (s : State) : Nat := if s.snap.isSome then s.since else s.serial

/-- R89: FENCE waits until every earlier access has performed and every earlier token in scope has landed. -/
def fenceScope (z : Scope) (h : Head) (s : State) : Out :=
  guarded h s fun s =>
    if !(olderEnts s).isEmpty || tokenOut s.cur s.fw (sinceNow s) (inScope s z) then stall s else .next s

/-- FENCE.CORE (R89). -/
def execFenceCore (h : Head) (s : State) : Out := fenceScope .core h s

/-- FENCE.CLUSTER (R89): no token lies in cluster scope. -/
def execFenceCluster (h : Head) (s : State) : Out := fenceScope .core h s

/-- FENCE.DIE (R89). -/
def execFenceDie (h : Head) (s : State) : Out := fenceScope .die h s

/-- FENCE.PKG (R89). -/
def execFencePkg (h : Head) (s : State) : Out := fenceScope .pkg h s

/-- FENCE.SYS (R89). -/
def execFenceSys (h : Head) (s : State) : Out := fenceScope .sys h s

/-! ### TRAP and TRET (R95, R96) -/

/-- R95: TRAP. Every other word of its bundle has taken effect; the trap names the bundle that would issue next. -/
def execTrap (h : Head) (k : BitVec 11) (s : State) : Out :=
  guarded h s fun s =>
    if s.fw then raise s .trapInsn
    else if s.redirect.isNone ∧ 2 ≤ s.last ∧ countPending s.ctx (olderEnts s) then stall s
    else
      let s := atBoundary (advance s) s.core
      let x := s.ctx
      let t := startTrap s s.core none { TrapInfo.at .trapInsn x.pc (BitVec.ofNat 2 x.word) 0 with tcode := k }
      .next { t with mark := .ended }

/-- R96: TRET. -/
def execTret (h : Head) (s : State) : Out :=
  guarded h s fun s =>
    if !s.fw then raise s .priv
    else if s.cur.st ≠ .stopped then raise s .illegalOp
    else if s.cur.heldRec.isSome then stall s
    else .next (returnFromTrap s s.core)

end Sys2Proof.Machine
end

