-- ==== Sys2Proof/Machine/Copies.lean ====
section
/-! DEFINITION. The copy words (R152 to R166), SEAL and UNSEAL (R347 to R349), and the copy engine's events. -/

namespace Sys2Proof.Machine

/-! ### Descriptor addresses (R163 steps 1 and 2) -/

/-- R163: a block of TM general use that the acting context reads: aligned, readable under R20, and in general use. -/
def tmBlock (s : State) (ea : Word) (align n : Nat) (f : Nat → Out) : Out :=
  if ea.toNat % align ≠ 0 then raiseAt s .misalign ea
  else match localCheck s s.core s.fw ea.toNat n .read with
  | .error k => raiseAt s k ea
  | .ok _ => if rowOf ea.toNat = .general then f ea.toNat else raiseAt s .unmapped ea

/-- R153, R202: an engine word that reads a block of TM waits for earlier stores to it and for earlier acquires. -/
def engineReads (s : State) (off n : Nat) : Bool := acqWaits s || storesMeet s off n || recordMeets s (.tm off) n

/-! ### Envelopes (R159, R163) -/

/-- An address range: its first and last byte, computed exactly. -/
structure Span where
  lo : Int
  hi : Int
deriving DecidableEq, Repr

/-- A range from a base and the offsets of its ends. -/
def Span.of (base : Nat) (o : Int × Int) : Span := ⟨(base : Int) + o.1, (base : Int) + o.2⟩

/-- The bytes of a range. -/
def Span.len (e : Span) : Nat := (e.hi + 1 - e.lo).toNat

/-- R163: whether a range wraps. -/
def Span.wraps (e : Span) : Bool := decide (e.lo < 0) || decide (2 ^ 64 ≤ e.hi)

/-- R163: where a range begins after place translation; an address that reaches nothing stands for itself. -/
def Span.key (s : State) (c : Fin 512) (e : Span) : Int :=
  if e.wraps then e.lo
  else match relocate s c (BitVec.ofInt 64 e.lo) with
  | some l => (locKey c l : Int)
  | none => e.lo

/-- R163 step 5: whether two ranges overlap after place translation. -/
def Span.meets (s : State) (c : Fin 512) (a b : Span) : Bool :=
  decide (a.key s c < b.key s c + b.len) && decide (b.key s c < a.key s c + a.len)

/-- R163 step 7: whether a range touches the barrier area. -/
def Span.touchesBarriers (e : Span) : Bool := decide (e.lo < 0x7C000) && decide (0x78000 ≤ e.hi)

/-- How a global range is checked: against the edge's leases at issue, or against the whole table for an emission. -/
abbrev GlobCheck := Word → Nat → Bool → Res Unit

/-- R68: the check of a global range at issue. -/
def issueGlob (s : State) : GlobCheck := fun va n w =>
  match checkAddr s va n (if w then .write else .read) with
  | .ok _ => .ok ()
  | .fail k => .fail k
  | .wait => .wait

/-- R172: the check of a global range at an emission. -/
def emitGlob (s : State) (c : Fin 512) (fw : Bool) : GlobCheck := fun va n w =>
  match globalVerdict s c fw va n w with
  | some k => .fail k
  | none => .ok ()

/-- R347, R349: the check of the end of a sealed copy that lies in the export window: a standing lease of its own. -/
def windowGlob (s : State) (c : Fin 512) (fw : Bool) : GlobCheck := fun va n w =>
  match (if fw then fwCheck s va n else leaseVerdict (leasesOf s (s.partOf c)) va n w) with
  | some k => .fail k
  | none => .ok ()

/-- R163 step 7: a range checked as one access. -/
def checkSpan (s : State) (c : Fin 512) (fw : Bool) (g : GlobCheck) (e : Span) (write : Bool) : Res Unit :=
  if e.wraps then .fail .straddle
  else
    let a : Word := BitVec.ofInt 64 e.lo
    if a.getLsbD 63 then g a e.len write
    else match localCheck s c fw a.toNat e.len (if write then .write else .read) with
    | .error k => .fail k
    | .ok _ => if e.touchesBarriers then .fail .barrierRange else .ok ()

/-- R163 step 8: the stamp's address. -/
def checkStamp (s : State) (c : Fin 512) (g : GlobCheck) (va : Word) : Res Unit :=
  if va.getLsbD 63 then g va 8 true
  else match rowOf va.toNat with
  | .ownCm => .ok ()
  | .place k => if (placeCluster s c k).isSome then .ok () else .fail .unmapped
  | _ => .fail .unmapped

/-- R224: whether the launch of a core's unit is marked pre-emptible. -/
def preemptible (s : State) (c : Fin 512) : Bool :=
  match s.partOf c with
  | some p => s.aux[p].window.entries.any fun e => e.launch == s.cores[c].ctl.launchid && e.pre
  | none => false

/-- Whether a variant reduces. -/
def Variant.reduces : Variant → Bool
  | .reduce _ _ => true
  | _ => false

/-- The first failure, or the first wait, of checks in order. -/
def firstFail : List (Res Unit) → Res Unit
  | [] => .ok ()
  | .ok () :: rest => firstFail rest
  | r :: _ => r

/-- The address that a failed check of a copy names: the range of the first check that fails. -/
def failedAt (l : List (Res Unit × Word)) : Word :=
  match l.find? fun x => x.1 != .ok () with
  | some x => x.2
  | none => 0

/-- R163 steps 7 and 8, with the address that each check names: of step 7 the whole source before the destination, and of each first
whether it wraps. (DESIGN CHOICE: log 44.) -/
def spanChecks (s : State) (c : Fin 512) (fw : Bool) (gs gd : GlobCheck) (src dst : Span) (stamp : Option Word) :
    List (Res Unit × Word) :=
  [(checkSpan s c fw gs src false, BitVec.ofInt 64 src.lo), (checkSpan s c fw gd dst true, BitVec.ofInt 64 dst.lo)] ++
    (match stamp with
     | some va => [(checkStamp s c gd va, va)]
     | none => [])

/-- The source and destination ranges of a copy descriptor (R159). -/
def copySrc (v : Variant) (d : List Byte) : Span := .of (dSrc d) (srcSpan v d)
def copyDst (v : Variant) (d : List Byte) : Span := .of (dDst d) (dstSpan v d)

/-- R163 steps 5 and 6: COPY_SHAPE. -/
def overlapFault (s : State) (c : Fin 512) (fw : Bool) (v : Variant) (d : List Byte) : Bool :=
  (copySrc v d).meets s c (copyDst v d) || (v.reduces && decide (256 < boxCount v d) && !fw && preemptible s c)

/-- The stamp address of a variant. -/
def stampOf (v : Variant) (d : List Byte) : Option Word :=
  if v = .stamp then some (BitVec.ofNat 64 (dStampAddr d)) else none

/-! ### Starting a copy -/

/-- The location of an address that has passed its checks. -/
def locOf (s : State) (c : Fin 512) (a : Nat) : Loc := (relocate s c (BitVec.ofNat 64 a)).getD (.glob (BitVec.ofNat 64 a))

/-- R159: the guard entries of a copy. -/
def copyNeeds (s : State) (c : Fin 512) (src dst : Span) : List (Nat × Nat × Bool) :=
  let at_ (e : Span) : Option Nat := (relocate s c (BitVec.ofInt 64 e.lo)).bind (scratch c)
  guardNeeds [(at_ src, src.len, false), (at_ dst, dst.len, true)]

/-- R160: the copy slot that a new copy takes: the lowest free one. (DESIGN CHOICE: log 44.) -/
def freeCopy (c : Core) : Option (Fin 256) := (List.finRange 256).find? fun i => c.copies[i].isNone

/-- R159, R160, R313: a copy enters the engine, if the guard and the slots can take it: its handle. The places of its addresses,
the stamp's among them, are taken now. -/
def startCopy (s : State) (c : Fin 512) (fw nest : Bool) (kind : CopyKind) (d : List Byte) (bar : Option (BitVec 11))
    (src dst : Span) (srcAt dstAt : Nat) (stamp : Option Word) (boxes : Nat) (nonce : Word) : Option (State × BitVec 16) :=
  let core := s.cores[c]
  let needs := copyNeeds s c src dst
  match freeCopy core with
  | none => none
  | some slot =>
    if !guardOk core needs then none
    else
      let gen := nextGen core.copyGens[slot]
      let k : Copy :=
        { id := s.serial, gen := gen, kind := kind, desc := d, barrier := bar, srcLoc := locOf s c srcAt
          dstLoc := locOf s c dstAt, stampLoc := stamp.map fun va => locOf s c va.toNat, boxes := boxes, credited := [], bytes := 0
          recPos := [0], runs := [], nonce := nonce, nest := nest, fw := fw, held := false, abandoned := false, cancelled := false
          fault := none, faultAddr := 0, faultBox := 0 }
      let core := { core with copies := vput core.copies slot (some k), copyGens := vput core.copyGens slot gen,
                              cpyAt := if nest then core.cpyAt else some s.clk }
      some ({ s.putCore c (takeGuard core s.serial fw needs) with serial := s.serial + 1 }, gen ++ BitVec.ofNat 8 slot.val)

/-- R163 step 3, R371: the barrier that a copy names. None is BARRIER_RANGE. -/
def copyBarrier (s : State) (c : Fin 512) (fw : Bool) (x : Word) : Option (Option (BitVec 11)) :=
  if x = BitVec.allOnes 64 then some none
  else if x.toNat < barrierMax fw then
    let b := getBar s c fw x.toNat
    if b.v && !b.ovf then some (some (BitVec.ofNat 11 x.toNat)) else none
  else none

/-- R163: CPY2D of a variant. (DEDUCED: log 11.) -/
def issueCopy (f k : BitVec 3) (v : Variant) (h : Head) (d a b : BitVec 5) (s : State) : Out :=
  guarded h s fun s =>
    tmBlock s (s.rs a) 64 64 fun off =>
      if engineReads s off 64 then stall s
      else
        let desc := s.load (tmAddr s.core off) 64
        match copyBarrier s s.core s.fw (s.rs b) with
        | none => raise s .barrierRange
        | some bar =>
          match descFault s s.core v desc with
          | some e => raise s e
          | none =>
            if overlapFault s s.core s.fw v desc then raise s .copyShape
            else
              let checks := spanChecks s s.core s.fw (issueGlob s) (issueGlob s) (copySrc v desc) (copyDst v desc) (stampOf v desc)
              onRes (firstFail (checks.map (·.1))) s (failedAt checks) fun _ =>
                match startCopy s s.core s.fw false (.cpy f k) desc bar (copySrc v desc) (copyDst v desc) (dSrc desc)
                    (dDst desc) (stampOf v desc) (boxCount v desc) 0 with
                | some (s, handle) => .next (s.wrS d (handle.setWidth 64))
                | none => stall s

/-- CPY2D (R163, R164). -/
def execCpy2d (h : Head) (d : BitVec 5) (a : BitVec 5) (b : BitVec 5) (s : State) : Out := issueCopy 0 0 .plain h d a b s

/-- CPY2D.CVT.RELAY (R165). -/
def execCpy2dCvtRelay (h : Head) (d : BitVec 5) (a : BitVec 5) (b : BitVec 5) (s : State) : Out :=
  issueCopy 1 0 .relay h d a b s

/-- CPY2D.CVT.QNT (R165). -/
def execCpy2dCvtQnt (h : Head) (d : BitVec 5) (a : BitVec 5) (b : BitVec 5) (s : State) : Out :=
  issueCopy 1 1 .quant h d a b s

/-- CPY2D.CVT.ZEXP (R165). -/
def execCpy2dCvtZexp (h : Head) (d : BitVec 5) (a : BitVec 5) (b : BitVec 5) (s : State) : Out :=
  issueCopy 1 2 .zexp h d a b s

/-- CPY2D.RED.ADD.F32 (R165). -/
def execCpy2dRedAddF32 (h : Head) (d : BitVec 5) (a : BitVec 5) (b : BitVec 5) (s : State) : Out :=
  issueCopy 2 0 (.reduce true 0) h d a b s

/-- CPY2D.RED.ADD.BF16 (R165). -/
def execCpy2dRedAddBf16 (h : Head) (d : BitVec 5) (a : BitVec 5) (b : BitVec 5) (s : State) : Out :=
  issueCopy 2 1 (.reduce false 0) h d a b s

/-- CPY2D.RED.MAX.F32 (R165). -/
def execCpy2dRedMaxF32 (h : Head) (d : BitVec 5) (a : BitVec 5) (b : BitVec 5) (s : State) : Out :=
  issueCopy 2 2 (.reduce true 2) h d a b s

/-- CPY2D.RED.MIN.F32 (R165). -/
def execCpy2dRedMinF32 (h : Head) (d : BitVec 5) (a : BitVec 5) (b : BitVec 5) (s : State) : Out :=
  issueCopy 2 3 (.reduce true 3) h d a b s

/-- CPY2D.STAMP (R165). -/
def execCpy2dStamp (h : Head) (d : BitVec 5) (a : BitVec 5) (b : BitVec 5) (s : State) : Out :=
  issueCopy 3 0 .stamp h d a b s

/-! ### SEAL and UNSEAL (R349) -/

def sSrc (d : List Byte) : Nat := fieldAt d 0 8
def sDst (d : List Byte) : Nat := fieldAt d 8 8
def sLen (d : List Byte) : Nat := fieldAt d 16 4

/-- R347: how many chunks a length has, and how long its image is. -/
def sealChunks (n : Nat) : Nat := (n + 4095) / 4096
def imageLen (n : Nat) : Nat := 64 + n + 16 * sealChunks n

/-- The range of `n` bytes from an address. -/
def Span.bytes (a n : Nat) : Span := ⟨(a : Int), (a : Int) + n - 1⟩

/-- R349: COPY_SHAPE of a seal descriptor. -/
def sealShapeOk (d : List Byte) : Bool :=
  fieldAt d 32 32 == 0 && fieldAt d 20 4 == 0 && sLen d % 64 == 0 && decide (64 ≤ sLen d) && decide (sLen d ≤ 2 ^ 28)

/-- R349: CAP_PERM: the window's end must lie inside the export window, the other must not touch it, and a seal secret
must be provisioned. -/
def sealPermOk (s : State) (p : Fin 16) (win other : Span) : Bool :=
  let part := s.parts[p]
  let lo : Int := (part.exportLo.toNat : Int)
  let hi : Int := lo + part.exportLen - 1
  part.secret.isSome && decide (lo ≤ win.lo) && decide (win.hi ≤ hi) && !(decide (lo ≤ other.hi) && decide (other.lo ≤ hi))

/-- R348, R349: SEAL and UNSEAL. -/
def issueSeal (open_ : Bool) (h : Head) (d a b : BitVec 5) (s : State) : Out :=
  guarded h s fun s =>
    tmBlock s (s.rs a) 64 64 fun off =>
      if engineReads s off 64 then stall s
      else
        let desc := s.load (tmAddr s.core off) 64
        match copyBarrier s s.core s.fw (s.rs b) with
        | none => raise s .barrierRange
        | some bar =>
          match s.curPart with
          | none => raise s .priv
          | some p =>
            if !s.parts[p].prot then raise s .priv
            else if !sealShapeOk desc then raise s .copyShape
            else if sSrc desc % 64 ≠ 0 ∨ sDst desc % 64 ≠ 0 then raise s .misalign
            else
              let n := sLen desc
              let src := Span.bytes (sSrc desc) (if open_ then imageLen n else n)
              let dst := Span.bytes (sDst desc) (if open_ then n else imageLen n)
              if !sealPermOk s p (if open_ then src else dst) (if open_ then dst else src) then raise s .capPerm
              else if src.meets s s.core dst then raise s .copyShape
              else
                let win := windowGlob s s.core s.fw
                let gs := if open_ then win else issueGlob s
                let gd := if open_ then issueGlob s else win
                let checks := spanChecks s s.core s.fw gs gd src dst none
                onRes (firstFail (checks.map (·.1))) s (failedAt checks) fun _ =>
                  let nonce := if open_ then 0 else Config.random s.hub.drawn
                  match startCopy s s.core s.fw false (if open_ then .unsealing else .sealing) desc bar src dst (sSrc desc)
                      (sDst desc) none (sealChunks n) nonce with
                  | some (s, handle) =>
                    .next ({ s with hub := { s.hub with drawn := s.hub.drawn + 1 } }.wrS d (handle.setWidth 64))
                  | none => stall s

/-- SEAL (R348). -/
def execSealChunks (h : Head) (d : BitVec 5) (a : BitVec 5) (b : BitVec 5) (s : State) : Out := issueSeal false h d a b s

/-- UNSEAL (R348). -/
def execUnsealChunks (h : Head) (d : BitVec 5) (a : BitVec 5) (b : BitVec 5) (s : State) : Out := issueSeal true h d a b s

/-! ### CPYCAN (R166) -/

/-- R166: the copy of the acting context that a handle names. (DEDUCED: log 12.) -/
def handleCopy (s : State) (x : BitVec 16) : Option (Fin 256 × Copy) :=
  let i := ix 256 (x.toNat % 256)
  match s.cur.copies[i] with
  | some k => if x ≠ 0 ∧ k.gen = x.extractLsb' 8 8 ∧ !k.nest ∧ k.fw = s.fw then some (i, k) else none
  | none => none

/-- R166, R202: CPYCAN. The copy starts no further box; once none is in progress the boxes that are left are credited, and it is gone. (DEDUCED: log 12.) -/
def execCpycan (h : Head) (a : BitVec 5) (s : State) : Out :=
  guarded h s fun s =>
    if acqWaits s then stall s
    else match handleCopy s ((s.rs a).setWidth 16) with
    | none => .next s
    | some (slot, k) =>
      if k.runs.isEmpty && creditFree s s.core slot k then .next (endCancel s s.core slot k)
      else stall (putCopy s s.core slot (some { k with cancelled := true }))

/-! ### The copy engine (R160, R202) -/

/-- R160: what the engine may do next for a copy: start a box, send a part to another package, perform a part, go on from a phase that
is done, or end a copy that CPYCAN has cancelled. -/
inductive CopyTurn where
  | start (b : Nat)
  | away (r : BoxRun) (p : Piece)
  | part (q : Req)
  | phase (r : BoxRun)
  | cancel
deriving DecidableEq, Repr

/-- R157, R160: whether a run has nothing left to do in its phase, and may go on. -/
def phaseDue (s : State) (c : Fin 512) (slot : Fin 256) (k : Copy) (r : BoxRun) : Bool :=
  r.parts.isEmpty && r.away.isEmpty && (r.dead || !r.writing || r.num == k.stampBox || creditFree s c slot k)

/-- R160: what may happen next to the runs of a copy that `f` names. -/
def runTurns (s : State) (c : Fin 512) (slot : Fin 256) (k : Copy) (f : BoxRun → Bool) : List CopyTurn :=
  ((k.runs.filter f).flatMap fun r => (((boxParts s c k r).filter fun p => p.loc.remote s).map fun p => CopyTurn.away r p) ++
      if phaseDue s c slot k r then [.phase r] else []) ++
    (ownTurns s c ((copyReqs s c slot).filter fun q => match q.who with
      | .box _ _ _ r => f r
      | _ => false)).map .part

/-- R160, R166: what may happen next to the boxes of a copy. -/
def boxTurns (s : State) (c : Fin 512) (slot : Fin 256) (k : Copy) : List CopyTurn :=
  (boxToStart s.cores[c] k).toList.map .start ++ runTurns s c slot k (fun r => r.num != k.stampBox) ++
    if k.cancelled && k.runs.isEmpty && creditFree s c slot k then [.cancel] else []

/-- A turn of the engine on a copy. -/
def takeTurn (s : State) (c : Fin 512) (slot : Fin 256) (k : Copy) : CopyTurn → State
  | .start b => startBox s c slot k b
  | .away r p => sendPart s c slot k r p
  | .part q => q.run s
  | .phase r => endPhase s c slot k r
  | .cancel => endCancel s c slot k

/-- R160: COPY_BOX: the copy engine does something for the boxes of a copy, whichever of the things that it may do. (DEDUCED: log 12.) -/
def execCopyBox (core : Fin 512) (slot : Fin 256) (s : State) : Out :=
  match s.cores[core].copies[slot] with
  | none => .next s
  | some k =>
    match pickFrom (Config.partPick s.tick) (if k.held || k.abandoned then [] else boxTurns s core slot k) with
    | some t => .next (takeTurn s core slot k t)
    | none => .next s

/-- R161, R165: COPY_STAMP: every box is credited, and the stamp is written; the copy ends once it is visible. -/
def execCopyStamp (core : Fin 512) (slot : Fin 256) (s : State) : Out :=
  match s.cores[core].copies[slot] with
  | none => .next s
  | some k =>
    if stampDue s.cores[core] k then .next (startStamp s core slot k)
    else match pickFrom (Config.partPick s.tick) (if k.held || k.abandoned then [] else
        runTurns s core slot k fun r => r.num == k.stampBox) with
    | some t => .next (takeTurn s core slot k t)
    | none => .next s

end Sys2Proof.Machine
end

