-- ==== Sys2Proof/Machine/Trust.lean ====
section
/-! DEFINITION. Keys (R331, R332, R335, R337), scrubbing (R350), measurements (R389), image slots (R383 to R390), and
errors of the memory (R341, R342, R408). -/

namespace Sys2Proof.Machine

/-! ### Key slots (R331, R332) -/

/-- A key slot is replaced. -/
def putKey (s : State) (i : Fin 64) (k : KeySlot) : State := { s with hub := { s.hub with keys := vput s.hub.keys i k } }

/-- R331: every slot of a partition becomes FREE. -/
def destroyKeys (s : State) (p : Fin 16) : State :=
  { s with hub := { s.hub with keys := s.hub.keys.map fun k => if k.st != .free && k.part == p then KeySlot.zero else k } }

/-- R332: the fields of a request. -/
def krotClass (x : Word) : BitVec 2 := x.extractLsb' 4 2
def krotPart (x : Word) : Fin 16 := ix 16 x.toNat

/-- R332: whether a request is malformed. QUERY does not use CLASS. -/
def krotBad (x y : Word) (query : Bool) : Bool :=
  x.extractLsb' 10 54 != 0 || x.extractLsb' 6 2 != 0 || decide (63 < y.toNat) || (!query && decide (2 ≤ (krotClass x).toNat))

/-- The tenant regions of a partition on every die: die and region number. -/
def tenantRegions (s : State) (p : Fin 16) : List (Fin 4 × Nat) :=
  (List.finRange 4).flatMap fun d =>
    s.dies[d].regions.filterMap fun r => if r.part == p && r.use == .tenant then some (d, r.num) else none

/-- R337: the streams of a partition start again under a new epoch. -/
def restartStreams (s : State) (p : Fin 16) (epoch : Bool) : State :=
  { s with hub := { s.hub with streams := s.hub.streams.map fun x =>
      if x.part = p then { x with epoch := epoch, iv := 0, exhausted := false } else x } }

/-- R331: a fresh key in a slot; the class's ACTIVE key of the partition, if any, becomes RETIRING. -/
def installKey (s : State) (i : Fin 64) (p : Fin 16) (cls : BitVec 2) : State :=
  let old := activeSlot s p cls
  let epoch := match old with
    | some k => !k.epoch
    | none => false
  let left := if cls = 0 then (tenantRegions s p).length else 0
  let keys := s.hub.keys.map fun k =>
    if k.st == .active && k.cls == cls && k.part == p then { k with st := .retiring, left := left } else k
  let keys := vput keys i ⟨.active, cls, p, epoch, s.hub.nextKey, 0⟩
  let s := { s with hub := { s.hub with keys := keys, nextKey := s.hub.nextKey + 1 } }
  if cls = 1 then restartStreams s p epoch else s

/-- R331, R332: INSTALL: the result code, and the state. -/
def krotInstall (s : State) (x y : Word) : Word × State :=
  let p := krotPart x
  let cls := krotClass x
  if krotBad x y false then (3, s)
  else if s.hub.keys[ix 64 y.toNat].st ≠ .free then (2, s)
  else if s.hub.keys.toList.any fun k => (k.st == .retiring || k.st == .drained) && k.cls == cls && k.part == p then (1, s)
  else (0, installKey s (ix 64 y.toNat) p cls)

/-- R332: KROT INSTALL. -/
def execKrotInstall (h : Head) (d : BitVec 5) (a : BitVec 5) (b : BitVec 5) (s : State) : Out :=
  guarded h s fun s =>
    let (r, t) := krotInstall s (s.rs a) (s.rs b)
    .next (t.wrS d r)

/-- R332: the code of a slot's state. -/
def keyCode : KeySt → Nat
  | .free => 0 | .active => 1 | .retiring => 2 | .drained => 3

/-- R332: the status of a slot. -/
def keyStatus (k : KeySlot) : Word :=
  BitVec.ofNat 64 (keyCode k.st + 8 * k.epoch.toNat + 2 ^ 8 * k.part.val + 2 ^ 12 * k.cls.toNat +
    2 ^ 16 * (if k.st = .retiring ∧ k.cls = 0 then k.left % 2 ^ 32 else 0))

/-- R332: KROT QUERY. -/
def execKrotQuery (h : Head) (d : BitVec 5) (a : BitVec 5) (b : BitVec 5) (s : State) : Out :=
  guarded h s fun s =>
    .next (s.wrS d (if krotBad (s.rs a) (s.rs b) true then BitVec.allOnes 64 else keyStatus s.hub.keys[ix 64 (s.rs b).toNat]))

/-- R332: KROT RETIRE. -/
def execKrotRetire (h : Head) (d : BitVec 5) (a : BitVec 5) (b : BitVec 5) (s : State) : Out :=
  guarded h s fun s =>
    let i := ix 64 (s.rs b).toNat
    let k := s.hub.keys[i]
    if krotBad (s.rs a) (s.rs b) false then .next (s.wrS d 3)
    else if k.st ≠ .drained ∨ k.part ≠ krotPart (s.rs a) then .next (s.wrS d 2)
    else .next ((putKey s i KeySlot.zero).wrS d 0)

/-- R332: KROT DESTROY. -/
def execKrotDestroy (h : Head) (d : BitVec 5) (a : BitVec 5) (b : BitVec 5) (s : State) : Out :=
  guarded h s fun s =>
    if krotBad (s.rs a) (s.rs b) false ∨ s.rs b ≠ 0 then .next (s.wrS d 3)
    else .next ((destroyKeys s (krotPart (s.rs a))).wrS d 0)

/-- R335: whether a region has a page whose KSEL still names another key than the ACTIVE one. -/
def regionOld (s : State) (d : Fin 4) (r : Nat) (epoch : Bool) : Bool :=
  (List.range 512).any fun i => (leafOf s.dies[d] (512 * r + i)).ksel != epoch

/-- R335: the pages of a region are swept to the ACTIVE key: every block that opens is re-encrypted with its counters kept,
and KSEL flips. (DEDUCED: log 21.) -/
def sweepRegion (s : State) (d : Fin 4) (r : Nat) (p : Fin 16) (a : KeySlot) : State :=
  let die := s.dies[d]
  let tags := die.tags.map fun t =>
    if t.block / 32768 == r && (leafOf die (t.block / 64)).ksel != a.epoch && blockOpens s d t.block (.mem p 0) t.va then
      { t with key := a.serial }
    else t
  let die := (List.range 512).foldl (fun e i =>
    let l := leafOf e (512 * r + i)
    if l.ksel = a.epoch then e else setLeaf e (512 * r + i) { l with ksel := a.epoch }) { die with tags := tags }
  s.putDie d die

/-- R335: MEM_SWEEP: the next region of a partition whose MEM key is RETIRING is swept. -/
def execMemSweep (part : Fin 16) (s : State) : Out :=
  let retiring (k : KeySlot) : Bool := k.st == .retiring && k.cls == 0 && k.part == part
  match activeSlot s part 0, s.hub.keys.toList.any retiring with
  | some a, true =>
    let old := (tenantRegions s part).filter fun (d, r) => regionOld s d r a.epoch
    let s := match old with
      | (d, r) :: _ => sweepRegion s d r part a
      | [] => s
    let keys := s.hub.keys.map fun k => if retiring k then { k with left := old.length - 1 } else k
    .next { s with hub := { s.hub with keys := keys } }
  | _, _ => .next s

/-- R331: whether something sealed under a partition's XPORT key of an epoch is undelivered: a request that has left and has had no
answer, or a store that the hold queue keeps sealed. (DEDUCED: log 21.) -/
def sealedOut (s : State) (p : Fin 16) (epoch : Bool) : Bool :=
  (s.fabric.flying.any fun x => x.1 == p && x.2.epoch == epoch) || s.fabric.hold.toList.any fun h => match h with
    | some e => e.part == p && e.msg.epoch == epoch
    | none => false

/-- R331: KEY_DRAINED: a RETIRING key that nothing is under any more becomes DRAINED. -/
def execKeyDrained (slot : Fin 64) (s : State) : Out :=
  let k := s.hub.keys[slot]
  if k.st ≠ .retiring then .next s
  else if k.cls = 0 then
    match activeSlot s k.part 0 with
    | some a =>
      if (tenantRegions s k.part).any fun (d, r) => regionOld s d r a.epoch then .next s
      else .next (putKey s slot { k with st := .drained, left := 0 })
    | none => .next s
  else if sealedOut s k.part k.epoch then .next s
  else .next (putKey s slot { k with st := .drained })

/-! ### SCRUB (R350) -/

/-- R350: whether a page of a region is pinned, or has a translation cached in a slice of the die. (DEDUCED: log 21.) -/
def regionInUse (s : State) (d : Fin 4) (r : Nat) : Bool :=
  let lo := r * 2 ^ 21
  let hits (t : TlbEnt) : Bool := rangesMeet lo (2 ^ 21) (leafAddr t.entry) (pageSize t.size)
  let pinned (e : PinEnt) : Bool := e.lcnt != 0 && match walk s d e.part e.base with
    | .leaf l size => rangesMeet lo (2 ^ 21) (leafAddr l) (pageSize size)
    | _ => false
  linesIn s d lo (2 ^ 21) || s.dies[d].slices.toList.any fun sl => sl.l1.any hits || sl.l2.any hits || sl.pins.any pinned

/-- R340, R341: a node of levels 0 to 3 is written to HBM: its parent's counter for it advances first, and the parent has changed. -/
def writeNode (d : Die) (level node : Nat) : Die :=
  let key := (level, node)
  let n := (d.nodes.lookup key).getD 0
  let d := { d with
    nodes := (key, (n + 1) % 2 ^ 56) :: d.nodes.filter fun e => e.1 != key
    changed := d.changed.filter (· != key) }
  if level < 3 then touchNode d (level + 1) (node / 8) else d

/-- R350: levels 0 to 3 of a region are written with fresh tags, level by level. -/
def rebuildNodes (d : Die) (r : Nat) : Die :=
  let all (level n : Nat) (d : Die) : Die := (List.range n).foldl (fun d i => writeNode d level (n * r + i)) d
  all 3 1 (all 2 8 (all 1 64 (all 0 512 d)))

/-- R350: one region is scrubbed: Z = 1, MAJOR advanced, every minor and CTAG clear, and no poison. (DEDUCED: log 21.) -/
def scrubRegion (s : State) (d : Fin 4) (r : Nat) : State :=
  let die := s.dies[d]
  let die := { die with
    tags := die.tags.filter fun t => t.block / 32768 != r
    badRegions := die.badRegions.filter (· != r)
    badPages := die.badPages.filter fun p => p / 512 != r
    badBlocks := die.badBlocks.filter fun b => b / 32768 != r
    unscrubbed := die.unscrubbed.filter (· != r) }
  let die := (List.range 512).foldl (fun e i =>
    let l := leafOf e (512 * r + i)
    setLeaf e (512 * r + i) { l with minors := Vector.replicate 64 0, z := true, major := l.major + 1 }) die
  (s.putDie d (rebuildNodes die r)).zero (hbmAddr d (r * 2 ^ 21)) (2 ^ 21)

/-- R350: regions are scrubbed in order, up to the first that is in use: how many, and the state. -/
def scrubRun (s : State) (d : Fin 4) (r done : Nat) : Nat → Nat × State
  | 0 => (done, s)
  | n + 1 => if regionInUse s d r then (done, s) else scrubRun (scrubRegion s d r) d (r + 1) (done + 1) n

/-- R350: SCRUB kind 0; kind 3 writes all ones. (DEDUCED: log 21.) -/
def execScrubRegions (h : Head) (d : BitVec 5) (a : BitVec 5) (b : BitVec 5) (s : State) : Out :=
  guarded h s fun s =>
    let x := s.rs a
    let first := x.toNat / 2 ^ 5 % 2 ^ 15
    let n := (s.rs b).toNat
    if x.extractLsb' 0 2 ≠ 0 ∨ x.extractLsb' 20 44 ≠ 0 ∨ 28671 < first ∨ n = 0 ∨ 28672 < first + n then
      .next (s.wrS d (BitVec.allOnes 64))
    else
      let (k, t) := scrubRun s (ix 4 (x.toNat / 4)) (x.toNat / 16 % 2 * 2 ^ 15 + first) 0 n
      .next (t.wrS d (BitVec.ofNat 64 k))

/-- R350: an engine's lines are dropped unwritten: memory holds what it held before them. (DEDUCED: log 21.) -/
def loseLines (s : State) (k : Fin 64) : State :=
  s.clusters[k].lines.foldl (fun s l => l.marks.foldl (fun s g => s.storeCap (16 * g) (s.load (16 * g) 16)) (s.store l.addr l.behind)) s

/-- R262, R350: SCRUB kind 1: the core's own cluster; its shard is emptied with the overflow records for it. -/
def scrubCluster (s : State) (k : Fin 64) : State :=
  let s := loseLines s k
  (s.putCluster k { s.clusters[k] with lines := [], shard := [], overflow := [] }).zero (cmAddr k 0) (2 ^ 23)

/-- SCRUB of a cluster (R350). -/
def execScrubCluster (h : Head) (d : BitVec 5) (a : BitVec 5) (b : BitVec 5) (s : State) : Out :=
  guarded h s fun s =>
    let _ := b
    if s.rs a ≠ 1 then .next (s.wrS d (BitVec.allOnes 64)) else .next ((scrubCluster s (clusterOf s.core)).wrS d 0)

/-- A core without what its unit context holds in the core's shared tables. -/
def dropUnit (c : Core) : Core :=
  { c with
    unit := Ctx.zero
    tokens := c.tokens.map fun t => if t.any (!·.fw) then none else t
    copies := c.copies.map fun k => if k.any (!·.fw) then none else k
    guard := c.guard.filter (·.fw)
    replay := []
    pend := ⟨[], false, false⟩
    save := none
    native := none }

/-- R350: SCRUB kind 2: the core's unit context. -/
def scrubCore (s : State) (c : Fin 512) : State :=
  let core := dropUnit s.cores[c]
  let core := { core with ctl := { core.ctl with brk := Vector.replicate 8 0, forecast := 0 }, codeBase := 0, codePackets := 0 }
  ((s.putCore c core).zero (tmAddr c 0) 0x7E000).zero (tmAddr c 0x7FF00) 0x100

/-- SCRUB of a core (R350). (DEDUCED: log 21.) -/
def execScrubCore (h : Head) (d : BitVec 5) (a : BitVec 5) (b : BitVec 5) (s : State) : Out :=
  guarded h s fun s =>
    let _ := b
    if s.rs a ≠ 2 then .next (s.wrS d (BitVec.allOnes 64))
    else if s.cur.st ≠ .none then .next (s.wrS d 1)
    else .next ((scrubCore s s.core).wrS d 0)

/-! ### MEXT and SIGCHK (R384, R388, R389) -/

/-- R389: a measurement is extended by 64 bytes. -/
def extendPart (s : State) (p : Fin 16) (bs : List Byte) : State :=
  let m := s.hub.measures
  let v := sha512 (leBytes 64 m.part[p].toNat ++ bs)
  { s with hub := { s.hub with measures := { m with part := vput m.part p v } } }

/-- R389: MEXT. -/
def execMext (h : Head) (d : BitVec 5) (a : BitVec 5) (b : BitVec 5) (s : State) : Out :=
  guarded h s fun s =>
    let ea := s.rs b
    if ea.toNat % 64 ≠ 0 then raiseAt s .misalign ea
    else match localCheck s s.core s.fw ea.toNat 64 .read with
    | .error k => raiseAt s k ea
    | .ok _ =>
      if rowOf ea.toNat ≠ .general ∧ rowOf ea.toNat ≠ .work then raiseAt s .unmapped ea
      else if engineReads s ea.toNat 64 then stall s
      else
        let x := (s.rs a).toNat
        if 0x10 ≤ x ∧ x ≤ 0x1F then
          .next ((extendPart s (ix 16 x) (s.load (tmAddr s.core ea.toNat) 64)).wrS d 0)
        else .next (s.wrS d 1)

/-- R384: the header of an image slot. -/
def imgField (s : State) (slot : Bool) (o n : Nat) : Nat := s.loadNat (imageAddr slot o) n
def imgSvn (s : State) (slot : Bool) : BitVec 32 := BitVec.ofNat 32 (imgField s slot 8 4)

/-- R384: the bytes of an image before its signature. -/
def imgBody (s : State) (slot : Bool) : Nat := 64 + (12 * imgField s slot 16 4 + 63) / 64 * 64

/-- R384: whether a header holds and the image lies in its slot. -/
def imgHeaderOk (s : State) (slot : Bool) : Bool :=
  imgField s slot 0 4 == 0x49575A44 && decide (1 ≤ imgField s slot 16 4) && decide (imgField s slot 12 4 < imgField s slot 16 4) &&
    imgField s slot 20 44 == 0 && decide (imgBody s slot + 512 ≤ 2 ^ 20)

/-- R353, R386: the SHA-512 of a slot's image, with its signature. -/
def imageDigest (s : State) (slot : Bool) : BitVec 512 := sha512 (s.load (imageAddr slot 0) (imgBody s slot + 512))

/-- R388: whether the signature of an image verifies. (PRESUMED: log 6; DEDUCED: log 22.) -/
def imgSigOk (s : State) (slot : Bool) : Bool :=
  Config.sigOk (sha512 (s.load (imageAddr slot 0) (imgBody s slot))) (s.load (imageAddr slot (imgBody s slot)) 512)

/-- R383: the VERIFIED bit of a slot. -/
def Images.verified (i : Images) (slot : Bool) : Bool := if slot then i.verified1 else i.verified0
def Images.setVerified (i : Images) (slot v : Bool) : Images := if slot then { i with verified1 := v } else { i with verified0 := v }

/-- The image slots change. -/
def modImages (s : State) (f : Images → Images) : State := { s with hub := { s.hub with images := f s.hub.images } }

/-- R388: SIGCHK. (DEDUCED: log 22.) -/
def execSigchk (h : Head) (d : BitVec 5) (a : BitVec 5) (s : State) : Out :=
  guarded h s fun s =>
    let x := (s.rs a).toNat
    let slot := x == 1
    if 1 < x ∨ slot = s.hub.images.active then .next (s.wrS d 3)
    else if !imgHeaderOk s slot then .next (s.wrS d 1)
    else if !imgSigOk s slot then .next (s.wrS d 2)
    else .next ((modImages s fun i => i.setVerified slot true).wrS d 0)

/-! ### SLOTSW (R386, R387, R390) -/

/-- R390: the fields of a request. -/
def swNbeat (x : Word) : BitVec 4 := x.extractLsb' 20 4
def swHblog (x : Word) : BitVec 8 := x.extractLsb' 8 8
def swSlot (x : Word) : BitVec 4 := x.extractLsb' 4 4
def swReserved (x : Word) : Bool := x.extractLsb' 24 40 != 0 || x.extractLsb' 16 4 != 0

/-- R390: SLOTSW acts as a FENCE.SYS first; a request with a nonzero reserved bit or an OP above 4 gives result 5. -/
def slotsw (h : Head) (a d : BitVec 5) (s : State) (f : State → Word → Out) : Out :=
  guarded h s fun s =>
    if !(olderEnts s).isEmpty || tokenOut s.cur s.fw (sinceNow s) (fun _ => true) then stall s
    else
      let x := s.rs a
      if swReserved x ∨ 5 ≤ x.toNat % 16 then .next (s.wrS d 5) else f s x

/-- R390: the fields of SWITCH are zero for the other operations. -/
def swPlain (x : Word) : Bool := swNbeat x == 0 && swHblog x == 0 && swSlot x == 0

/-- R390: the status of QUERY. -/
def imageStatus (i : Images) : Word :=
  BitVec.ofNat 64 (2 ^ 32 * i.csvn.toNat + 2 ^ 20 * (i.beats.toNat % 16) + 2 ^ 11 * i.trial.toNat + 2 ^ 10 * i.quiesced.toNat +
    2 ^ 9 * i.verified1.toNat + 2 ^ 8 * i.verified0.toNat + 2 ^ 4 * i.active.toNat)

/-- SLOTSW QUERY (R390). -/
def execSlotswQuery (h : Head) (d : BitVec 5) (a : BitVec 5) (b : BitVec 5) (s : State) : Out :=
  slotsw h a d s fun s x =>
    let _ := b
    .next (s.wrS d (if swPlain x then imageStatus s.hub.images else 5))

/-- SLOTSW QUIESCE (R390): no record decodes and no pick is made from here on. -/
def execSlotswQuiesce (h : Head) (d : BitVec 5) (a : BitVec 5) (b : BitVec 5) (s : State) : Out :=
  slotsw h a d s fun s x =>
    let _ := b
    if swPlain x then .next ((modImages s fun i => { i with quiesced := true }).wrS d 0) else .next (s.wrS d 5)

/-- R385, R390: the bytes of a handover header. (DEDUCED: log 22.) -/
def handover (s : State) (a : Word) : List Byte := devRead s (devAddr a) 64

/-- R390: the first refusal of a SWITCH. (DEDUCED: log 22.) -/
def switchRefusal (s : State) (x hand : Word) : Option Word :=
  let i := s.hub.images
  let slot := swSlot x == 1
  let hd := handover s hand
  let size := fieldAt hd 8 4
  let ver := fieldAt hd 4 2
  if (swHblog x).toNat < 20 ∨ 30 < (swHblog x).toNat ∨ swNbeat x = 0 ∨ 1 < (swSlot x).toNat ∨ slot = i.active then some 5
  else if i.trial ∨ !i.quiesced then some 1
  else if !i.verified slot then some 2
  else if (imgSvn s slot).toNat < i.csvn.toNat then some 4
  else if fieldAt hd 0 4 ≠ 0x4F564844 ∨ size % 64 ≠ 0 ∨ size < 64 ∨ 65536 < size ∨
      ver < imgField s slot 4 2 ∨ imgField s slot 6 2 < ver then some 3
  else none

/-- SLOTSW SWITCH (R386, R390): every firmware context restarts at the target image. -/
def execSlotswSwitch (h : Head) (d : BitVec 5) (a : BitVec 5) (b : BitVec 5) (s : State) : Out :=
  slotsw h a d s fun s x =>
    let hand := s.rs b
    match switchRefusal s x hand with
    | some r => .next (s.wrS d r)
    | none =>
      let s := (List.finRange 512).foldl (fun t c => settleFw t c) s
      let s := modImages s fun i =>
        { i with fallback := i.active, active := swSlot x == 1, trial := true, beats := 0, nbeat := swNbeat x, hblog := swHblog x,
                 due := s.clk + 2 ^ (swHblog x).toNat, handover := hand }
      .next { restartAll s 1 with mark := .ended }

/-- R386: the committing BEAT. (DEDUCED: log 22.) -/
def commitImage (s : State) : State :=
  let i := s.hub.images
  let s := devWrite s (devAddr i.handover + 7) [i.beats]
  let m := { s.hub.measures with
    image := imageDigest s i.active
    svn := imgSvn s i.active
    version := BitVec.ofNat 16 (fieldAt (handover s i.handover) 4 2) }
  let i := { i with csvn := imgSvn s i.active, trial := false, fallback := false }
  { s with hub := { s.hub with images := i, measures := m } }

/-- SLOTSW BEAT (R386, R390). -/
def execSlotswBeat (h : Head) (d : BitVec 5) (a : BitVec 5) (b : BitVec 5) (s : State) : Out :=
  slotsw h a d s fun s x =>
    let _ := b
    if !swPlain x then .next (s.wrS d 5)
    else if !s.hub.images.trial then .next (s.wrS d 1)
    else
      let s := modImages s fun i => { i with beats := i.beats + 1, due := s.clk + 2 ^ i.hblog.toNat }
      let i := s.hub.images
      .next ((if i.beats.toNat = i.nbeat.toNat then commitImage s else s).wrS d 0)

/-- SLOTSW RESUME (R390). -/
def execSlotswResume (h : Head) (d : BitVec 5) (a : BitVec 5) (b : BitVec 5) (s : State) : Out :=
  slotsw h a d s fun s x =>
    let _ := b
    if !swPlain x then .next (s.wrS d 5)
    else if s.hub.images.trial then .next (s.wrS d 1)
    else .next ((modImages s fun i => { i with quiesced := false }).wrS d 0)

/-- R386: HEARTBEAT_MISSED: the heartbeat window of a trial has passed. -/
def execHeartbeatMissed (s : State) : Out :=
  let i := s.hub.images
  if i.trial && decide (i.due ≤ s.clk) then .next { rollBack s 1 with mark := .none } else .next s

/-- R372, R386: FW_FAULT: a fault of a core's firmware context. -/
def execFwFault (core : Fin 512) (cause : Cause) (s : State) : Out := .next (fwFault s core cause)

/-! ### Errors of the memory (R341, R342, R408) -/

/-- R341: NODE_WRITEBACK: a node that the counter engine holds changed is written back. (DEDUCED: log 21.) -/
def execNodeWriteback (die : Fin 4) (level : Fin 9) (node : BitVec 25) (s : State) : Out :=
  if s.dies[die].changed.contains (level.val, node.toNat) then .next (s.putDie die (writeNode s.dies[die] level.val node.toNat))
  else .next s

/-- The partitions with memory on a stack of a die. -/
def stackOwners (s : State) (d : Fin 4) (stack : Nat) : List (Fin 16) :=
  (List.finRange 16).filter fun p => s.dies[d].regions.any fun r => r.part == p && r.num / 2 ^ 15 == stack

/-- A package log record of a partition, or of the package. -/
def logFor (s : State) (k : Cause) (p : Option (Fin 16)) (a : Word) : State :=
  logRecord s (logRec k (match p with | some p => BitVec.ofNat 16 p.val | none => 0xFFFF) 0 a)

/-- R342: a node of levels 0 to 3 fails: its region is poisoned, and its partition is told. (DEDUCED: log 21.) -/
def poisonRegion (s : State) (d : Fin 4) (p : Nat) : State :=
  let die := s.dies[d]
  let r := p / 2 ^ 21
  if die.badRegions.contains r then s
  else
    let s := logFor (s.putDie d { die with badRegions := r :: die.badRegions }) .integrity (regionOwner s d r) (fwName s d p)
    match regionOwner s d r with
    | some q => hubRecord s q (hubRec .integrity (fwName s d p))
    | none => s

/-- R342: an on-die node fails: its stack is poisoned, and every partition with memory on it is told. (DEDUCED: log 21.) -/
def poisonStack (s : State) (d : Fin 4) (p : Nat) : State :=
  let die := s.dies[d]
  let stack := ix 2 (p / 2 ^ 36)
  if die.badStacks[stack] then s
  else
    let s := logFor (s.putDie d { die with badStacks := vput die.badStacks stack true }) .poison none (fwName s d p)
    (stackOwners s d stack.val).foldl (fun t q => hubRecord (tdiToError t q) q (hubRec .poison (fwName s d p))) s

/-- R342, R407: UNCORRECTABLE_ERROR. -/
def execUncorrectableError (die : Fin 4) (addr : BitVec 40) (site : ErrSite) (s : State) : Out :=
  let p := addr.toNat % 2 ^ 37
  .next (match site with
    | .dataBlock =>
      let s := logFor s .integrity (regionOwner s die (p / 2 ^ 21)) (fwName s die p)
      s.putDie die { s.dies[die] with badBlocks := (p / 64) :: s.dies[die].badBlocks.filter (· != p / 64) }
    | .node false => poisonRegion s die p
    | .node true => poisonStack s die p)

/-- R408: CORRECTABLE_ERROR. -/
def execCorrectableError (cls : Fin 8) (s : State) : Out :=
  let n := s.pf.sercnt[cls]
  .next { s with pf := { s.pf with sercnt := vput s.pf.sercnt cls (if n = BitVec.allOnes 64 then n else n + 1) } }

end Sys2Proof.Machine
end

