-- ==== Sys2Proof/Machine/Work.lean ====
section
/-! DEFINITION. Units: how they start (R13, R16, R21, R224), how they end (R12, R91, R92, R255), continuation records
and their shards (R15, R93, R258 to R263), the walker (R252, R257), and the ramp windows (R265, R266). -/

namespace Sys2Proof.Machine

/-! ### Launches -/

/-- The window of a partition changes. -/
def modWindow (s : State) (p : Fin 16) (f : Window → Window) : State :=
  s.putAux p { s.aux[p] with window := f s.aux[p].window }

/-- R239: the window entry of a launch. -/
def findLaunch (s : State) (p : Fin 16) (launch : BitVec 32) : Option WinEnt :=
  s.aux[p].window.entries.find? fun e => e.launch == launch

/-- The window entry of a launch changes. -/
def modLaunch (s : State) (p : Fin 16) (launch : BitVec 32) (f : WinEnt → WinEnt) : State :=
  modWindow s p fun w => { w with entries := w.entries.map fun e => if e.launch == launch then f e else e }

/-- R253: one piece of a launch's outstanding work has ended. -/
def workDone (s : State) (p : Fin 16) (launch : BitVec 32) : State :=
  modLaunch s p launch fun e => { e with outstanding := e.outstanding - 1 }

/-- R240, R249: a Running launch becomes Faulted; the first cause and UNITID stay. -/
def faultLaunch (s : State) (p : Fin 16) (launch : BitVec 32) (k : Cause) (unit : BitVec 32) : State :=
  modLaunch s p launch fun e =>
    if e.st = .running then { e with st := .faulted, cause := some k, faultUnit := unit } else e

/-! ### How a unit starts -/

/-- R224, R343: the argument-block slot of an operand: a capability that can derive, or an address and a length. -/
def argBytes (prot : Bool) (p : Fin 16) (o : Operand) : List Byte :=
  if prot then
    leBytes 16 (o.addr.toNat + 2 ^ 64 * (o.len - 1) + 2 ^ 104 * (if o.mode = 1 then 0x9 else 0xB) + 2 ^ 112 * p.val)
  else leBytes 8 o.addr.toNat ++ leBytes 8 o.len

/-- R21, R224: the argument block of a launch. -/
def writeArgs (s : State) (c : Fin 512) (p : Fin 16) (e : WinEnt) : State :=
  let s := s.zero (tmAddr c 0x7FF00) 0x100
  let s := e.ops.foldl (fun t o =>
    if o.mode = 0 then t
    else
      let a := tmAddr c (0x7FF00 + 16 * o.slot)
      let bs := argBytes s.parts[p].prot p o
      if s.parts[p].prot then t.storeCap a bs else t.store a bs) s
  s.store (tmAddr c 0x7FF80) (e.params.toList.flatMap fun w => leBytes 8 w.toNat)

/-- R13: what the unit context holds in its core's shared tables goes. -/
def clearUnit (c : Core) : Core :=
  { c with
    unit := Ctx.zero
    copies := c.copies.map fun k => if k.any (!·.fw) then none else k
    guard := c.guard.filter (·.fw)
    replay := []
    pend := ⟨[], false, false⟩
    save := none
    heldRec := none
    ending := none
    trap := none
    copyRecs := []
    native := none }

/-- R13, R16: a unit starts on a core, for the first time or from a record's saved registers. -/
def startUnit (s : State) (c : Fin 512) (p : Fin 16) (e : WinEnt) (pkt : BitVec 32) (idx : Vector (BitVec 16) 6)
    (saved : Option (Vector Word 5)) (unitid : BitVec 32) : State :=
  let s := settleHold s c
  let r := (List.finRange 6).foldl (fun v i => vput v (ix 32 (i.val + 1)) (idx[i].setWidth 64)) Regs.zero.s
  let r := match saved with
    | some w => (List.finRange 5).foldl (fun v i => vput v (ix 32 (i.val + 7)) w[i]) r
    | none => r
  let core := clearUnit s.cores[c]
  let core := { core with
    unit := { Ctx.zero with regs := { Regs.zero with s := r }, pc := pkt }
    st := .running
    ctl := { core.ctl with launchid := e.launch, unitid := unitid }
    index := idx
    resumed := saved.isSome
    tokens := core.tokens.map fun t => if t.any (!·.fw) then none else t
    issued := s.clk
    heldAt := some s.clk
    codeBase := e.code
    codePackets := e.packets
    native := e.native }
  writeArgs ((s.putCore c core).zero (tmAddr c 0x78000) 0x4000) c p e

/-! ### How a unit ends -/

/-- Whether an entry of the queues can still perform. -/
def QEnt.live (e : QEnt) : Bool := e.stage.cause.isNone

/-- R255, R257: whether a core is free: no unit, no store of one in flight, no box of one, and no token to wait for. (DEDUCED: log 10.) -/
def coreFree (s : State) (c : Fin 512) : Bool :=
  let core := s.cores[c]
  core.st == .none && !tokensHeld s c && !core.unit.mq.any QEnt.live && !core.copies.any fun k => k.any (!·.fw)

/-- R12: the core is freed. Its tokens are left to land. -/
def freeCore (s : State) (c : Fin 512) : State := settleHold (s.putCore c { clearUnit s.cores[c] with st := .none }) c

/-- R166, R255: a copy of a discarded unit ends as by CPYCAN, at once or when its boxes in progress have finished; one that cannot be
resumed is gone. -/
def discardCopy (s : State) (c : Fin 512) (slot : Fin 256) : State :=
  match s.cores[c].copies[slot] with
  | none => s
  | some k =>
    if k.fw then s
    else if k.abandoned then endCopy s c slot k
    else if k.runs.isEmpty && creditFree s c slot k then endCancel s c slot k
    else putCopy s c slot (some { k with cancelled := true, held := false, fault := none })

/-- R255 step 2: a unit that is running or Stopped is discarded: its store queue drains, its copies end as by CPYCAN with
no stamp, its MMAs are dropped, and its tokens are left to land. Its held fault record is removed (R323). -/
def discardUnit (s : State) (c : Fin 512) : State :=
  if s.cores[c].st = .none then s
  else
    let s := (List.finRange 256).foldl (fun t slot => discardCopy t c slot) s
    let core := s.cores[c]
    let rest := { clearUnit core with st := .none, copies := core.copies }
    let owned (g : GuardEnt) : Bool := g.fw || core.copies.any fun k => k.any fun k => k.id == g.owner
    let rest := { rest with
      guard := core.guard.filter owned
      unit := { Ctx.zero with mq := core.unit.mq.filter (·.st) } }
    settleHold (s.putCore c rest) c

/-- R250 step 3, R255: the entries that leave: those that a cancel has chosen, and a faulting entry once it is the only one. -/
def leaving (w : Window) : List WinEnt :=
  match w.stop, w.entries with
  | some _, [e] => [e]
  | _, es => es.filter (·.cancelled)

/-- R255 step 2: whether a core's unit belongs to an entry that leaves, so that it stops at its next bundle boundary. -/
def cancelDue (s : State) (c : Fin 512) : Bool :=
  match s.partOf c with
  | some p => s.cores[c].st != .none && (leaving s.aux[p].window).any fun e => e.launch == s.cores[c].ctl.launchid
  | none => false

/-- R91: whether work of the acting unit from before a serial number is still in flight. -/
def workOut (c : Core) (before : Nat) : Bool :=
  let x := c.unit
  let old (id : Nat) : Bool := decide (id < before)
  x.mq.any (fun e => old e.id) || x.mmas.any (fun r => old r.id) || x.quants.any (fun q => old q.id) ||
    (x.nest.go && old x.nest.id) || c.copies.any (fun k => k.any fun k => !k.fw && old k.id) ||
    tokenOut c false before fun _ => true

/-- R91: whether work of a unit that has issued its last bundle is still in flight. -/
def workLive (s : State) (c : Fin 512) : Bool :=
  let core := s.cores[c]
  let x := core.unit
  !x.mq.isEmpty || !x.mmas.isEmpty || !x.quants.isEmpty || x.nest.go || core.copies.any (fun k => k.any fun k => !k.fw) ||
    tokensHeld s c

/-! ### Shards (R258 to R262) -/

/-- R15: the bytes of a continuation record. -/
def recBytes (r : CRec) : List Byte :=
  leBytes 4 r.pkt.toNat ++ leBytes 4 r.launch.toNat ++ (r.index.toList.flatMap fun i => leBytes 2 i.toNat) ++
    leBytes 4 (r.posted.toNat + 2 * r.resumed.toNat + 2 ^ 28 * r.wkind.toNat) ++ r.saved.toList.flatMap fun w => leBytes 8 w.toNat

/-- R15: a record as bytes hold it. -/
def recOf (r : CRec) (bs : List Byte) : CRec :=
  let kind : BitVec 4 := BitVec.ofNat 4 (byteAt bs 23 / 16)
  { r with
    pkt := BitVec.ofNat 32 (fieldAt bs 0 4), launch := BitVec.ofNat 32 (fieldAt bs 4 4)
    index := Vector.ofFn fun i : Fin 6 => BitVec.ofNat 16 (fieldAt bs (8 + 2 * i.val) 2)
    posted := byteAt bs 20 % 2 == 1, resumed := byteAt bs 20 / 2 % 2 == 1, wkind := kind
    saved := Vector.ofFn fun i : Fin 5 => BitVec.ofNat 64 (fieldAt bs (24 + 8 * i.val) 8)
    ready := kind == 0, stage := .waiting, spot := none }

/-- R260: the flat address of a place of a partition's overflow area, if it has one. -/
def spotAddr (s : State) (p : Fin 16) (i : Nat) : Option Nat := (s.parts[p].overflowAt[i / 2 ^ 15]?).map fun a => a + 64 * (i % 2 ^ 15)

/-- R260: the places of a partition's overflow area in use. -/
def spotsUsed (s : State) (p : Fin 16) : List Nat :=
  s.clusters.toList.flatMap fun k => (k.overflow.filter (·.part == p)).filterMap (·.spot)

/-- R260: the lowest place of a partition's overflow area that is free. (DESIGN CHOICE: log 46.) -/
def freeSpot (s : State) (p : Fin 16) : Nat :=
  let used := spotsUsed s p
  ((List.range (used.length + 1)).find? fun i => !used.contains i).getD 0

/-- R15, R260: a record spills: its image is written to the overflow area. -/
def spillRec (s : State) (k : Fin 64) (r : CRec) : State :=
  let i := freeSpot s r.part
  let s := match spotAddr s r.part i with
    | some a => devWrite s a (recBytes r)
    | none => s
  s.putCluster k { s.clusters[k] with overflow := s.clusters[k].overflow ++ [{ r with spot := some i }] }

/-- R260: a spilled record, as its image now stands. (DEDUCED: log 19.) -/
def readRec (s : State) (r : CRec) : CRec :=
  match r.spot.bind (spotAddr s r.part) with
  | some a => recOf r (devRead s a 64)
  | none => r

/-- R260: a record enters the shard of a cluster, or its overflow area. -/
def insertRec (s : State) (k : Fin 64) (r : CRec) : State :=
  let cl := s.clusters[k]
  if cl.overflow.isEmpty && decide (cl.shard.length < 1024) then s.putCluster k { cl with shard := cl.shard ++ [r] }
  else spillRec s k r

/-- R261: how many records a partition holds. -/
def recordCount (s : State) (p : Fin 16) : Nat :=
  s.clusters.toList.foldl (fun n k => n + ((k.shard ++ k.overflow).filter fun r => r.part == p).length) 0

/-- R255 step 4: the records of a launch are deleted. -/
def dropRecords (s : State) (p : Fin 16) (launch : BitVec 32) : State :=
  let keep (r : CRec) : Bool := !(r.part == p && r.launch == launch)
  { s with clusters := s.clusters.map fun k => { k with shard := k.shard.filter keep, overflow := k.overflow.filter keep } }

/-- R91, R92: the unit of a core ends once what it started has ended: as Done, or Suspended with its record. (DEDUCED: log 19.) -/
def finishEnding (s : State) (c : Fin 512) : State :=
  let core := s.cores[c]
  match core.ending with
  | none => s
  | some e =>
    if !trapFree s c || workLive s c then s
    else
      let launch := core.ctl.launchid
      let s := freeCore s c
      match e, s.partOf c with
      | none, some p => workDone s p launch
      | some r, _ => insertRec s (clusterOf c) r
      | none, none => s

/-- R91: DONE. The words of its own bundle end before the unit does. (DEDUCED: log 19.) -/
def execDone (h : Head) (s : State) : Out :=
  guarded h s fun s =>
    if s.fw then raise s .illegalOp
    else if workOut s.cur (sinceNow s) then stall s
    else .next { finishEnding (s.setCur { s.cur with ending := some none }) s.core with mark := .ended }

/-- R92: the fault of a wait kind and a wait address. (DEDUCED: log 19.) -/
def waitFault (k : BitVec 5) (a : Word) : Option Cause :=
  if k = 0 then none
  else if a.toNat % 8 ≠ 0 then some .misalign
  else match rowOf a.toNat with
    | .global | .ownCm | .place _ => none
    | _ => some .unmapped

/-- R15: the registers that a record saves. -/
def savedRegs (s : State) : Vector Word 5 := Vector.ofFn fun i => s.rs (BitVec.ofNat 5 (7 + i.val))

/-- R92: SUSPEND. (DEDUCED: log 19.) -/
def execSuspend (h : Head) (k : BitVec 5) (s : State) : Out :=
  guarded h s fun s =>
    if s.fw ∨ 2 < k.toNat then raise s .illegalOp
    else match waitFault k (s.rs 8) with
    | some e => raiseAt s e (s.rs 8)
    | none =>
      if workOut s.cur (sinceNow s) then stall s
      else
        let c := s.cur
        let r : CRec := ⟨s.curPart.getD 0, s.ctx.pc + 1, c.ctl.launchid, c.index, false, c.resumed, k.setWidth 4, savedRegs s,
          k == 0, .waiting, none⟩
        .next { finishEnding (s.setCur { c with ending := some (some r) }) s.core with mark := .ended }

/-- R93: the shard that POST's address chooses. -/
def postShard (s : State) (ea : Word) : State × Res (Fin 64) :=
  match rowOf ea.toNat with
  | .general | .barriers | .trapArea | .work | .args | .ownCm => (s, .ok (clusterOf s.core))
  | .place k => (s, match placeCluster s s.core k with
    | some cl => .ok cl
    | none => .fail .unmapped)
  | .hole => (s, .fail .unmapped)
  | .global =>
    if pkgOf ea ≠ ownPkg s then (s, .fail .remote)
    else
      let d := dieOfVa ea
      let off := offsetOf ea
      match s.curPart with
      | none => (s, .fail .unmapped)
      | some p =>
        if pageMoving s d p off then (s, .wait)
        else match walk s d p off with
        | .leaf e size => (s, .ok (homeCluster d (leafAddr e + off % pageSize size)))
        | .absent size => (reportAbsent s d p ea size, .fail .unmapped)
        | .bad table => (reportBad s d p table, .fail .unmapped)
        | .none => (s, .fail .unmapped)

/-- R261: the number of records from which POST stalls. -/
def postLimit : Nat := 4259328

/-- R93: POST. The record enters its shard once every earlier store has performed. (DEDUCED: log 19.) -/
def execPost (h : Head) (d : BitVec 5) (a : BitVec 5) (k : BitVec 5) (s : State) : Out :=
  guarded h s fun s =>
    if s.fw ∨ 2 < k.toNat then raise s .illegalOp
    else match waitFault k (s.rs 8) with
    | some e => raiseAt s e (s.rs 8)
    | none =>
      match postShard s (s.rs a) with
      | (s, .fail e) => raiseAt s e (s.rs a)
      | (s, .wait) => stall s
      | (s, .ok cl) =>
        let p := s.curPart.getD 0
        let ids := if cl = clusterOf s.core then [] else edgeHops s (clusterOf s.core) cl
        if postLimit ≤ recordCount s p ∨ (olderEnts s).any (·.st) ∨ !allOpen s p ids then stall s
        else
          let s := useAll s p ids
          let launch := s.cur.ctl.launchid
          let r : CRec := ⟨p, (s.rs d).setWidth 32, launch, Vector.ofFn fun i => (s.rs (BitVec.ofNat 5 (1 + i.val))).setWidth 16,
            true, false, k.setWidth 4, savedRegs s, k == 0, .waiting, none⟩
          .next (insertRec (modLaunch s p launch fun e => { e with outstanding := e.outstanding + 1 }) cl r)

/-! ### The walker (R252, R257) -/

/-- R252: the level enumerated j-th from innermost. -/
def WinEnt.level (e : WinEnt) (j : Nat) : Fin 6 := if e.order = 0 then ix 6 j else ix 6 (e.order.toNat / 8 ^ j % 8)

/-- R223: how many units a launch has. -/
def WinEnt.units (e : WinEnt) : Nat := e.counts.toList.foldl (fun n c => n * c.toNat) 1

/-- R252: the level indices of unit u. -/
def WinEnt.indexOf (e : WinEnt) (u : Nat) : Vector (BitVec 16) 6 :=
  ((List.range 6).foldl (fun (acc : Nat × Vector (BitVec 16) 6) j =>
    let n := e.counts[e.level j].toNat
    (acc.1 / n, vput acc.2 (e.level j) (BitVec.ofNat 16 (acc.1 % n)))) (u, Vector.replicate 6 0)).2

/-- R16: the walker ordinal of level indices. -/
def WinEnt.ordinal (e : WinEnt) (idx : Vector (BitVec 16) 6) : BitVec 32 :=
  BitVec.ofNat 32 ([5, 4, 3, 2, 1, 0].foldl (fun n j => idx[e.level j].toNat + e.counts[e.level j].toNat * n) 0)

/-- R257: the cores of a partition in the order of its places. -/
def placeCores (s : State) (p : Fin 16) : List (Fin 512) :=
  (s.parts[p].places.toList.filter fun x => x.getLsbD 63).flatMap fun x =>
    (List.range 8).map fun i => ix 512 (8 * (x.toNat % 64) + i)

/-- R263: whether a cancel has reached a record's launch, so that it is never resumed. -/
def recCancelled (s : State) (r : CRec) : Bool := (findLaunch s r.part r.launch).any (·.cancelled)

/-- R258: the first ready record of a partition in the shard of a core's cluster. -/
def readyRec (s : State) (c : Fin 512) (p : Fin 16) : Option CRec :=
  s.clusters[clusterOf c].shard.find? fun r => r.ready && r.part == p && !recCancelled s r

/-- R257: the first free core at or after the pointer, with its place in the order. A core whose shard has a ready record
takes that first (R258). -/
def nextCore (s : State) (p : Fin 16) : Option (Nat × Fin 512) :=
  let cs := placeCores s p
  let at_ := s.aux[p].window.pointer % (if cs.length = 0 then 1 else cs.length)
  let order := (cs.zipIdx.drop at_) ++ (cs.zipIdx.take at_)
  (order.find? fun x => coreFree s x.1 && (readyRec s x.1 p).isNone).map fun x => (x.2, x.1)

/-- R252, R257: HAND_UNIT: the oldest Running launch with units left hands one to the next free core. -/
def execHandUnit (part : Fin 16) (s : State) : Out :=
  match s.aux[part].window.entries.find? fun e => e.st == .running && !e.cancelled && decide (e.handed < e.units) with
  | none => .next s
  | some e =>
    match nextCore s part with
    | none => .next s
    | some (i, c) =>
      let u := e.handed
      let s := modLaunch s part e.launch fun e => { e with handed := u + 1, outstanding := e.outstanding + 1 }
      let s := modWindow s part fun w => { w with pointer := (i + 1) % (placeCores s part).length }
      .next (startUnit s c part e 0 (e.indexOf u) none (BitVec.ofNat 32 u))

/-- R16, R258, R263: RESUME_RECORD: a free core takes the first ready record of its shard. Of two free cores of one cluster
the lower takes it. (DEDUCED: log 19.) -/
def execResumeRecord (core : Fin 512) (s : State) : Out :=
  match s.partOf core with
  | none => .next s
  | some p =>
    let lower := (List.finRange 512).any fun c => clusterOf c == clusterOf core && decide (c < core) && coreFree s c
    match readyRec s core p with
    | none => .next s
    | some r =>
      if lower || !coreFree s core then .next s
      else
        let k := clusterOf core
        let cl := s.clusters[k]
        let s := s.putCluster k { cl with shard := cl.shard.erase r }
        match findLaunch s p r.launch with
        | some e => .next (startUnit s core p e r.pkt r.index (some r.saved) (e.ordinal r.index))
        | none => .next s

/-- R260: OVERFLOW_REFILL: the oldest record of the overflow area moves into the shard, as its image there now stands. -/
def execOverflowRefill (cluster : Fin 64) (s : State) : Out :=
  let cl := s.clusters[cluster]
  match cl.overflow with
  | r :: rest =>
    if cl.shard.length < 1024 then .next (s.putCluster cluster { cl with shard := cl.shard ++ [readRec s r], overflow := rest }) else .next s
  | [] => .next s

/-! ### The watch of a shard (R259) -/

/-- R15, R259: what a read of a record's wait word gives: its value, a fault, or a wait. (DEDUCED: log 19.) -/
def readWaitWord (s : State) (k : Fin 64) (r : CRec) : State × Res Word :=
  let a := r.saved[1]
  let cm (cl : Fin 64) : Word := BitVec.ofNat 64 (s.loadNat (cmAddr cl (a.toNat % 2 ^ 23)) 8)
  match rowOf a.toNat with
  | .ownCm => (s, .ok (cm k))
  | .place i =>
    let e := s.parts[r.part].places[i]
    (s, if e.getLsbD 63 then .ok (cm (ix 64 e.toNat)) else .fail .unmapped)
  | .global =>
    match leaseVerdict (leasesOf s (some r.part)) a 8 false with
    | some c => (s, .fail c)
    | none =>
      if meetsExport s (some r.part) a 8 then (s, .fail .capPerm)
      else if pkgOf a ≠ ownPkg s then (s, match r.stage with
        | .returned bs => .ok (BitVec.ofNat 64 (leNat bs))
        | .failed c => .fail c
        | _ => .wait)
      else
        let absent := match walk s (dieOfVa a) r.part (offsetOf a) with
          | .absent _ => true
          | _ => false
        match globRead s false (some r.part) a 8 with
        | (s, .ok bs) => (s, .ok (BitVec.ofNat 64 (leNat bs)))
        | (s, .fail c) => (s, if absent && c == .unmapped then .wait else .fail c)
        | (s, .wait) => (s, .wait)
  | _ => (s, .fail .unmapped)

/-- A record of a shard changes. -/
def putRec (s : State) (k : Fin 64) (i : Nat) (r : CRec) : State :=
  let cl := s.clusters[k]
  s.putCluster k { cl with shard := cl.shard.set i r }

/-- R365: the shard's read of a word of another package. (DEDUCED: log 19.) -/
def askWaitWord (s : State) (k : Fin 64) (i : Nat) (r : CRec) : State :=
  let m := { coreMsg s (ix 512 (8 * k.val)) r.part kRd r.saved[1] [] with len := 8 }
  putRec (send s r.part m) k i { r with stage := .sent }

/-- R259: a read of a wait word that faults ends its record and faults its launch. (DEDUCED: log 19.) -/
def failRec (s : State) (k : Fin 64) (i : Nat) (r : CRec) (c : Cause) : State :=
  let cl := s.clusters[k]
  let s := s.putCluster k { cl with shard := cl.shard.eraseIdx i }
  workDone (faultLaunch s r.part r.launch c (BitVec.allOnes 32)) r.part r.launch

/-- R259: SHARD_WATCH: the shard reads the wait word of a waiting record. (DEDUCED: log 19.) -/
def execShardWatch (cluster : Fin 64) (idx : Fin 1024) (s : State) : Out :=
  match s.clusters[cluster].shard[idx.val]? with
  | none => .next s
  | some r =>
    if r.ready then .next s
    else match readWaitWord s cluster r with
    | (s, .ok v) =>
      let hit := if r.wkind = 1 then v != r.saved[2] else v == r.saved[2]
      .next (putRec s cluster idx.val { r with ready := hit, stage := .waiting })
    | (s, .fail c) => .next (failRec s cluster idx.val r c)
    | (s, .wait) =>
      if rowOf r.saved[1].toNat = .global ∧ pkgOf r.saved[1] ≠ ownPkg s ∧ r.stage = .waiting then .next (askWaitWord s cluster idx.val r)
      else .next s

/-! ### The ramp limiter (R264 to R266) -/

/-- R404: the ceiling of a power level. -/
def ceiling (level : BitVec 3) : Nat := [16, 32, 64, 96, 128, 176, 216, 256].getD level.toNat 256

/-- R265, R266: the allowance of the next window. -/
def nextAllow (s : State) (c : Core) : Nat :=
  let r := c.ramp
  let top := ceiling s.pf.effect
  let up := c.ctl.rampstep.toNat / 256
  let floor := c.ctl.rampstep.toNat % 256
  let a := if up = 0 then top
    else if r.step.toNat / 256 = 0 then min top floor
    else if r.waited then min top (r.allow + up)
    else if r.started = 0 then min top floor
    else min top r.allow
  let f := forecastNow s c.ctl
  let level := f.toNat / 2 ^ 24
  if up ≠ 0 ∧ f.toNat % 2 ^ 24 ≠ 0 ∧ r.allow < level then max a (min top (min level (r.allow + up))) else a

/-- R265: RAMP_WINDOW: a window of 1,024 clk ends. -/
def execRampWindow (core : Fin 512) (s : State) : Out :=
  let c := s.cores[core]
  if s.clk < c.ramp.due then .next s
  else
    let due := s.clk + 1024 - (s.clk - c.ramp.due) % 1024
    .next (s.putCore core { c with ramp := ⟨nextAllow s c, 0, false, due, c.ctl.rampstep⟩ })

end Sys2Proof.Machine
end

