-- ==== Sys2Proof/Machine/Boundary.lean ====
section
/-! DEFINITION. What a unit context takes at a bundle boundary before it issues (R315): deferred faults, TOKEN_EXPIRE,
WATCHDOG (R320), BREAK (R328) and PREEMPT, in that order. -/

namespace Sys2Proof.Machine

/-- R328: whether a breakpoint matches the bundle of words `first` to `last` of the packet that a core stands at. -/
def brkMatches (c : Core) (first last : Nat) (b : Word) : Bool :=
  let w := b.toNat / 2 ^ 32 % 4
  b.getLsbD 63 && b.extractLsb' 0 32 == c.unit.pc && (w == 3 || (decide (first ≤ w) && decide (w ≤ last))) &&
    (!b.getLsbD 62 || c.ctl.launchid.extractLsb' 0 14 == b.extractLsb' 48 14)

/-- R328: the lowest breakpoint that matches the bundle about to issue, unless TRET has just resumed the unit. -/
def breakHit (s : State) (c : Fin 512) : Option (Fin 8) :=
  let core := s.cores[c]
  if core.unit.brkSkip || core.ctl.brk.all (fun b => !b.getLsbD 63) then none
  else match fetchPacket s c false core.unit.pc with
  | (_, .ok ws) =>
    let first := bundleFirst ws core.unit.word
    (List.finRange 8).find? fun i => brkMatches core first (bundleLast ws first) core.ctl.brk[i]
  | _ => none

/-- The pending causes of a core change. -/
def modPend (s : State) (c : Fin 512) (f : Pend → Pend) : State :=
  s.putCore c { s.cores[c] with pend := f s.cores[c].pend }

/-- The trap of a unit context for a cause that no word of it raised: it names the first bundle that has not issued, and WATCHDOG the
word that the bundle waits for (R320). -/
def boundaryInfo (s : State) (c : Fin 512) (k : Cause) : TrapInfo :=
  let x := s.cores[c].unit
  TrapInfo.at k x.pc (BitVec.ofNat 2 (if k = .watchdog then x.waits.getD x.word else x.word)) 0

/-- R91, R329: whether the next bundle of a unit context holds a DONE whose waits have all ended: the DONE goes before what is
pending. A breakpoint still stops the bundle before it issues. (DEDUCED: log 10.) -/
def doneDue (s : State) (c : Fin 512) : Bool :=
  let core := s.cores[c]
  let x := core.unit.endPacket
  core.st == .running && core.ending.isNone && !workOut core s.serial && (breakHit s c).isNone &&
    match fetchPacket s c false x.pc with
    | (_, .ok ws) =>
      let first := bundleFirst ws x.word
      (List.range 3).any fun i => decide (first ≤ i) && decide (i ≤ bundleLast ws first) &&
        (match decodeWord (ws.getD i 0) with
         | some (.done h) => x.regs.getP h.g
         | _ => false)
    | _ => false

/-- R315: the trap that a running unit context takes at its boundary, if any, in the order of the rule. A unit whose DONE or SUSPEND has
issued takes no pre-emption and meets no breakpoint (R329). (DEDUCED: log 10.) -/
def boundaryTrap (s : State) (c : Fin 512) : Option State :=
  match oldestFault s c false with
  | some d => some (takeDeferred s c d)
  | none =>
    let s := atBoundary s c
    let p := s.cores[c].pend
    match p.tokens with
    | t :: rest =>
      some (startTrap (modPend s c fun q => { q with tokens := rest }) c none
        { boundaryInfo s c .tokenExpire with tokent := t })
    | [] =>
      if p.watchdog then
        some (startTrap (modPend s c fun q => { q with watchdog := false }) c none (boundaryInfo s c .watchdog))
      else if s.cores[c].ending.isSome then none
      else match breakHit s c with
      | some i => some (startTrap s c none { boundaryInfo s c .brk with brkn := BitVec.ofNat 3 i.val })
      | none =>
        if p.preempt then
          some (startTrap (modPend s c fun q => { q with preempt := false }) c none (boundaryInfo s c .preempt))
        else none

/-- R166: whether CPYCAN waits for a copy of a core's unit: its end is its boundary. (DEDUCED: log 10.) -/
def cancelling (s : State) (c : Fin 512) : Bool := s.cores[c].copies.any fun k => k.any fun k => !k.fw && k.cancelled

/-- R316: the trap that has begun takes effect, once what must finish before its frame has finished. (DEDUCED: log 10.) -/
def endTrap (s : State) (c : Fin 512) : State :=
  match s.cores[c].trap with
  | some (t, taken) => if trapReady s c then takeTrap s c taken t else s
  | none => s

/-- R315, R316: TAKE_TRAP: the trap that has begun takes effect, or the next one begins. A unit that a cancel has chosen stops instead,
and a fault of it is never reported (R255). (DEDUCED: log 10.) -/
def execTakeTrap (core : Fin 512) (s : State) : Out :=
  if cancelDue s core then .next (discardUnit s core)
  else if s.cores[core].trap.isSome then .next (endTrap s core)
  else if !trapFree s core || cancelling s core || doneDue s core then .next s
  else .next ((boundaryTrap s core).getD s)

/-- R320: WATCHDOG: the unit context has issued nothing for 2^31 clk. -/
def execWatchdog (core : Fin 512) (s : State) : Out :=
  let c := s.cores[core]
  if c.st = .running ∧ 2 ^ 31 ≤ s.clk - c.issued then .next (modPend s core fun p => { p with watchdog := true }) else .next s

end Sys2Proof.Machine
end

