-- ==== Sys2Proof/Machine/Touch.lean ====
section
/-! DEFINITION. Which registers a word reads or writes (R29): the interlock holds a bundle until no load of the context
still has to write one of them. Accumulators are held by the matrix words themselves (R175). -/

namespace Sys2Proof

/-- The s, p and v registers that a word names. -/
structure Touch where
  s : List (BitVec 5)
  p : List (BitVec 3)
  v : List (BitVec 5)
deriving DecidableEq, Repr

/-- The two s registers of a pair (R64). -/
def pair (a : BitVec 4) : List (BitVec 5) := [a ++ 0#1, a ++ 1#1]

/-- The four v registers of a group (R63, R64). -/
def group (a : BitVec 3) : List (BitVec 5) := [a ++ 0#2, a ++ 1#2, a ++ 2#2, a ++ 3#2]

/-- The registers of each word; an event names none. -/
def touch (i : Instr) : Touch :=
  match i with
  | .add _ d a b | .sub _ d a b | .and _ d a b | .or _ d a b | .xor _ d a b | .sll _ d a b | .srl _ d a b
  | .sra _ d a b | .min _ d a b | .max _ d a b | .minu _ d a b | .maxu _ d a b | .mul _ d a b | .mulh _ d a b
  | .mulhu _ d a b | .div _ d a b | .divu _ d a b | .rem _ d a b | .remu _ d a b | .andn _ d a b | .orn _ d a b
  | .addsh _ d a b _ | .amoAdd _ d a b _ | .amoAnd _ d a b _ | .amoOr _ d a b _ | .amoXor _ d a b _
  | .amoMin _ d a b _ | .amoMax _ d a b _ | .amoMinu _ d a b _ | .amoMaxu _ d a b _ | .amoSwap _ d a b _
  | .amoCas _ d a b _ | .qst _ d a b _ _ _ | .mwaitNe _ d a b | .mwaitEq _ d a b | .cpy2d _ d a b
  | .cpy2dCvtRelay _ d a b | .cpy2dCvtQnt _ d a b | .cpy2dCvtZexp _ d a b | .cpy2dRedAddF32 _ d a b
  | .cpy2dRedAddBf16 _ d a b | .cpy2dRedMaxF32 _ d a b | .cpy2dRedMinF32 _ d a b | .cpy2dStamp _ d a b
  | .krotInstall _ d a b | .krotQuery _ d a b | .krotRetire _ d a b | .krotDestroy _ d a b | .sealChunks _ d a b
  | .unsealChunks _ d a b | .scrubRegions _ d a b | .scrubCluster _ d a b | .scrubCore _ d a b | .mext _ d a b
  | .slotswQuery _ d a b | .slotswQuiesce _ d a b | .slotswSwitch _ d a b | .slotswBeat _ d a b
  | .slotswResume _ d a b => ⟨[d, a, b], [], []⟩
  | .clz _ d a | .ctz _ d a | .popc _ d a | .addi _ d a _ | .andi _ d a _ | .ori _ d a _ | .xori _ d a _
  | .slli _ d a _ | .srli _ d a _ | .srai _ d a _ | .ld _ d a _ _ | .ldAcq _ d a _ _ | .st _ d a _ _
  | .stRel _ d a _ _ | .capst _ d a | .sigchk _ d a => ⟨[d, a], [], []⟩
  | .li _ d _ | .li16 _ d _ | .li32 _ d _ | .li48 _ d _ | .crd _ d _ | .mcnt _ _ d _ | .mfirst _ _ d _
  | .mstF32 _ d _ | .mstRaw _ d _ => ⟨[d], [], []⟩
  | .cmpEq _ d a b | .cmpNe _ d a b | .cmpLt _ d a b | .cmpLe _ d a b | .cmpLtu _ d a b | .cmpLeu _ d a b
  | .btest _ d a b => ⟨[a, b], [d], []⟩
  | .pand _ d a b | .por _ d a b | .pxor _ d a b | .pandn _ d a b => ⟨[], [d, a, b], []⟩
  | .cmpiEq _ d a _ | .cmpiNe _ d a _ | .cmpiLt _ d a _ | .cmpiGe _ d a _ | .cmpiLtu _ d a _ | .cmpiGeu _ d a _ => ⟨[a], [d], []⟩
  | .sel _ d a b p => ⟨[d, a, b], [p], []⟩
  | .br _ _ | .fenceCore _ | .fenceCluster _ | .fenceDie _ | .fencePkg _ | .fenceSys _ | .done _ | .trap _ _
  | .tret _ | .lsaln _ | .mwaitReread _ _ | .mand _ _ _ _ _ | .mor _ _ _ _ _ | .mxor _ _ _ _ _ | .mandn _ _ _ _ _
  | .mnot _ _ _ _ | .vunbind _ _ | .streamRead _ _ | .mmaTileFetch _ _ | .mmaAccumulate _ _ | .mzero _ _ | .msmax _ _
  | .copyBox _ _ | .copyStamp _ _ | .nestGo _ | .nestWait _ | .nestEmit _ _ | .heartbeatMissed | .fwFault _ _
  | .handUnit _ | .resumeRecord _ | .shardWatch _ _ | .overflowRefill _ | .takeTrap _ | .deferredFault _ _
  | .tokenExpire _ | .watchdog _ | .loadReturn _ _ | .storePerform _ _ | .bankRequest _ _ | .atomicEngineRequest _
  | .leaseLookup _ _ | .translate _ _ | .counterWrite _ _ | .nodeWriteback _ _ _ | .memSweep _ | .keyDrained _
  | .rampWindow _ | .inval _ | .invalAll _ | .evict _ | .evictComplete _ | .migrate _ | .migrateMove _ | .present _
  | .refuse _ | .wnop _ | .wbuf _ _ _ _ _ | .wfree _ | .wtask _ | .wcall _ _ _ _ | .wret | .wpred _ _ _ _ _ _
  | .wloop _ _ | .wend | .wfence | .wfenceT _ _ | .wwait _ _ _ _ _ _ | .wwaitReread _ | .wwaitLimit _
  | .wsignalSt _ _ _ _ _ | .wsignalAdd _ _ _ _ _ | .wsignalEffect _ | .wgraph _ _ _ | .wphase _ _ | .wcancelLaunch _
  | .wcancelGraph _ | .wcancelPhase _ | .wcancelJob _ | .whalt _ | .haltEffect _ | .streamFault _ | .fetchBlock _
  | .leaseGrant _ | .issueLaunch _ | .retire _ | .faultReport _ | .cancel _ | .pick _ | .pickTimeout _
  | .sliceExpire _ | .entryComplete _ | .enable _ | .restart _ | .skip _ | .drop _ | .stop _ | .clrerr _
  | .qtailWrite _ _ _ | .jobcan _ _ | .regWrite _ _ _ _ | .vfFlr _ | .bar2Read _ _ _ | .bar2Write _ _ _ _ | .pickq _
  | .abandon _ | .save _ | .saveWrite _ | .restore _ | .topiaryLit _ | .topiaryDup | .topiaryDrop | .topiarySwap
  | .topiaryLdq _ | .topiaryLdl _ | .topiaryStl _ | .topiaryAdd | .topiarySub | .topiaryMul | .topiaryMin
  | .topiaryMax | .topiaryAnd | .topiaryOr | .topiaryLt | .topiaryEq | .topiaryJz _ | .topiaryJmp _ | .topiaryForq _
  | .topiaryNextq | .topiaryPick | .topiarySlice | .topiaryRet | .rd _ | .rdrsp _ | .wr _ | .wrack _ | .qstMessage _
  | .land _ | .rel _ | .amoMessage _ | .amorsp _ | .vamoMessage _ | .red _ | .tile _ | .tilersp _ | .holdfull _
  | .err _ | .holdExpire _ | .escapeRoute _ | .flitReceive _ _ | .poolStopGo _ _ | .linkTrain _ _ | .hfcfgWrite _ _
  | .getTdispVersion _ | .getTdispCapabilities _ | .lockInterfaceRequest _ | .getDeviceInterfaceReport _
  | .getDeviceInterfaceState _ | .startInterfaceRequest _ | .stopInterfaceRequest _ | .setSealSecret _ _
  | .tdiError _ | .getVersion | .getCapabilities | .negotiateAlgorithms | .getDigests | .getCertificate _ _
  | .challenge _ | .getMeasurements _ _ | .keyExchange _ _ | .finish _ | .endSession _ | .uncorrectableError _ _ _
  | .correctableError _ | .admtailWrite _ | .create | .destroy | .wipe | .meter | .intervalCut _ | .pwrcmdWrite _
  | .thermclr _ | .thermalTrip1 _ | .thermalTrip2 _ | .updreqWrite _ | .pfidRead | .pfBar2Write _ _ _ | .reset
  | .linkDown _ | .quantBlockWritten _ _ | .regintBoundary => ⟨[], [], []⟩
  | .call _ a _ | .jr _ a | .loop _ a _ | .cwr _ a _ | .vbind _ _ a | .mldF32 _ _ a | .mldRaw _ _ a | .mqnt _ _ a _ _
  | .cpycan _ a | .nestLd _ a => ⟨[a], [], []⟩
  | .suspend _ _ => ⟨[7, 8, 9, 10, 11], [], []⟩
  | .post _ d a _ => ⟨[d, a, 1, 2, 3, 4, 5, 6, 7, 8, 9, 10, 11], [], []⟩
  | .vadd _ _ d a b _ | .vsub _ _ d a b _ | .vmul _ _ d a b _ | .vfma _ _ d a b _ | .vmin _ _ d a b _
  | .vmax _ _ d a b _ | .vdiv _ _ d a b | .vadds _ _ d a b _ | .vsubs _ _ d a b _ | .vand _ _ d a b | .vor _ _ d a b
  | .vxor _ _ d a b | .vandn _ _ d a b | .vsll _ _ d a b | .vsrl _ _ d a b | .vsra _ _ d a b | .vclmulLo _ _ d a b
  | .vclmulHi _ _ d a b | .vpopc32 _ _ d a b | .vpopc64 _ _ d a b | .vperm32 _ _ d a b | .vperm8 _ _ d a b => ⟨[], [], [d, a, b]⟩
  | .vsqrt _ _ d a | .vexp2 _ _ d a | .vabs _ _ d a _ | .vneg _ _ d a _ | .vslli _ _ d a _ | .vsrli _ _ d a _
  | .vsrai _ _ d a _ | .vcompress32 _ _ d a | .vexpand32 _ _ d a | .vmov32 _ _ d a | .vcompress8 _ _ d a
  | .vexpand8 _ _ d a | .vmov8 _ _ d a | .vrsum _ _ d a _ | .vrmax _ _ d a _ | .vrmin _ _ d a _ | .vscan _ _ d a _
  | .vcvt _ _ d a _ _ => ⟨[], [], [d, a]⟩
  | .vcmpEq _ _ _ a b _ | .vcmpLt _ _ _ a b _ | .vcmpLe _ _ _ a b _ | .vcmpLtu _ _ _ a b _ => ⟨[], [], [a, b]⟩
  | .vslideup32 _ _ d a b | .vslidedn32 _ _ d a b | .vslideup8 _ _ d a b | .vslidedn8 _ _ d a b => ⟨[b], [], [d, a]⟩
  | .vbcast32 _ _ d a | .vbcast8 _ _ d a | .vamoAddF32 _ _ d a | .vamoAddBf16 _ _ d a => ⟨[a], [], [d]⟩
  | .vqrec _ _ a b _ => ⟨[b], [], group a⟩
  | .vld _ _ d a b | .vlds _ _ d a b | .vst _ _ d a b | .vsts _ _ d a b => ⟨[a, b], [], [d]⟩
  | .vgather _ _ d a b | .vscatter _ _ d a b => ⟨[a], [], [d, b]⟩
  | .vldq _ _ d _ | .vstq _ _ d _ | .mread _ d _ _ => ⟨[], [], [d]⟩
  | .vqst _ _ d a b _ _ => ⟨[d, a], [], [b]⟩
  | .mmaDesc _ _ a b _ | .mmaRmt _ _ a b _ => ⟨pair a ++ pair b, [], []⟩
  | .mmaReg _ _ a b _ => ⟨[], [], group a ++ group b⟩
  | .mwrite _ _ a _ => ⟨[], [], [a]⟩
  | .binit _ a b | .bexp _ a b | .barrv _ a b | .bwait _ a b => ⟨[a, b], [], []⟩
  | .capdrv _ d a b => ⟨[d, a] ++ pair b, [], []⟩
  | .capchk _ d a b => ⟨[a] ++ pair b, [d], []⟩
  | .capld _ d a _ => ⟨[a] ++ pair d, [], []⟩

/-- R57: the s, p and v registers that a word writes; those of its accumulators are `destAcc`. -/
def dests (i : Instr) : Touch :=
  match i with
  | .add _ d _ _ | .sub _ d _ _ | .and _ d _ _ | .or _ d _ _ | .xor _ d _ _ | .sll _ d _ _ | .srl _ d _ _
  | .sra _ d _ _ | .min _ d _ _ | .max _ d _ _ | .minu _ d _ _ | .maxu _ d _ _ | .mul _ d _ _ | .mulh _ d _ _
  | .mulhu _ d _ _ | .div _ d _ _ | .divu _ d _ _ | .rem _ d _ _ | .remu _ d _ _ | .andn _ d _ _ | .orn _ d _ _
  | .addsh _ d _ _ _ | .amoAdd _ d _ _ _ | .amoAnd _ d _ _ _ | .amoOr _ d _ _ _ | .amoXor _ d _ _ _
  | .amoMin _ d _ _ _ | .amoMax _ d _ _ _ | .amoMinu _ d _ _ _ | .amoMaxu _ d _ _ _ | .amoSwap _ d _ _ _
  | .amoCas _ d _ _ _ | .qst _ d _ _ _ _ _ | .mwaitNe _ d _ _ | .mwaitEq _ d _ _ | .cpy2d _ d _ _
  | .cpy2dCvtRelay _ d _ _ | .cpy2dCvtQnt _ d _ _ | .cpy2dCvtZexp _ d _ _ | .cpy2dRedAddF32 _ d _ _
  | .cpy2dRedAddBf16 _ d _ _ | .cpy2dRedMaxF32 _ d _ _ | .cpy2dRedMinF32 _ d _ _ | .cpy2dStamp _ d _ _
  | .krotInstall _ d _ _ | .krotQuery _ d _ _ | .krotRetire _ d _ _ | .krotDestroy _ d _ _ | .sealChunks _ d _ _
  | .unsealChunks _ d _ _ | .scrubRegions _ d _ _ | .scrubCluster _ d _ _ | .scrubCore _ d _ _ | .mext _ d _ _
  | .slotswQuery _ d _ _ | .slotswQuiesce _ d _ _ | .slotswSwitch _ d _ _ | .slotswBeat _ d _ _
  | .slotswResume _ d _ _ | .clz _ d _ | .ctz _ d _ | .popc _ d _ | .addi _ d _ _ | .andi _ d _ _ | .ori _ d _ _
  | .xori _ d _ _ | .slli _ d _ _ | .srli _ d _ _ | .srai _ d _ _ | .ld _ d _ _ _ | .ldAcq _ d _ _ _ | .sigchk _ d _
  | .li _ d _ | .li16 _ d _ | .li32 _ d _ | .li48 _ d _ | .crd _ d _ | .mcnt _ _ d _ | .mfirst _ _ d _ | .sel _ d _ _ _
  | .call _ d _ | .vqst _ _ d _ _ _ _ => ⟨[d], [], []⟩
  | .capld _ d _ _ => ⟨pair d, [], []⟩
  | .cmpEq _ d _ _ | .cmpNe _ d _ _ | .cmpLt _ d _ _ | .cmpLe _ d _ _ | .cmpLtu _ d _ _ | .cmpLeu _ d _ _
  | .btest _ d _ _ | .pand _ d _ _ | .por _ d _ _ | .pxor _ d _ _ | .pandn _ d _ _ | .cmpiEq _ d _ _ | .cmpiNe _ d _ _
  | .cmpiLt _ d _ _ | .cmpiGe _ d _ _ | .cmpiLtu _ d _ _ | .cmpiGeu _ d _ _ | .capchk _ d _ _ => ⟨[], [d], []⟩
  | .vadd _ _ d _ _ _ | .vsub _ _ d _ _ _ | .vmul _ _ d _ _ _ | .vfma _ _ d _ _ _ | .vmin _ _ d _ _ _
  | .vmax _ _ d _ _ _ | .vdiv _ _ d _ _ | .vadds _ _ d _ _ _ | .vsubs _ _ d _ _ _ | .vand _ _ d _ _ | .vor _ _ d _ _
  | .vxor _ _ d _ _ | .vandn _ _ d _ _ | .vsll _ _ d _ _ | .vsrl _ _ d _ _ | .vsra _ _ d _ _ | .vclmulLo _ _ d _ _
  | .vclmulHi _ _ d _ _ | .vpopc32 _ _ d _ _ | .vpopc64 _ _ d _ _ | .vperm32 _ _ d _ _ | .vperm8 _ _ d _ _
  | .vsqrt _ _ d _ | .vexp2 _ _ d _ | .vabs _ _ d _ _ | .vneg _ _ d _ _ | .vslli _ _ d _ _ | .vsrli _ _ d _ _
  | .vsrai _ _ d _ _ | .vcompress32 _ _ d _ | .vexpand32 _ _ d _ | .vmov32 _ _ d _ | .vcompress8 _ _ d _
  | .vexpand8 _ _ d _ | .vmov8 _ _ d _ | .vrsum _ _ d _ _ | .vrmax _ _ d _ _ | .vrmin _ _ d _ _ | .vscan _ _ d _ _
  | .vcvt _ _ d _ _ _ | .vslideup32 _ _ d _ _ | .vslidedn32 _ _ d _ _ | .vslideup8 _ _ d _ _ | .vslidedn8 _ _ d _ _
  | .vbcast32 _ _ d _ | .vbcast8 _ _ d _ | .vld _ _ d _ _ | .vlds _ _ d _ _ | .vgather _ _ d _ _ | .vldq _ _ d _
  | .mread _ d _ _ => ⟨[], [], [d]⟩
  | _ => ⟨[], [], []⟩

/-- R57: the accumulators that a word writes. -/
def destAcc (i : Instr) : List (BitVec 4) :=
  match i with
  | .mmaDesc _ d _ _ _ | .mmaRmt _ d _ _ _ | .mmaReg _ d _ _ _ | .mzero _ d | .mwrite _ d _ _ | .mldF32 _ d _ | .mldRaw _ d _ => [d]
  | .msmax _ d => [d ++ 0#1, d ++ 1#1]
  | _ => []

end Sys2Proof
end

