-- ==== Sys2Proof/Machine/Issue.lean ====
section
/-! DEFINITION. Issuing a bundle (R28, R29, R55, R90, R373): the packet's checks, the interlock, and the words of the
bundle acting together. `run` is the meaning of one word. -/

namespace Sys2Proof.Machine

/-! ### The checks of a packet (R55) -/

/-- R55: words that the unit context may not execute (R66, R88). -/
def fwOnly (i : Instr) : Bool :=
  match i with
  | .krotInstall _ _ _ _ | .krotQuery _ _ _ _ | .krotRetire _ _ _ _ | .krotDestroy _ _ _ _ => true
  | .scrubRegions _ _ _ _ | .scrubCluster _ _ _ _ | .scrubCore _ _ _ _ => true
  | .sigchk _ _ _ | .mext _ _ _ _ | .tret _ => true
  | .slotswQuery _ _ _ _ | .slotswQuiesce _ _ _ _ | .slotswSwitch _ _ _ _ | .slotswBeat _ _ _ _ | .slotswResume _ _ _ _ => true
  | .crd _ _ n => !unitReads n.toNat
  | .cwr _ _ n => n != 0x051
  | _ => false

/-- R91: words that act only on a unit. -/
def unitOnly (i : Instr) : Bool :=
  match i with
  | .done _ | .suspend _ _ | .post _ _ _ _ => true
  | _ => false

/-- R55: whether a word decodes in a context. -/
def wordLegal (fw : Bool) (w : BitVec 32) : Bool :=
  match decodeWord w with
  | some i => !(fw && unitOnly i)
  | none => false

/-- R55: whether a word's context lacks the right to it. -/
def wordPriv (fw : Bool) (w : BitVec 32) : Bool :=
  match decodeWord w with
  | some i => !fw && fwOnly i
  | none => false

/-- R27: whether word j shares its bundle with an earlier word of its pipe. -/
def pipeClash (ws : List (BitVec 32)) (j : Nat) : Bool :=
  (List.range j).any fun i => decide (bundleFirst ws j ≤ i) && pipeOf (ws.getD i 0) == pipeOf (ws.getD j 0)

/-- R55: the first fault of a packet in a context, with the word it names. -/
def packetFault (fw : Bool) (ws : List (BitVec 32)) : Option (Nat × Cause) :=
  match (List.range 3).find? fun i => !wordLegal fw (ws.getD i 0) with
  | some i => some (i, .illegalOp)
  | none =>
    if chainedAt ws 2 then some (2, .illegalChain)
    else match (List.range 3).find? (pipeClash ws) with
    | some j => some (j, .pipeClash)
    | none =>
      match (List.range 3).find? fun i => wordPriv fw (ws.getD i 0) with
      | some i => some (i, .priv)
      | none => none

/-! ### The words of a bundle -/

/-- A word of the bundle: its place in the packet, its bits and its instruction. -/
structure Slot where
  place : Nat
  bits : BitVec 32
  instr : Instr
deriving DecidableEq, Repr

/-- R52: the guard of a word. -/
def guardOf (w : BitVec 32) : BitVec 3 := w.extractLsb' 21 3

/-- R332, R350, R390: KROT, SCRUB and SLOTSW are told apart by their request. -/
def resolve (s : State) (i : Instr) : Instr :=
  match i with
  | .krotInstall h d a b =>
    let op := (s.rs a).toNat / 256 % 4
    if op = 0 then .krotInstall h d a b else if op = 1 then .krotQuery h d a b
    else if op = 2 then .krotRetire h d a b else .krotDestroy h d a b
  | .scrubRegions h d a b =>
    let k := (s.rs a).toNat % 4
    if k = 1 then .scrubCluster h d a b else if k = 2 then .scrubCore h d a b else .scrubRegions h d a b
  | .slotswQuery h d a b =>
    let op := (s.rs a).toNat % 16
    if op = 1 then .slotswQuiesce h d a b else if op = 2 then .slotswSwitch h d a b
    else if op = 3 then .slotswBeat h d a b else if op = 4 then .slotswResume h d a b else .slotswQuery h d a b
  | i => i

/-- The words of a bundle, decoded. -/
def bundleSlots (s : State) (ws : List (BitVec 32)) (first last : Nat) : List Slot :=
  (List.range (last + 1 - first)).filterMap fun k =>
    (decodeWord (ws.getD (first + k) 0)).map fun i => ⟨first + k, ws.getD (first + k) 0, resolve s i⟩

/-! ### The interlock (R29) -/

/-- The registers that the loads of a context still have to write. -/
def pendingOf (x : Ctx) : Touch :=
  { s := pendingS x.mq
    p := x.mq.filterMap fun e => match e.kind with
      | .capChk d _ => some d
      | _ => none
    v := x.mq.filterMap fun e => match e.kind with
      | .vld d | .vldElems d => some d
      | _ => none }

/-- R29, R56: whether a word must wait for a pending register; a word whose guard is false names only its guard. -/
def mustWait (x : Ctx) (w : Slot) : Bool :=
  let p := pendingOf x
  let g := guardOf w.bits
  p.p.contains g ||
    (x.regs.getP g &&
      (let t := touch w.instr
       t.s.any p.s.contains || t.p.any p.p.contains || t.v.any p.v.contains))

/-! ### Running the words -/

/-- The word takes its place as the word in hand. -/
def enter (s : State) (since : Nat) (regs : Regs) (last : Nat) (w : Slot) : State :=
  { s with snap := some regs, since := since, mark := .none, word := w.place, last := last,
           iword := w.bits }

/-- What a word leaves once it is no longer in hand. -/
def leave (s : State) : State := { s with snap := none, mark := .none, redirect := none }

/-- R28, R56: whether a word's guard is true among the registers at the start of its bundle. -/
def Slot.live (regs : Regs) (w : Slot) : Bool := regs.getP (guardOf w.bits)

/-- R90: a FENCE that shares its bundle with a live M-pipe or X-pipe word. -/
def fenceClash (regs : Regs) (ws : List Slot) (w : Slot) : Bool :=
  (match w.instr with
   | .fenceCore _ | .fenceCluster _ | .fenceDie _ | .fencePkg _ | .fenceSys _ => true
   | _ => false) && w.live regs && ws.any fun u => u.live regs && (pipeOf u.bits == some .m || pipeOf u.bits == some .x)

/-- R95, R91: words whose effect comes after the other words of their bundle. -/
def actsLast (i : Instr) : Bool :=
  match i with
  | .trap _ _ | .tret _ | .done _ | .suspend _ _ | .cwr _ _ _ => true
  | .slotswQuery _ _ _ _ | .slotswQuiesce _ _ _ _ | .slotswSwitch _ _ _ _ | .slotswBeat _ _ _ _ | .slotswResume _ _ _ _ => true
  | _ => false

/-- One word on its own. -/
def runWord (run : Instr → State → Out) (s : State) (since : Nat) (regs : Regs) (last : Nat) (ws : List Slot) (w : Slot) : Out :=
  let s := enter s since regs last w
  if fenceClash regs ws w then raise s .fenceOrder else run w.instr s

/-- R28, R69: the first word of the bundle that cannot take effect with the rest: the outcome it gives by itself. (DEDUCED: log 11.) -/
def firstStop (run : Instr → State → Out) (s : State) (last : Nat) (all : List Slot) : List Slot → Option Out
  | [] => none
  | w :: ws =>
    match runWord run s s.serial s.ctx.regs last all w with
    | .next t => if t.mark = .none ∨ t.mark = .ended then firstStop run s last all ws else some (.next t)
    | r => some r

/-- R28: the words of a bundle take effect in turn, each reading its registers as they stood at its start. (DEDUCED: log 11.) -/
def runAll (run : Instr → State → Out) (since : Nat) (regs : Regs) (last : Nat) (all : List Slot) : List Slot → State → Out
  | [], s => .next s
  | w :: ws, s =>
    match runWord run s since regs last all w with
    | .next t => if t.mark = .none then runAll run since regs last all ws t else .next t
    | r => r

/-- R57: the registers of an entry's result that later words of its bundle write. -/
def laterRegs (e : QEnt) (later : List Slot) : List Nat :=
  match e.kind with
  | .ld _ _ | .ldAcq _ _ | .amo _ _ _ | .capLd _ => later.flatMap fun w => (dests w.instr).s.map (·.toNat)
  | .capChk _ _ => later.flatMap fun w => (dests w.instr).p.map (·.toNat)
  | .vld _ | .vldElems _ => later.flatMap fun w => (dests w.instr).v.map (·.toNat)
  | .mld _ _ => later.flatMap fun w => (destAcc w.instr).map (·.toNat)
  | _ => []

/-- R57: what the bundle in hand has put in flight leaves to its later words the registers that they write. -/
def keepLater (s : State) (since : Nat) (live : List Slot) : State :=
  let x := s.ctx
  let after (n : Nat) : List Slot := live.filter fun w => decide (n < w.place)
  s.setCtx { x with
    mq := x.mq.map fun e => if since ≤ e.id then { e with keep := laterRegs e (after e.wword) } else e
    mmas := x.mmas.map fun r =>
      if since ≤ r.id then { r with lost := (after r.wword).any fun w => (destAcc w.instr).contains r.acc } else r }

/-- R57: a word that acts after the others of its bundle leaves to its later words the registers that they have written. -/
def keepWritten (s : State) (w : Slot) (live : List Slot) (t : State) : State :=
  ((dests w.instr).s.filter fun d => live.any fun u => decide (w.place < u.place) && (dests u.instr).s.contains d).foldl
    (fun t d => t.wrS d (s.ctx.regs.getS d)) t

/-- R91, R95: the words of a bundle that act after the others. -/
def runLast (run : Instr → State → Out) (since : Nat) (regs : Regs) (last : Nat) (all : List Slot) : List Slot → State → Out
  | [], s => .next s
  | w :: ws, s =>
    match runWord run s since regs last all w with
    | .next t =>
      if t.mark = .none then runLast run since regs last all ws (keepWritten s w (all.filter (·.live regs)) t) else .next t
    | r => r

/-- R87: after the last bundle of a packet the loop end is handled, at once or when its count has come. -/
def closeBundle (s : State) : State :=
  let x := s.ctx
  if s.redirect.isNone && decide (2 ≤ s.last) && countPending x x.mq then s.setCtx { x with word := 3, viaJr := none }
  else advance s

/-- R401: how many of the words are vector words. -/
def vectorWords (ws : List Slot) : Nat :=
  (ws.filter fun w => decide (0x40 ≤ w.bits.toNat / 2 ^ 24 % 128) && decide (w.bits.toNat / 2 ^ 24 % 128 ≤ 0x5C)).length

/-- R320, R328, R373, R401: the books of an issue. (DEDUCED: log 20.) -/
def countIssue (s : State) (ws : List Slot) : State :=
  let c := s.cur
  if s.fw then s.setCur { c with shareUsed := c.shareUsed + 1 }
  else (s.setCur { c with issued := s.clk, unit := { c.unit with brkSkip := false, waits := none } }).count s.curPart 4 (vectorWords ws)

/-- R320: the context waits for the word at a place in its packet. -/
def waitAt (s : State) (place : Nat) : State := s.setCtx { s.ctx with waits := some place }

/-- R91, R320: a bundle has been run whose context does not go on from it: one that has issued a DONE or a SUSPEND waits for that word. -/
def closeEnded (s : State) (ws : List Slot) : State :=
  let place := s.word
  let s := countIssue s ws
  if !s.fw && s.cur.ending.isSome then waitAt s place else s

/-- A bundle has been run: it waits, it has trapped, its context has ended, or the context goes on. -/
def finish (ws : List Slot) (o : Out) : Out :=
  match o with
  | .next t =>
    match t.mark with
    | .none => .next (leave (countIssue (closeBundle t) ws))
    | .stall => .next (leave (waitAt t t.word))
    | .trap => .next (leave t)
    | .ended => .next (leave (closeEnded t ws))
  | r => r

/-- R28: the words of a bundle act together. -/
def runBundle (run : Instr → State → Out) (s : State) (last : Nat) (ws : List Slot) : Out :=
  match ws with
  | [w] => finish ws (runWord run s s.serial s.ctx.regs last ws w)
  | _ =>
    match firstStop run s last ws ws with
    | some o => finish ws o
    | none =>
      let regs := s.ctx.regs
      match runAll run s.serial regs last ws (ws.filter fun w => !actsLast w.instr) s with
      | .next t =>
        if t.mark = .stall then .next (leave (waitAt s t.word))
        else if t.mark ≠ .none then finish ws (.next t)
        else match runLast run s.serial regs last ws (ws.filter fun w => actsLast w.instr) (keepLater t s.serial (ws.filter (·.live regs))) with
        | .next t => if t.mark = .stall then .next (leave (waitAt s t.word)) else finish ws (.next t)
        | r => r
      | r => r

/-! ### Issuing -/

/-- R26, R86: a fetch that faults: the trap names word 0 of the packet, and for JR the whole register. (DEDUCED: log 11.) -/
def fetchFault (s : State) (k : Cause) : Out :=
  let x := s.ctx
  finish [] (raiseAt { s with word := x.word % 3 } k (x.viaJr.getD 0))

/-- R55: the checks, the interlock and the bundle. -/
def issueFrom (run : Instr → State → Out) (s : State) (ws : List (BitVec 32)) : Out :=
  match packetFault s.fw ws with
  | some (i, k) => finish [] (raise { s with word := i } k)
  | none =>
    let first := bundleFirst ws s.ctx.word
    let last := bundleLast ws first
    let slots := bundleSlots s ws first last
    match slots.find? (mustWait s.ctx) with
    | some w => .next (waitAt s w.place)
    | none => runBundle run s last slots

/-- R26: the packet is fetched. -/
def fetchIssue (run : Instr → State → Out) (s : State) : Out :=
  let x := s.ctx
  if x.viaJr.any (fun a => a.toNat / 2 ^ 32 != 0) then fetchFault s .unmapped
  else match fetchPacket s s.core s.fw x.pc with
  | (s, .ok ws) => issueFrom run s ws
  | (s, .fail k) => fetchFault s k
  | (s, .wait) => .next s

/-- R87: the acting context handles the end of its packet, if it has not yet. None while the count is pending. -/
def packetEnd (s : State) : Option State :=
  let x := s.ctx
  if x.word < 3 then some s else if countPending x x.mq then none else some (s.setCtx x.endPacket)

/-- R123: a unit context whose streams lack reads since its return from a trap has them issued before its next bundle. None while
the guard cannot take them all. -/
def streamsReady (s : State) : State × Bool :=
  if s.fw || !readsLack s.ctx then (s, true)
  else
    let s := reissueAll s s.core s.fw
    (s, !readsLack s.ctx)

/-- R329: a trap of the acting unit's boundary is taken, unless the next bundle's DONE goes before it. -/
def trapOrDone (run : Instr → State → Out) (s t : State) : Out :=
  if doneDue s s.core then
    match fetchIssue run s with
    | .next u => if u.cur.ending.isSome || u.cur.st == .none then .next u else .next (leave t)
    | r => r
  else .next (leave t)

/-- The acting context issues its next bundle, after what it takes at its boundary. -/
def issueNow (run : Instr → State → Out) (s : State) : Out :=
  match packetEnd s with
  | none => .next s
  | some s =>
    if s.fw then
      match oldestFault s s.core true with
      | some d => .next (leave (fwFault s s.core d.cause))
      | none => fetchIssue run s
    else if cancelDue s s.core then .next (leave (discardUnit s s.core))
    else match (if cancelling s s.core then none else boundaryTrap s s.core) with
    | some t => trapOrDone run s t
    | none =>
      match streamsReady s with
      | (s, true) => fetchIssue run s
      | (s, false) => .next s

/-- R373: windows of 256 clk. (DEDUCED: log 20.) -/
def shareWindow (s : State) : State :=
  let c := s.cur
  if c.shareDue ≤ s.clk then s.setCur { c with shareUsed := 0, shareDue := s.clk + 256 - (s.clk - c.shareDue) % 256 } else s

/-- Whether a context of the acting core can issue at all (R12, R316). -/
def present? (s : State) : Bool := if s.fw then s.cur.fwOn else trapFree s s.core && s.cur.ending.isNone

/-- R373: whether the unit context has a bundle ready: it would issue. -/
def unitReady (run : Instr → State → Out) (s : State) : Bool :=
  let u := { s.setCur { s.cur with issued := s.clk + 1 } with fw := false }
  present? u && (match issueNow run u with
    | .next t => t.cores[u.core].issued == u.clk || t.cores[u.core].st != .running
    | _ => false)

/-- R373: whether the firmware context has had its share of the window while the unit context is ready. An event not yet
taken grants it one bundle. (DEDUCED: log 20.) -/
def shareSpent (run : Instr → State → Out) (s : State) : Bool :=
  let c := s.cur
  let event := s.loadNat (tmAddr s.core evCount) 8 != s.loadNat (tmAddr s.core evTaken) 8
  s.fw && decide (c.ctl.fwshare.toNat ≤ c.shareUsed) && !(event && c.shareUsed == 0) && unitReady run s

/-- R28: a turn of the acting context. -/
def issue (run : Instr → State → Out) (s : State) : Out :=
  if !s.fw && s.cur.ending.isSome then .next (finishEnding s s.core)
  else if !present? s then .next s
  else
    let s := shareWindow s
    if shareSpent run s then .next s else issueNow run s

end Sys2Proof.Machine
end

