-- ==== Sys2Proof/Machine/Portable.lean ====
section
/-! DEFINITION. The portable form of a code object and its translation into native words (R276 to R278). -/

namespace Sys2Proof.Machine

/-- R276: the role of a field that names a single s register. -/
inductive FieldRole where
  | source | dest | both
deriving DecidableEq, Repr

/-- R276: the fields of a word that name a single s register: lowest bit, and role. -/
def regFields (i : Instr) : List (Nat × FieldRole) :=
  match i with
  | .add _ _ _ _ | .sub _ _ _ _ | .and _ _ _ _ | .or _ _ _ _ | .xor _ _ _ _ | .sll _ _ _ _ | .srl _ _ _ _
  | .sra _ _ _ _ | .min _ _ _ _ | .max _ _ _ _ | .minu _ _ _ _ | .maxu _ _ _ _ | .mul _ _ _ _ | .mulh _ _ _ _
  | .mulhu _ _ _ _ | .div _ _ _ _ | .divu _ _ _ _ | .rem _ _ _ _ | .remu _ _ _ _ | .andn _ _ _ _ | .orn _ _ _ _
  | .sel _ _ _ _ _ | .addsh _ _ _ _ _ | .mwaitNe _ _ _ _ | .mwaitEq _ _ _ _ | .cpy2d _ _ _ _ | .cpy2dCvtRelay _ _ _ _
  | .cpy2dCvtQnt _ _ _ _ | .cpy2dCvtZexp _ _ _ _ | .cpy2dRedAddF32 _ _ _ _ | .cpy2dRedAddBf16 _ _ _ _
  | .cpy2dRedMaxF32 _ _ _ _ | .cpy2dRedMinF32 _ _ _ _ | .cpy2dStamp _ _ _ _ | .krotInstall _ _ _ _
  | .krotQuery _ _ _ _ | .krotRetire _ _ _ _ | .krotDestroy _ _ _ _ | .sealChunks _ _ _ _ | .unsealChunks _ _ _ _
  | .scrubRegions _ _ _ _ | .scrubCluster _ _ _ _ | .scrubCore _ _ _ _ | .mext _ _ _ _ | .slotswQuery _ _ _ _
  | .slotswQuiesce _ _ _ _ | .slotswSwitch _ _ _ _ | .slotswBeat _ _ _ _ | .slotswResume _ _ _ _ =>
    [(16, .dest), (11, .source), (6, .source)]
  | .clz _ _ _ | .ctz _ _ _ | .popc _ _ _ | .addi _ _ _ _ | .andi _ _ _ _ | .ori _ _ _ _ | .xori _ _ _ _
  | .slli _ _ _ _ | .srli _ _ _ _ | .srai _ _ _ _ | .ld _ _ _ _ _ | .ldAcq _ _ _ _ _ | .sigchk _ _ _ =>
    [(16, .dest), (11, .source)]
  | .li _ _ _ | .crd _ _ _ => [(16, .dest)]
  | .li16 _ _ _ | .li32 _ _ _ | .li48 _ _ _ | .call _ _ _ | .loop _ _ _ => [(16, .both)]
  | .cmpEq _ _ _ _ | .cmpNe _ _ _ _ | .cmpLt _ _ _ _ | .cmpLe _ _ _ _ | .cmpLtu _ _ _ _ | .cmpLeu _ _ _ _
  | .binit _ _ _ | .bexp _ _ _ | .barrv _ _ _ | .bwait _ _ _ | .btest _ _ _ _ => [(11, .source), (6, .source)]
  | .cmpiEq _ _ _ _ | .cmpiNe _ _ _ _ | .cmpiLt _ _ _ _ | .cmpiGe _ _ _ _ | .cmpiLtu _ _ _ _ | .cmpiGeu _ _ _ _
  | .jr _ _ | .cwr _ _ _ | .mldF32 _ _ _ | .mldRaw _ _ _ | .mqnt _ _ _ _ _ | .cpycan _ _ | .nestLd _ _
  | .capchk _ _ _ _ | .capld _ _ _ _ => [(11, .source)]
  | .post _ _ _ _ | .st _ _ _ _ _ | .stRel _ _ _ _ _ | .capdrv _ _ _ _ | .capst _ _ _ => [(16, .source), (11, .source)]
  | .amoAdd _ _ _ _ _ | .amoAnd _ _ _ _ _ | .amoOr _ _ _ _ _ | .amoXor _ _ _ _ _ | .amoMin _ _ _ _ _
  | .amoMax _ _ _ _ _ | .amoMinu _ _ _ _ _ | .amoMaxu _ _ _ _ _ | .amoSwap _ _ _ _ _ | .amoCas _ _ _ _ _ =>
    [(16, .both), (11, .source), (6, .source)]
  | .qst _ _ _ _ t _ _ => [(16, if t then .both else .dest), (11, .source), (6, .source)]
  | .mcnt _ _ _ _ | .mfirst _ _ _ _ => [(13, .dest)]
  | .vslideup32 _ _ _ _ _ | .vslidedn32 _ _ _ _ _ | .vslideup8 _ _ _ _ _ | .vslidedn8 _ _ _ _ _ | .vqrec _ _ _ _ _ =>
    [(3, .source)]
  | .vbcast32 _ _ _ _ | .vbcast8 _ _ _ _ | .vgather _ _ _ _ _ | .vscatter _ _ _ _ _ | .vbind _ _ _
  | .vamoAddF32 _ _ _ _ | .vamoAddBf16 _ _ _ _ => [(8, .source)]
  | .vld _ _ _ _ _ | .vlds _ _ _ _ _ | .vst _ _ _ _ _ | .vsts _ _ _ _ _ => [(8, .source), (3, .source)]
  | .vqst _ _ _ _ _ t _ => [(13, if t then .both else .dest), (8, .source)]
  | .mstF32 _ _ _ | .mstRaw _ _ _ => [(16, .source)]
  | .pand _ _ _ _ | .por _ _ _ _ | .pxor _ _ _ _ | .pandn _ _ _ _ | .br _ _ | .fenceCore _ | .fenceCluster _
  | .fenceDie _ | .fencePkg _ | .fenceSys _ | .done _ | .suspend _ _ | .trap _ _ | .tret _ | .lsaln _
  | .mwaitReread _ _ | .vadd _ _ _ _ _ _ | .vsub _ _ _ _ _ _ | .vmul _ _ _ _ _ _ | .vfma _ _ _ _ _ _
  | .vmin _ _ _ _ _ _ | .vmax _ _ _ _ _ _ | .vdiv _ _ _ _ _ | .vsqrt _ _ _ _ | .vexp2 _ _ _ _ | .vabs _ _ _ _ _
  | .vneg _ _ _ _ _ | .vadds _ _ _ _ _ _ | .vsubs _ _ _ _ _ _ | .vand _ _ _ _ _ | .vor _ _ _ _ _ | .vxor _ _ _ _ _
  | .vandn _ _ _ _ _ | .vsll _ _ _ _ _ | .vsrl _ _ _ _ _ | .vsra _ _ _ _ _ | .vslli _ _ _ _ _ | .vsrli _ _ _ _ _
  | .vsrai _ _ _ _ _ | .vclmulLo _ _ _ _ _ | .vclmulHi _ _ _ _ _ | .vpopc32 _ _ _ _ _ | .vpopc64 _ _ _ _ _
  | .vcmpEq _ _ _ _ _ _ | .vcmpLt _ _ _ _ _ _ | .vcmpLe _ _ _ _ _ _ | .vcmpLtu _ _ _ _ _ _ | .mand _ _ _ _ _
  | .mor _ _ _ _ _ | .mxor _ _ _ _ _ | .mandn _ _ _ _ _ | .mnot _ _ _ _ | .vperm32 _ _ _ _ _ | .vcompress32 _ _ _ _
  | .vexpand32 _ _ _ _ | .vmov32 _ _ _ _ | .vperm8 _ _ _ _ _ | .vcompress8 _ _ _ _ | .vexpand8 _ _ _ _
  | .vmov8 _ _ _ _ | .vrsum _ _ _ _ _ | .vrmax _ _ _ _ _ | .vrmin _ _ _ _ _ | .vscan _ _ _ _ _ | .vcvt _ _ _ _ _ _
  | .vldq _ _ _ _ | .vstq _ _ _ _ | .vunbind _ _ | .streamRead _ _ | .mmaDesc _ _ _ _ _ | .mmaReg _ _ _ _ _
  | .mmaRmt _ _ _ _ _ | .mmaTileFetch _ _ | .mmaAccumulate _ _ | .mzero _ _ | .msmax _ _ | .mread _ _ _ _
  | .mwrite _ _ _ _ | .copyBox _ _ | .copyStamp _ _ | .nestGo _ | .nestWait _ | .nestEmit _ _ | .heartbeatMissed
  | .fwFault _ _ | .handUnit _ | .resumeRecord _ | .shardWatch _ _ | .overflowRefill _ | .takeTrap _
  | .deferredFault _ _ | .tokenExpire _ | .watchdog _ | .loadReturn _ _ | .storePerform _ _ | .bankRequest _ _
  | .atomicEngineRequest _ | .leaseLookup _ _ | .translate _ _ | .counterWrite _ _ | .nodeWriteback _ _ _
  | .memSweep _ | .keyDrained _ | .rampWindow _ | .inval _ | .invalAll _ | .evict _ | .evictComplete _ | .migrate _
  | .migrateMove _ | .present _ | .refuse _ | .wnop _ | .wbuf _ _ _ _ _ | .wfree _ | .wtask _ | .wcall _ _ _ _ | .wret
  | .wpred _ _ _ _ _ _ | .wloop _ _ | .wend | .wfence | .wfenceT _ _ | .wwait _ _ _ _ _ _ | .wwaitReread _
  | .wwaitLimit _ | .wsignalSt _ _ _ _ _ | .wsignalAdd _ _ _ _ _ | .wsignalEffect _ | .wgraph _ _ _ | .wphase _ _
  | .wcancelLaunch _ | .wcancelGraph _ | .wcancelPhase _ | .wcancelJob _ | .whalt _ | .haltEffect _ | .streamFault _
  | .fetchBlock _ | .leaseGrant _ | .issueLaunch _ | .retire _ | .faultReport _ | .cancel _ | .pick _ | .pickTimeout _
  | .sliceExpire _ | .entryComplete _ | .enable _ | .restart _ | .skip _ | .drop _ | .stop _ | .clrerr _
  | .qtailWrite _ _ _ | .jobcan _ _ | .regWrite _ _ _ _ | .vfFlr _ | .bar2Read _ _ _ | .bar2Write _ _ _ _ | .pickq _
  | .abandon _ | .save _ | .saveWrite _ | .restore _ | .topiaryLit _ | .topiaryDup | .topiaryDrop | .topiarySwap
  | .topiaryLdq _ | .topiaryLdl _ | .topiaryStl _ | .topiaryAdd | .topiarySub | .topiaryMul | .topiaryMin
  | .topiaryMax | .topiaryAnd | .topiaryOr | .topiaryLt | .topiaryEq | .topiaryJz _ | .topiaryJmp _ | .topiaryForq _
  | .topiaryNextq | .topiaryPick | .topiarySlice | .topiaryRet | .rd _ | .rdrsp _ | .wr _ | .wrack _ | .qstMessage _
  | .land _ | .rel _ | .amoMessage _ | .amorsp _ | .vamoMessage _ | .red _ | .tile _ | .tilersp _ | .holdfull _
  | .err _ | .holdExpire _ | .escapeRoute _ | .flitReceive _ _ | .poolStopGo _ _ | .linkTrain _ _ | .hfcfgWrite _ _
  | .getTdispVersion _ | .getTdispCapabilities _ | .lockInterfaceRequest _ | .getDeviceInterfaceReport _
  | .getDeviceInterfaceState _ | .startInterfaceRequest _ | .stopInterfaceRequest _ | .setSealSecret _ _ | .tdiError _
  | .getVersion | .getCapabilities | .negotiateAlgorithms | .getDigests | .getCertificate _ _ | .challenge _
  | .getMeasurements _ _ | .keyExchange _ _ | .finish _ | .endSession _ | .uncorrectableError _ _ _
  | .correctableError _ | .admtailWrite _ | .create | .destroy | .wipe | .meter | .intervalCut _ | .pwrcmdWrite _
  | .thermclr _ | .thermalTrip1 _ | .thermalTrip2 _ | .updreqWrite _ | .pfidRead | .pfBar2Write _ _ _ | .reset
  | .linkDown _ | .quantBlockWritten _ _ | .regintBoundary => []

/-- The fields of a word of a variant. -/
def wordFields (w : BitVec 32) : List (Nat × FieldRole) :=
  match decodeWord w with
  | some i => regFields i
  | none => []

/-- The value of a register field. -/
def fieldVal (w : BitVec 32) (lo : Nat) : Nat := (w.extractLsb' lo 5).toNat

/-- A register field is replaced. -/
def setField (w : BitVec 32) (lo v : Nat) : BitVec 32 :=
  BitVec.ofNat 32 (w.toNat - fieldVal w lo * 2 ^ lo + v * 2 ^ lo)

/-- Word i of a variant. -/
def wordAt (ws : List (BitVec 32)) (i : Nat) : BitVec 32 := ws.getD i 0

/-- R27: the first word of the bundle that holds word i of a variant; it stands for the bundle. -/
def bundleOf (ws : List (BitVec 32)) (i : Nat) : Nat := 3 * (i / 3) + bundleFirst ((ws.drop (3 * (i / 3))).take 3) (i % 3)

/-- R276: whether word i has a destination marked Allocate. -/
def allocates (ws : List (BitVec 32)) (i : Nat) : Bool :=
  (wordFields (wordAt ws i)).any fun f => f.2 == .dest && fieldVal (wordAt ws i) f.1 == 12

/-- R277: a branch, call, loop or JR word. -/
def endsBlock (w : BitVec 32) : Bool :=
  match decodeWord w with
  | some (.br _ _) | some (.call _ _ _) | some (.loop _ _ _) | some (.jr _ _) => true
  | _ => false

/-- R54: the packet that a B-format word in packet `pc` targets. (DEDUCED: log 28.) -/
def formatTarget (w : BitVec 32) (pc : Nat) : Option Int :=
  match decodeWord w with
  | some (.br _ o) | some (.call _ _ o) | some (.loop _ _ o) => some (pc + o.toInt)
  | _ => none

/-- R277: whether a packet is the target of a B-format word of the variant. -/
def targeted (ws : List (BitVec 32)) (packet : Nat) : Bool :=
  ws.zipIdx.any fun (w, i) => formatTarget w (i / 3) == some (packet : Int)

/-- R277: whether word i may name the value of word k. -/
def mayName (ws : List (BitVec 32)) (i k : Nat) : Bool :=
  allocates ws k && decide (bundleOf ws k < bundleOf ws i) &&
    (List.range (i - k)).all fun j =>
      (j == 0 || !endsBlock (wordAt ws (k + j))) && !((k + j + 1) % 3 == 0 && targeted ws ((k + j + 1) / 3))

/-- R276: the word that a source field of word i names, for values from 12 on. None where it names none. -/
def named (i v : Nat) : Option Nat := if v - 11 ≤ i then some (i - (v - 11)) else none

/-- R278: the bundle of the last word that reads word k's value; its own bundle if none does. -/
def lastReader (ws : List (BitVec 32)) (k : Nat) : Nat :=
  (ws.zipIdx.filter fun (w, i) => (wordFields w).any fun f =>
    f.2 == .source && decide (12 ≤ fieldVal w f.1) && named i (fieldVal w f.1) == some k).foldl
    (fun b x => max b (bundleOf ws x.2)) (bundleOf ws k)

/-- R278: the lowest register of s12 to s30 that is free in the bundle of word i. `got` holds each value's word and register. -/
def freeReg (ws : List (BitVec 32)) (got : List (Nat × Nat)) (i : Nat) : Option Nat :=
  ((List.range 19).map (12 + ·)).find? fun r => !got.any fun x => x.2 == r && decide (bundleOf ws i ≤ lastReader ws x.1)

/-- R276, R278: one field of word i: the word with the field in its native form, and the values assigned so far. -/
def portField (ws : List (BitVec 32)) (i : Nat) (f : Nat × FieldRole) (w : BitVec 32) (got : List (Nat × Nat)) :
    Option (BitVec 32 × List (Nat × Nat)) :=
  let v := fieldVal (wordAt ws i) f.1
  if v ≤ 11 then some (w, got)
  else match f.2 with
  | .both => none
  | .dest =>
    if v = 12 then (freeReg ws got i).map fun r => (setField w f.1 r, (i, r) :: got) else none
  | .source =>
    match named i v with
    | some k => if mayName ws i k then (got.lookup k).map fun r => (setField w f.1 r, got) else none
    | none => none

/-- R278: one word. -/
def portWord (ws : List (BitVec 32)) (i : Nat) (got : List (Nat × Nat)) : Option (BitVec 32 × List (Nat × Nat)) :=
  (wordFields (wordAt ws i)).foldlM (fun acc f => portField ws i f acc.1 acc.2) (wordAt ws i, got)

/-- R276 to R278: the native words of a portable variant, or none where its translation fails. (DEDUCED: log 28.) -/
def translatePortable (ws : List (BitVec 32)) : Option (List (BitVec 32)) :=
  ((List.range ws.length).foldlM (fun (acc : List (BitVec 32) × List (Nat × Nat)) i =>
    (portWord ws i acc.2).map fun x => (acc.1 ++ [x.1], x.2)) ([], [])).map (·.1)

end Sys2Proof.Machine
end

