-- ==== Sys2Proof/Machine/Matrix.lean ====
section
/-! DEFINITION. The matrix words (R174 to R195) and VQREC (R112 to R115), and the events that carry them out. -/

namespace Sys2Proof.Machine

/-! ### The order of accumulators (R175) -/

/-- R172: whether a matrix-kind nest run has its go bit set. -/
def matrixRun (x : Ctx) : Bool := x.nest.go && byteAt x.nest.active 0 == 1

/-- R175: whether an earlier MLD has still to write an accumulator. -/
def loadsAcc (x : Ctx) (a : BitVec 4) : Bool :=
  x.mq.any fun e => match e.kind with
    | .mld b _ => b == a
    | _ => false

/-- R175, R195: whether an earlier MQNT still reads an accumulator. -/
def quantReads (x : Ctx) (a : BitVec 4) : Bool := x.quants.any fun q => q.acc == some a

/-- R175: whether an earlier MMA has still to write an accumulator. -/
def mmaWrites (x : Ctx) (a : BitVec 4) : Bool := x.mmas.any fun r => r.acc == a

/-- R175: a word that reads an accumulator waits for its earlier writers. -/
def readWaits (x : Ctx) (a : BitVec 4) : Bool := matrixRun x || mmaWrites x a || loadsAcc x a

/-- R175: a word that writes an accumulator waits for its earlier writers and readers. -/
def writeWaits (x : Ctx) (a : BitVec 4) : Bool := readWaits x a || quantReads x a

/-! ### Checks of operands (R180, R182) -/

/-- R180: the operands of a descriptor-form MMA. -/
structure MmaArgs where
  acc : BitVec 4
  remote : Bool
  ty : MmaTy
  aBase : Word
  aCtl : Word
  bBase : Word
  bCtl : Word
deriving DecidableEq, Repr

/-- R180 step 1: FORMAT. -/
def mmaFormatOk (m : MmaArgs) : Bool :=
  let skewOk (a c : Word) : Bool := inCmWindow a.toNat || (!cEsp c && cRot c == 0)
  let one (c : Word) : Bool := cReservedOk c && (m.ty != .recd || cRPitch c == 0)
  one m.aCtl && one m.bCtl && cKt m.aCtl == cKt m.bCtl && skewOk m.aBase m.aCtl && skewOk m.bBase m.bCtl

/-- R178, R180 step 2: MISALIGN of one operand. TPITCH is ignored when KT = 1. -/
def operandAligned (ty : MmaTy) (a c : Word) : Bool :=
  (cKt c == 1 || cTPitch c % 16 == 0) && (if ty = .recd then a.toNat % 16 == 0 else a.toNat % 8 == 0 && cRPitch c % 8 == 0)

/-- R180 steps 3 and 4: the first byte of a local operand. -/
def firstByte (s : State) (c : Fin 512) (fw : Bool) (a : Word) : Option Cause :=
  match localCheck s c fw a.toNat 1 .read with
  | .ok _ => none
  | .error k => some k

/-- R180: the first failure, with the address that it names. (DEDUCED: log 11.) -/
def mmaFault (s : State) (c : Fin 512) (fw : Bool) (m : MmaArgs) : Option (Cause × Word) :=
  if !mmaFormatOk m then some (.format, 0)
  else if !operandAligned m.ty m.aBase m.aCtl then some (.misalign, m.aBase)
  else if !operandAligned m.ty m.bBase m.bCtl then some (.misalign, m.bBase)
  else if m.aBase.getLsbD 63 then some (.unmapped, m.aBase)
  else if m.bBase.getLsbD 63 != m.remote then some (.unmapped, m.bBase)
  else match firstByte s c fw m.aBase with
  | some k => some (k, m.aBase)
  | none => if m.remote then none else (firstByte s c fw m.bBase).map (·, m.bBase)

/-- R19: the end of the row that holds an address. -/
def rowEnd (a : Nat) : Nat :=
  match rowOf a with
  | .general => 0x78000
  | .barriers => 0x7C000
  | .trapArea => 0x7E000
  | .work => 0x7FF00
  | .args => 0x80000
  | .ownCm => 0x1800000
  | .place k => 0x100000000 + k.val * 2 ^ 24 + 2 ^ 23
  | _ => a + 1

/-- R182: the range of a local operand: its first address and its end. -/
def operandRange (ty : MmaTy) (a c : Word) : Nat × Nat :=
  let lo := a.toNat
  let hi := lo + (cKt c - 1) * cTPitch c + tileExtent ty c
  let wide := cEsp c || cRot c != 0
  let lo' := if wide then lo / 2048 * 2048 else lo
  let hi' := if wide then (hi + 2047) / 2048 * 2048 else hi
  (lo', min hi' (rowEnd lo))

/-- R182: the guard entries of a descriptor-form MMA. -/
def mmaNeeds (s : State) (c : Fin 512) (m : MmaArgs) : List (Nat × Nat × Bool) :=
  let one (a ctl : Word) : Option Nat × Nat × Bool :=
    let (lo, hi) := operandRange m.ty a ctl
    ((relocate s c (BitVec.ofNat 64 lo)).bind (scratch c), hi - lo, false)
  guardNeeds (one m.aBase m.aCtl :: if m.remote then [] else [one m.bBase m.bCtl])

/-- R182, R184: an MMA enters the matrix unit. -/
def startMma (s : State) (c : Fin 512) (fw nest : Bool) (m : MmaArgs) : State :=
  let core := s.cores[c]
  let r : MmaRun :=
    { id := s.serial, acc := m.acc, lost := false, remote := m.remote, ty := m.ty, aBase := m.aBase, aCtl := m.aCtl, bBase := m.bBase,
      bCtl := m.bCtl, pix := 0, aTiles := [], bTiles := [], bStage := .waiting, tile := none, parts := [], got := [],
      arrival := s.clk, nest := nest, pkt := (core.ctx fw).pc,
      wword := s.word, word := s.iword }
  let x := core.ctx fw
  let core := takeGuard (core.setCtx fw { x with mmas := x.mmas ++ [r] }) s.serial fw (mmaNeeds s c m)
  { s.putCore c core with serial := s.serial + 1 }

/-- R175, R182, R187: whether a descriptor-form MMA must wait at issue. (DEDUCED: log 16.) -/
def mmaWaits (s : State) (c : Fin 512) (fw : Bool) (m : MmaArgs) : Bool :=
  let core := s.cores[c]
  let x := s.older (core.ctx fw)
  loadsAcc x m.acc || quantReads x m.acc || !guardOk core (mmaNeeds s c m) || (!fw && decide (8 ≤ captured (core.ctx fw)))

/-- R185: a descriptor-form MMA at issue. -/
def issueMma (remote : Bool) (h : Head) (d a b : BitVec 4) (k : MmaTy) (s : State) : Out :=
  guarded h s fun s =>
    let even (i : BitVec 4) : BitVec 5 := i ++ 0#1
    let odd (i : BitVec 4) : BitVec 5 := i ++ 1#1
    let m : MmaArgs := ⟨d, remote, k, s.rs (even a), s.rs (odd a), s.rs (even b), s.rs (odd b)⟩
    match mmaFault s s.core s.fw m with
    | some (k, va) => raiseAt s k va
    | none =>
      if matrixRun s.olderCtx || acqWaits s || mmaWaits s s.core s.fw m then stall s
      else .next (startMma s s.core s.fw false m)

/-- MMA with local operands (R185). -/
def execMmaDesc (h : Head) (d : BitVec 4) (a : BitVec 4) (b : BitVec 4) (k : MmaTy) (s : State) : Out :=
  issueMma false h d a b k s

/-- MMA.RMT (R183, R185). -/
def execMmaRmt (h : Head) (d : BitVec 4) (a : BitVec 4) (b : BitVec 4) (k : MmaTy) (s : State) : Out :=
  issueMma true h d a b k s

/-- R179: the 1,024 bytes of a group of four vector registers. -/
def groupBytes (r : Regs) (g : BitVec 3) : List Byte :=
  (List.range 4).flatMap fun i => vecBytes (r.getV (BitVec.ofNat 5 (4 * g.toNat + i)))

/-- MMA with register operands (R179, R185). -/
def execMmaReg (h : Head) (d : BitVec 4) (a : BitVec 3) (b : BitVec 3) (k : MmaTy) (s : State) : Out :=
  guarded h s fun s =>
    let steps := groupSteps k (groupBytes s.src a) (groupBytes s.src b)
    let ws := steps.map fun x => stepWeight k x.1 x.2
    if acqWaits s || writeWaits s.olderCtx d then stall s
    else if !rampAllows s.cur ws then stall (rampWaits s s.core)
    else .next ((rampStart s s.core s.fw ws).wrA d (mmaResult s s.core k (s.ra d) steps))

/-- R184, R265: MMA_TILE_FETCH: the fetch of the first MMA that fetches goes on: a part of a tile is read, the next tile is asked for, or
what has been read is taken, unless the step would pass the cap. -/
def execMmaTileFetch (core : Fin 512) (fw : Bool) (s : State) : Out :=
  match fetchingMma (s.cores[core].ctx fw) with
  | some r =>
    if !r.parts.isEmpty then .next (runOwn s core (tileReqs s core fw))
    else
    let t := mmaTurn s core fw r
    match (t.cores[core].ctx fw).mmas.find? fun q => q.id == r.id && q.pix == r.pix + 1 with
    | some q =>
      let ws := [stepWeight r.ty (q.aTiles.getLastD []) (q.bTiles.getLastD [])]
      .next (if rampAllows s.cores[core] ws then rampStart t core fw ws else rampWaits s core)
    | none => .next t
  | none => .next s

/-- R149, R185: MMA_ACCUMULATE: an MMA whose steps are all fetched writes its accumulator. -/
def execMmaAccumulate (core : Fin 512) (fw : Bool) (s : State) : Out :=
  match readyMma (s.cores[core].ctx fw) with
  | some r => .next (mmaFinish s core fw r)
  | none => .next s

/-! ### MLD and MST (R188, R189) -/

/-- R188: the bytes of an image. -/
def imageBytes (raw : Bool) : Nat := if raw then 2176 else 1152

/-- R189: the checks of an image as one access, which must lie in TM general use. -/
def imageBlock (s : State) (ea : Word) (raw : Bool) (i : Intent) (f : Nat → Out) : Out :=
  let n := imageBytes raw
  if ea.toNat % 64 ≠ 0 then raiseAt s .misalign ea
  else match localCheck s s.core s.fw ea.toNat n i with
  | .error k => raiseAt s k ea
  | .ok _ => if rowOf ea.toNat = .general then f ea.toNat else raiseAt s .unmapped ea

/-- R189: MLD enters the load queue. -/
def issueMld (raw : Bool) (h : Head) (d : BitVec 4) (a : BitVec 5) (s : State) : Out :=
  guarded h s fun s =>
    let ea := s.rs a
    imageBlock s ea raw .read fun off =>
      let n := imageBytes raw
      if writeWaits s.olderCtx d || recordMeets s (.tm off) n || captureFull s then stall s
      else .next (pushEnt s (newEnt s (.mld d raw) true false ea (piecesOf (.tm off) n)))

/-- MLD.F32 (R189). -/
def execMldF32 (h : Head) (d : BitVec 4) (a : BitVec 5) (s : State) : Out := issueMld false h d a s

/-- MLD.RAW (R189). -/
def execMldRaw (h : Head) (d : BitVec 4) (a : BitVec 5) (s : State) : Out := issueMld true h d a s

/-- R189: MST enters the store queue with the image of its accumulator. -/
def issueMst (raw : Bool) (h : Head) (d : BitVec 5) (a : BitVec 4) (s : State) : Out :=
  guarded h s fun s =>
    let ea := s.rs d
    imageBlock s ea raw .write fun off =>
      let n := imageBytes raw
      if readWaits s.olderCtx a || guardStalls s (.tm off) n then stall s
      else
        let img := if raw then rawImage (s.ra a) else f32Image (s.ra a)
        .next (pushEnt s { newEnt s .mst false true ea (piecesOf (.tm off) n) with data := img })

/-- MST.F32 (R189). -/
def execMstF32 (h : Head) (d : BitVec 5) (a : BitVec 4) (s : State) : Out := issueMst false h d a s

/-- MST.RAW (R189). -/
def execMstRaw (h : Head) (d : BitVec 5) (a : BitVec 4) (s : State) : Out := issueMst true h d a s

/-! ### MZERO, MREAD, MWRITE, MSMAX (R190 to R193) -/

/-- R190: MZERO. -/
def execMzero (h : Head) (d : BitVec 4) (s : State) : Out :=
  guarded h s fun s => if writeWaits s.olderCtx d then stall s else .next (s.wrA d accCleared)

/-- R191: MREAD. -/
def execMread (h : Head) (d : BitVec 5) (a : BitVec 4) (b : BitVec 2) (s : State) : Out :=
  guarded h s fun s => if readWaits s.olderCtx a then stall s else .next (s.wrV d (readRows (s.ra a) b.toNat))

/-- R191: MWRITE. -/
def execMwrite (h : Head) (d : BitVec 4) (a : BitVec 5) (b : BitVec 2) (s : State) : Out :=
  guarded h s fun s =>
    if writeWaits s.olderCtx d then stall s else .next (s.wrA d (writeRows (s.ctx.regs.getA d) (s.rv a) b.toNat))

/-- R192, R193: MSMAX on accumulators 2d and 2d + 1. -/
def execMsmax (h : Head) (d : BitVec 3) (s : State) : Out :=
  guarded h s fun s =>
    let e : BitVec 4 := d ++ 0#1
    let o : BitVec 4 := d ++ 1#1
    if writeWaits s.olderCtx e || writeWaits s.olderCtx o then stall s
    else
      let (a, b) := softmax (s.ra e) (s.ra o)
      .next ((s.wrA e a).wrA o b)

/-! ### VQREC and MQNT (R112 to R115, R194, R195) -/

/-- R114, R115, R195: a quantiser at issue: the checks, the guard, and the record to write. -/
def issueQuant (s : State) (ea : Word) (f : QFmt) (t : BitVec 3) (vecs : List Vec) (acc : Option (BitVec 4)) : Out :=
  let n := (qRecFmt f).size
  if ea.toNat % 16 ≠ 0 then raiseAt s .misalign ea
  else match localCheck s s.core s.fw ea.toNat n .write with
  | .error k => raiseAt s k ea
  | .ok _ =>
    if rowOf ea.toNat ≠ .general then raiseAt s .unmapped ea
    else if !tableValid s s.core t.toNat then raise s .format
    else
      let needs := [(tmAddr s.core ea.toNat, n, true)]
      let busy := match acc with
        | some a => readWaits s.olderCtx a
        | none => false
      if acqWaits s || busy || captureFull s || !guardOk s.cur needs then stall s
      else
        let x := s.ctx
        let q : Quant := ⟨s.serial, s.clk, f, t, vecs, acc, ea.toNat, false, 0, x.pc, s.word, s.iword⟩
        let core := takeGuard (s.cur.setCtx s.fw { x with quants := x.quants ++ [q] }) s.serial s.fw needs
        .next { s.setCur core with serial := s.serial + 1 }

/-- R112 to R115: VQREC. -/
def execVqrec (h : Head) (t : BitVec 3) (a : BitVec 3) (b : BitVec 5) (f : QFmt) (s : State) : Out :=
  guarded h s fun s =>
    issueQuant s (s.rs b) f t ((List.range 4).map fun i => s.rv (BitVec.ofNat 5 (4 * a.toNat + i))) none

/-- R194, R195: MQNT. -/
def execMqnt (h : Head) (d : BitVec 4) (a : BitVec 5) (k : QFmt) (t : BitVec 3) (s : State) : Out :=
  guarded h s fun s => issueQuant s (s.rs a) k t [] (some d)

/-- R114: whether a store older than a quantiser has still to write a byte of its record. -/
def olderStores (s : State) (c : Fin 512) (fw : Bool) (id off n : Nat) : Bool :=
  (s.cores[c].ctx fw).mq.any fun e => e.st && decide (e.id < id) && match e.kind with
    | .vstElems => true
    | _ => e.todo.any fun p => match p.loc with
      | .tm o => decide (o < off + n) && decide (off < o + p.len)
      | _ => false

/-- R115: QUANT_BLOCK_WRITTEN: the oldest quantiser writes its next block, after the earlier stores and loads of its record
(R114, R202). -/
def execQuantBlockWritten (core : Fin 512) (fw : Bool) (s : State) : Out :=
  match (s.cores[core].ctx fw).quants with
  | [] => .next s
  | q :: _ =>
    let n := (qRecFmt q.fmt).size
    if olderStores s core fw q.id q.addr n || loadsMeet s core fw q.id (2 ^ 80 + tmAddr core q.addr) n then .next s
    else .next (quantStep s core fw q)

end Sys2Proof.Machine
end

