-- ==== Sys2Proof/Machine/Nest.lean ====
section
/-! DEFINITION. The barrier words (R155 to R158, R167, R168) and the nest engine (R169 to R173). -/

namespace Sys2Proof.Machine

/-! ### Barrier words (R167, R168) -/

/-- R167: whether a copy in flight or a nest run of the acting context names a barrier. -/
def barrierBusy (s : State) (n : Nat) : Bool :=
  let x := s.ctx
  (s.cur.copies.toList.any fun k => match k with
    | some k => k.fw == s.fw && k.barrier.any fun b => b.toNat == n
    | none => false) ||
    (x.nest.go && byteAt x.nest.active 0 == 0 && fieldAt x.nest.active 2 2 == n)

/-- R168, R371: a barrier word whose number is out of range faults; all of them wait for earlier acquires. (DEDUCED: log 16.) -/
def barrierWord (h : Head) (a : BitVec 5) (s : State) (f : State → Nat → Out) : Out :=
  guarded h s fun s =>
    let n := (s.rs a).toNat
    if barrierMax s.fw ≤ n then raise s .barrierRange else if acqWaits s then stall s else f s n

/-- R168: the barrier must be initialised and within its counts. -/
def liveBarrier (s : State) (n : Nat) (f : Bar → Out) : Out :=
  let b := getBar s s.core s.fw n
  if b.v && !b.ovf then f b else raise s .barrierRange

/-- R167: BINIT. -/
def execBinit (h : Head) (a : BitVec 5) (b : BitVec 5) (s : State) : Out :=
  barrierWord h a s fun s n =>
    if 4095 < (s.rs b).toNat then raise s .barrierRange
    else if barrierBusy s n then stall s
    else .next (putBar s s.core s.fw n (Bar.start ((s.rs b).setWidth 12)))

/-- R167: BEXP. -/
def execBexp (h : Head) (a : BitVec 5) (b : BitVec 5) (s : State) : Out :=
  barrierWord h a s fun s n => liveBarrier s n fun _ => .next (barEvent s s.core s.fw n .word fun x => x.change (s.rs b).toNat)

/-- R167: BARRV. -/
def execBarrv (h : Head) (a : BitVec 5) (b : BitVec 5) (s : State) : Out :=
  barrierWord h a s fun s n =>
    liveBarrier s n fun _ => .next (barEvent s s.core s.fw n .word fun x => (x.change (s.rs b).toNat).arriveOne)

/-- R167: BWAIT. -/
def execBwait (h : Head) (a : BitVec 5) (b : BitVec 5) (s : State) : Out :=
  barrierWord h a s fun s n => liveBarrier s n fun x => if x.phase != (s.rs b).getLsbD 0 then .next s else stall s

/-- R167: BTEST. -/
def execBtest (h : Head) (d : BitVec 3) (a : BitVec 5) (b : BitVec 5) (s : State) : Out :=
  barrierWord h a s fun s n => liveBarrier s n fun x => .next (s.wrP d (x.phase != (s.rs b).getLsbD 0))

/-! ### The nest descriptor (R169) -/

def nKind (d : List Byte) : Nat := byteAt d 0
def nBarrier (d : List Byte) : Nat := fieldAt d 2 2
def nWord (d : List Byte) : BitVec 32 := BitVec.ofNat 32 (fieldAt d 4 4)
def nInit (d : List Byte) (j : Nat) : Nat := fieldAt d (16 + 8 * j) 8
def nCount (d : List Byte) (k : Nat) : Nat := fieldAt d (64 + 16 * k) 2
def nStep (d : List Byte) (k j : Nat) : Int := (BitVec.ofNat 32 (fieldAt d (68 + 16 * k + 4 * j) 4)).toInt
def nTemplate (d : List Byte) : List Byte := (d.drop 160).take 64

/-- R169: the copy variant of a CPY2D word image with C, G, D, A and B zero. -/
def nestVariant (w : BitVec 32) : Option Variant :=
  if w.extractLsb' 6 26 = 0x1C00000 then variantOf (w.extractLsb' 0 3) (w.extractLsb' 3 3) else none

/-- R169: the type of an MMA word image with F = 0 or 2 and C, G, D, A and B zero, and whether it is remote. -/
def nestMma (w : BitVec 32) : Option (MmaTy × Bool) :=
  if w.extractLsb' 6 26 ≠ 0x1800000 then none
  else
    let ty : Option MmaTy := match (w.extractLsb' 3 3).toNat with
      | 0 => some .recd | 1 => some .bf16 | 2 => some .f16 | 3 => some .e4m3
      | 4 => some .e5m2 | 5 => some .int8 | 6 => some .cb4 | _ => none
    match (w.extractLsb' 0 3).toNat with
    | 0 => ty.map (·, false)
    | 2 => ty.map (·, true)
    | _ => none

/-- R171 step 3: COPY_SHAPE. (DEDUCED: log 16.) -/
def nestShapeOk (d : List Byte) : Bool :=
  byteAt d 1 == 0 && fieldAt d 8 8 == 0 && fieldAt d 40 24 == 0 && fieldAt d 224 32 == 0 &&
    (List.range 6).all (fun k => nCount d k != 0 && fieldAt d (66 + 16 * k) 2 == 0) &&
    (match nKind d with
     | 0 => match nestVariant (nWord d) with
       | some v => shapeOk v (nTemplate d)
       | none => false
     | 1 => (nestMma (nWord d)).isSome && nBarrier d == 0 && fieldAt d 192 32 == 0
     | _ => false)

/-- R171 step 4: FORMAT. -/
def nestFormatOk (s : State) (d : List Byte) : Bool :=
  match nKind d, nestVariant (nWord d) with
  | 0, some v => formatOk s s.core v (nTemplate d)
  | _, _ => true

/-- R171 step 5: the barrier of a copy-kind descriptor. -/
def nestBarrierOk (fw : Bool) (d : List Byte) : Bool :=
  nKind d == 1 || nBarrier d == 0xFFFF || decide (nBarrier d < barrierMax fw)

/-- The barrier that a descriptor names. -/
def nestBarrier (d : List Byte) : Option (BitVec 11) :=
  if nKind d = 0 ∧ nBarrier d ≠ 0xFFFF then some (BitVec.ofNat 11 (nBarrier d)) else none

/-! ### NEST.LD, NEST.GO, NEST.WAIT (R171, R172) -/

/-- The acting context's nest engine changes. -/
def setNest (s : State) (n : Nest) : State := s.setCtx { s.ctx with nest := n }

/-- R171: NEST.LD. -/
def execNestLd (h : Head) (a : BitVec 5) (s : State) : Out :=
  guarded h s fun s =>
    tmBlock s (s.rs a) 64 256 fun off =>
      if engineReads s off 256 then stall s
      else
        let d := s.load (tmAddr s.core off) 256
        if !nestShapeOk d then raise s .copyShape
        else if !nestFormatOk s d then raise s .format
        else if !nestBarrierOk s.fw d then raise s .barrierRange
        else .next (setNest s { s.ctx.nest with shadow := d, shadowValid := true })

/-- R172: NEST.GO. (DEDUCED: log 16.) -/
def execNestGo (h : Head) (s : State) : Out :=
  guarded h s fun s =>
    let n := s.ctx.nest
    if n.go || acqWaits s then stall s
    else if !n.shadowValid then raise s .copyShape
    else
      let ok := match nestBarrier n.shadow with
        | some b => let x := getBar s s.core s.fw b.toNat; x.v && !x.ovf
        | none => true
      if !ok then raise s .barrierRange
      else
        let n := { n with id := s.serial, active := n.shadow, activeValid := true, go := true, idx := Vector.replicate 6 0 }
        .next { setNest s n with serial := s.serial + 1 }

/-- R172: NEST.WAIT. -/
def execNestWait (h : Head) (s : State) : Out :=
  guarded h s fun s =>
    let x := s.ctx
    if x.nest.go || x.mmas.any (·.nest) then stall s else .next s

/-! ### Emission (R172, R173) -/

/-- R172: BASEj of the next iteration. -/
def nestBase (n : Nest) (j : Nat) : Word :=
  let z := (List.range 6).foldl (fun (z : Int) k => z + ((n.idx[ix 6 k]).toNat : Int) * nStep n.active k j)
    (nInit n.active j : Int)
  BitVec.ofInt 64 z

/-- R172: the index vector after an emission, level 0 innermost, and whether the run is over. -/
def nextIdx (d : List Byte) (idx : Vector (BitVec 16) 6) : Nat → Vector (BitVec 16) 6 × Bool
  | 0 => (idx, true)
  | m + 1 =>
    let k := 5 - m
    let i := idx[ix 6 k]
    if i.toNat + 1 < nCount d k then (vput idx (ix 6 k) (i + 1), false)
    else nextIdx d (vput idx (ix 6 k) 0) m

/-- The nest engine of a context changes. -/
def putNest (s : State) (c : Fin 512) (fw : Bool) (n : Nest) : State :=
  let core := s.cores[c]
  s.putCore c (core.setCtx fw { core.ctx fw with nest := n })

/-- R172: the run goes on to its next iteration, or its go bit is cleared. -/
def nestAdvance (s : State) (c : Fin 512) (fw : Bool) : State :=
  let n := (s.cores[c].ctx fw).nest
  let (idx, done) := nextIdx n.active n.idx 6
  putNest s c fw { n with idx := idx, go := !done }

/-- R172: an emission that faults stops the run. -/
def nestStop (s : State) (c : Fin 512) (fw : Bool) (k : Cause) (a : Word) : State :=
  putNest s c fw { (s.cores[c].ctx fw).nest with fault := some k, faultAddr := a }

/-- R170: the copy descriptor of the next iteration. -/
def nestCopy (n : Nest) (v : Variant) : List Byte :=
  let t := nTemplate n.active
  let t := patch (patch t 0 (leBytes 8 (nestBase n 0).toNat)) 8 (leBytes 8 (nestBase n 1).toNat)
  if v = .stamp then patch t 48 (leBytes 8 (nestBase n 2).toNat) else t

/-- R172: a copy is emitted: checked, and started once the guard and the slots can take it. (DEDUCED: log 16.) -/
def emitCopy (s : State) (c : Fin 512) (fw : Bool) (n : Nest) (v : Variant) : State :=
  let d := nestCopy n v
  if overlapFault s c fw v d then nestStop s c fw .copyShape 0
  else
    let g := emitGlob s c fw
    let checks := spanChecks s c fw g g (copySrc v d) (copyDst v d) (stampOf v d)
    match firstFail (checks.map (·.1)) with
    | .fail k => nestStop s c fw k (failedAt checks)
    | .wait => s
    | .ok () =>
      let w := nWord n.active
      match startCopy s c fw true (.cpy (w.extractLsb' 0 3) (w.extractLsb' 3 3)) d (nestBarrier n.active) (copySrc v d)
          (copyDst v d) (dSrc d) (dDst d) (stampOf v d) (boxCount v d) 0 with
      | some (s, _) => nestAdvance s c fw
      | none => s

/-- R170, R179: the MMA of the next iteration. -/
def nestArgs (n : Nest) (ty : MmaTy) (remote : Bool) : MmaArgs :=
  let t := nTemplate n.active
  ⟨(nestBase n 2).setWidth 4, remote, ty, nestBase n 0, BitVec.ofNat 64 (fieldAt t 8 8), nestBase n 1,
    BitVec.ofNat 64 (fieldAt t 24 8)⟩

/-- R172: an MMA is emitted. (DEDUCED: log 16.) -/
def emitMma (s : State) (c : Fin 512) (fw : Bool) (n : Nest) (ty : MmaTy) (remote : Bool) : State :=
  let m := nestArgs n ty remote
  match mmaFault s c fw m with
  | some (k, va) => nestStop s c fw k va
  | none => if mmaWaits s c fw m then s else nestAdvance (startMma { s with iword := nWord n.active } c fw true m) c fw

/-- R160, R172, R173: NEST_EMIT: the nest engine emits the operation of its next iteration, unless its context is at a trap, or a program
copy has entered the engine in this clk. -/
def execNestEmit (core : Fin 512) (fw : Bool) (s : State) : Out :=
  let x := s.cores[core].ctx fw
  let n := x.nest
  if !n.go || n.fault.isSome || (!fw && !trapFree s core) || s.cores[core].cpyAt == some s.clk then .next s
  else match nestVariant (nWord n.active), nestMma (nWord n.active) with
  | some v, _ => .next (emitCopy s core fw n v)
  | none, some (ty, remote) => .next (emitMma s core fw n ty remote)
  | none, none => .next s

end Sys2Proof.Machine
end

