-- ==== Sys2Proof/Machine/Rings.lean ====
section
/-! DEFINITION. The command rings (R376), abandoning a unit (R249), and saving and restoring a context (R324 to R327). -/

namespace Sys2Proof.Machine

/-! ### Rings (R376) -/

/-- R376: where the rings lie in the dies' memory. -/
def partRing (p : Fin 16) : Nat := devAddr partRingAddr + 8256 * p.val
def sliceRing (d : Fin 4) : Nat := devAddr sliceRingAddr + 8256 * d.val
def adminRing : Nat := devAddr pkgRingAddr + 8256

/-- A ring's counters. -/
def ringTail (s : State) (ring : Nat) : Nat := leNat (devRead s ring 8)
def ringHead (s : State) (ring : Nat) : Nat := leNat (devRead s (ring + 8) 8)

/-- Where record n of a ring lies. -/
def ringSlot (ring n : Nat) : Nat := ring + 64 + 32 * (n % 256)

/-- R376: the record at the head of a ring. A TAIL that passes HEAD by more than 256 is ignored. -/
def headRecord (s : State) (ring : Nat) : Option (List Byte) :=
  let n := ahead (ringTail s ring) (ringHead s ring)
  if n = 0 ∨ 256 < n then none else some (devRead s (ringSlot ring (ringHead s ring)) 32)

/-- What the record at the head of a ring calls for; nothing without one. -/
def onHead (s : State) (r : Option (List Byte)) (f : List Byte → Out) : Out :=
  match r with
  | some r => f r
  | none => .next s

/-- R376: the record at the head is finished: its STATUS is written, and HEAD advances. -/
def ringDone (s : State) (ring status : Nat) : State :=
  let h := ringHead s ring
  let s := devWrite s (ringSlot ring h + 4) (leBytes 2 status)
  devWrite s (ring + 8) (leBytes 8 ((h + 1) % 2 ^ 64))

/-- R376: the fields of a partition or package command. -/
def cmdOf (r : List Byte) : Nat := byteAt r 0
def cmdPart (r : List Byte) : Nat := byteAt r 1
def cmdArg0 (r : List Byte) : Nat := fieldAt r 8 8
def cmdArg1 (r : List Byte) : Nat := fieldAt r 16 16

/-- R376: whether the reserved bits of a command are zero. STATUS belongs to the hub. -/
def cmdClean (r : List Byte) : Bool := fieldAt r 2 2 == 0 && fieldAt r 6 2 == 0

/-- R376: the core that a partition command names. -/
def cmdCore (s : State) (p : Fin 16) (r : List Byte) : Option (Fin 512) :=
  if cmdClean r ∧ cmdPart r = 0 ∧ cmdArg0 r < 512 ∧ s.partOf (ix 512 (cmdArg0 r)) = some p then some (ix 512 (cmdArg0 r)) else none

/-- A command of a partition's ring: the head record, if it is of the kind given. -/
def partCommand (s : State) (p : Fin 16) (cmd : Nat) (f : List Byte → Out) : Out :=
  onHead s (headRecord s (partRing p)) fun r => if cmdOf r = cmd then f r else .next s

/-- A command is finished with a STATUS. -/
def partDone (s : State) (p : Fin 16) (status : Nat) : Out := .next (ringDone s (partRing p) status)

/-- R249, R376: ABANDON. The launch becomes Faulted with the unit's cause, and the core is freed. (DESIGN CHOICE: log 23.) -/
def execAbandon (part : Fin 16) (s : State) : Out :=
  partCommand s part 0x02 fun r =>
    match cmdCore s part r with
    | none => partDone s part 3
    | some c =>
      let core := s.cores[c]
      if cmdArg1 r ≠ 0 then partDone s part 3
      else if core.st ≠ .stopped then partDone s part 2
      else
        let launch := core.ctl.launchid
        let s := faultLaunch s part launch ((causeOf core.ctl.tcause).getD .trapInsn) core.ctl.unitid
        partDone (workDone (discardUnit s c) part launch) part 1

/-! ### The save slot (R324, R325) -/

/-- R317, R324: the trap area's image in a slot, from the core's own copies: the frame as the core would write it now, with the parts that
firmware may change (the s and p registers and the loop stack) as they stand in the area, the header's trap record as it
stands, its TCAUSE, TPC and TWORD from the control registers, and PIX 0 in every MMA entry. (DESIGN CHOICE: log 23.) -/
def savedFrame (s : State) (c : Fin 512) : List Byte :=
  let core := s.cores[c]
  let tm (o n : Nat) : List Byte := s.load (tmAddr c (0x7C000 + o)) n
  let old := tm 0 64
  let core' := { core with unit := { core.unit with loops := frameLoops s c } }
  let info : TrapInfo := ⟨.preempt, core.ctl.tpc, core.ctl.tword, BitVec.ofNat 64 (fieldAt old 56 8), pixNow core,
    BitVec.ofNat 16 (fieldAt old 42 2), BitVec.ofNat 16 (fieldAt old 40 2), BitVec.ofNat 8 (byteAt old 39),
    BitVec.ofNat 3 (byteAt old 38), BitVec.ofNat 11 (fieldAt old 0 8 / 2 ^ 53)⟩
  let parts := frameParts (s.putCore c core') c info
  let bs := parts.foldl (fun bs (o, p) => patch bs (o - 0x7C000) p) (List.replicate 0x2000 0)
  let bs := patch (patch (patch (patch bs 0 (leBytes 1 core.ctl.tcause.toNat)) 0x40 (tm 0x40 0x100)) 0x140 (tm 0x140 1)) 0x180 (tm 0x180 0x40)
  (core.replay.zipIdx).foldl (fun bs (r, i) => match r with
    | .mma _ _ => patch bs (0x1000 + 64 * i + 14) (leBytes 4 0)
    | _ => bs) bs

/-- R324: the slot header, without SAVED. (DESIGN CHOICE: log 23.) -/
def slotHeader (s : State) (c : Fin 512) : List Byte :=
  let core := s.cores[c]
  padTo 64 (leBytes 4 core.ctl.launchid.toNat ++ leBytes 4 core.ctl.unitid.toNat ++
    leBytes 2 (c.val / 128 + 4 * (c.val / 8 % 16) + 64 * (c.val % 8)) ++ leBytes 1 core.ctl.tcause.toNat)

/-- R19: the sequencer address of a location for a core. -/
def locBack (s : State) (c : Fin 512) (l : Loc) : Nat :=
  match l with
  | .glob va => va.toNat
  | l => guardAddr s c ((scratch c l).getD 0)

/-- R318: the payload of a captured word: the data vector of a store form, the data of a VAMO, the descriptor pairs of an MMA, or the
sources of a VQREC. Of the words that leave room, the offsets stand at 0x100, the byte mask at 0x200, and at 0x220 what else
the word has captured: a capability request with the address of its source, or the mark of a nest emission. (DESIGN CHOICE: log 23.) -/
def replayPayload (s : State) (c : Fin 512) (r : Replay) : List Byte :=
  match r with
  | .quant q _ => q.vecs.flatMap vecBytes
  | .mma q _ =>
    padTo 0x220 ([q.aBase, q.aCtl, q.bBase, q.bCtl].flatMap fun w => leBytes 8 w.toNat) ++ leBytes 1 q.nest.toNat
  | .mem e _ =>
    let data := match e.kind with
      | .vstElems => e.data
      | .qst _ _ _ _ => if e.mask = 0 then [] else e.data
      | .vamo _ => (vecBytes e.vec).take 128
      | _ => []
    let offs := match e.kind with
      | .vldElems _ | .vstElems => if e.opa = 1 then vecBytes e.vec else []
      | _ => []
    let rest := match e.kind with
      | .capChk _ q => leBytes 16 q.toNat
      | .capDrv q (some l) => leBytes 16 q.toNat ++ leBytes 8 (locBack s c l)
      | .capSt l => leBytes 16 0 ++ leBytes 8 (locBack s c l)
      | _ => []
    padTo 0x200 (padTo 0x100 data ++ offs) ++ leBytes 32 e.mask.toNat ++ rest

/-- R324: the flags at 0x5200, one byte each; the count of pending TOKEN_EXPIREs is followed, from 0x5204 on, by the entries that they
name. (DESIGN CHOICE: log 23.) -/
def slotFlags (core : Core) : List Byte :=
  let x := core.unit
  leBytes 1 (min core.pend.tokens.length 28) ++ leBytes 1 core.pend.preempt.toNat ++ leBytes 1 x.nest.shadowValid.toNat ++
    leBytes 1 x.nest.activeValid.toNat ++ (core.pend.tokens.take 28).flatMap fun t => leBytes 1 t.toNat

/-- R324: the parts of a slot as (offset, bytes). (DESIGN CHOICE: log 23.) -/
def slotParts (s : State) (c : Fin 512) : List (Nat × List Byte) :=
  let core := s.cores[c]
  let x := core.unit
  [(0, slotHeader s c), (0x1000, savedFrame s c), (0x3000, x.regs.v.toList.flatMap vecBytes),
   (0x5000, (List.finRange 8).flatMap fun i => leBytes 32 (x.regs.getM (BitVec.ofFin i)).toNat),
   (0x5100, core.gens.toList.flatMap fun g => leBytes 1 g.toNat), (0x5200, slotFlags core),
   (0x6000, x.regs.acc.toList.flatMap rawImage),
   (0x10000, (core.replay.take 8).flatMap fun r => padTo 1024 (replayPayload s c r)),
   (0x12000, (List.finRange 256).flatMap fun i => (core.copyRecs.lookup i.val).getD (List.replicate 128 0)),
   (0x20000, s.load (tmAddr c 0) 0x78000), (0x98000, s.load (tmAddr c 0x78000) 0x4000),
   (0x9FF00, s.load (tmAddr c 0x7FF00) 0x100)]

/-- R324: a slot's bytes; every offset not listed is zero. (DESIGN CHOICE: log 23.) -/
def slotImage (s : State) (c : Fin 512) : List Byte :=
  padTo (2 ^ 20) ((slotParts s c).foldl (fun bs (o, p) => padTo o bs ++ p) [])

/-- R324: whether a slot address names a save slot of a partition. -/
def isSlot (s : State) (p : Fin 16) (slot : Word) : Bool :=
  s.parts[p].saves.contains (devAddr slot)

/-! ### SAVE (R326) -/

/-- R224: whether the launch of a core's unit is pre-emptible. -/
def unitPre (s : State) (p : Fin 16) (c : Fin 512) : Bool := (findLaunch s p s.cores[c].ctl.launchid).any (·.pre)

/-- R326, R376: SAVE. A running unit is asked to take PREEMPT, and the slot shows SAVED = 0 from now on. The command stays at the head
until SAVE_WRITE ends it. (DESIGN CHOICE: log 23.) -/
def execSave (part : Fin 16) (s : State) : Out :=
  partCommand s part 0x03 fun r =>
    match cmdCore s part r with
    | none => partDone s part 3
    | some c =>
      let core := s.cores[c]
      let slot := BitVec.ofNat 64 (cmdArg1 r)
      if 2 ^ 64 ≤ cmdArg1 r then partDone s part 3
      else if core.save.isSome then .next s
      else if core.st = .none ∨ core.ending.isSome ∨ !unitPre s part c ∨ !isSlot s part slot ∨
          s.parts[part].usedSlots.contains (devAddr slot) then partDone s part 2
      else
        let pend := if core.st = .running then { core.pend with preempt := true } else core.pend
        .next (devWrite (s.putCore c { core with save := some ⟨slot, none⟩, pend := pend }) (devAddr slot + 31) [0])

/-- How many tokens of the unit have passed their limit. (DESIGN CHOICE: log 23.) -/
def expiredTokens (c : Core) : Nat := (c.tokens.toList.filter fun t => t.any fun e => !e.fw && e.expired).length

/-- R318: the tokens of the Quickset stores that a trap has captured. -/
def capturedTokens (c : Core) : List (BitVec 16) :=
  c.replay.filterMap fun r => match r with
    | .mem e _ => match e.kind with
      | .qst t _ _ _ => some t
      | _ => none
    | _ => none

/-- R326: whether a token of the unit is still to land. That of a captured store goes with it into the slot, and one that had expired
before the save is not waited for. (DESIGN CHOICE: log 23.) -/
def tokensOut (c : Core) : Bool :=
  (List.finRange 256).any fun i => match c.tokens[i] with
    | some e => !e.fw && !e.notify && !e.expired && !(capturedTokens c).any fun t => tokEntry t == i
    | none => false

/-- R326 step 3: the slot is written with SAVED = 0, and then SAVED = 1; the core is freed. -/
def writeSlot (s : State) (c : Fin 512) (p : Fin 16) (slot : Word) : State :=
  let a := devAddr slot
  let core := s.cores[c]
  let s := devWrite (devWrite s a (slotImage s c)) (a + 31) [0x80]
  let part := s.parts[p]
  let s := s.putPart p { part with usedSlots := a :: part.usedSlots,
                                   saved := ⟨a, core.ctl.launchid, core.index, core.resumed⟩ :: part.saved }
  let core := s.cores[c]
  let gone (i : Fin 256) : Bool := (capturedTokens core).any fun t => tokEntry t == i
  let s := s.putCore c { core with tokens := Vector.ofFn fun i : Fin 256 => if gone i then none else core.tokens[i] }
  freeCore s c

/-- R326: a token passed TOKLIM during the save. -/
def failSave (s : State) (c : Fin 512) (p : Fin 16) : State :=
  let core := s.cores[c]
  let t := (core.pend.tokens.getLast?).getD 0
  let ctl := { core.ctl with tcause := Cause.tokenExpire.code }
  let s := s.putCore c { core with save := none, ctl := ctl, pend := { core.pend with tokens := core.pend.tokens.dropLast } }
  let info := { TrapInfo.at .tokenExpire ctl.tpc ctl.tword 0 with tokent := t }
  ringDone (unitRecord s c (unitFault s c info)) (partRing p) 2

/-- R326: SAVE_WRITE: once the unit is Stopped, its stores have performed and its tokens have landed, its slot is written. A
unit whose fault record is held waits for the record (R323). (DESIGN CHOICE: log 23.) -/
def execSaveWrite (core : Fin 512) (s : State) : Out :=
  let c := s.cores[core]
  match c.save, s.partOf core with
  | some q, some p =>
    if c.st ≠ .stopped ∨ c.heldRec.isSome then .next s
    else match q.expired with
    | none => .next (s.putCore core { c with save := some { q with expired := some (expiredTokens c) } })
    | some n =>
      if n < expiredTokens c then .next (failSave s core p)
      else if c.unit.mq.any QEnt.live ∨ tokensOut c then .next s
      else .next (ringDone (writeSlot s core p q.slot) (partRing p) 1)
  | _, _ => .next s

/-! ### RESTORE (R327) -/

/-- The vectors, masks and accumulators of a slot. (DESIGN CHOICE: log 23.) -/
def slotRegs (bs : List Byte) (r : Regs) : Regs :=
  { r with
    v := Vector.ofFn fun i : Fin 32 => bytesVec ((bs.drop (0x3000 + 256 * i.val)).take 256)
    m := Vector.ofFn fun i : Fin 8 => BitVec.ofNat 256 (fieldAt bs (0x5000 + 32 * i.val) 32)
    acc := Vector.ofFn fun i : Fin 16 => accOfImage true ((bs.drop (0x6000 + 2176 * i.val)).take 2176) }

/-- R317, R324: the stream registers of a slot. -/
def slotStreams (bs : List Byte) : Vector (Option StreamReg) 4 :=
  Vector.ofFn fun i : Fin 4 =>
    let b := (bs.drop (0x11C0 + 64 * i.val)).take 64
    if byteAt b 36 = 1 then some ⟨b.take 32, fieldAt b 32 4, []⟩ else none

/-- R317, R318, R324: the nest engine of a slot. -/
def slotNest (bs : List Byte) (id : Nat) : Nest :=
  { id := id, shadowValid := byteAt bs 0x5202 != 0, shadow := (bs.drop 0x1400).take 256, activeValid := byteAt bs 0x5203 != 0,
    active := (bs.drop 0x1500).take 256, go := byteAt bs (0x1000 + 37) / 128 == 1,
    idx := Vector.ofFn fun i : Fin 6 => BitVec.ofNat 16 (fieldAt bs (0x1000 + 44 + 2 * i.val) 2), fault := none, faultAddr := 0 }

/-- R318: the fields that the captured memory words of a slot share. -/
def slotEnt (bs pay : List Byte) (id : Nat) (kind : QKind) (ld st : Bool) : QEnt :=
  { id := id, kind := kind, ld := ld, st := st, ea := BitVec.ofNat 64 (fieldAt bs 24 8), opa := BitVec.ofNat 64 (fieldAt bs 32 8)
    opb := BitVec.ofNat 64 (fieldAt bs 40 8), vec := bytesVec ((pay.drop 0x100).take 256), mask := BitVec.ofNat 256 (fieldAt pay 0x200 32)
    pix := fieldAt bs 14 4, todo := [], data := [], stage := .waiting, arrival := 0, sure := false
    keep := if byteAt bs 18 = 0xFF then List.range 32 else [], pkt := BitVec.ofNat 32 (fieldAt bs 8 4), wword := byteAt bs 4
    word := BitVec.ofNat 32 (fieldAt bs 0 4) }

/-- R318, R345: the source of a captured CAP word. -/
def slotSource (s : State) (c : Fin 512) (pay : List Byte) : Loc := locOf s c (fieldAt pay 0x230 8)

/-- R83, R318: a captured Quickset store of `n` bytes from `lo`. -/
def slotQst (e : QEnt) (lo n : Nat) (data : List Byte) : QEnt :=
  let l : Loc := .glob (e.ea + BitVec.ofNat 64 lo)
  { e with data := data, todo := if e.mask = 0 then piecesOf l n else maskedPieces l lo n e.mask }

/-- R318: a captured word of a slot, from its entry and its payload. None for an entry that is not in use. (DESIGN CHOICE: log 23.) -/
def slotWord (s : State) (c : Fin 512) (bs pay : List Byte) (id : Nat) : Option Replay :=
  let ent := slotEnt bs pay id
  let mem (e : QEnt) : Option Replay := some (.mem e (causeOf (BitVec.ofNat 8 (byteAt bs 13))))
  let amo (d : BitVec 5) (op : BitVec 4) (z : AmoSize) : Option Replay := mem (ent (.amo d op z) true true)
  let elems (load : Option (BitVec 5)) (offs : Bool) : Option Replay :=
    let e := match load with
      | some d => ent (.vldElems d) true false
      | none => { ent .vstElems false true with data := pay.take 256 }
    mem { e with opa := if offs then 1 else 0 }
  let tok : BitVec 16 := BitVec.ofNat 16 (fieldAt bs 20 2)
  let carry (t : Bool) (i : Nat) : BitVec 16 := if t then BitVec.ofNat 16 (fieldAt bs (40 + 2 * i) 2) else 0
  let qst (t o : Bool) : QEnt := ent (.qst tok (o || carry t 0 != 0 || carry t 1 != 0) (carry t 0) (carry t 1)) false true
  let vamo (b : Bool) : Option Replay := mem { ent (.vamo b) false true with vec := bytesVec (pay.take 128) }
  let mma (remote : Bool) (ty : MmaTy) : Option Replay :=
    some (.mma { id := id, acc := BitVec.ofNat 4 (byteAt bs 18), lost := false, remote := remote, ty := ty, aBase := BitVec.ofNat 64 (fieldAt pay 0 8)
                 aCtl := BitVec.ofNat 64 (fieldAt pay 8 8), bBase := BitVec.ofNat 64 (fieldAt pay 16 8), bCtl := BitVec.ofNat 64 (fieldAt pay 24 8)
                 pix := 0, aTiles := [], bTiles := [], bStage := .waiting, tile := none, parts := [], got := [], arrival := 0
                 nest := byteAt pay 0x220 == 1, pkt := BitVec.ofNat 32 (fieldAt bs 8 4), wword := byteAt bs 4
                 word := BitVec.ofNat 32 (fieldAt bs 0 4) } (causeOf (BitVec.ofNat 8 (byteAt bs 13))))
  let quant (f : QFmt) (t : BitVec 3) (vecs : List Vec) (acc : Option (BitVec 4)) : Option Replay :=
    some (.quant ⟨id, 0, f, t, vecs, acc, fieldAt bs 24 8, false, fieldAt bs 14 4, BitVec.ofNat 32 (fieldAt bs 8 4), byteAt bs 4,
      BitVec.ofNat 32 (fieldAt bs 0 4)⟩ (causeOf (BitVec.ofNat 8 (byteAt bs 13))))
  let req : BitVec 128 := BitVec.ofNat 128 (fieldAt pay 0x220 16)
  if byteAt bs 23 < 128 then none
  else match decodeWord (BitVec.ofNat 32 (fieldAt bs 0 4)) with
  | some (.ld _ d _ f _) => mem (ent (.ld d f) true false)
  | some (.ldAcq _ d _ f _) => mem (ent (.ldAcq d f) true false)
  | some (.vld _ _ d _ _) => mem (ent (.vld d) true false)
  | some (.vlds _ _ d _ _) => elems (some d) false
  | some (.vgather _ _ d _ _) => elems (some d) true
  | some (.vsts _ _ _ _ _) => elems none false
  | some (.vscatter _ _ _ _ _) => elems none true
  | some (.amoAdd _ d _ _ z) => amo d 0 z
  | some (.amoAnd _ d _ _ z) => amo d 1 z
  | some (.amoOr _ d _ _ z) => amo d 2 z
  | some (.amoXor _ d _ _ z) => amo d 3 z
  | some (.amoMin _ d _ _ z) => amo d 4 z
  | some (.amoMax _ d _ _ z) => amo d 5 z
  | some (.amoMinu _ d _ _ z) => amo d 6 z
  | some (.amoMaxu _ d _ _ z) => amo d 7 z
  | some (.amoSwap _ d _ _ z) => amo d 8 z
  | some (.amoCas _ d _ _ z) => amo d 9 z
  | some (.vamoAddF32 _ _ _ _) => vamo false
  | some (.vamoAddBf16 _ _ _ _) => vamo true
  | some (.qst _ _ _ _ t o z) =>
    let e := qst t o
    mem (slotQst { e with mask := 0 } 0 (memBytes z) (leBytes (memBytes z) e.opa.toNat))
  | some (.vqst _ _ _ _ _ t o) =>
    let e := qst t o
    (maskSpan e.mask).bind fun (lo, n) => mem (slotQst e lo n (pay.take 256))
  | some (.capld _ d _ _) => mem (ent (.capLd (d ++ 0#1)) true false)
  | some (.capchk _ d _ _) => mem (ent (.capChk d req) true false)
  | some (.capdrv _ _ _ _) =>
    let l := slotSource s c pay
    mem { ent (.capDrv req (some l)) true true with
      todo := [⟨l, 0, 16, none⟩, ⟨l, 0, 16, none⟩], data := leBytes 16 (withPart req ((s.partOf c).getD 0).val).toNat }
  | some (.capst _ _ _) =>
    let l := slotSource s c pay
    mem { ent (.capSt l) true true with todo := [⟨l, 0, 16, none⟩, ⟨l, 0, 16, none⟩] }
  | some (.mmaDesc _ _ _ _ ty) => mma false ty
  | some (.mmaRmt _ _ _ _ ty) => mma true ty
  | some (.vqrec _ t _ _ f) => quant f t ((List.range 4).map fun i => bytesVec ((pay.drop (256 * i)).take 256)) none
  | some (.mqnt _ a _ f t) => quant f t [] (some a)
  | _ => none

/-- R318: the captured words of a slot in their order, with serial numbers from one on. -/
def slotReplay (s : State) (c : Fin 512) (bs : List Byte) : List Replay :=
  (List.range 8).filterMap fun i =>
    slotWord s c ((bs.drop (0x2000 + 64 * i)).take 64) ((bs.drop (0x10000 + 1024 * i)).take 1024) (s.serial + i)

/-- R325: the copy of a record. What stands in its slot is held until TRET. (DESIGN CHOICE: log 23.) -/
def slotCopy (s : State) (c : Fin 512) (slot : Fin 256) (bs : List Byte) : Option Copy :=
  let desc := bs.take 64
  let st := byteAt bs 101
  let var := byteAt bs 100
  let kind : CopyKind := if var / 64 = 0 then .cpy (BitVec.ofNat 3 var) (BitVec.ofNat 3 (var / 8)) else if var / 64 = 1 then .sealing else .unsealing
  let boxes := match kind with
    | .cpy f k => boxCount ((variantOf f k).getD .plain) desc
    | _ => sealChunks (sLen desc)
  let credited := (List.range (min boxes 256)).filter fun b => (fieldAt bs 64 32).testBit b
  let handle := fieldAt bs 96 2
  let bar := fieldAt bs 98 2
  let stamp : Option Loc := match kind with
    | .cpy f k => ((variantOf f k).bind fun v => stampOf v desc).map fun va => locOf s c va.toNat
    | _ => none
  if st = 0 then none
  else some
    { id := s.serial + 8 + slot.val, gen := if handle = 0 then s.cores[c].copyGens[slot] else BitVec.ofNat 8 (handle / 256), kind := kind, desc := desc
      barrier := if bar = 0xFFFF then none else some (BitVec.ofNat 11 bar), srcLoc := locOf s c (dSrc desc), dstLoc := locOf s c (dDst desc)
      stampLoc := stamp, boxes := boxes, credited := credited, bytes := credited.foldl (fun n b => n + boxBytes kind desc b) 0, recPos := [0]
      runs := [], nonce := BitVec.ofNat 64 (fieldAt bs 102 8), nest := handle == 0, fw := false, held := true, abandoned := st == 3
      cancelled := false, fault := none, faultAddr := 0, faultBox := 0 }

/-- R325: the copies of a slot. -/
def slotCopies (s : State) (c : Fin 512) (bs : List Byte) : Vector (Option Copy) 256 :=
  Vector.ofFn fun i : Fin 256 => slotCopy s c i ((bs.drop (0x12000 + 128 * i.val)).take 128)

/-- R83, R363: the tokens of captured Quickset stores stand in the table again: their destinations, what carries them, and a new limit. (DESIGN CHOICE: log 23.) -/
def slotToken (s : State) (p : Fin 16) (words : List Replay) (i : Fin 256) : Option TokEnt :=
  let qsts := words.filterMap fun r => match r with
    | .mem e _ => match e.kind with
      | .qst t o c0 c1 => some (e, t, o, c0, c1)
      | _ => none
    | _ => none
  (qsts.find? fun x => tokEntry x.2.1 == i).map fun (e, t, o, _, _) =>
    let at_ := e.ea + BitVec.ofNat 64 e.span.1
    let waiters := (qsts.filter fun y => y.2.2.2.1 == t || y.2.2.2.2 == t).map fun y => pkgOf y.1.ea
    { serial := e.id, fw := false, pkg := pkgOf at_, die := at_.extractLsb' 49 2, line := at_.toNat / 128
      span := (at_.toNat + e.span.2 - 1) / 128 + 1 - at_.toNat / 128, ordered := o || !waiters.isEmpty
      limit := s.clk + s.parts[p].toklim.toNat, waiters := waiters.filter (· != pkgOf at_), notify := false, expired := false
      away := none, resend := false }

/-- R159: the guard entries of the work of a restored context. -/
def slotGuard (s : State) (c : Fin 512) (core : Core) : Core :=
  let core := core.copies.toList.foldl (fun core k => match k with
    | some k => if k.fw || k.abandoned || k.allCredited then core else takeGuard core k.id false (k.needs c)
    | none => core) core
  core.replay.foldl (fun core r => match r with
    | .mma m _ => takeGuard core m.id false (mmaNeeds s c ⟨m.acc, m.remote, m.ty, m.aBase, m.aCtl, m.bBase, m.bCtl⟩)
    | .quant q _ => takeGuard core q.id false [(tmAddr c q.addr, (qRecFmt q.fmt).size, true)]
    | .mem _ _ => core) core

/-- R327: the argument block of a slot. It keeps its tags where its bytes are those that the core wrote. (DEDUCED: log 17.) -/
def restoreArgs (s : State) (c : Fin 512) (p : Fin 16) (e : WinEnt) (bs : List Byte) : State :=
  let s := writeArgs s c p e
  if s.load (tmAddr c 0x7FF00) 0x100 = bs then s else s.store (tmAddr c 0x7FF00) bs

/-- R327: a context is loaded from a slot onto a core, and performs TRET. (DESIGN CHOICE: log 23.) -/
def loadSlot (s : State) (c : Fin 512) (p : Fin 16) (e : WinEnt) (bs : List Byte) (kept : SavedUnit) : State :=
  let s := settleHold s c
  let core := clearUnit s.cores[c]
  let head := (bs.drop 0x1000).take 64
  let ctl := { core.ctl with
    tcause := BitVec.ofNat 8 (byteAt head 0), tword := BitVec.ofNat 2 (byteAt head 1), tpc := BitVec.ofNat 32 (fieldAt head 16 4)
    launchid := BitVec.ofNat 32 (fieldAt bs 0 4), unitid := BitVec.ofNat 32 (fieldAt bs 4 4) }
  let words := slotReplay s c bs
  let fresh := slotCopies s c bs
  let keepTok (i : Fin 256) : Bool := core.tokens[i].any (·.fw)
  let core := { core with
    unit := { Ctx.zero with regs := slotRegs bs Regs.zero, streams := slotStreams bs, nest := slotNest bs (s.serial + 264) }
    st := .stopped
    ctl := ctl
    index := kept.index
    resumed := kept.resumed
    tokens := Vector.ofFn fun i : Fin 256 => if keepTok i then core.tokens[i] else slotToken s p words i
    gens := Vector.ofFn fun i : Fin 256 => if keepTok i then core.gens[i] else BitVec.ofNat 8 (byteAt bs (0x5100 + i.val))
    copies := Vector.ofFn fun i : Fin 256 => core.copies[i].orElse fun _ => fresh[i]
    copyGens := Vector.ofFn fun i : Fin 256 => match core.copies[i], fresh[i] with
      | none, some k => k.gen
      | _, _ => core.copyGens[i]
    replay := words
    pend := ⟨(List.range (byteAt bs 0x5200)).map fun i => BitVec.ofNat 8 (byteAt bs (0x5204 + i)), false, byteAt bs 0x5201 != 0⟩
    heldAt := some s.clk
    codeBase := e.code
    codePackets := e.packets
    native := e.native }
  let s := { s.putCore c (slotGuard s c core) with serial := s.serial + 265 }
  let s := s.store (tmAddr c 0) ((bs.drop 0x20000).take 0x78000)
  let s := s.store (tmAddr c 0x78000) ((bs.drop 0x98000).take 0x4000)
  let s := s.store (tmAddr c 0x7C000) ((bs.drop 0x1000).take 0x2000)
  returnFromTrap (restoreArgs s c p e ((bs.drop 0x9FF00).take 0x100)) c

/-- A save slot is free again. -/
def freeSlot (s : State) (p : Fin 16) (a : Nat) : State :=
  let part := s.parts[p]
  s.putPart p { part with usedSlots := part.usedSlots.filter (· != a), saved := part.saved.filter fun x => x.slot != a }

/-- R255, R327: the slots of a launch that is cancelled are discarded. -/
def dropSaved (s : State) (p : Fin 16) (launch : BitVec 32) : State :=
  ((s.parts[p].saved.filter fun x => x.launch == launch).map (·.slot)).foldl (fun t a => freeSlot t p a) s

/-- R327, R376: RESTORE, onto a free core of the cluster that the slot names. (DESIGN CHOICE: log 23.) -/
def execRestore (part : Fin 16) (s : State) : Out :=
  partCommand s part 0x04 fun r =>
    match cmdCore s part r with
    | none => partDone s part 3
    | some c =>
      if 2 ^ 64 ≤ cmdArg1 r then partDone s part 3
      else
        let a := devAddr (BitVec.ofNat 64 (cmdArg1 r))
        let bs := devRead s a (2 ^ 20)
        let here := byteAt bs 8 % 64 == c.val / 128 + 4 * (c.val / 8 % 16)
        match s.parts[part].saved.find? (·.slot == a), findLaunch s part (BitVec.ofNat 32 (fieldAt bs 0 4)) with
        | some kept, some e =>
          if byteAt bs 31 < 128 ∨ !here ∨ !coreFree s c then partDone s part 2
          else partDone (loadSlot (freeSlot s part a) c part e bs kept) part 1
        | _, _ => partDone s part 2

end Sys2Proof.Machine
end

