-- ==== Sys2Proof/Machine/Slices.lean ====
section
/-! DEFINITION. The commands to a die's translation slices (R307), pins (R310), eviction (R311) and migration (R312). -/

namespace Sys2Proof.Machine

/-! ### Commands (R307) -/

/-- R307: the fields of a command. -/
def slPart (r : List Byte) : Nat := fieldAt r 0 2
def slSize (r : List Byte) : BitVec 2 := BitVec.ofNat 2 (byteAt r 2 / 4)
def slCmd (r : List Byte) : Nat := byteAt r 3
def slVa (r : List Byte) : Word := BitVec.ofNat 64 (fieldAt r 16 8)
def slArg (r : List Byte) : Nat := fieldAt r 24 8

/-- R307: whether a command is malformed: an unknown CMD, a reserved bit, or a field that names nothing of this die. (DEDUCED: log 25.) -/
def slBad (s : State) (d : Fin 4) (r : List Byte) : Bool :=
  let va := slVa r
  decide (slCmd r < 1) || decide (6 < slCmd r) || decide (15 < slPart r) || byteAt r 2 % 4 != 0 || byteAt r 2 / 16 != 0 ||
    fieldAt r 6 10 != 0 || (slCmd r != 4 && slArg r != 0) ||
    (slCmd r != 2 && (slSize r == 3 || !va.getLsbD 63 || pkgOf va != ownPkg s || dieOfVa va != d ||
      offsetOf va % pageSize (slSize r) != 0))

/-- The page that a command names. -/
def slPage (r : List Byte) : Page := ⟨ix 16 (slPart r), offsetOf (slVa r), slSize r⟩

/-- R370: the global address of a page. -/
def pageVa (s : State) (d : Fin 4) (g : Page) : Word := fwName s d g.base

/-- A command at the head of a slice ring: the record, if it is well formed and of the kind given. (DEDUCED: log 25.) -/
def sliceCommand (s : State) (d : Fin 4) (cmd : Nat) (f : List Byte → Out) : Out :=
  onHead s (headRecord s (sliceRing d)) fun r => if slCmd r = cmd ∧ slBad s d r = false then f r else .next s

/-- A command is finished with a STATUS. -/
def sliceDone (s : State) (d : Fin 4) (status : Nat) : Out := .next (ringDone s (sliceRing d) status)

/-! ### What the slices hold -/

/-- The cached entries that a page meets leave every slice. -/
def dropPage (die : Die) (g : Page) : Die :=
  let keep (t : TlbEnt) : Bool := !(t.part == g.part && rangesMeet t.base (pageSize t.size) g.base g.bytes)
  { die with slices := die.slices.map fun sl => { sl with l1 := sl.l1.filter keep, l2 := sl.l2.filter keep } }

/-- R307: whether a part that meets a test, translated for a partition, is still to perform. -/
def xlatedAny (s : State) (p : Fin 16) (hit : Piece → Bool) : Bool :=
  ((List.finRange 512).any fun c => s.partOf c == some p &&
    ((corePieces s.cores[c]).any hit || (coreTransfers s.cores[c]).any (·.any hit))) ||
  s.fabric.inward.any fun x => x.part == p && x.parts.any hit

/-- R307: whether an access of the partition, translated within a page, is still to perform. -/
def xlatedIn (s : State) (d : Fin 4) (g : Page) : Bool := xlatedAny s g.part (g.touches d)

/-- R310: the home slice of a page. -/
def pageSlice (g : Page) : Fin 4 := ix 4 (g.base / 2 ^ 21)

/-- R310: the pin entry of a page. -/
def findPin (die : Die) (g : Page) : Option PinEnt :=
  die.slices[pageSlice g].pin? g

/-- The pin entry of a page, or an idle one. -/
def pinOf (die : Die) (g : Page) : PinEnt := (findPin die g).getD ⟨g.part, g.base, g.size, 0, false, none⟩

/-- R310: whether a page has its pin entry or can have one. -/
def pinRoom (die : Die) (g : Page) : Bool :=
  (findPin die g).isSome || decide (die.slices[pageSlice g].pins.length < 4096)

/-- R310: a pin entry is set; one with nothing left in it frees. -/
def putPin (die : Die) (e : PinEnt) : Die :=
  let i : Fin 4 := ix 4 (e.base / 2 ^ 21)
  let sl := die.slices[i]
  let rest := sl.pins.filter fun f => !(f.part == e.part && f.base == e.base)
  let idle := e.lcnt == 0 && !e.ep && e.mv.isNone
  { die with slices := vput die.slices i { sl with pins := if idle then rest else e :: rest } }

/-- R211: the atomic-engine lines of a physical range leave their engines; their bytes are in memory already. -/
def dropLines (s : State) (d : Fin 4) (pa n : Nat) : State :=
  let keep (l : EngLine) : Bool := !(decide (l.addr < hbmAddr d pa + n) && decide (hbmAddr d pa < l.addr + 128))
  { s with clusters := s.clusters.map fun k => { k with lines := k.lines.filter keep } }

/-- Where a page lies, if the tables map it as one page of its size. -/
def pageAt (s : State) (d : Fin 4) (g : Page) : Option Nat :=
  match walk s d g.part g.base with
  | .leaf e size => if size = g.size then some (leafAddr e) else none
  | _ => none

/-- R310: TCNT of a page. (DEDUCED: log 25.) -/
def tcnt (s : State) (d : Fin 4) (g : Page) : Nat := pageTcnt s d g (pageAt s d g)

/-! ### INVAL and INVAL.ALL -/

/-- R307: INVAL, and what is malformed. (DEDUCED: log 25.) -/
def execInval (die : Fin 4) (s : State) : Out :=
  onHead s (headRecord s (sliceRing die)) fun r =>
    if slBad s die r then sliceDone s die 3
    else if slCmd r ≠ 1 then .next s
    else
      let s := s.putDie die (dropPage s.dies[die] (slPage r))
      if xlatedIn s die (slPage r) then .next s else sliceDone s die 0

/-- R307: INVAL.ALL. (DEDUCED: log 25.) -/
def execInvalAll (die : Fin 4) (s : State) : Out :=
  sliceCommand s die 2 fun r =>
    let p : Fin 16 := ix 16 (slPart r)
    let keep (t : TlbEnt) : Bool := t.part != p
    let d := s.dies[die]
    let d := { d with slices := d.slices.map fun sl => { sl with l1 := sl.l1.filter keep, l2 := sl.l2.filter keep } }
    let s := s.putDie die d
    let here (q : Piece) : Bool := match q.loc with
      | .glob va => q.pa.isSome && dieOfVa va == die
      | _ => false
    if xlatedAny s p here then .next s else sliceDone s die 0

/-! ### EVICT (R311) -/

/-- R311: the first branch: the page is absent from here on. -/
def evictNow (s : State) (d : Fin 4) (g : Page) : State :=
  let s := match pageAt s d g with
    | some pa => dropLines s d pa g.bytes
    | none => s
  let die := dropPage s.dies[d] g
  s.putDie d { die with evicted := if die.evicted.contains (g.part, g.base) then die.evicted else (g.part, g.base) :: die.evicted }

/-- R311: what EVICT does to a page. A pinned page becomes evict-pending. (DEDUCED: log 25.) -/
def evictPage (s : State) (die : Fin 4) (g : Page) : Out :=
  let e := pinOf s.dies[die] g
  if e.lcnt ≠ 0 ∨ tcnt s die g ≠ 0 then
    if pinRoom s.dies[die] g then sliceDone (s.putDie die (putPin s.dies[die] { e with ep := true })) die 1 else .next s
  else
    let s := evictNow s die g
    if xlatedIn s die g then .next s else sliceDone s die 0

/-- R311: the first evict-pending page of a die that nothing pins. -/
def duePage (s : State) (d : Fin 4) : Option PinEnt :=
  (s.dies[d].slices.toList.flatMap (·.pins)).find? fun e => e.ep && e.lcnt == 0 && tcnt s d ⟨e.part, e.base, e.size⟩ == 0

/-- R311: EVICT_COMPLETE: a deferred eviction runs, and is reported to the duty core. (DEDUCED: log 25.) -/
def execEvictComplete (die : Fin 4) (s : State) : Out :=
  match duePage s die with
  | none => .next s
  | some e =>
    let g : Page := ⟨e.part, e.base, e.size⟩
    let s := evictNow s die g
    if xlatedIn s die g then .next s
    else
      let s := s.putDie die (putPin s.dies[die] { e with ep := false })
      .next (tell s g.part 0x08 (pageVa s die g) (xlateArg 2 die g.size))

/-! ### MIGRATE (R312) -/

/-- The die-local address of the leaf entry that maps an offset, from the table of a level. -/
def leafSlotFrom (s : State) (d : Fin 4) (off : Nat) : Nat → Nat → Option Nat
  | 0, table => some (table + 8 * (off / 2 ^ levelShift 0 % 2 ^ levelBits 0))
  | level + 1, table =>
    let a := table + 8 * (off / 2 ^ levelShift (level + 1) % 2 ^ levelBits (level + 1))
    let e : Word := BitVec.ofNat 64 (leNat (devRead s (hbmAddr d a) 8))
    if !e.getLsbD 63 then none else if e.getLsbD 62 then some a else leafSlotFrom s d off level (e.toNat % 2 ^ 40)

/-- The die-local address of the leaf entry of a partition's offset. -/
def leafSlot (s : State) (d : Fin 4) (p : Fin 16) (off : Nat) : Option Nat :=
  leafSlotFrom s d off 3 (s.dies[d].roots[p].toNat / 2 ^ 13 * 2 ^ 13 % 2 ^ 40)

/-- R312: MIGRATE is accepted, or refused: an evict-pending page, a place that is misaligned or beyond the die's memory, or a
page that the tables do not map. (DEDUCED: log 25.) -/
def execMigrate (die : Fin 4) (s : State) : Out :=
  sliceCommand s die 4 fun r =>
    let g := slPage r
    let e := pinOf s.dies[die] g
    if e.mv.isSome then .next s
    else if e.ep ∨ slArg r % g.bytes ≠ 0 ∨ 2 ^ 37 < slArg r + g.bytes ∨ (pageAt s die g).isNone then sliceDone s die 2
    else if pinRoom s.dies[die] g then .next (s.putDie die (putPin s.dies[die] { e with mv := some (BitVec.ofNat 64 (slArg r)) }))
    else .next s

/-- Cells of a range, copied to another place. -/
def copyCells (m : List Host.Cell) (a b n : Nat) : List Host.Cell :=
  (m.filter fun c => decide (a ≤ c.1) && decide (c.1 < a + n)).foldl (fun t c => writeByte t (c.1 - a + b) c.2) (clearMem m b n)

/-- Capability tags of a range, copied to another place. -/
def copyTags (caps : List Nat) (a b n : Nat) : List Nat :=
  (caps.filter fun g => decide (a ≤ 16 * g) && decide (16 * g < a + n)).foldl (fun t g => setCap t (g - a / 16 + b / 16))
    (clearCaps caps b n)

/-- R312 step 3: ciphertext, tags and leaves of a page, copied to another place of the die, where its leaves are new to the counter
tree. -/
def copyPage (s : State) (d : Fin 4) (a b n : Nat) : State :=
  let die := s.dies[d]
  let inPage (k unit lo : Nat) : Bool := decide (lo ≤ k * unit) && decide (k * unit < lo + n)
  let moved (k unit : Nat) : Nat := k - a / unit + b / unit
  let tags := (die.tags.filter fun t => inPage t.block 64 a).map fun t => { t with block := moved t.block 64 }
  let bad := (die.badBlocks.filter fun k => inPage k 64 a).map (moved · 64)
  let die' := { die with
    tags := tags ++ die.tags.filter fun t => !inPage t.block 64 b
    badBlocks := bad ++ die.badBlocks.filter fun k => !inPage k 64 b }
  let die' := (List.range (n / 4096)).foldl (fun e i => setLeaf e (b / 4096 + i) (leafOf die (a / 4096 + i))) die'
  { s.putDie d die' with
    mem := copyCells s.mem (hbmAddr d a) (hbmAddr d b) n, caps := copyTags s.caps (hbmAddr d a) (hbmAddr d b) n }

/-- R312 step 4: a leaf entry names a new place. -/
def readdress (s : State) (d : Fin 4) (slot to_ : Nat) : State :=
  let e := leNat (devRead s (hbmAddr d slot) 8)
  devWrite s (hbmAddr d slot) (leBytes 8 (e / 2 ^ 40 * 2 ^ 40 + to_ % 2 ^ 40 / 256 * 256 + e % 256))

/-- R312: MIGRATE_MOVE: with no transfer and no access of the page still to perform, the page moves. (DEDUCED: log 25.) -/
def execMigrateMove (die : Fin 4) (s : State) : Out :=
  sliceCommand s die 4 fun r =>
    let g := slPage r
    let e := pinOf s.dies[die] g
    match e.mv, pageAt s die g, leafSlot s die g.part g.base with
    | some to_, some pa, some slot =>
      if xlatedIn s die g ∨ transfersOn s die g ≠ 0 then .next s
      else
        let s := dropLines s die pa g.bytes
        let s := if pa = to_.toNat then s else copyPage s die pa to_.toNat g.bytes
        let s := readdress s die slot to_.toNat
        let s := s.putDie die (putPin (dropPage s.dies[die] g) { e with mv := none })
        sliceDone s die 0
    | some _, _, _ => sliceDone (s.putDie die (putPin s.dies[die] { e with mv := none })) die 2
    | none, _, _ => .next s

/-! ### PRESENT and REFUSE (R307) -/

/-- R306: a page can be reported absent again. -/
def forgetPage (die : Die) (g : Page) : Die := { die with absent := die.absent.filter fun e => !(e.1 == g.part && e.2 == g.base) }

/-- R246: the lease requests of a window that are outstanding, in decode order: entry, place among its operands, operand.
Those beyond 64 have not been sent. -/
def askedOps (w : Window) : List (Nat × Nat × Operand) :=
  ((w.entries.filter fun e => e.st == .waiting).flatMap fun e =>
    ((e.ops.zip e.leases).zipIdx.filter fun x => x.1.2 == .asked || x.1.2 == .retried).map fun x => (e.serial, x.2, x.1.1)).take 64

/-- Whether the range of a lease request touches a page of a die. -/
def opTouches (s : State) (die : Fin 4) (g : Page) (o : Operand) : Bool :=
  dieOfVa o.addr == die && pkgOf o.addr == ownPkg s && rangesMeet (offsetOf o.addr) (max 1 o.len) g.base g.bytes

/-- The states of the outstanding lease requests that touch a page change. -/
def mapAsked (s : State) (die : Fin 4) (g : Page) (f : WinEnt → Nat → WinEnt) : State :=
  let hit := (askedOps s.aux[g.part].window).filter fun x => opTouches s die g x.2.2
  modWindow s g.part fun w => { w with entries := w.entries.map fun e =>
    (hit.filter fun x => x.1 == e.serial).foldl (fun e x => f e x.2.1) e }

/-- R307, R314: PRESENT: the page's waiting requests and translations are tried again. -/
def execPresent (die : Fin 4) (s : State) : Out :=
  sliceCommand s die 5 fun r =>
    let g := slPage r
    let d := forgetPage s.dies[die] g
    let s := s.putDie die { d with evicted := d.evicted.filter fun e => !(e.1 == g.part && e.2 == g.base) }
    sliceDone (mapAsked s die g fun e i => { e with leases := e.leases.set i .retried }) die 0

/-- R246: a lease request fails, and its entry becomes Faulted with no unit run. -/
def failLease (e : WinEnt) (k : Cause) : WinEnt :=
  if e.st = .waiting then { e with st := .faulted, cause := some k, faultUnit := BitVec.allOnes 32 } else e

/-- R307, R314: REFUSE: the waiting lease requests that touch the page fail with LEASE_OUT, but for those that PRESENT has had tried
again. (DEDUCED: log 25.) -/
def execRefuse (die : Fin 4) (s : State) : Out :=
  sliceCommand s die 6 fun r =>
    let g := slPage r
    let s := s.putDie die (forgetPage s.dies[die] g)
    sliceDone (mapAsked s die g fun e i => if e.leases[i]? = some .asked then failLease e .leaseOut else e) die 0

end Sys2Proof.Machine
end

