-- ==== Sys2Proof/Machine/Window.lean ====
section
/-! DEFINITION. The task window (R238 to R256): decode of a task into an entry, versions and fixed regions, leases, issue
and selection (R274, R275), retirement, faults, squash and cancel. -/

namespace Sys2Proof.Machine

/-- R395: how many cluster groups a partition has. -/
def groupCount (s : State) (p : Fin 16) : Nat := ((List.range 16).filter fun g => s.parts[p].groups.getLsbD g).length

/-- R240: whether the work of an entry is over: it is Complete, or its transition to Complete is due. -/
def WinEnt.over (e : WinEnt) : Bool :=
  e.st == .complete || (e.st == .running && e.handed == e.units && e.outstanding == 0)

/-! ### Buffers and versions (R215, R220, R242) -/

/-- R215: the declared buffer of an id. -/
def findBuf (w : Window) (id : BitVec 12) : Option Buf := if id = 0 then none else w.bufs.find? fun b => b.live && b.id == id

/-- A buffer changes. -/
def modBuf (w : Window) (uid : Nat) (f : Buf → Buf) : Window :=
  { w with bufs := w.bufs.map fun b => if b.uid = uid then f b else b }

/-- R242: the newest version of a renamable buffer. -/
def Buf.newest (b : Buf) : Option Version := b.versions.head?

/-- R242: how many versions of a buffer are pending. -/
def Buf.pending (b : Buf) : Nat := (b.versions.filter fun v => !v.committed).length

/-- R238: the rename entries in use. -/
def renameUsed (w : Window) : Nat := w.bufs.foldl (fun n b => n + b.versions.length) 0

/-- R238: the ranges of the arena in use, as address and length. -/
def arenaUsed (w : Window) : List (Nat × Nat) :=
  w.bufs.flatMap fun b => if b.fixed then (if b.arena then [(b.base.toNat, b.size)] else []) else b.versions.map fun v => (v.addr.toNat, b.size)

/-- The gaps between ranges in use, from an address on up to an end. -/
def gapsFrom (lo hi : Nat) : List (Nat × Nat) → List (Nat × Nat)
  | [] => if lo < hi then [(lo, hi - lo)] else []
  | (a, n) :: rest => (if lo < a then [(lo, a - lo)] else []) ++ gapsFrom (max lo (a + n)) hi rest

/-- R241: a place in a partition's arena for a physical buffer. Which of the gaps it takes is free. (DEDUCED: log 26.) -/
def arenaPlace (s : State) (p : Fin 16) (w : Window) (size : Nat) : Option Word :=
  let a := s.aux[p]
  let used := (arenaUsed w).mergeSort fun x y => decide (x.1 ≤ y.1)
  let fits := (gapsFrom a.arenaLo.toNat (a.arenaLo.toNat + a.arenaLen) used).filter fun g => decide (size ≤ g.2)
  (fits[Config.arenaGap s.free % (if fits.length = 0 then 1 else fits.length)]?).map fun g => BitVec.ofNat 64 g.1

/-- R242, R224: the bytes of a new version are undefined: free values, where its pages are present. -/
def fillUndefined (s : State) (p : Fin 16) (va : Word) (n : Nat) : State :=
  let s' := (cutAt (2 ^ 16) va.toNat n).foldl (fun t (o, l) =>
    let a := va + BitVec.ofNat 64 o
    match walk t (dieOfVa a) p (offsetOf a) with
    | .leaf e size =>
      t.store (hbmAddr (dieOfVa a) (leafAddr e + offsetOf a % pageSize size)) ((List.range l).map fun i => Config.undefinedByte s.free (o + i))
    | _ => t) s
  { s' with free := s.free + 1 }

/-- R221, R242: what a WFREE has left returns once no entry names it. -/
def tidy (w : Window) : Window :=
  let names (uid : Nat) (v : Option Nat) : Bool := w.entries.any fun e => e.ops.any fun o => o.buf == uid && (v.isNone || o.version == v)
  let bufs := w.bufs.map fun b => if b.live then b else { b with versions := b.versions.filter fun v => !v.committed || names b.uid (some v.num) }
  { w with bufs := bufs.filter fun b => b.live || !b.versions.isEmpty || names b.uid none }

/-- R221: a name is undeclared. -/
def freeBuf (w : Window) (uid : Nat) : Window := tidy (modBuf w uid fun b => { b with live := false })

/-- R242: the pending versions of a retiring entry are committed, and what they supersede is freed. -/
def commitVersions (w : Window) (serial : Nat) : Window :=
  { w with bufs := w.bufs.map fun b =>
      match b.versions.find? fun v => !v.committed && v.writer == serial with
      | some v => { b with versions := (b.versions.filter fun u => decide (v.num ≤ u.num)).map fun u =>
          if u.num = v.num then { u with committed := true } else u }
      | none => b }

/-- R250, R255: the pending versions of an entry are discarded. -/
def dropVersions (w : Window) (serial : Nat) : Window :=
  { w with bufs := w.bufs.map fun b => { b with versions := b.versions.filter fun v => v.committed || v.writer != serial } }

/-! ### Level counters (R253) -/

/-- R253: a launch counts in a level. -/
def countLevel (w : Window) (kind : BitVec 2) (uid : Nat) (id : BitVec 16) : Window :=
  if w.counters.any fun c => c.kind == kind && c.uid == uid then
    { w with counters := w.counters.map fun c => if c.kind = kind ∧ c.uid = uid then { c with count := c.count + 1 } else c }
  else { w with counters := w.counters ++ [⟨uid, kind, id, false, 1⟩] }

/-- R253: completed levels give up their slots. -/
def sweepLevels (w : Window) : Window := { w with counters := w.counters.filter fun c => !(c.closed && c.count == 0) }

/-- R253: a level is closed. -/
def closeLevel (w : Window) (kind : BitVec 2) (uid : Nat) : Window :=
  sweepLevels { w with counters := w.counters.map fun c => if c.kind = kind ∧ c.uid = uid then { c with closed := true } else c }

/-- R253: a launch leaves its levels. -/
def leaveLevels (w : Window) (e : WinEnt) : Window :=
  sweepLevels { w with counters := w.counters.map fun c => if e.levels.contains c.uid then { c with count := c.count - 1 } else c }

/-! ### Tasks (R222 to R224) -/

/-- R222: the length of a slot's range. -/
def slotLen (b : Buf) (x : WSlot) : Nat := if x.length = 0 then b.size - x.offset.toNat else x.length.toNat

/-- R223: whether one slot is legal. (DEDUCED: log 29.) -/
def slotLegal (w : Window) (x : WSlot) : Bool :=
  if x.mode = 0 then x == WSlot.zero
  else match findBuf w x.buf with
  | none => false
  | some b =>
    decide (x.offset.toNat + max 1 (slotLen b x) ≤ b.size) &&
      (b.fixed || x.mode != 2 || (x.offset == 0 && (x.length == 0 || x.length.toNat == b.size)))

/-- R223: whether two slots clash on a renamable buffer. -/
def slotsClash (w : Window) (x y : WSlot) : Bool :=
  x.mode != 0 && y.mode != 0 && x.buf == y.buf && (x.mode != 1 || y.mode != 1) && (findBuf w x.buf).any fun b => !b.fixed

/-- R223: a nonzero ORDER is a permutation of the levels. -/
def orderOk (o : BitVec 18) : Bool :=
  o == 0 || (List.range 6).all fun l => (List.range 6).any fun j => o.toNat / 8 ^ j % 8 == l

/-- R223: the product of the counts. -/
def countsOk (c : Vector (BitVec 16) 6) : Bool := c.toList.all (· != 0) && decide (c.toList.foldl (fun n x => n * x.toNat) 1 ≤ 2 ^ 32)

/-- R222: where the parameter block of a record lies. -/
def paramAddr (pos : Word) (r : WTaskRec) : Word := pos + r.poff.signExtend 64

/-- R223: whether a parameter block lies inside a range. -/
def paramOk (pos : Word) (lo hi : Nat) (r : WTaskRec) : Bool :=
  let a : Int := pos.toNat + r.poff.toInt
  r.poff == 0 || (r.poff.toNat % 32 == 0 && decide ((lo : Int) ≤ a) && decide (a + 128 ≤ hi))

/-- R223: the checks of a WTASK in a range of the stream, or in a graph binary. -/
def taskLegal (w : Window) (pos : Word) (lo hi : Nat) (r : WTaskRec) : Bool :=
  countsOk r.counts && orderOk r.order && r.koff.toNat % 64 == 0 && (findBuf w r.kbuf).any (fun b => decide (r.koff.toNat < b.size)) &&
    paramOk pos lo hi r && r.slots.toList.all (slotLegal w) &&
    !(List.finRange 8).any (fun i => (List.finRange 8).any fun j => decide (i < j) && slotsClash w r.slots[i] r.slots[j]) &&
    !r.slots.toList.any fun x => decide (2 ≤ x.mode.toNat) && x.buf == r.kbuf

/-- What a task is decoded with: its record, its parameters, and the front end's checkpoint (R251). -/
structure NewTask where
  rec_ : WTaskRec
  pre : Bool
  params : Vector Word 16
  pos : Word
  checkpoint : List Level
  entry : Nat
  node : Option (Nat × List Nat)
  graph : Option (Nat × BitVec 16)
  edges : List Nat
deriving DecidableEq, Repr

/-- R242: a new version joins a buffer: none where the rename entries or the arena are used up. -/
def newVersion (s : State) (p : Fin 16) (b : Buf) (writer : Nat) (committed : Bool) : Option (State × Version) :=
  let w := s.aux[p].window
  if 256 * groupCount s p ≤ renameUsed w then none
  else (arenaPlace s p w b.size).map fun a =>
    let v : Version := ⟨w.nextUid + 1, a, writer, committed⟩
    let s := modWindow s p fun w => { modBuf w b.uid fun b => { b with versions := v :: b.versions } with nextUid := w.nextUid + 1 }
    (fillUndefined s p a b.size, v)

/-- R242: the version that a slot names or makes. -/
def slotVersion (s : State) (p : Fin 16) (b : Buf) (mode : BitVec 2) (serial : Nat) : Option (State × Option Version) :=
  if b.fixed then some (s, none)
  else if mode = 2 then (newVersion s p b serial false).map fun x => (x.1, some x.2)
  else match b.newest with
  | some v => some (s, some v)
  | none => (newVersion s p b serial true).map fun x => (x.1, some x.2)

/-- R224: the operand of a slot. None: decode stalls. -/
def makeOperand (s : State) (p : Fin 16) (serial slot : Nat) (mode : BitVec 2) (buf : BitVec 12) (off len : Nat) : Option (State × Operand) :=
  match findBuf s.aux[p].window buf with
  | none => none
  | some b =>
    (slotVersion s p b mode serial).map fun (s, v) =>
      let base := match v with
        | some v => v.addr
        | none => b.base
      (s, ⟨slot, mode, b.uid, v.map (·.num), base + BitVec.ofNat 64 off, len, decide (2 ≤ mode.toNat)⟩)

/-- R222, R244: the operands of a task: its slots in order, and KBUF from KOFF to its end. -/
def makeOperands (s : State) (p : Fin 16) (serial : Nat) (r : WTaskRec) : Option (State × List Operand) :=
  let slots := (List.finRange 8).foldlM (fun (acc : State × List Operand) k =>
    let x := r.slots[k]
    if x.mode = 0 then some acc
    else match findBuf acc.1.aux[p].window x.buf with
    | none => none
    | some b => (makeOperand acc.1 p serial k.val x.mode x.buf x.offset.toNat (slotLen b x)).map fun y => (y.1, acc.2 ++ [y.2])) (s, [])
  match slots with
  | none => none
  | some (s, ops) =>
    match findBuf s.aux[p].window r.kbuf with
    | none => none
    | some b => (makeOperand s p serial 8 0 r.kbuf r.koff.toNat (b.size - r.koff.toNat)).map fun y => (y.1, ops ++ [y.2])

/-- R241 step 2: whether every OUT buffer has a version to spare. -/
def depthOk (w : Window) (r : WTaskRec) : Bool :=
  r.slots.toList.all fun x => x.mode != 2 || (findBuf w x.buf).any fun b => b.fixed || decide (b.pending < b.depth)

/-- R241 step 5: the levels that a task counts in: kind, level and id. -/
def taskLevels (w : Window) (graph : Option (Nat × BitVec 16)) : List (BitVec 2 × Nat × BitVec 16) :=
  let g : List (BitVec 2 × Nat × BitVec 16) := match graph with
    | some (u, g) => [(1, u, g)]
    | none => []
  g ++ [(2, w.phase, w.phaseId), (3, w.job, w.jobId)]

/-- R241 step 5: whether there are counter slots for the levels that have none. -/
def levelsFit (w : Window) (ls : List (BitVec 2 × Nat × BitVec 16)) : Bool :=
  let fresh := ls.filter fun l => !w.counters.any fun c => c.kind == l.1 && c.uid == l.2.1
  decide (w.counters.length + fresh.length ≤ 64)

/-- The entry of a number. -/
def Front.entry (f : Front) (n : Nat) : Option Entry := f.entries.find? fun e => e.num == n

/-- R241: a task becomes an entry. None: decode stalls. -/
def enterTask (s : State) (p : Fin 16) (t : NewTask) : Option State :=
  let w := s.aux[p].window
  let ls := taskLevels w t.graph
  if 32 * groupCount s p ≤ w.entries.length ∨ !depthOk w t.rec_ then none
  else match makeOperands s p w.nextSerial t.rec_ with
  | none => none
  | some (s, ops) =>
    let w := s.aux[p].window
    if !levelsFit w ls then none
    else
      let front := s.aux[p].front
      let kernel := (ops.getLast?).getD ⟨8, 0, 0, none, 0, 0, false⟩
      let e : WinEnt :=
        { serial := w.nextSerial, launch := w.nextLaunch, st := .waiting, tag := t.rec_.tag, pre := t.pre, counts := t.rec_.counts
          order := t.rec_.order, params := t.params, ops := ops, leases := ops.map fun _ => .asked, code := kernel.addr
          codeLen := kernel.len, packets := 0, native := none, levels := ls.map fun l => l.2.1, edges := t.edges, entry := t.entry
          pos := t.pos, checkpoint := t.checkpoint, node := t.node, handed := 0, outstanding := 0, cause := none
          faultUnit := BitVec.allOnes 32, cancelled := false, readyAt := 0
          picked := ((front.entry t.entry).bind fun e => e.picks.head?.map (·.1)).getD 0 }
      let w := ls.foldl (fun w l => countLevel w l.1 l.2.1 l.2.2) w
      let next := if w.nextLaunch = BitVec.allOnes 32 then 1 else w.nextLaunch + 1
      some (modWindow s p fun _ => { w with entries := w.entries ++ [e], nextSerial := w.nextSerial + 1, nextLaunch := next })

/-! ### Leases (R246, R308 to R310) -/

/-- The pages that a range of a die meets, and whether all of them are fit: none where some part waits. -/
def rangePages (s : State) (p : Fin 16) (va : Word) (len : Nat) (write : Bool) : State × Res (List (Fin 4 × Page × Word)) :=
  (cutAt (2 ^ 16) va.toNat (max 1 len)).foldl (fun acc (o, _) =>
    match acc with
    | (s, .ok got) =>
      let a := va + BitVec.ofNat 64 o
      let d := dieOfVa a
      if pageMoving s d p (offsetOf a) then (s, .wait)
      else match walk s d p (offsetOf a) with
      | .leaf e size =>
        if (if write then e.getLsbD 59 else e.getLsbD 60) then
          let g : Page := ⟨p, offsetOf a / pageSize size * pageSize size, size⟩
          (s, .ok (if got.any fun x => x.1 == d && x.2.1 == g then got else got ++ [(d, g, e)]))
        else (s, .fail .leaseOut)
      | .absent size => (reportAbsent s d p a size, .wait)
      | .bad table => (reportBad s d p table, .fail .unmapped)
      | .none => (s, .fail .unmapped)
    | r => r) (s, .ok [])

/-- R310: a lease pins a page, and its translation stays in the home slice. (DEDUCED: log 25.) -/
def pinPage (s : State) (x : Fin 4 × Page × Word) : State :=
  let (d, g, e) := x
  let pin := pinOf s.dies[d] g
  let s := s.putDie d (putPin s.dies[d] { pin with lcnt := pin.lcnt + 1 })
  fillSlice s d (pageSlice g) true ⟨g.part, g.base, g.size, e⟩

/-- R308: a lease joins the table. -/
def addLease (s : State) (p : Fin 16) (serial : Nat) (o : Operand) : State :=
  let part := s.parts[p]
  s.putPart p { part with
    leases := ⟨part.nextLease, o.addr, o.len, o.write, some serial⟩ :: part.leases, nextLease := part.nextLease + 1 }

/-- R308: how many task leases a partition holds. -/
def taskLeases (s : State) (p : Fin 16) : Nat := (s.parts[p].leases.filter (·.holder.isSome)).length

/-- R246: another package's answer to a request. (DEDUCED: log 26.) -/
def askRemote (s : State) (p : Fin 16) (va : Word) : State × Res Unit :=
  if (fdidOf s p).isNone ∨ !attached s (pkgOf va) then (s, .fail .remote)
  else
    let s' := { s with free := s.free + 1 }
    match Config.remoteLease s.free % 4 with
    | 0 => (s', .ok ())
    | 1 => (s', .fail .unmapped)
    | 2 => (s', .fail .leaseOut)
    | _ => (s', .fail .remote)

/-- R246: the decision of one lease request. A grant adds the lease and pins its pages. (DEDUCED: log 26.) -/
def decideLease (s : State) (p : Fin 16) (serial : Nat) (o : Operand) : State × Res Unit :=
  if 288 * groupCount s p ≤ taskLeases s p then (s, .wait)
  else if pkgOf o.addr ≠ ownPkg s then
    match askRemote s p o.addr with
    | (s, .ok ()) => (addLease s p serial o, .ok ())
    | r => r
  else match rangePages s p o.addr o.len o.write with
  | (s, .ok pages) =>
    if pages.any fun x => (pinOf s.dies[x.1] x.2.1).ep || !pinRoom s.dies[x.1] x.2.1 then (s, .wait)
    else (pages.foldl pinPage (addLease s p serial o), .ok ())
  | (s, .fail c) => (s, .fail c)
  | (s, .wait) => (s, .wait)

/-- The die, or the other package's die, that a lease request goes to. -/
def leaseHome (o : Operand) : Nat := o.addr.toNat / 2 ^ 49

/-- R246: whether a request has no older one waiting at its die. -/
def firstAtDie (asked : List (Nat × Nat × Operand)) (x : Nat × Nat × Operand) : Bool :=
  (asked.find? fun y => leaseHome y.2.2 == leaseHome x.2.2) == some x

/-- R306: whether a page of a lease request's range is absent. -/
def absentIn (s : State) (p : Fin 16) (o : Operand) : Bool :=
  (cutAt (2 ^ 16) o.addr.toNat (max 1 o.len)).any fun (off, _) =>
    let a := o.addr + BitVec.ofNat 64 off
    match walk s (dieOfVa a) p (offsetOf a) with
    | .absent _ => true
    | _ => false

/-- R246: the answer to a request is noted in its entry. One that still finds its page absent waits for firmware again. -/
def noteLease (s : State) (p : Fin 16) (serial i : Nat) (o : Operand) (r : Res Unit) : State :=
  modWindow s p fun w => { w with entries := w.entries.map fun e =>
    if e.serial = serial then
      match r with
      | .ok _ => { e with leases := e.leases.set i .granted }
      | .fail k => failLease { e with leases := e.leases.set i (.failed k) } k
      | .wait => if absentIn s p o then { e with leases := e.leases.set i .asked } else e
    else e }

/-- R246: at each die, the oldest waiting request of a partition is decided if it can be. -/
def grantLeases (s : State) (part : Fin 16) : State :=
  let asked := askedOps s.aux[part].window
  let firsts := asked.filter (firstAtDie asked)
  firsts.foldl (fun t x =>
    if t.aux[part].window.entries.any fun e => e.serial == x.1 && e.st == .waiting && !e.cancelled then
      match decideLease t part x.1 x.2.2 with
      | (t, r) => noteLease t part x.1 x.2.1 x.2.2 r
    else t) s

/-- R246: LEASE_GRANT. -/
def execLeaseGrant (part : Fin 16) (s : State) : Out := .next (grantLeases s part)

/-- R311, R314: EVICT. A grant that is due comes first. (DEDUCED: log 25.) -/
def execEvict (die : Fin 4) (s : State) : Out :=
  sliceCommand s die 3 fun r => evictPage (grantLeases s (slPage r).part) die (slPage r)

/-- R310: a released lease unpins the pages it covered. -/
def unpin (s : State) (p : Fin 16) (l : Lease) : State :=
  if pkgOf l.lo ≠ ownPkg s then s
  else
    let d := dieOfVa l.lo
    let hit (e : PinEnt) : Bool := e.part == p && rangesMeet e.base (pageSize e.size) (offsetOf l.lo) (max 1 l.len)
    let die := (s.dies[d].slices.toList.flatMap fun sl => sl.pins.filter hit).foldl (fun die e => putPin die { e with lcnt := e.lcnt - 1 }) s.dies[d]
    s.putDie d die

/-- R309: the leases of an entry are released, and leave every edge cache. -/
def releaseLeases (s : State) (p : Fin 16) (serial : Nat) : State :=
  let mine := s.parts[p].leases.filter fun l => l.holder == some serial
  let s := mine.foldl (fun t l => unpin t p l) s
  let s := s.putPart p { s.parts[p] with leases := s.parts[p].leases.filter fun l => l.holder != some serial }
  let gone (k : Fin 64) : Bool := s.partOfCluster k == some p
  { s with clusters := Vector.ofFn fun k : Fin 64 =>
      let c := s.clusters[k]
      if gone k then { c with leaseCache := c.leaseCache.filter fun i => !mine.any fun l => l.id == i } else c }

/-! ### Ready entries (R243 to R247, R270) -/

/-- R244: the physical ranges of an operand, widened to granules: a key of the memory, an address and a length. Where another package's
pages lie is a free value. None where a part of it is not translated. (DESIGN CHOICE: log 47.) -/
def physRanges (s : State) (p : Fin 16) (o : Operand) : Option (List (Nat × Nat × Nat)) :=
  let lo := o.addr.toNat / 256 * 256
  let n := (o.addr.toNat + max 1 o.len + 255) / 256 * 256 - lo
  if pkgOf o.addr ≠ ownPkg s then
    some ((cutAt (2 ^ 16) lo n).map fun (off, l) =>
      (4 + (lo + off) / 2 ^ 49, Config.remotePage ((lo + off) / 2 ^ 16) * 2 ^ 16 + (lo + off) % 2 ^ 16, l))
  else (cutAt (2 ^ 16) lo n).mapM fun (off, l) =>
    let a := BitVec.ofNat 64 (lo + off)
    match walk s (dieOfVa a) p (offsetOf a) with
    | .leaf e size => some ((dieOfVa a).val, leafAddr e + offsetOf a % pageSize size, l)
    | _ => none

/-- R244: whether two operands on fixed buffers share a granule. An operand whose range is not translated may share any. (DEDUCED: log 26.) -/
def overlap (s : State) (p : Fin 16) (x y : Operand) : Bool :=
  match physRanges s p x, physRanges s p y with
  | some a, some b => a.any fun r => b.any fun q => r.1 == q.1 && rangesMeet r.2.1 r.2.2 q.2.1 q.2.2
  | _, _ => true

/-- R243, R245, R247: whether an operand of an entry must wait for an older entry. -/
def opWaits (s : State) (p : Fin 16) (x : Operand) (older : WinEnt) : Bool :=
  !older.over &&
    (match x.version with
     | some v => older.ops.any fun y => y.buf == x.buf && y.version == some v && (x.write || y.write)
     | none => x.write || older.ops.any fun y => y.version.isNone && y.write && overlap s p x y)

/-- R247, R270: whether a Waiting entry is ready. -/
def entryReady (s : State) (p : Fin 16) (w : Window) (e : WinEnt) : Bool :=
  let older := w.entries.filter fun o => decide (o.serial < e.serial)
  e.st == .waiting && !e.cancelled && e.leases.all (· == .granted) &&
    !(older.any fun o => e.ops.any fun x => opWaits s p x o) && !(older.any fun o => e.edges.contains o.serial && !o.over)

/-- R240: transitions that are due: entries whose work is over become Complete. -/
def settleWindow (w : Window) : Window :=
  { w with entries := w.entries.map fun e => if e.over then { e with st := .complete } else e }

/-- R240, R247: the entries whose conditions hold become Ready at once. -/
def markReady (s : State) (p : Fin 16) : State :=
  modWindow s p fun w =>
    let w := settleWindow w
    { w with entries := w.entries.map fun e => if entryReady s p w e then { e with st := .ready, readyAt := s.clk } else e }

/-- R240: what is due in the windows happens as a step ends. -/
def settleWindows (s : State) : State :=
  (List.finRange 16).foldl (fun s p => if s.aux[p].window.entries.isEmpty then s else markReady s p) s

/-! ### Selection (R274, R275) -/

/-- R274: the fields of a variant entry. -/
def varArch (v : List Byte) : Nat := byteAt v 0
def varGroups (v : List Byte) : Nat := byteAt v 1
def varFlag (v : List Byte) (i : Nat) : Bool := byteAt v 2 / 2 ^ i % 2 == 1
def varOff (v : List Byte) : Nat := fieldAt v 4 4
def varPackets (v : List Byte) : Nat := fieldAt v 8 4

/-- R274, R275: whether a variant suits a launch, before any translation. (DEDUCED: log 28.) -/
def varSuits (s : State) (p : Fin 16) (e : WinEnt) (v : List Byte) : Bool :=
  let prot := s.parts[p].prot
  byteAt v 2 / 32 == 0 && byteAt v 3 == 0 && fieldAt v 12 4 == 0 && varOff v % 64 == 0 && decide (64 ≤ varOff v) &&
    decide (1 ≤ varPackets v) && decide (1 ≤ varGroups v) && decide (varGroups v ≤ 16) && decide (varArch v ≤ 2) &&
    decide (varGroups v ≤ groupCount s p) && (!varFlag v 0 || prot) && (!varFlag v 1 || !prot) && (!varFlag v 2 || e.pre) &&
    (!varFlag v 3 || !e.pre) && decide (varOff v + 12 * varPackets v ≤ e.codeLen)

/-- The words of a code object's bytes. -/
def bytesWords (bs : List Byte) : List (BitVec 32) := (List.range (bs.length / 4)).map fun i => BitVec.ofNat 32 (fieldAt bs (4 * i) 4)

/-- R275: bytes of a launch's code object, of this package or of another. -/
def codeBytes (s : State) (p : Fin 16) (va : Word) (n : Nat) : State × Res (List Byte) :=
  if pkgOf va = ownPkg s then globRead s false (some p) va n else hubRead s p askCode va n

/-- R275: the first variant that qualifies: offset, packets, and native words where it is portable. (DEDUCED: log 28.) -/
def selectVariant (s : State) (p : Fin 16) (e : WinEnt) : List (List Byte) → State × Res (Nat × Nat × Option (List (BitVec 32)))
  | [] => (s, .fail .illegalOp)
  | v :: rest =>
    if !varSuits s p e v then selectVariant s p e rest
    else if !varFlag v 4 then (s, .ok (varOff v, varPackets v, none))
    else match codeBytes s p (e.code + BitVec.ofNat 64 (varOff v)) (12 * varPackets v) with
    | (s, .ok bs) =>
      match translatePortable (bytesWords bs) with
      | some ws => (s, .ok (varOff v, varPackets v, some ws))
      | none => selectVariant s p e rest
    | (s, .fail k) => (s, .fail k)
    | (s, .wait) => (s, .wait)

/-- R26, R41: how many packets a native code object has. The launch holds no count: a range that ends in packets of zeros, less than 64
bytes of them, may be an object with its padding, and how many of them are padding is a free value. (DESIGN CHOICE: log 47.) -/
def nativePackets (s : State) (p : Fin 16) (e : WinEnt) : State × Res Nat :=
  let n := e.codeLen / 12
  let k := min 5 n
  match codeBytes s p (e.code + BitVec.ofNat 64 (12 * (n - k))) (12 * k) with
  | (s, .ok bs) =>
    let zero (i : Nat) : Bool := ((bs.drop (12 * (k - 1 - i))).take 12).all (· == 0)
    let pad := ((List.range k).takeWhile fun i => zero i && decide (e.codeLen - 12 * (n - 1 - i) < 64)).length
    (s, .ok (n - Config.codePad s.free % (pad + 1)))
  | (s, .fail c) => (s, .fail c)
  | (s, .wait) => (s, .wait)

/-- R274, R275: what an entry's code is: offset, packets, native words. (DEDUCED: log 28.) -/
def selectCode (s : State) (p : Fin 16) (e : WinEnt) : State × Res (Nat × Nat × Option (List (BitVec 32))) :=
  match codeBytes s p e.code (min 16 e.codeLen) with
  | (s, .ok hdr) =>
    let nvar := byteAt hdr 4
    if fieldAt hdr 0 4 ≠ 0x7E464154 then
      match nativePackets s p e with
      | (s, .ok n) => (s, .ok (0, n, none))
      | (s, .fail k) => (s, .fail k)
      | (s, .wait) => (s, .wait)
    else if nvar < 1 ∨ 8 < nvar ∨ fieldAt hdr 5 11 ≠ 0 ∨ e.codeLen < 16 + 16 * nvar then (s, .fail .illegalOp)
    else match codeBytes s p (e.code + 16) (16 * nvar) with
    | (s, .ok bs) => selectVariant s p e ((List.range nvar).map fun i => (bs.drop (16 * i)).take 16)
    | (s, .fail k) => (s, .fail k)
    | (s, .wait) => (s, .wait)
  | (s, .fail k) => (s, .fail k)
  | (s, .wait) => (s, .wait)

/-- R240, R275: the oldest Ready entry issues, with its code selected. -/
def issueEntry (s : State) (p : Fin 16) (e : WinEnt) : State :=
  match selectCode s p e with
  | (s, .ok (off, packets, native)) =>
    let s := dropAsks s p askCode
    modLaunch { s with free := s.free + 1 } p e.launch fun e => { e with st := .running, code := e.code + BitVec.ofNat 64 off, packets := packets, native := native }
  | (s, .fail k) => modLaunch (dropAsks s p askCode) p e.launch fun e => { e with st := .faulted, cause := some k, faultUnit := BitVec.allOnes 32 }
  | (s, .wait) => s

/-- R240, R247: ISSUE_LAUNCH: the oldest Ready entry issues, in a later clk than the one in which it became Ready. (DEDUCED: log 28.) -/
def execIssueLaunch (part : Fin 16) (s : State) : Out :=
  let s := markReady s part
  let w := s.aux[part].window
  let running := (w.entries.filter fun e => e.st == .running).length
  match w.entries.find? fun e => e.st == .ready && !e.cancelled && decide (e.readyAt < s.clk) with
  | some e => .next (if running < 8 then issueEntry s part e else s)
  | none => .next s

/-! ### Leaving the window (R248, R250, R255) -/

/-- An entry leaves the window: its levels count it no more, its leases are released. -/
def removeEntry (s : State) (p : Fin 16) (e : WinEnt) : State :=
  let s := releaseLeases s p e.serial
  modWindow s p fun w => leaveLevels { w with entries := w.entries.filter fun o => o.serial != e.serial } e

/-- R248: the oldest entry retires when it is Complete. -/
def retireOldest (s : State) (part : Fin 16) : State :=
  let s := modWindow s part settleWindow
  match s.aux[part].window.entries with
  | e :: _ =>
    if e.st = .complete ∧ e.cancelled = false then
      let s := modWindow s part fun w => commitVersions w e.serial
      let s := removeEntry s part e
      (modWindow s part tidy).count (some part) 11 1
    else s
  | [] => s

/-- R248: RETIRE. -/
def execRetire (part : Fin 16) (s : State) : Out := .next (retireOldest s part)

/-- R256: the retires that are due come before a cancel. -/
def retireDue : Nat → State → Fin 16 → State
  | 0, s, _ => s
  | n + 1, s, p =>
    match s.aux[p].window.entries with
    | e :: _ => if e.over && !e.cancelled then retireDue n (retireOldest s p) p else s
    | [] => s

/-- R321: the record of a window fault. -/
def windowFault (e : WinEnt) : FaultRec :=
  ⟨e.pos, 0, 0, e.tag, e.faultUnit, e.launch, 0, 0, 2, 0, match e.cause with
    | some k => k.code
    | none => 0⟩

/-- R250 steps 1 and 2: the record is written, and every younger entry is to leave; then the faulting one follows. (DEDUCED: log 26.) -/
def reportFault (s : State) (p : Fin 16) (e : WinEnt) : State :=
  let s := windowRecord s p (windowFault e)
  let squashed := (s.aux[p].window.entries.filter fun o => o.serial != e.serial && !o.cancelled).length
  let s := s.count (some p) 11 squashed
  let f := s.aux[p].front
  let keep (x : Signal) : Bool := decide (x.after ≤ e.serial)
  let s := s.putAux p { s.aux[p] with front := { f with signals := f.signals.filter keep, graph := none } }
  let s := modWindow s p fun w =>
    { w with
      entries := w.entries.map fun o => if o.serial = e.serial then o else { o with cancelled := true }
      stop := some ⟨match e.cause with
        | some k => k.code
        | none => 0, e.pos, e.checkpoint, e.node, e.entry, e.picked⟩ }
  match f.graph with
  | some g => modWindow s p fun w =>
      closeLevel (if (e.node.map (·.2)) = some g.plan then w else g.plan.foldl freeBuf w) 1 g.level
  | none => s

/-- R410: the earliest place after a pick from which an entry is to be decoded again. -/
def Entry.unwindPlace (e : Entry) (order : Nat) : Option (Nat × Word) :=
  ((e.picks ++ e.unwound.toList).filter fun x => decide (order < x.1)).foldl (fun best x => match best with
    | some b => if x.1 < b.1 then some x else some b
    | none => some x) none

/-- R410: every entry picked after the pick that holds the restart point is unwound, from where that later pick began. (DEDUCED: log 30.) -/
def unwindAfter (num order : Nat) (es : List Entry) : List Entry :=
  es.map fun x =>
    let y := { x with picks := x.picks.filter fun k => decide (k.1 ≤ order) }
    if x.num = num then { y with ended := false, unwound := none, parkedAt := none }
    else match x.unwindPlace order with
    | some k => { y with ended := false, unwound := some k, parkedAt := none }
    | none => x

/-- R378, R410: an entry that decode takes up again is no longer parked. -/
def unpark (f : Front) (hit : Nat → Bool) : Front :=
  { f with
    queues := f.queues.map fun q => if q.parked.any hit then { q with parked := none } else q
    entries := f.entries.map fun x => if hit x.num then { x with parkedAt := none } else x }

/-- R250 step 4, R285, R410: the stream stops at the restart point. (DEDUCED: log 26.) -/
def stopAtFault (s : State) (p : Fin 16) (x : WinStop) : State :=
  let a := s.aux[p]
  let f := unpark a.front fun n => (a.front.entry n).any fun e => e.num == x.entry || (e.unwindPlace x.order).isSome
  let f := { f with
    st := .stopped, cause := x.cause, pos := x.pos, restart := x.levels, levels := x.levels, node := x.node, blocks := []
    current := some x.entry, entries := unwindAfter x.entry x.order f.entries, skip := false, wait := .none, pick := none, graph := none }
  vfRaise (s.putAux p { a with front := f, run := none, asks := a.asks.filter fun k => k.key != 0, window := { a.window with stop := none } }) p 0

/-- R250, R251: FAULT_REPORT: the oldest entry is Faulted; or the entries of one that was have left, and the stream stops. A
window that holds a record writes no other. -/
def execFaultReport (part : Fin 16) (s : State) : Out :=
  let w := s.aux[part].window
  match w.stop, w.entries with
  | some x, [] => .next (stopAtFault s part x)
  | none, e :: _ =>
    if e.st = .faulted ∧ e.cancelled = false ∧ s.parts[part].heldWindow = none then .next (reportFault s part e) else .next s
  | _, _ => .next s

/-- The cores that hold a unit of a launch, or what one has left. -/
def launchCores (s : State) (p : Fin 16) (launch : BitVec 32) : List (Fin 512) :=
  (List.finRange 512).filter fun c =>
    let core := s.cores[c]
    s.partOf c == some p && core.ctl.launchid == launch &&
      (core.st != .none || core.unit.mq.any QEnt.live || core.copies.any fun k => k.any (!·.fw))

/-- R255 steps 2 to 5: a chosen entry: its units are discarded and its records deleted, and it leaves once what they left has drained. -/
def cancelEntry (s : State) (part : Fin 16) (e : WinEnt) : State :=
  let s := (launchCores s part e.launch).foldl discardUnit s
  let s := dropSaved (dropRecords s part e.launch) part e.launch
  if !(launchCores s part e.launch).isEmpty then s
  else
    let s := modWindow s part fun w => dropVersions w e.serial
    let stopping := s.aux[part].window.stop.isSome
    let s := removeEntry s part e
    if stopping then s else modWindow s part tidy

/-- R255: CANCEL: every entry that is to leave. -/
def execCancel (part : Fin 16) (s : State) : Out := .next ((leaving s.aux[part].window).foldl (cancelEntry · part ·) s)

end Sys2Proof.Machine
end

