-- ==== Sys2Proof/Machine/Stream.lean ====
section
/-! DEFINITION. The stream front end: fetched blocks (R297 to R299), and the meaning of each record (R220 to R236). A record
is decoded by the acting partition at the position of its innermost level; a record that cannot go on yet changes nothing. -/

namespace Sys2Proof.Machine

/-- A partition's front end changes. -/
def modFront (s : State) (p : Fin 16) (f : Front → Front) : State :=
  s.putAux p { s.aux[p] with front := f s.aux[p].front }

/-- The acting partition's front end and window. -/
def State.front (s : State) : Front := s.aux[s.part].front
def State.window (s : State) : Window := s.aux[s.part].window

/-- R225: the level in decode. -/
def Front.level (f : Front) : Level := f.levels.headD ⟨0, 0, 0, []⟩

/-- The stream address of the record in decode. -/
def State.recPos (s : State) : Word := s.front.level.pos

/-- R225: whether a level has reached its end. -/
def Level.ended (l : Level) : Bool := l.pos.toNat == l.hi % 2 ^ 64

/-! ### Blocks (R297, R298) -/

/-- The block that holds an address. -/
def blockOf (a : Word) : Word := BitVec.ofNat 64 (a.toNat / 256 * 256)

/-- R298: whether a block meets the body of an open loop of a level. -/
def inLoop (l : Level) (a : Word) : Bool :=
  l.loops.any fun t => decide (t.start.toNat < a.toNat + 256) && decide (a.toNat < t.last.toNat + 32)

/-- Level n of the call stack, counted from the bottom. -/
def Front.levelAt (f : Front) (n : Nat) : Level := (f.levels.reverse)[n]?.getD ⟨0, 0, 0, []⟩

/-- The number of the level in decode. -/
def Front.depth (f : Front) : Nat := f.levels.length - 1

/-- R298: blocks of the level in decode that have been passed are released. -/
def Front.release (f : Front) : Front :=
  { f with blocks := f.blocks.filter fun b =>
      b.level != f.depth || decide (f.level.pos.toNat < b.addr.toNat + 256) || inLoop f.level b.addr }

/-- R298: a level's blocks go when it ends. -/
def Front.dropLevel (f : Front) : Front := { f with blocks := f.blocks.filter fun b => decide (b.level < f.depth) }

/-- The position of the level in decode. -/
def Front.goto (f : Front) (pos : Word) : Front :=
  match f.levels with
  | l :: rest => Front.release { f with levels := { l with pos := pos } :: rest }
  | [] => f

/-- R297: the next block that the level in decode reads: the first at or after its position that it does not hold. -/
def Front.nextBlock (f : Front) : Option Word :=
  let l := f.level
  let base := l.pos.toNat / 256 * 256
  ((List.range 9).map fun i => base + 256 * i).findSome? fun a =>
    if decide (a < l.hi) && !f.blocks.any (fun b => b.level == f.depth && b.addr.toNat == a) && !l.ended then some (BitVec.ofNat 64 a)
    else none

/-- R298: a block kept only by an open loop of its level. -/
def Front.loopHeld (f : Front) (b : Block) : Bool :=
  let l := f.levelAt b.level
  inLoop l b.addr && !(b.level == f.depth && b.addr == blockOf f.level.pos)

/-- R298: the lowest loop-held block. -/
def Front.victim (f : Front) : Option Block :=
  (f.blocks.filter f.loopHeld).foldl (fun (m : Option Block) b => match m with
    | some x => if b.addr.toNat < x.addr.toNat then some b else some x
    | none => some b) none

/-- R297, R298: the block to fetch next, and the blocks that stay held. None while there is no room for it. -/
def Front.fetchDue (f : Front) : Option (Word × List Block) :=
  if f.levels.isEmpty then none
  else match f.nextBlock with
  | none => none
  | some a =>
    if f.blocks.length < 8 then some (a, f.blocks)
    else if a = blockOf f.level.pos then f.victim.map fun v => (a, f.blocks.erase v)
    else none

/-- R216, R294: the cause of a hub access that fails: a package that cannot be reached is UNMAPPED. (DEDUCED: log 29.) -/
def hubCause (k : Cause) : Cause := if k = .remote then .unmapped else k

/-- R216, R246: a read that decode makes of device memory, of this package or of another. `out` is the cause of an address outside the
leases, where they are checked. (DEDUCED: log 29.) -/
def streamReadFor (key : Nat) (s : State) (p : Fin 16) (va : Word) (n : Nat) (out : Option Cause) : State × Res (List Byte) :=
  if out.isSome && (leaseVerdict (leasesOf s (some p)) va n false).isSome then (s, .fail (out.getD .leaseOut))
  else if !va.getLsbD 63 then (s, .fail .unmapped)
  else if pkgOf va = ownPkg s then globRead s false (some p) va n
  else match hubRead s p key va n with
  | (s, .fail k) => (s, .fail (hubCause k))
  | r => r

/-- The same, for a record in decode. -/
def streamRead (s : State) (p : Fin 16) (va : Word) (n : Nat) (out : Option Cause) : State × Res (List Byte) :=
  streamReadFor askDecode s p va n out

/-- R237, R290: the cause of a record's fetch outside the leases: LEASE_OUT in an entry's segment, UNMAPPED in a called level. -/
def Front.fetchCause (f : Front) : Cause := if f.depth = 0 then .leaseOut else .unmapped

/-- R344: the capability tag of a granule of device memory. -/
def streamTag (s : State) (p : Fin 16) (va : Word) : Bool :=
  if pkgOf va ≠ ownPkg s then false
  else match walk s (dieOfVa va) p (offsetOf va) with
  | .leaf e size => s.tagged (hbmAddr (dieOfVa va) (leafAddr e + offsetOf va % pageSize size))
  | _ => false

/-- R297: the part of a block that lies in a level's range, as an offset and a length. -/
def levelPart (l : Level) (a : Word) : Nat × Nat :=
  let lo := max l.lo.toNat a.toNat
  (lo - a.toNat, min l.hi (a.toNat + 256) - lo)

/-- R297, R300: FETCH_BLOCK: the level in decode reads its next block. -/
def execFetchBlock (part : Fin 16) (s : State) : Out :=
  let f := s.aux[part].front
  if f.st ≠ .running then .next s
  else match f.fetchDue with
  | none => .next s
  | some (a, kept) =>
    let (o, n) := levelPart f.level a
    let tags := (List.range 16).map fun i => streamTag s part (a + BitVec.ofNat 64 (16 * i))
    match streamReadFor askBlock s part (a + BitVec.ofNat 64 o) n (some f.fetchCause) with
    | (s, .ok bs) =>
      let b : Block := ⟨f.depth, a, padTo 256 (List.replicate o 0 ++ bs), tags, none⟩
      .next (modFront (dropAsks s part askBlock) part fun f => { f with blocks := kept ++ [b] })
    | (s, .fail k) => .next (modFront s part fun f => { f with blocks := kept ++ [⟨f.depth, a, [], [], some k⟩] })
    | (s, .wait) => .next s

/-- R297: the held block of the level in decode that holds a whole range. -/
def Front.holds (f : Front) (va : Word) (n : Nat) : Option Block :=
  f.blocks.find? fun b => b.level == f.depth && decide (b.addr.toNat ≤ va.toNat) && decide (va.toNat + n ≤ b.addr.toNat + 256)

/-- R297: bytes of the stream: from a held block, or read when decode needs them. -/
def frontBytes (s : State) (p : Fin 16) (va : Word) (n : Nat) : State × Res (List Byte) :=
  match s.aux[p].front.holds va n with
  | some b => (s, match b.bad with
    | some k => .fail k
    | none => .ok ((b.data.drop (va.toNat - b.addr.toNat)).take n))
  | none => streamRead s p va n (some s.aux[p].front.fetchCause)

/-! ### Faults and going on -/

/-- R216: the record in decode fails: fetch stops, and the fault waits for the older entries. -/
def streamErr (s : State) (k : Cause) (wop : BitVec 8) : Out :=
  .next (modFront s s.part fun f => { f with wait := .fault k f.level.pos wop false })

/-- Decode goes on at a position of its level. -/
def streamGoto (s : State) (pos : Word) : State := modFront s s.part fun f => f.goto pos

/-- Decode goes on after the record, of a number of units. -/
def nextRec (s : State) (units : Nat) : Out := .next (streamGoto s (s.recPos + BitVec.ofNat 64 (32 * units)))

/-- A record's action that reads: it goes on, faults, or waits. -/
def onStream {α : Type} (r : State × Res α) (wop : BitVec 8) (f : State → α → Out) : Out :=
  match r with
  | (s, .ok x) => f s x
  | (s, .fail k) => streamErr s k wop
  | (s, .wait) => stall s

/-! ### Buffers named by records (R215) -/

/-- Whether an older entry that writes in place may still write a range of a fixed buffer (R227). -/
def writerOut (w : Window) (a : Word) (n : Nat) : Bool :=
  w.entries.any fun e => e.ops.any fun o => o.write && o.version.isNone && rangesMeet o.addr.toNat (max 1 o.len) a.toNat n

/-- R227: whether a version has been produced. -/
def produced (w : Window) (v : Version) : Bool := v.committed || !(w.entries.any fun e => e.serial == v.writer && !e.over)

/-- R215: where bytes of a buffer lie at this decode. None is STREAM_ILLEGAL. -/
def bufPlace (w : Window) (id : BitVec 12) (off n : Nat) : Option Word :=
  match findBuf w id with
  | none => none
  | some b =>
    if b.size < off + n then none
    else if b.fixed then some (b.base + BitVec.ofNat 64 off)
    else b.newest.map fun v => v.addr + BitVec.ofNat 64 off

/-- R227: whether bytes of a buffer can be read as they stand at this decode. -/
def bufSettled (w : Window) (id : BitVec 12) (a : Word) (n : Nat) : Bool :=
  match findBuf w id with
  | none => true
  | some b => if b.fixed then !writerOut w a n else b.newest.all (produced w)

/-- R227: bytes of a buffer, read once their producers are done. (DEDUCED: log 29.) -/
def bufRead (s : State) (id : BitVec 12) (off n : Nat) : State × Res (List Byte) :=
  let w := s.window
  match bufPlace w id off n with
  | none => (s, .fail .streamIllegal)
  | some a => if bufSettled w id a n then streamRead s s.part a n none else (s, .wait)

/-! ### WNOP, WBUF, WFREE -/

/-- R236: WNOP. -/
def execWnop (units : BitVec 2) (s : State) : Out := nextRec s (units.toNat + 1)

/-- R220 step 2: the checks of a fixed buffer's capability. -/
def bufCap (p : Fin 16) (base : BitVec 128) (tag : Bool) (size : Nat) : Option Cause :=
  if !tag then some .capTag
  else if capPart base ≠ p.val ∨ capPerm base % 4 ≠ 3 then some .capPerm
  else if capLen base < size then some .capBounds
  else none

/-- R220 steps 1 and 3 for fields. -/
def bufFieldsOk (w : Window) (prot fixed : Bool) (depth : BitVec 3) (buf : BitVec 12) (size : Word) (base : BitVec 128) : Bool :=
  buf != 0 && (findBuf w buf).isNone && size.toNat % 256 == 0 && decide (256 ≤ size.toNat) && decide (size.toNat ≤ 2 ^ 40) &&
    (!fixed || depth == 0) && (fixed || base == 0) && (prot || base.extractLsb' 64 64 == 0)

/-- Whether some window entry holds arena space. -/
def arenaHeld (w : Window) : Bool :=
  w.bufs.any fun b => w.entries.any fun e => e.ops.any fun o => o.buf == b.uid && (b.arena || !b.fixed)

/-- A buffer joins the partition's buffers. -/
def addBuf (s : State) (p : Fin 16) (id : BitVec 12) (fixed : Bool) (depth size : Nat) (base : Word) (arena : Bool) : State :=
  modWindow s p fun w =>
    let b : Buf := ⟨id, w.nextUid + 1, true, fixed, depth, size, base, arena, []⟩
    { w with bufs := w.bufs ++ [b], nextUid := w.nextUid + 1 }

/-- R220: the declaration of a buffer. -/
def declareBuf (s : State) (p : Fin 16) (fixed : Bool) (depth : BitVec 3) (buf : BitVec 12) (size : Word) (base : BitVec 128)
    (tag : Bool) : Res State :=
  let w := s.aux[p].window
  let prot := s.parts[p].prot
  let n := size.toNat
  let a := base.setWidth 64
  if !bufFieldsOk w prot fixed depth buf size base then .fail .streamIllegal
  else if !fixed then .ok (addBuf s p buf false (depth.toNat + 1) n 0 false)
  else if base = 0 then
    match arenaPlace s p w n with
    | some at_ => .ok { addBuf s p buf true 1 n at_ true with free := s.free + 1 }
    | none => if arenaHeld w then .wait else .fail .leaseOut
  else match (if prot then bufCap p base tag n else none) with
  | some k => .fail k
  | none =>
    if a.toNat % 256 ≠ 0 then .fail .streamIllegal
    else if (leaseVerdict (leasesOf s (some p)) a n false).isSome then .fail .leaseOut
    else .ok (addBuf s p buf true 1 n a false)

/-- R297: the capability tag that a record's bytes 16 to 31 carry. -/
def recordTag (s : State) (p : Fin 16) (pos : Word) : Bool :=
  match s.aux[p].front.holds pos 32 with
  | some b => b.tags.getD ((pos.toNat - b.addr.toNat) / 16 + 1) false
  | none => streamTag s p (pos + 16)

/-- R220: WBUF. -/
def execWbuf (fixed : Bool) (depth : BitVec 3) (buf : BitVec 12) (size : BitVec 64) (base : BitVec 128) (s : State) : Out :=
  match declareBuf s s.part fixed depth buf size base (recordTag s s.part s.recPos) with
  | .ok t => nextRec t 1
  | .fail k => streamErr s k 0x01
  | .wait => stall s

/-- R221: WFREE. -/
def execWfree (buf : BitVec 12) (s : State) : Out :=
  match findBuf s.window buf with
  | none => streamErr s .streamIllegal 0x02
  | some b => nextRec (modWindow s s.part fun w => freeBuf w b.uid) 1

/-! ### WTASK -/

/-- R229: the iteration index of the innermost open loop of every level. -/
def loopIndex (f : Front) : Word :=
  match f.levels.flatMap (·.loops) with
  | t :: _ => (t.n - t.left).setWidth 64
  | [] => 0

/-- R222: the sixteen parameters in the bytes of a parameter block. -/
def paramWords (bs : List Byte) : Vector Word 16 := Vector.ofFn fun i : Fin 16 => BitVec.ofNat 64 (fieldAt bs (8 * i.val) 8)

/-- R224: parameter 15 of a task that asks for the loop index. -/
def withLoop (f : Front) (r : WTaskRec) (ps : Vector Word 16) : Vector Word 16 := if r.loopIdx then vput ps 15 (loopIndex f) else ps

/-- R224: the parameters of a WTASK. -/
def taskParams (s : State) (r : WTaskRec) : State × Res (Vector Word 16) :=
  if r.poff = 0 then (s, .ok (Vector.replicate 16 0))
  else match frontBytes s s.part (paramAddr s.recPos r) 128 with
  | (s, .ok bs) => (s, .ok (paramWords bs))
  | (s, .fail k) => (s, .fail k)
  | (s, .wait) => (s, .wait)

/-- R222 to R224, R241: WTASK. -/
def execWtask (r : WTaskRec) (s : State) : Out :=
  let f := s.front
  let l := f.level
  if !taskLegal s.window l.pos l.lo.toNat l.hi r then streamErr s .streamIllegal 0x08
  else onStream (taskParams s r) 0x08 fun s ps =>
    match enterTask s s.part ⟨r, r.pre, withLoop f r ps, l.pos, f.levels, f.current.getD 0, none, none, []⟩ with
    | some t => nextRec t (r.units.toNat + 1)
    | none => stall s

/-! ### WCALL, WRET, WPRED, WLOOP, WEND -/

/-- R226: a level is pushed. -/
def pushLevel (s : State) (target : Word) (n : Nat) : Out :=
  let s := streamGoto s (s.recPos + 32)
  .next (modFront s s.part fun f => { f with levels := ⟨target, target.toNat + n, target, []⟩ :: f.levels })

/-- R226: WCALL. (DEDUCED: log 29.) -/
def execWcall (bufForm : Bool) (buf : BitVec 12) (length : BitVec 32) (target : BitVec 64) (s : State) : Out :=
  let f := s.front
  let l := f.level
  if length.toNat % 32 ≠ 0 ∨ length = 0 ∨ target.toNat % 32 ≠ 0 ∨ 5 ≤ f.levels.length then streamErr s .streamIllegal 0x10
  else if bufForm then
    match bufPlace s.window buf target.toNat length.toNat with
    | some a => pushLevel s a length.toNat
    | none => streamErr s .streamIllegal 0x10
  else
    let a : Int := l.pos.toNat + target.toInt
    if (l.lo.toNat : Int) ≤ a ∧ a < l.hi then pushLevel s (l.pos + target) length.toNat else streamErr s .streamIllegal 0x10

/-- R226: a level ends, and decode goes on where it was called. -/
def popLevel (s : State) : Out := .next (modFront s s.part fun f => { f.dropLevel with levels := f.levels.drop 1 })

/-- R226: WRET. (DEDUCED: log 29.) -/
def execWret (s : State) : Out :=
  let f := s.front
  if f.levels.length < 2 ∨ f.level.loops ≠ [] then streamErr s .streamIllegal 0x11 else popLevel s

/-- R227: whether a condition holds. -/
def holdsCond (c : WCond) (x y : Word) : Bool :=
  match c with
  | .eq => x == y
  | .ne => x != y
  | .ltu => decide (x.toNat < y.toNat)
  | .geu => decide (y.toNat ≤ x.toNat)
  | .lt => decide (x.toInt < y.toInt)
  | .ge => decide (y.toInt ≤ x.toInt)

/-- R227: WPRED. -/
def execWpred (cond : WCond) (buf : BitVec 12) (skip : BitVec 32) (offset value mask : BitVec 64) (s : State) : Out :=
  let l := s.front.level
  if offset.toNat % 8 ≠ 0 ∨ skip.toNat % 32 ≠ 0 ∨ skip.toNat < 32 ∨ l.hi < l.pos.toNat + skip.toNat then
    streamErr s .streamIllegal 0x12
  else onStream (bufRead s buf offset.toNat 8) 0x12 fun s bs =>
    let w : Word := BitVec.ofNat 64 (leNat bs) &&& mask
    .next (streamGoto s (if holdsCond cond w value then l.pos + 32 else l.pos + skip.setWidth 64))

/-- The loops of the level in decode change. -/
def setLoops (s : State) (ls : List WLoopEnt) : State :=
  modFront s s.part fun f => match f.levels with
    | l :: rest => { f with levels := { l with loops := ls } :: rest }
    | [] => f

/-- R228: WLOOP. (DEDUCED: log 29.) -/
def execWloop (count endoff : BitVec 32) (s : State) : Out :=
  let l := s.front.level
  let stop := l.pos + endoff.setWidth 64
  if endoff.toNat % 32 ≠ 0 ∨ endoff.toNat < 32 then streamErr s .streamIllegal 0x13
  else if count = 0 then
    if l.hi < l.pos.toNat + endoff.toNat + 32 then streamErr s .streamIllegal 0x13 else .next (streamGoto s (stop + 32))
  else if 4 ≤ l.loops.length then streamErr s .streamIllegal 0x13
  else nextRec (setLoops s (⟨l.pos + 32, stop, count, count⟩ :: l.loops)) 1

/-- R228: WEND. -/
def execWend (s : State) : Out :=
  let l := s.front.level
  match l.loops with
  | [] => streamErr s .streamIllegal 0x14
  | t :: rest =>
    if t.last ≠ l.pos then streamErr s .streamIllegal 0x14
    else if t.left = 1 then nextRec (setLoops s rest) 1
    else .next (streamGoto (setLoops s ({ t with left := t.left - 1 } :: rest)) t.start)

/-! ### WFENCE, WWAIT, WSIGNAL -/

/-- R299: every held block is released. -/
def dropBlocks (s : State) (p : Fin 16) : State := modFront s p fun f => { f with blocks := [] }

/-- R230: WFENCE. -/
def execWfence (s : State) : Out :=
  if s.window.entries ≠ [] then stall s else nextRec (dropBlocks s s.part) 1

/-- R145, R230: a table image is loaded into the slot that it names, or leaves it invalid. (DEDUCED: log 29.) -/
def loadTable (s : State) (p : Fin 16) (good : Bool) (img : List Byte) : Bool × State :=
  let part := s.parts[p]
  let t := byteAt img 0
  let put (x : Option CompTable) : State :=
    if 1 ≤ t ∧ t ≤ 4 then s.putPart p { part with tables := vput part.tables (ix 4 (t - 1)) x } else s
  match (if good then parseTable img else none) with
  | some x => (true, put (some x.2))
  | none => (false, put none)

/-- R145, R230: WFENCE.T. An image that does not lie at a multiple of 16 fails its checks. (DEDUCED: log 29.) -/
def execWfenceT (buf : BitVec 12) (offset : BitVec 64) (s : State) : Out :=
  let place := bufPlace s.window buf offset.toNat 144
  if offset.toNat % 16 ≠ 0 ∨ place.isNone then streamErr s .streamIllegal 0x18
  else if s.window.entries ≠ [] then stall s
  else onStream (bufRead s buf offset.toNat 144) 0x18 fun s bs =>
    match loadTable s s.part (place.all fun a => a.toNat % 16 == 0) bs with
    | (true, s) => nextRec (dropBlocks s s.part) 1
    | (false, s) => streamErr s .format 0x18

/-- Where a word of a fixed buffer lies (R231, R232). None is STREAM_ILLEGAL. -/
def fixedWord (w : Window) (buf : BitVec 12) (off : Nat) : Option Word :=
  match findBuf w buf with
  | some b => if b.fixed ∧ off % 8 = 0 ∧ off + 8 ≤ b.size then some (b.base + BitVec.ofNat 64 off) else none
  | none => none

/-- R231: WWAIT. Decode waits; WWAIT_REREAD reads the word. -/
def execWwait (cond : WCond) (buf : BitVec 12) (limit : BitVec 32) (offset value mask : BitVec 64) (s : State) : Out :=
  match fixedWord s.window buf offset.toNat with
  | none => streamErr s .streamIllegal 0x19
  | some a =>
    let lim := if limit = 0 then none else some (s.clk + limit.toNat)
    .next (modFront s s.part fun f => { f with wait := .wwait cond a value mask lim })

/-- R231: one read of a WWAIT's word. `late` says that the limit has passed. -/
def wwaitRead (s : State) (p : Fin 16) (late : Bool) : Out :=
  let f := s.aux[p].front
  let fault (s : State) (k : Cause) : Out := .next (modFront s p fun f => { f with wait := .fault k f.level.pos 0x19 false })
  match f.wait with
  | .wwait cond a value mask _ =>
    match streamRead s p a 8 none with
    | (s, .ok bs) =>
      let s := dropAsks s p askDecode
      if holdsCond cond (BitVec.ofNat 64 (leNat bs) &&& mask) value then
        .next (modFront s p fun f => Front.goto { f with wait := .none } (f.level.pos + 32))
      else if late then fault s .watchdog else .next s
    | (s, .fail k) => fault s k
    | (s, .wait) => .next s
  | _ => .next s

/-- R231: WWAIT_REREAD. -/
def execWwaitReread (part : Fin 16) (s : State) : Out :=
  if s.aux[part].front.st = .running then wwaitRead s part false else .next s

/-- R231: WWAIT_LIMIT: LIMIT clk have passed. -/
def execWwaitLimit (part : Fin 16) (s : State) : Out :=
  let f := s.aux[part].front
  match f.st, f.wait with
  | .running, .wwait _ _ _ _ (some n) => if n ≤ s.clk then wwaitRead s part true else .next s
  | _, _ => .next s

/-- R232: a WSIGNAL is noted, and decode goes on. (DEDUCED: log 30.) -/
def wsignal (add irq : Bool) (buf : BitVec 12) (vector : BitVec 8) (offset value : Word) (s : State) : Out :=
  match fixedWord s.window buf offset.toNat with
  | none => streamErr s .streamIllegal 0x1A
  | some a =>
    let x : Signal := ⟨s.front.current.getD 0, s.window.nextSerial, add, irq, vector, a, value, s.recPos⟩
    nextRec (modFront s s.part fun f => { f with signals := f.signals ++ [x] }) 1

/-- R232: WSIGNAL.ST. -/
def execWsignalSt (irq : Bool) (buf : BitVec 12) (vector : BitVec 8) (offset value : BitVec 64) (s : State) : Out :=
  wsignal false irq buf vector offset value s

/-- R232: WSIGNAL.ADD. -/
def execWsignalAdd (irq : Bool) (buf : BitVec 12) (vector : BitVec 8) (offset value : BitVec 64) (s : State) : Out :=
  wsignal true irq buf vector offset value s

/-- R232, R306: the write of a signal. A page that is absent waits for firmware. -/
def signalWrite (s : State) (p : Fin 16) (x : Signal) : State × Res Unit :=
  let own := pkgOf x.addr == ownPkg s
  let m := if x.add then { hubMsg s p kAmo x.addr (leBytes 8 x.value.toNat ++ leBytes 8 0) with opx := amoOpx 0 .w64 }
    else { hubMsg s p kWr x.addr (leBytes 8 x.value.toNat) with opx := 1 }
  if (leaseVerdict (leasesOf s (some p)) x.addr 8 true).isSome then (s, .fail .leaseOut)
  else match (if own then walk s (dieOfVa x.addr) p (offsetOf x.addr) else .none) with
  | .absent size => (reportAbsent s (dieOfVa x.addr) p x.addr size, .wait)
  | _ => match hubWrite s p askSignal m with
    | (s, .fail k) => (s, .fail (hubCause k))
    | r => r

/-- R232, R293: the vector of a signal. -/
def signalVector (s : State) (p : Fin 16) (x : Signal) : State :=
  if !x.irq then s
  else if 8 ≤ x.vector.toNat ∧ x.vector.toNat ≤ 63 then vfRaise s p (ix 64 x.vector.toNat)
  else modFront s p fun f => { f with veclost := true }

/-- R216, R321: a stream record. -/
def streamFaultRec (k : Cause) (pos : Word) (wop : BitVec 8) : FaultRec := ⟨pos, 0, 0, 0, 0, 0, 0, wop, 1, 0, k.code⟩

/-- R232: WSIGNAL_EFFECT: the oldest signal takes effect once every older entry has left. (DEDUCED: log 30.) -/
def execWsignalEffect (part : Fin 16) (s : State) : Out :=
  match s.aux[part].front.signals with
  | [] => .next s
  | x :: rest =>
    if s.aux[part].window.entries.any fun e => decide (e.serial < x.after) then .next s
    else
      let done (s : State) : State := modFront s part fun f => { f with signals := rest }
      match signalWrite s part x with
      | (s, .ok _) => .next (signalVector (done s) part x)
      | (s, .fail k) =>
        if s.parts[part].heldFront.isSome then .next s else .next (frontRecord (done s) part (streamFaultRec k x.pos 0x1A))
      | (s, .wait) => .next s

/-! ### WPHASE, WCANCEL, WHALT -/

/-- R234: WPHASE. -/
def execWphase (job : Bool) (id : BitVec 16) (s : State) : Out :=
  let s := modWindow s s.part fun w =>
    { closeLevel w 2 w.phase with phase := w.nextUid + 1, phaseId := id, nextUid := w.nextUid + 1 }
  let s := if job then modWindow s s.part fun w =>
      { closeLevel w 3 w.job with job := w.nextUid + 1, jobId := id, nextUid := w.nextUid + 1 }
    else s
  nextRec s 1

/-- R235: the operands that an entry writes, by OUT or in place. -/
def taskOutputs (e : WinEnt) : List Operand := e.ops.filter (·.write)

/-- R235: whether an entry reads one of some outputs: the same version of a renamable buffer, or the same bytes of a fixed one. (DEDUCED: log 26.) -/
def readsAny (s : State) (p : Fin 16) (e : WinEnt) (outs : List Operand) : Bool :=
  e.ops.any fun o => o.mode != 2 && outs.any fun y => match o.version, y.version with
    | some a, some b => o.buf == y.buf && a == b
    | none, none => overlap s p o y
    | _, _ => false

/-- R235: the entries that a cancel reaches: those chosen, and those that read an output of one it reaches. (DEDUCED: log 26.) -/
def cancelClosure (s : State) (p : Fin 16) (es : List WinEnt) (chosen : WinEnt → Bool) : List Nat :=
  (es.foldl (fun (acc : List Nat × List Operand) e =>
    if chosen e || readsAny s p e acc.2 then (acc.1 ++ [e.serial], acc.2 ++ taskOutputs e) else acc) ([], [])).1

/-- R235, R256: entries are marked for CANCEL, after the retires that are due. -/
def cancelWhere (s : State) (p : Fin 16) (chosen : Window → WinEnt → Bool) : State :=
  let s := retireDue 512 s p
  let w := s.aux[p].window
  let hit := cancelClosure s p w.entries (chosen w)
  modWindow s p fun w =>
    { w with entries := w.entries.map fun e => if hit.contains e.serial then { e with cancelled := true } else e }

/-- R235: whether an entry counts in an open level of a kind and id. -/
def inLevel (w : Window) (kind : BitVec 2) (id : BitVec 16) (e : WinEnt) : Bool :=
  w.counters.any fun c => c.kind == kind && c.id == id && e.levels.contains c.uid

/-- R235: WCANCEL of a choice. -/
def wcancel (s : State) (chosen : Window → WinEnt → Bool) : Out :=
  nextRec (cancelWhere s s.part chosen) 1

/-- R235: WCANCEL.LAUNCH. -/
def execWcancelLaunch (tag : BitVec 16) (s : State) : Out := wcancel s fun _ e => e.tag == tag
/-- R235: WCANCEL.GRAPH. -/
def execWcancelGraph (id : BitVec 16) (s : State) : Out := wcancel s fun w e => inLevel w 1 id e
/-- R235: WCANCEL.PHASE. -/
def execWcancelPhase (id : BitVec 16) (s : State) : Out := wcancel s fun w e => inLevel w 2 id e
/-- R235: WCANCEL.JOB. -/
def execWcancelJob (id : BitVec 16) (s : State) : Out := wcancel s fun w e => inLevel w 3 id e

/-- R236: WHALT: fetch stops. HALT_EFFECT halts the stream. -/
def execWhalt (code : BitVec 16) (s : State) : Out :=
  .next (modFront s s.part fun f => { f with wait := .halt code })

end Sys2Proof.Machine
end

