-- ==== Sys2Proof/Machine/Graph.lean ====
section
/-! DEFINITION. Graph binaries: their checks, plan, patches and hashes (R267 to R273), and how their nodes enter the window. -/

namespace Sys2Proof.Machine

/-- R267: a section of a binary: offset, entries, bytes of one, and alignment. -/
structure Section where
  off : Nat
  count : Nat
  size : Nat
  align : Nat
deriving DecidableEq, Repr

/-- The bytes of a section. -/
def Section.len (x : Section) : Nat := x.count * x.size

/-- R267: the sections that a header names: nodes, edges, patches, plan, hashes. -/
def graphSections (h : List Byte) : List Section :=
  [⟨fieldAt h 20 4, fieldAt h 8 2, 128, 32⟩, ⟨fieldAt h 24 4, fieldAt h 10 2, 4, 4⟩, ⟨fieldAt h 28 4, fieldAt h 12 2, 16, 16⟩,
   ⟨fieldAt h 32 4, fieldAt h 14 2, 32, 32⟩, ⟨fieldAt h 36 4, fieldAt h 16 2, 80, 16⟩]

/-- Entry i of a section. -/
def Section.entry (x : Section) (bin : List Byte) (i : Nat) : List Byte := (bin.drop (x.off + x.size * i)).take x.size

/-- R267: the length that a header gives. -/
def graphTotal (h : List Byte) : Nat := fieldAt h 40 4

/-- R267: the header's own fields. -/
def graphHeaderOk (h : List Byte) : Bool :=
  fieldAt h 0 4 == 0x52475A44 && fieldAt h 4 2 == 1 && fieldAt h 18 2 == 0 && fieldAt h 44 20 == 0 &&
    decide (1 ≤ fieldAt h 8 2) && decide (fieldAt h 8 2 ≤ 4096) && decide (fieldAt h 12 2 ≤ 4096) &&
    decide (fieldAt h 14 2 ≤ 256) && decide (1 ≤ fieldAt h 16 2) && decide (fieldAt h 16 2 ≤ 256) && decide (64 ≤ graphTotal h)

/-- R267: the placement of the sections. -/
def sectionsOk (xs : List Section) (total : Nat) : Bool :=
  xs.all (fun x => x.off % x.align == 0 && decide (x.off + x.len ≤ total) && (x.count == 0 || decide (64 ≤ x.off))) &&
    xs.zipIdx.all fun (x, i) => xs.zipIdx.all fun (y, j) => i == j || x.count == 0 || y.count == 0 || !rangesMeet x.off x.len y.off y.len

/-- R269: a plan entry is declared, or declared again by a restart within its graph. -/
def planEntry (s : State) (r : List Byte) (tag : Bool) (old : Option Nat) : Res (State × Nat) :=
  match decodeStream r with
  | some (.wbuf fixed depth buf size base) =>
    match old.bind fun u => s.window.bufs.find? fun b => b.uid == u with
    | some b =>
      if b.live ∨ (findBuf s.window b.id).isNone then
        .ok (modWindow s s.part fun w => modBuf w b.uid fun b => { b with live := true }, b.uid)
      else .fail .streamIllegal
    | none =>
      match declareBuf s s.part fixed depth buf size base tag with
      | .ok t => .ok (t, t.window.nextUid)
      | .fail _ => .fail .streamIllegal
      | .wait => .wait
  | _ => .fail .streamIllegal

/-- R269: the plan's buffers are declared in order. -/
def declarePlan (at_ : Word) (bin : List Byte) (x : Section) (old : List Nat) : Nat → State → Res (State × List Nat)
  | 0, s => .ok (s, [])
  | n + 1, s =>
    match declarePlan at_ bin x old n s with
    | .ok (s, got) =>
      match planEntry s (x.entry bin n) (streamTag s s.part (at_ + BitVec.ofNat 64 (x.off + x.size * n + 16))) old[n]? with
      | .ok (s, u) => .ok (s, got ++ [u])
      | .fail k => .fail k
      | .wait => .wait
    | r => r

/-- R272: one hash entry: the code at its place has its digest. -/
def hashEntry (s : State) (e : List Byte) : State × Res Unit :=
  let len := fieldAt e 12 4
  let kbuf := fieldAt e 10 2
  if fieldAt e 0 4 ≠ 0 ∨ 4096 ≤ kbuf ∨ fieldAt e 4 6 % 64 ≠ 0 ∨ len % 64 ≠ 0 then (s, .fail .streamIllegal)
  else match bufRead s (BitVec.ofNat 12 kbuf) (fieldAt e 4 6) len with
  | (s, .ok bs) => (s, if (sha512 bs).toNat = fieldAt e 16 64 then .ok () else .fail .streamIllegal)
  | (s, .fail k) => (s, .fail k)
  | (s, .wait) => (s, .wait)

/-- R272: the hash list. -/
def checkHashes (s : State) (bin : List Byte) (x : Section) : State × Res Unit :=
  (List.range x.count).foldl (fun acc i => match acc with
    | (s, .ok _) => hashEntry s (x.entry bin i)
    | r => r) (s, .ok ())

/-- Bytes of a list replaced from an offset on. -/
def putBytes (bs : List Byte) (o : Nat) (x : List Byte) : List Byte := bs.take o ++ x ++ bs.drop (o + x.length)

/-- R271: one patch, applied to the node records. -/
def applyPatch (s : State) (p : List Byte) (nodes : List (List Byte)) : State × Res (List (List Byte)) :=
  let lo := fieldAt p 0 4
  let mid := fieldAt p 4 4
  let n := lo % 2 ^ 16
  let byte := bits lo 22 16
  let len := bits mid 2 0 + 1
  if bits lo 31 23 ≠ 0 ∨ bits mid 7 3 ≠ 0 ∨ bits mid 31 20 ≠ 0 ∨ nodes.length ≤ n ∨ 128 < byte + len ∨ fieldAt p 8 8 % 8 ≠ 0 then
    (s, .fail .streamIllegal)
  else match bufRead s (BitVec.ofNat 12 (bits mid 19 8)) (fieldAt p 8 8) 8 with
  | (s, .ok w) => (s, .ok (nodes.set n (putBytes (nodes.getD n []) byte (w.take len))))
  | (s, .fail k) => (s, .fail k)
  | (s, .wait) => (s, .wait)

/-- R271: the patches, in table order. -/
def applyPatches (s : State) (bin : List Byte) (x : Section) (nodes : List (List Byte)) : State × Res (List (List Byte)) :=
  (List.range x.count).foldl (fun acc i => match acc with
    | (s, .ok nodes) => applyPatch s (x.entry bin i) nodes
    | r => r) (s, .ok nodes)

/-- R268, R272: a node's record, and its parameters. None is STREAM_ILLEGAL. `base` is where the binary lies. -/
def checkNode (s : State) (base : Word) (bin : List Byte) (nodes hashes : Section) (i : Nat) (r : List Byte) :
    Option (WTaskRec × Vector Word 16) :=
  match decodeStream r with
  | some (.wtask t) =>
    let pos := base + BitVec.ofNat 64 (nodes.off + 128 * i)
    let named (j : Nat) : Bool :=
      let e := hashes.entry bin j
      fieldAt e 10 2 == t.kbuf.toNat && fieldAt e 4 6 == t.koff.toNat
    if t.units = 3 ∧ t.pre = false ∧ taskLegal s.window pos base.toNat (base.toNat + bin.length) t ∧ (List.range hashes.count).any named then
      let ps := if t.poff = 0 then Vector.replicate 16 0
        else paramWords ((bin.drop ((nodes.off + 128 * i + t.poff.toInt).toNat)).take 128)
      some (t, withLoop s.front t ps)
    else none
  | _ => none

/-- R270: an edge as (FROM, TO). -/
def edgeOf (e : List Byte) : Nat × Nat := (fieldAt e 0 2, fieldAt e 2 2)

/-- R273: the checks of a binary after its header, and the run of its graph. (DEDUCED: log 30.) -/
def buildGraph (s : State) (pre : Bool) (base : Word) (bin : List Byte) : State × Res State :=
  let start := s.front.node
  match graphSections bin with
  | [nodes, edges, patches, plan, hashes] =>
    if !sectionsOk [nodes, edges, patches, plan, hashes] bin.length then (s, .fail .streamIllegal)
    else match declarePlan base bin plan (match start with
      | some x => x.2
      | none => []) plan.count s with
    | .fail k => (s, .fail k)
    | .wait => (s, .wait)
    | .ok (t, uids) =>
      let again (t : State) : State := s.putAux s.part { s.aux[s.part] with asks := t.aux[s.part].asks }
      match checkHashes t bin hashes with
      | (_, .fail k) => (s, .fail k)
      | (t, .wait) => (again t, .wait)
      | (t, .ok _) =>
        match applyPatches t bin patches ((List.range nodes.count).map (nodes.entry bin)) with
        | (_, .fail k) => (s, .fail k)
        | (t, .wait) => (again t, .wait)
        | (t, .ok recs) =>
          match recs.zipIdx.mapM (fun x => checkNode t base bin nodes hashes x.2 x.1) with
          | none => (s, .fail .streamIllegal)
          | some ns =>
            let es := (List.range edges.count).map fun i => edgeOf (edges.entry bin i)
            if !es.all (fun e => decide (e.1 < e.2) && decide (e.2 < nodes.count)) then (s, .fail .streamIllegal)
            else
              let level := t.window.nextUid + 1
              let first := match start with
                | some x => x.1
                | none => 0
              let g : GraphRun := ⟨s.recPos, pre, ns, List.replicate (min first nodes.count) none, es, BitVec.ofNat 16 (fieldAt bin 6 2),
                level, uids⟩
              let t := modWindow t t.part fun w => { w with nextUid := level }
              (s, .ok (modFront t t.part fun f => { f with graph := some g, node := none }))
  | _ => (s, .fail .streamIllegal)

/-- R233, R273: WGRAPH. The nodes enter in later turns. (DEDUCED: log 30.) -/
def execWgraph (pre : Bool) (buf : BitVec 12) (offset : BitVec 64) (s : State) : Out :=
  if offset.toNat % 64 ≠ 0 then streamErr s .streamIllegal 0x20
  else match bufPlace s.window buf offset.toNat 64 with
  | none => streamErr s .streamIllegal 0x20
  | some base =>
    onStream (bufRead s buf offset.toNat 64) 0x20 fun s h =>
      if !graphHeaderOk h then streamErr s .streamIllegal 0x20
      else onStream (bufRead s buf offset.toNat (graphTotal h)) 0x20 fun s bin =>
        onStream (buildGraph s pre base bin) 0x20 fun _ t => .next t

/-- R269: the plan's buffers are released. (DEDUCED: log 30.) -/
def endGraph (s : State) (p : Fin 16) (g : GraphRun) : State :=
  let s := modWindow s p fun w => closeLevel (g.plan.foldl freeBuf w) 1 g.level
  modFront s p fun f => { f with graph := none }

/-- R273: the next node of a graph enters the window, or the graph's decode ends. -/
def graphTurn (s : State) (g : GraphRun) : Out :=
  let k := g.done.length
  match g.nodes[k]? with
  | none => nextRec (endGraph s s.part g) 1
  | some (r, ps) =>
    let f := s.front
    let preds := (g.edges.filter fun e => e.2 == k).filterMap fun e => (g.done[e.1]?).join
    let serial := s.window.nextSerial
    match enterTask s s.part
        ⟨r, g.pre, ps, g.pos, f.levels, f.current.getD 0, some (k, g.plan), some (g.level, g.gid), preds⟩ with
    | some t => .next (modFront t t.part fun f => { f with graph := some { g with done := g.done ++ [some serial] } })
    | none => stall s

end Sys2Proof.Machine
end

