-- ==== Sys2Proof/Machine/FrontEnd.lean ====
section
/-! DEFINITION. The stream front end at run time: the turn of decode, host queue entries and picks (R286 to R292, R377,
R378), stream faults, the driver's commands and registers (R280 to R296), and BAR2 (R294). -/

namespace Sys2Proof.Machine

/-! ### Queues and picks -/

/-- R287: whether a queue is enabled. -/
def HostQueue.on (q : HostQueue) : Bool := q.cfg.getLsbD 63

/-- R377: a candidate: an enabled queue that holds an entry or a parked entry. -/
def HostQueue.ready (q : HostQueue) : Bool := q.on && (q.parked.isSome || q.tail != q.head)

/-- R291, R382: the queues in rotation order after the one picked last. -/
def rotation (last : Fin 4) : List (Fin 4) := [1, 2, 3, 4].map fun i => ix 4 (last.val + i)

/-- R291: the default pick. -/
def defaultQueue (f : Front) : Option (Fin 4) := (rotation f.lastPick).find? fun q => f.queues[q].ready

/-- R375: the mask of candidates. -/
def candidateMask (f : Front) : Nat := (List.finRange 4).foldl (fun n q => if f.queues[q].ready then n + 2 ^ q.val else n) 0

/-- R290: the checks of a host queue entry's bytes. -/
def entryOk (bs : List Byte) : Bool :=
  let seg := fieldAt bs 0 8
  let len := fieldAt bs 8 4
  fieldAt bs 16 16 == 0 && fieldAt bs 12 2 / 4 == 0 && len != 0 && len % 32 == 0 && decide (2 ^ 63 ≤ seg) && seg % 32 == 0 &&
    decide (seg + len ≤ 2 ^ 64)

/-- R289: an entry as its bytes give it. -/
def makeEntry (num : Nat) (q : Fin 4) (iova : Word) (bs : List Byte) : Entry :=
  { num := num, queue := q, qtag := BitVec.ofNat 16 (fieldAt bs 14 2), irq := byteAt bs 12 % 2 == 1, fence := byteAt bs 12 / 2 % 2 == 1
    seg := BitVec.ofNat 64 (fieldAt bs 0 8), len := fieldAt bs 8 4, iova := iova, ended := false, status := 0
    fenced := false, picks := [], unwound := none, bad := !entryOk bs, parkedAt := none }

/-- R226: the level of an entry's segment, at a position. -/
def entryLevel (e : Entry) (pos : Word) : Level := ⟨e.seg, e.seg.toNat + e.len, pos, []⟩

/-- An entry changes. -/
def Front.setEntry (f : Front) (n : Nat) (g : Entry → Entry) : Front :=
  { f with entries := f.entries.map fun e => if e.num = n then g e else e }

/-- R285, R290: an entry becomes the current one, under the number of a pick (R410): decode starts, or the entry's fault waits. The
fence of an entry that starts is still to be performed. -/
def Front.begin (f : Front) (e : Entry) (order : Nat) (pos : Word) (slice clk : Nat) : Front :=
  let f := f.setEntry e.num fun x =>
    { x with
      picks := (order, pos) :: x.picks.filter fun k => decide (k.1 < order)
      unwound := none
      parkedAt := none
      fenced := x.fenced && pos != x.seg }
  let f := { f with
    st := .running, current := some e.num, blocks := [], sliceLen := slice, sliceUsed := clk, pick := none, skip := false
    nextPick := max f.nextPick (order + 1) }
  if e.bad then { f with levels := [], wait := .fault .streamIllegal (e.iova ||| 1) 0 true }
  else { f with levels := [entryLevel e pos], wait := .none }

/-- R288: a queue's HEAD advances; the tail writes that it has passed are forgotten. -/
def HostQueue.take (q : HostQueue) : HostQueue :=
  let h := q.head + 1
  { q with head := h, tails := q.tails.filter fun t => t.1 - h != 0 && decide ((t.1 - h).toNat ≤ 2 ^ 16) }

/-- R291, R378: a queue is picked: its parked entry goes on, or its next entry is read. -/
def takeQueue (s : State) (p : Fin 16) (q : Fin 4) (slice : Nat) : State :=
  let a := s.aux[p]
  let f := { a.front with lastPick := q }
  let hq := f.queues[q]
  let put (f : Front) (s : State) : State := s.putAux p { s.aux[p] with front := f, run := none }
  match hq.parked.bind f.entry with
  | some e =>
    let f := { f with queues := vput f.queues q { hq with parked := none } }
    put (f.begin e f.nextPick (e.parkedAt.getD e.seg) slice s.clk) s
  | none =>
    let iova := hq.base + BitVec.ofNat 64 (32 * (hq.head.toNat % 2 ^ (hq.cfg.toNat / 2 ^ 32 % 16)))
    let e := makeEntry f.nextEntry q iova (s.load (hostAddr iova.toNat) 32)
    let f := { f with queues := vput f.queues q hq.take, entries := f.entries ++ [e], nextEntry := f.nextEntry + 1 }
    (put (f.begin e f.nextPick e.seg slice s.clk) s).count (some p) 9 32

/-- R291, R377: the default pick, with no slice. -/
def defaultPick (s : State) (p : Fin 16) : State :=
  match defaultQueue s.aux[p].front with
  | some q => takeQueue s p q 0
  | none => modFront s p fun f => { f with st := if f.st = .running then .idle else f.st, pick := none }

/-- R377: the answer to a pick. A choice that is no candidate gives the default pick. (DEDUCED: log 33.) -/
def answerPick (s : State) (p : Fin 16) (q slice : Nat) : State :=
  let f := s.aux[p].front
  if q < 4 ∧ f.queues[ix 4 q].ready then takeQueue s p (ix 4 q) slice else defaultPick s p

/-- R382: AGE of a queue: clk since the tail write of its oldest entry, in units of 1,024. (DEDUCED: log 31.) -/
def queueAge (q : HostQueue) (clk : Nat) : Nat :=
  if q.tail = q.head then 0
  else match q.tails.find? fun t => t.1 - q.head != 0 && decide ((t.1 - q.head).toNat ≤ 2 ^ 16) with
  | some t => min ((clk - t.2) / 1024) (2 ^ 31 - 1)
  | none => 0

/-- R382: the fields 0 to 5 of a queue. -/
def queueFields (f : Front) (clk : Nat) (q : Fin 4) : Vector (BitVec 32) 6 :=
  let h := f.queues[q]
  let n (b : Bool) : BitVec 32 := if b then 1 else 0
  let count := min ((h.tail - h.head).toNat + h.parked.isSome.toNat) (2 ^ 31 - 1)
  #v[n h.ready, BitVec.ofNat 32 count, BitVec.ofNat 32 (h.cfg.toNat % 256), BitVec.ofNat 32 (queueAge h clk), n h.parked.isSome,
    n (q == f.lastPick)]

/-- R380, R382: a run of the policy for a pick. (DEDUCED: log 33.) -/
def startRun (f : Front) (clk : Nat) : TopRun :=
  { pc := 0, stack := [], locals := Vector.replicate 8 0, loopPc := none, visit := 0, passes := 0, choice := none, slice := 0
    fields := Vector.ofFn (queueFields f clk), last := f.lastPick.val }

/-- R377: PICK is raised, and the front end waits for PICKQ. -/
def raisePick (s : State) (p : Fin 16) (park : Bool) : State :=
  let f := s.aux[p].front
  let s := tell s p 0x02 (BitVec.ofNat 64 (candidateMask f)) (if park then 1 else 0)
  s.putAux p { s.aux[p] with front := { f with pick := some s.clk }, run := some (startRun f s.clk) }

/-- R291, R377: a pick takes place. -/
def makePick (s : State) (p : Fin 16) (park : Bool) : State :=
  if (defaultQueue s.aux[p].front).isNone ∨ s.aux[p].policy.isEmpty then defaultPick s p else raisePick s p park

/-- R410: the first unwound entry in the order of picks, with the place from which it is decoded again. -/
def Front.nextUnwound (f : Front) : Option (Entry × Nat × Word) :=
  f.entries.foldl (fun best e => match best, e.unwound with
    | some b, some x => if x.1 < b.2.1 then some (e, x) else some b
    | none, some x => some (e, x)
    | b, none => b) none

/-- R390: whether decode and picks are held, or the window's fault is stopping the stream. -/
def frontHeld (s : State) (p : Fin 16) : Bool := s.hub.images.quiesced || s.aux[p].window.stop.isSome

/-- Whether the front end is between entries. -/
def Front.between (f : Front) : Bool :=
  (f.st == .idle || f.st == .running) && f.current.isNone && f.levels.isEmpty && f.pick.isNone && f.wait == .none

/-- R291, R410: PICK: an unwound entry is decoded again, or a pick takes place. -/
def execPick (part : Fin 16) (s : State) : Out :=
  let f := s.aux[part].front
  if frontHeld s part || !f.between then .next s
  else match f.nextUnwound with
  | some (e, order, pos) => .next (modFront s part fun f => f.begin e order pos 0 s.clk)
  | none => .next (makePick s part false)

/-- R377: PICK_TIMEOUT: no PICKQ within 65,536 clk. -/
def execPickTimeout (part : Fin 16) (s : State) : Out :=
  match s.aux[part].front.pick with
  | some x => if x + 65536 ≤ s.clk ∧ !frontHeld s part then .next (defaultPick s part) else .next s
  | none => .next s

/-- R376, R377: PICKQ, and every malformed command of the partition's ring. -/
def execPickq (part : Fin 16) (s : State) : Out :=
  onHead s (headRecord s (partRing part)) fun r =>
    if cmdOf r = 0 ∨ 4 < cmdOf r then partDone s part 3
    else if cmdOf r ≠ 1 then .next s
    else if !cmdClean r ∨ cmdPart r ≠ 0 ∨ cmdArg1 r ≠ 0 ∨ cmdArg0 r / 2 ^ 8 % 2 ^ 24 ≠ 0 then partDone s part 3
    else if s.aux[part].front.pick.isNone then partDone s part 2
    else if frontHeld s part then .next s
    else .next (ringDone (answerPick s part (cmdArg0 r % 256) (cmdArg0 r / 2 ^ 32)) (partRing part) 1)

/-- R378: whether the current entry is to be parked: its slice is over, and it stands at a yield point while another queue
holds an entry. -/
def parkDue (s : State) (p : Fin 16) : Bool :=
  let f := s.aux[p].front
  match f.current.bind f.entry, f.levels with
  | some e, [l] =>
    f.sliceLen != 0 && decide (1024 * f.sliceLen ≤ s.clk - f.sliceUsed) && f.wait == .none && f.graph.isNone && l.loops.isEmpty &&
      !l.ended && (List.finRange 4).any fun q => q != e.queue && f.queues[q].ready
  | _, _ => false

/-- R378: SLICE_EXPIRE: the current entry is parked, and a pick follows. -/
def execSliceExpire (part : Fin 16) (s : State) : Out :=
  let f := s.aux[part].front
  match f.current.bind f.entry with
  | none => .next s
  | some e =>
    if f.st ≠ .running ∨ frontHeld s part ∨ !parkDue s part then .next s
    else
      let slice := f.sliceLen
      let f := f.setEntry e.num fun x => { x with parkedAt := some f.level.pos }
      let f := { f with
        queues := vput f.queues e.queue { f.queues[e.queue] with parked := some e.num }
        current := none, levels := [], blocks := [], sliceLen := 0 }
      let s := s.putAux part { s.aux[part] with front := f }
      .next (makePick (tell s part 0x04 (BitVec.ofNat 64 e.queue.val) (BitVec.ofNat 64 (1024 * slice))) part true)

/-! ### The turn of decode -/

/-- R225, R292: level 0 of the current entry ends. -/
def endEntry (s : State) (p : Fin 16) (status : BitVec 16) : State :=
  modFront s p fun f =>
    let f := match f.current with
      | some n => f.setEntry n fun e => { e with ended := true, status := status }
      | none => f
    { f with current := none, levels := [], blocks := [], sliceLen := 0, restart := [], node := none }

/-- R225: a level has reached its end. -/
def levelEnd (s : State) : Out :=
  let f := s.front
  if f.level.loops ≠ [] then streamErr s .streamIllegal 0
  else if 2 ≤ f.levels.length then popLevel s
  else .next (endEntry s s.part 0)

/-- R297, R300: the bytes of the record in decode: from a held block that holds all of it, or read afresh. -/
def recordBytesAt (s : State) : State × Res (List Byte) :=
  let l := s.front.level
  match frontBytes s s.part l.pos 4 with
  | (s, .ok w) =>
    if 128 < recordBytes w ∨ l.hi < l.pos.toNat + recordBytes w then (s, .ok w) else frontBytes s s.part l.pos (recordBytes w)
  | r => r

/-- Whether decode can go on at all. (DEDUCED: log 29; DEDUCED: log 30.) -/
def canDecode (s : State) (p : Fin 16) : Bool :=
  let f := s.aux[p].front
  f.st == .running && f.wait == .none && f.pick.isNone && !f.levels.isEmpty && !frontHeld s p &&
    !s.aux[p].window.entries.any (·.cancelled) && !parkDue s p

/-- R289, R299: the FENCE of the current entry before its first record. -/
def entryFence (f : Front) : Bool := (f.current.bind f.entry).any fun e => e.fence && !e.fenced && f.levels.length == 1 && f.level.pos == e.seg

/-- R285: the length of the record at a position, from its first bytes. A record that cannot be read counts 32. (DEDUCED: log 29.) -/
def skipLength (s : State) (p : Fin 16) (l : Level) : State × Res Nat :=
  match streamRead s p l.pos 4 (some .leaseOut) with
  | (s, .ok w) => (s, .ok (min 128 (recordBytes w)))
  | (s, .fail _) => (s, .ok 32)
  | (s, .wait) => (s, .wait)

/-- R285: the position after a record of a length, within its level. -/
def skipTo (l : Level) (n : Nat) : Word := if l.hi < l.pos.toNat + n then BitVec.ofNat 64 l.hi else l.pos + BitVec.ofNat 64 n

/-- R285: SKIP of a record that another package's memory holds: decode goes on after it. -/
def skipTurn (s : State) : Out :=
  match skipLength s s.part s.front.level with
  | (s, .ok n) => .next (modFront (streamGoto s (skipTo s.front.level n)) s.part fun f => { f with skip := false })
  | (s, _) => stall s

/-- R214: the record at the position is decoded and acts. -/
def recordTurn (run : Instr → State → Out) (s : State) : Out :=
  match recordBytesAt s with
  | (s, .wait) => stall s
  | (s, .fail k) => streamErr s k 0
  | (s, .ok bs) =>
    let wop := BitVec.ofNat 8 (byteAt bs 3)
    if bs.length < recordBytes bs then streamErr s .streamIllegal wop
    else match decodeStream bs with
    | some i => run i s
    | none => streamErr s .streamIllegal wop

/-- What decode does next. -/
def decodeTurn (run : Instr → State → Out) (s : State) : Out :=
  let f := s.front
  if f.skip then skipTurn s
  else match f.graph with
  | some g => graphTurn s g
  | none =>
    if f.level.ended then levelEnd s
    else if entryFence f then
      if s.window.entries ≠ [] then stall s
      else .next (modFront s s.part fun f => match f.current with
        | some n => (Front.setEntry { f with blocks := [] } n fun e => { e with fenced := true })
        | none => f)
    else if f.fetchDue.isSome then stall s
    else recordTurn run s

/-- One turn of decode of the acting partition. `run` is the meaning of a record. What a record has read of other packages is forgotten
once it has acted. (DEDUCED: log 29.) -/
def streamTurn (run : Instr → State → Out) (s : State) : Out :=
  if !canDecode s s.part then .next s
  else match decodeTurn run s with
  | .next t => .next { (if t.mark = .stall then t else dropAsks t t.part askDecode) with mark := .none }
  | r => r

/-! ### Stopping (R216, R236, R285) -/

/-- R236: HALT_EFFECT: every older entry has retired. -/
def execHaltEffect (part : Fin 16) (s : State) : Out :=
  let f := s.aux[part].front
  match f.st, f.wait with
  | .running, .halt code =>
    if s.aux[part].window.entries ≠ [] ∨ s.aux[part].window.stop.isSome then .next s
    else
      let pos := f.level.pos + 32
      let s := endEntry s part 1
      .next (vfRaise (modFront s part fun f => { f with st := .halted, halt := code, pos := pos, wait := .none }) part 0)
  | _, _ => .next s

/-- R216: STREAM_FAULT: every older entry has left; the record is written and the stream stops. (DEDUCED: log 30.) -/
def execStreamFault (part : Fin 16) (s : State) : Out :=
  let f := s.aux[part].front
  match f.st, f.wait with
  | .running, .fault k pos wop _ =>
    if s.aux[part].window.entries ≠ [] ∨ s.aux[part].window.stop.isSome ∨ s.parts[part].heldFront.isSome then .next s
    else
      let s := frontRecord s part (streamFaultRec k pos wop)
      .next (vfRaise (modFront s part fun f =>
        { f with st := .stopped, cause := k.code, pos := pos, restart := f.levels, blocks := [], wait := .none }) part 0)
  | _, _ => .next s

/-- R292: ENTRY_COMPLETE: an entry that has ended, with nothing of it outstanding and no older one of its queue. While a
window fault empties the window, the entry of the restart point and those picked after it do not complete (R410). (DEDUCED: log 27.) -/
def execEntryComplete (part : Fin 16) (s : State) : Out :=
  let f := s.aux[part].front
  let w := s.aux[part].window
  let due (e : Entry) : Bool :=
    e.ended && e.unwound.isNone && !(w.entries.any fun o => o.entry == e.num) && !(f.signals.any fun x => x.entry == e.num) &&
      !(f.entries.any fun o => o.queue == e.queue && decide (o.num < e.num)) && w.stop.all fun x => e.num != x.entry && e.picks.all fun k => decide (k.1 ≤ x.order)
  match f.entries.find? due with
  | none => .next s
  | some e =>
    let q := f.queues[e.queue]
    let done := q.done + 1
    let s := modFront s part fun f =>
      { f with queues := vput f.queues e.queue { q with done := done }, entries := f.entries.filter fun o => o.num != e.num }
    let s := if q.daddr = 0 then s
      else (s.store (hostAddr q.daddr.toNat) (leBytes 4 done.toNat ++ leBytes 2 e.qtag.toNat ++ leBytes 2 e.status.toNat)).count
        (some part) 9 8
    .next (if e.irq then vfRaise s part (ix 64 (1 + e.queue.val)) else s)

/-! ### The functions of the device (R279, R280) -/

/-- R279: the Device IDs of the PF and of each VF. -/
def pfDeviceId : BitVec 16 := 0x7800
def vfDeviceId : BitVec 16 := 0x7801

/-- R279: the fields of the SR-IOV capability: TotalVFs, First VF Offset and VF Stride. -/
def totalVfs : Nat := 16
def firstVfOffset : Nat := 1
def vfStride : Nat := 1

/-- R279, R280: the function number of a partition's VF: partition p is driven by VF p + 1. -/
def vfFunction (p : Fin 16) : Nat := firstVfOffset + vfStride * p.val

/-- R279: the selective IDE streams: one of each function, the PF's first. -/
def ideStreams : Nat := 1 + totalVfs

/-! ### The VF register window (R281 to R296) -/

/-- R281, R293: an access is refused. -/
def vfRefuse (s : State) (p : Fin 16) : State :=
  let was := s.aux[p].front.regerr
  let s := modFront s p fun f => { f with regerr := true }
  if was then s else vfRaise s p 0

/-- R281, R351: whether the writes of a partition's BAR0 and BAR2 are served. -/
def vfServed (s : State) (p : Fin 16) : Bool := !s.parts[p].prot || s.parts[p].tdi == .run

/-- R285: Running or Idle, when a pick follows. -/
def pickFollows (f : Front) : Front :=
  let some_ := (List.finRange 4).any fun q => f.queues[q].ready
  { f with st := if some_ || f.nextUnwound.isSome then .running else .idle, levels := [], blocks := [], wait := .none, pick := none
           current := none, restart := [], skip := false }

/-- R285: ENABLE: a stream with no buffers declared, in job 0 and phase 0 (R296). (DEDUCED: log 31.) -/
def enableStream (s : State) (p : Fin 16) : State :=
  let s := modWindow s p fun w =>
    let w := closeLevel (closeLevel w 2 w.phase) 3 w.job
    { w with bufs := [], phase := w.nextUid + 1, job := w.nextUid + 2, phaseId := 0, jobId := 0, nextUid := w.nextUid + 2, pointer := 0 }
  modFront s p fun f => { f with st := .idle }

/-- R269, R285: what is left of a graph that its entry's decode leaves is released. -/
def dropGraph (s : State) (p : Fin 16) : State :=
  let f := s.aux[p].front
  let s := match f.graph with
    | some g => endGraph s p g
    | none => s
  match f.node with
  | some x => modFront (modWindow s p fun w => x.2.foldl freeBuf w) p fun f => { f with node := none }
  | none => s

/-- R285, R290: RESTART of the current entry. An entry that failed its checks is read again. (DEDUCED: log 30.) -/
def restartStream (s : State) (p : Fin 16) : State :=
  let f := s.aux[p].front
  match f.current.bind f.entry with
  | none => modFront s p pickFollows
  | some e =>
    if e.bad then
      let e' := { makeEntry e.num e.queue e.iova (s.load (hostAddr e.iova.toNat) 32) with picks := e.picks }
      let order := (e.picks.head?.map (·.1)).getD f.nextPick
      (modFront s p fun f => (f.setEntry e.num fun _ => e').begin e' order e'.seg f.sliceLen f.sliceUsed).count (some p) 9 32
    else modFront s p fun f => { f with st := .running, levels := f.restart, blocks := [], wait := .none }

/-- R251, R285: SKIP of the record at STRPOS; within a graph, of one node. (DEDUCED: log 29.) -/
def skipRecord (s : State) (p : Fin 16) : State :=
  let f := s.aux[p].front
  match f.current.bind f.entry with
  | none => modFront s p pickFollows
  | some e =>
    if e.bad then modFront (endEntry s p 2) p pickFollows
    else match f.node, f.restart with
    | some (n, plan), _ => restartStream (modFront s p fun f => { f with node := some (n + 1, plan) }) p
    | none, l :: rest =>
      match skipLength (dropGraph s p) p l with
      | (s, .ok n) => restartStream (modFront (dropAsks s p askDecode) p fun f => { f with restart := { l with pos := skipTo l n } :: rest }) p
      | (s, _) => modFront (restartStream s p) p fun f => { f with skip := true }
    | none, [] => restartStream s p

/-- R285: DROP. -/
def dropEntry (s : State) (p : Fin 16) : State :=
  let f := s.aux[p].front
  if f.current.isNone then modFront s p pickFollows else modFront (endEntry (dropGraph s p) p 2) p pickFollows

/-- R285, R301: STOP. A fault that is already on its way takes its place. -/
def stopStream (s : State) (p : Fin 16) : State :=
  let f := s.aux[p].front
  let failing : Bool := match f.wait with
    | .fault _ _ _ _ => true
    | _ => s.aux[p].window.stop.isSome
  if f.st = .running ∧ failing then s
  else
    let pos : Word := if f.current.isSome then f.level.pos else 0
    let f := { f with st := .stopped, cause := 0, pos := pos, restart := f.levels, blocks := [], wait := .none, pick := none, skip := false }
    vfRaise (dropAsks (s.putAux p { s.aux[p] with front := f, run := none }) p askDecode) p 0

/-- R285: whether a command is listed for the stream's state. -/
def cmdListed (st : StrSt) (cmd : Nat) : Bool :=
  match st, cmd with
  | _, 0 => true
  | .off, 1 => true
  | .running, 5 | .idle, 5 => true
  | .stopped, 2 | .stopped, 3 | .stopped, 4 => true
  | .halted, 2 | .halted, 4 => true
  | _, _ => false

/-- R284, R285: a write of STRCTL. -/
def strCtl (s : State) (p : Fin 16) (x : Word) : State :=
  let cmd := x.toNat % 16
  let f := s.aux[p].front
  if x.toNat / 2 ^ 9 ≠ 0 ∨ x.toNat / 16 % 16 ≠ 0 ∨ !cmdListed f.st cmd ∨ (cmd = 1 ∧ s.parts[p].st ≠ .live) then vfRefuse s p
  else
    let s := if x.getLsbD 8 then modFront s p fun f => { f with regerr := false, veclost := false } else s
    match cmd with
    | 1 => enableStream s p
    | 2 => restartStream s p
    | 3 => skipRecord s p
    | 4 => dropEntry s p
    | 5 => stopStream s p
    | _ => s

/-- R288: a write of QTAIL. R375: it raises ENQ where the partition has a policy. -/
def writeTail (s : State) (p : Fin 16) (q : Fin 4) (t : BitVec 32) : State :=
  let f := s.aux[p].front
  let h := f.queues[q]
  if h.on ∧ (t - h.head).toNat ≤ 2 ^ (h.cfg.toNat / 2 ^ 32 % 16) ∧ (t - h.tail).toNat ≤ (t - h.head).toNat then
    let s := modFront s p fun f => { f with queues := vput f.queues q { h with tail := t, tails := h.tails ++ [(t, s.clk)] } }
    if s.aux[p].policy.isEmpty then s else tell s p 0x03 (BitVec.ofNat 64 q.val) (t.setWidth 64)
  else vfRefuse s p

/-- R287: whether a queue is busy: entries not taken, or an entry of it in progress. -/
def queueBusy (f : Front) (q : Fin 4) : Bool := f.queues[q].head != f.queues[q].tail || f.entries.any fun e => e.queue == q

/-- R287: a write of QCFG. -/
def writeCfg (s : State) (p : Fin 16) (q : Fin 4) (x : Word) : State :=
  let f := s.aux[p].front
  let h := f.queues[q]
  let reserved : Bool := x.toNat / 2 ^ 36 % 2 ^ 27 != 0 || x.toNat / 2 ^ 8 % 2 ^ 24 != 0
  let size := x.toNat / 2 ^ 32 % 16
  let on : Bool := x.getLsbD 63
  if reserved || (on && size < 4) || (h.on && (on || queueBusy f q)) then vfRefuse s p
  else modFront s p fun f => { f with queues := vput f.queues q { h with cfg := x } }

/-- R287: a write of QBASE. -/
def writeBase (s : State) (p : Fin 16) (q : Fin 4) (x : Word) : State :=
  let h := s.aux[p].front.queues[q]
  if h.on ∨ x.toNat % 4096 ≠ 0 then vfRefuse s p
  else modFront s p fun f => { f with queues := vput f.queues q { h with base := x } }

/-- R294: a write of APERBASE. (DEDUCED: log 31.) -/
def writeAper (s : State) (p : Fin 16) (x : Word) : State :=
  if x = 0 ∨ (x.getLsbD 63 ∧ x.toNat % 2 ^ 34 = 0) then modFront s p fun f => { f with aperbase := x } else vfRefuse s p

/-- R295: a write of CNTSEL. -/
def writeCntsel (s : State) (p : Fin 16) (x : Word) : State :=
  if x.toNat / 2 ^ 16 % 2 ^ 46 = 0 then modFront s p fun f => { f with cntsel := x } else vfRefuse s p

/-- R295: a write of JOBCAN: a WCANCEL.JOB, placed at once. -/
def writeJobcan (s : State) (p : Fin 16) (x : Word) : State :=
  if x.toNat / 2 ^ 16 ≠ 0 then vfRefuse s p
  else cancelWhere s p fun w => inLevel w 3 (x.setWidth 16)

/-- A part of a wide register replaced by a narrow write. (DEDUCED: log 31.) -/
def mergeReg (old : Word) (high wide : Bool) (x : Word) : Word :=
  if wide then x
  else if high then BitVec.ofNat 64 (old.toNat % 2 ^ 32 + x.toNat % 2 ^ 32 * 2 ^ 32)
  else BitVec.ofNat 64 (old.toNat / 2 ^ 32 * 2 ^ 32 + x.toNat % 2 ^ 32)

/-- The same for an MSI-X entry of 16 bytes, at an offset of 4 bytes. (PRESUMED: log 5.) -/
def mergeMsix (old : BitVec 128) (o : Nat) (wide : Bool) (x : Word) : BitVec 128 :=
  let n := if wide then 64 else 32
  let lo := 8 * o
  BitVec.ofNat 128 (old.toNat % 2 ^ lo + x.toNat % 2 ^ n * 2 ^ lo + old.toNat / 2 ^ (lo + n) * 2 ^ (lo + n))

/-- R293: a write of the VF's MSI-X table. A vector that is unmasked while pending is sent. (PRESUMED: log 5.) -/
def writeMsix (s : State) (p : Fin 16) (o : Nat) (wide : Bool) (x : Word) : State :=
  let v : Fin 64 := ix 64 (o / 16)
  let s := modFront s p fun f => { f with msix := vput f.msix v (mergeMsix f.msix[v] (o % 16) wide x) }
  let f := s.aux[p].front
  if f.pba.getLsbD v.val && !f.msix[v].getLsbD 96 then
    vfRaise (modFront s p fun f => { f with pba := f.pba &&& ~~~BitVec.ofNat 64 (2 ^ v.val) }) p v
  else s

/-- R282, R287: a write of a register of host queue q, at an offset within its block. -/
def writeQueue (s : State) (p : Fin 16) (q : Fin 4) (o : Nat) (wide : Bool) (x : Word) : State :=
  let h := s.aux[p].front.queues[q]
  if o < 8 then writeBase s p q (mergeReg h.base (o == 4) wide x)
  else if o < 16 then writeCfg s p q (mergeReg h.cfg (o == 12) wide x)
  else if o = 16 then writeTail s p q (x.setWidth 32)
  else if 32 ≤ o ∧ o < 40 then
    let d := mergeReg h.daddr (o == 36) wide x
    modFront s p fun f => { f with queues := vput f.queues q { h with daddr := d } }
  else s

/-- R281, R282: a write of BAR0 of a VF, of 4 or 8 bytes. (DEDUCED: log 31.) -/
def vfWrite (s : State) (p : Fin 16) (offset : Nat) (wide : Bool) (x : Word) : State :=
  let f := s.aux[p].front
  let table := decide (0x2000 ≤ offset) && decide (offset < 0x2400)
  if offset % (if wide then 8 else 4) ≠ 0 ∨ (!vfServed s p ∧ !table) then vfRefuse s p
  else if table then writeMsix s p (offset - 0x2000) wide x
  else if 0x100 ≤ offset ∧ offset < 0x200 then writeQueue s p (ix 4 ((offset - 0x100) / 64)) (offset % 64) wide x
  else if offset = 0x08 then strCtl s p (mergeReg 0 false wide x)
  else if offset = 0x0C then strCtl s p (mergeReg 0 true wide x)
  else if offset = 0x20 ∨ offset = 0x24 then writeCntsel s p (mergeReg f.cntsel (offset == 0x24) wide x)
  else if offset = 0x30 ∨ offset = 0x34 then writeJobcan s p (mergeReg 0 (offset == 0x34) wide x)
  else if offset = 0x38 ∨ offset = 0x3C then writeAper s p (mergeReg f.aperbase (offset == 0x3C) wide x)
  else s

/-- R284: STRCTL of a command. -/
def strCommand (part : Fin 16) (x : Word) (s : State) : Out := .next (vfWrite s part 0x08 true x)

/-- ENABLE (R285). -/
def execEnable (part : Fin 16) (s : State) : Out := strCommand part 1 s
/-- RESTART (R285). (DEDUCED: log 30.) -/
def execRestart (part : Fin 16) (s : State) : Out := strCommand part 2 s
/-- SKIP (R285). -/
def execSkip (part : Fin 16) (s : State) : Out := strCommand part 3 s
/-- DROP (R285). -/
def execDrop (part : Fin 16) (s : State) : Out := strCommand part 4 s
/-- STOP (R285). -/
def execStop (part : Fin 16) (s : State) : Out := strCommand part 5 s
/-- CLRERR (R284). -/
def execClrerr (part : Fin 16) (s : State) : Out := strCommand part 0x100 s

/-- QTAIL_WRITE (R288). -/
def execQtailWrite (part : Fin 16) (queue : Fin 4) (tail : BitVec 32) (s : State) : Out :=
  .next (vfWrite s part (0x110 + 64 * queue.val) false (tail.setWidth 64))

/-- JOBCAN (R295). -/
def execJobcan (part : Fin 16) (value : BitVec 64) (s : State) : Out := .next (vfWrite s part 0x30 true value)

/-- R296: what a function level reset does to the stream and the VF's registers. (DEDUCED: log 31.) -/
def streamReset (s : State) (p : Fin 16) : State :=
  let a := cancelWindow s p |>.aux[p]
  let f := a.front
  let w := match f.graph with
    | some g => closeLevel a.window 1 g.level
    | none => a.window
  s.putAux p { a with front := { Front.zero with nextEntry := f.nextEntry, nextPick := f.nextPick }, asks := [], window := { w with stop := none }, run := none }

/-- R295: CNTVAL. -/
def cntVal (s : State) (p : Fin 16) : Word :=
  let f := s.aux[p].front
  match s.aux[p].window.counters.find? fun c => c.kind.toNat == f.cntsel.toNat / 2 ^ 62 && c.id == f.cntsel.setWidth 16 with
  | some c => BitVec.ofNat 64 (2 ^ 63 + 2 ^ 62 * c.closed.toNat + c.count % 2 ^ 32)
  | none => 0

/-- R284: the code of a stream state. -/
def strCode : StrSt → Nat
  | .off => 0 | .idle => 1 | .running => 2 | .stopped => 3 | .halted => 4

/-- R284: STRSTAT. -/
def strStat (f : Front) : Word :=
  BitVec.ofNat 64 (strCode f.st + 2 ^ 32 * f.regerr.toNat + 2 ^ 33 * f.veclost.toNat + 2 ^ 40 * f.cause.toNat + 2 ^ 48 * f.halt.toNat)

/-- R283: VFID. -/
def vfid (s : State) (p : Fin 16) : Word :=
  BitVec.ofNat 64 (2 ^ 24 * 2 + 2 ^ 16 * groupCount s p + 2 ^ 7 * s.parts[p].prot.toNat + p.val)

/-- R282: the registers of host queue q, as the word at a multiple of 8 within its block. -/
def queueReg (h : HostQueue) (o : Nat) : Word :=
  if o = 0 then h.base else if o = 8 then h.cfg else if o = 16 then h.head ++ h.tail
  else if o = 24 then h.done.setWidth 64 else if o = 32 then h.daddr else 0

/-- R282: the word that a VF's BAR0 holds at a multiple of 8. What is write-only or not listed reads zero. -/
def vfReg (s : State) (p : Fin 16) (o : Nat) : Word :=
  let f := s.aux[p].front
  if o = 0 then vfid s p
  else if o = 0x10 then strStat f
  else if o = 0x18 then f.pos
  else if o = 0x20 then f.cntsel
  else if o = 0x28 then cntVal s p
  else if o = 0x38 then f.aperbase
  else if 0x100 ≤ o ∧ o < 0x200 then queueReg f.queues[ix 4 ((o - 0x100) / 64)] (o % 64)
  else if 0x2000 ≤ o ∧ o < 0x2400 then (f.msix[ix 64 ((o - 0x2000) / 16)]).extractLsb' (8 * (o % 16)) 64
  else if o = 0x3000 then f.pba
  else 0

/-- R281: whether an access of BAR0 is one that it accepts: of 4 or 8 bytes, naturally aligned. -/
def barAccepts (o n : Nat) : Bool := (n == 4 || n == 8) && o % n == 0

/-- The bytes of an accepted access in the word that holds them. -/
def barBytes (x : Word) (o n : Nat) : List Byte := ((leBytes 8 x.toNat).drop (o % 8)).take n

/-! ### BAR2 (R294) -/

/-- R294: where a BAR2 access lies, if it is served. -/
def aperture (s : State) (p : Fin 16) (offset : BitVec 34) (n : Nat) (write : Bool) : Option Word :=
  let a := s.aux[p].front.aperbase + offset.setWidth 64
  if s.aux[p].front.aperbase = 0 ∨ !vfServed s p ∨ (leaseVerdict (leasesOf s (some p)) a n write).isSome then none else some a

/-- R294: the hub record of a BAR2 access that faults. -/
def bar2Fault (s : State) (p : Fin 16) (k : Cause) (a : Word) : State := hubRecord s p (hubRec k a)

/-- An answer to the host. (DESIGN CHOICE: log 32.) -/
def answerHost (s : State) (bs : List Byte) : State := { s with hub := { s.hub with answers := s.hub.answers ++ [bs] } }

/-- R281: a read of a VF's BAR0. One that is refused returns all ones. (DEDUCED: log 31.) -/
def vfRead (s : State) (p : Fin 16) (o n : Nat) : State :=
  if barAccepts o n then answerHost s (barBytes (vfReg s p (o / 8 * 8)) o n)
  else answerHost (vfRefuse s p) (List.replicate n (BitVec.allOnes 8))

/-- R333, R337: an access of BAR2 to this package's memory uses IVs of the host port and of its home edge. None while one of them can send
no more. -/
def sealHost (s : State) (p : Fin 16) (a : Word) : Option State :=
  match homeEdge s p a with
  | some k => if pkgOf a ≠ ownPkg s then some s else if allOpen s p (hostIds s k) then some (useAll s p (hostIds s k)) else none
  | none => some s

/-- BAR2_READ (R294). -/
def execBar2Read (part : Fin 16) (offset : BitVec 34) (size : MemSize) (s : State) : Out :=
  let n := memBytes size
  let ones := List.replicate n (BitVec.allOnes 8)
  match aperture s part offset n false with
  | none => .next (answerHost s ones)
  | some a =>
    match sealHost s part a with
    | none => stall s
    | some t => match (if pkgOf a = ownPkg s then globRead t false (some part) a n else hubRead s part askBar2 a n) with
    | (s, .ok bs) => .next ((answerHost (dropAsks s part askBar2) bs).count (some part) 9 n)
    | (s, .fail k) => .next (answerHost (bar2Fault s part (hubCause k) a) ones)
    | (t, .wait) => stall (if pkgOf a = ownPkg s then s else t)

/-- BAR2_WRITE (R294). -/
def execBar2Write (part : Fin 16) (offset : BitVec 34) (size : MemSize) (value : BitVec 64) (s : State) : Out :=
  let n := memBytes size
  match aperture s part offset n true with
  | none => .next s
  | some a =>
    match sealHost s part a with
    | none => stall s
    | some t => match (if pkgOf a = ownPkg s then globWrite t false (some part) a (leBytes n value.toNat)
      else hubWrite s part askBar2 (hubMsg s part kWr a (leBytes n value.toNat))) with
    | (s, .ok _) => .next (s.count (some part) 9 n)
    | (s, .fail k) => .next (bar2Fault s part (hubCause k) a)
    | (t, .wait) => stall (if pkgOf a = ownPkg s then s else t)

end Sys2Proof.Machine
end

