-- ==== Sys2Proof/Machine/Topiary.lean ====
section
/-! DEFINITION. Topiary policies (R379 to R382): loading, the run at a pick, and the meaning of each operation. The acting
partition is `s.part`, and its run is `aux.run`. -/

namespace Sys2Proof.Machine

/-! ### Loading a policy (R379) -/

/-- The operation at an index of a policy. -/
def opAt (ops : List (BitVec 16)) (i : Nat) : BitVec 16 := ops.getD i 0

/-- R379: the targets of a policy's jumps lie in it, and the loop's operations stand as they must. (DEDUCED: log 33.) -/
def policyOk (ops : List (BitVec 16)) : Bool :=
  let code (w : BitVec 16) : Nat := w.toNat / 256
  let at_ (k : Nat) : List Nat := (List.range ops.length).filter fun i => code (opAt ops i) == k
  let jumps : Bool := (List.range ops.length).all fun i =>
    !(code (opAt ops i) == 0x30 || code (opAt ops i) == 0x31) || decide (i + (opAt ops i).toNat % 256 < ops.length)
  let loops : Bool := match at_ 0x40, at_ 0x41 with
    | [], [] => true
    | [f], [n] => decide (f < n)
    | _, _ => false
  ops.all (fun w => (decodeTopiary w).isSome) && decide (1 ≤ ops.length) && decide (ops.length ≤ 256) && jumps && loops

/-- R379: firmware gives a partition a policy. One that fails the checks is refused, and what was there stays. (DEDUCED: log 33.) -/
def loadPolicy (s : State) (p : Fin 16) (ops : List (BitVec 16)) : State :=
  if policyOk ops ∧ s.parts[p].tdi = .unlocked then
    s.putAux p { s.aux[p] with policy := ops, locals := Vector.replicate 8 0 }
  else s

/-! ### The run -/

/-- R376, R380: the run ends: its choice, or 0xFF, and its slice are posted. With no pick pending the post is refused. (DEDUCED: log 33.) -/
def postRun (s : State) (p : Fin 16) (choice slice : Nat) : State :=
  let s := if s.aux[p].front.pick.isSome then answerPick s p choice slice else s
  s.putAux p { s.aux[p] with run := none }

/-- R380: the run is abandoned: 0xFF is posted. -/
def abandonRun (s : State) : State := postRun s s.part 0xFF 0

/-- R380: the run goes on at an index, or ends past the last operation. -/
def goOn (s : State) (r : TopRun) (pc : Nat) : State :=
  let s := s.putAux s.part { s.aux[s.part] with run := some { r with pc := pc } }
  if pc < s.aux[s.part].policy.length then s
  else match r.choice with
  | some q => postRun s s.part q.val r.slice.toNat
  | none => postRun s s.part 0xFF r.slice.toNat

/-- R380: one operation that pops `pops` values, the top first, and pushes what `f` gives, the last uppermost. -/
def stackOp (pops : Nat) (f : TopRun → List (BitVec 32) → List (BitVec 32)) (s : State) : Out :=
  match s.aux[s.part].run with
  | none => .next s
  | some r =>
    let rest := r.stack.drop pops
    let out := f r (r.stack.take pops)
    if r.stack.length < pops ∨ 16 < rest.length + out.length then .next (abandonRun s)
    else .next (goOn s { r with stack := out.reverse ++ rest } (r.pc + 1))

/-- R381: "pop b, a; push g a b". -/
def binaryOp (g : BitVec 32 → BitVec 32 → BitVec 32) (s : State) : Out :=
  stackOp 2 (fun _ xs => [g (xs.getD 1 0) (xs.getD 0 0)]) s

/-- An operation that pops one value and goes on as `f` says. -/
def popOp (f : TopRun → BitVec 32 → State) (s : State) : Out :=
  match s.aux[s.part].run with
  | none => .next s
  | some r => match r.stack with
    | [] => .next (abandonRun s)
    | x :: rest => .next (f { r with stack := rest } x)

/-- R381: the index of the policy's NEXTQ. -/
def nextqAt (s : State) : Nat := s.aux[s.part].policy.findIdx fun w => w.toNat / 256 == 0x41

/-- R381: a jump. One past the loop's NEXTQ ends the loop. -/
def jump (s : State) (r : TopRun) (pc : Nat) : State :=
  goOn s (if nextqAt s < pc then { r with loopPc := none } else r) pc

/-- R382: the current queue. -/
def currentQueue (r : TopRun) : Fin 4 :=
  if r.loopPc.isSome then ix 4 (r.last + 1 + r.visit % 4) else ix 4 r.last

/-- R382: field f of the current queue. -/
def queueField (r : TopRun) (f : Nat) : BitVec 32 :=
  let q := currentQueue r
  if f < 6 then r.fields[q][ix 6 f]
  else if f = 6 then BitVec.ofNat 32 q.val
  else if f = 7 then (if r.loopPc.isSome then BitVec.ofNat 32 (r.visit / 4) else 0)
  else 0

/-- R380: local n mod 16: 0 to 7 persist, 8 to 15 are the run's. -/
def readLocal (s : State) (r : TopRun) (n : Nat) : BitVec 32 :=
  if n % 16 < 8 then s.aux[s.part].locals[ix 8 n] else r.locals[ix 8 n]

/-! ### The operations (R381) -/

/-- LIT (R381). -/
def execTopiaryLit (k : BitVec 8) (s : State) : Out := stackOp 0 (fun _ _ => [k.setWidth 32]) s
/-- DUP (R381). -/
def execTopiaryDup (s : State) : Out := stackOp 1 (fun _ xs => [xs.getD 0 0, xs.getD 0 0]) s
/-- DROP (R381). -/
def execTopiaryDrop (s : State) : Out := stackOp 1 (fun _ _ => []) s
/-- SWAP (R381). -/
def execTopiarySwap (s : State) : Out := stackOp 2 (fun _ xs => [xs.getD 0 0, xs.getD 1 0]) s
/-- LDQ (R381, R382). -/
def execTopiaryLdq (f : BitVec 8) (s : State) : Out := stackOp 0 (fun r _ => [queueField r f.toNat]) s
/-- LDL (R381). -/
def execTopiaryLdl (n : BitVec 8) (s : State) : Out := stackOp 0 (fun r _ => [readLocal s r n.toNat]) s
/-- STL (R381). -/
def execTopiaryStl (n : BitVec 8) (s : State) : Out :=
  popOp (fun r x =>
    if n.toNat % 16 < 8 then
      goOn (s.putAux s.part { s.aux[s.part] with locals := vput s.aux[s.part].locals (ix 8 n.toNat) x }) r (r.pc + 1)
    else goOn s { r with locals := vput r.locals (ix 8 n.toNat) x } (r.pc + 1)) s
/-- ADD (R381). -/
def execTopiaryAdd (s : State) : Out := binaryOp (fun a b => a + b) s
/-- SUB (R381). -/
def execTopiarySub (s : State) : Out := binaryOp (fun a b => a - b) s
/-- MUL (R381). -/
def execTopiaryMul (s : State) : Out := binaryOp (fun a b => a * b) s
/-- MIN (R381). -/
def execTopiaryMin (s : State) : Out := binaryOp (fun a b => if a.slt b then a else b) s
/-- MAX (R381). -/
def execTopiaryMax (s : State) : Out := binaryOp (fun a b => if a.slt b then b else a) s
/-- AND (R381). -/
def execTopiaryAnd (s : State) : Out := binaryOp (fun a b => a &&& b) s
/-- OR (R381). -/
def execTopiaryOr (s : State) : Out := binaryOp (fun a b => a ||| b) s
/-- LT (R381). -/
def execTopiaryLt (s : State) : Out := binaryOp (fun a b => if a.slt b then 1 else 0) s
/-- EQ (R381). -/
def execTopiaryEq (s : State) : Out := binaryOp (fun a b => if a = b then 1 else 0) s
/-- JZ (R381). -/
def execTopiaryJz (d : BitVec 8) (s : State) : Out :=
  popOp (fun r x => if x = 0 then jump s r (r.pc + d.toNat) else goOn s r (r.pc + 1)) s
/-- JMP (R381). -/
def execTopiaryJmp (d : BitVec 8) (s : State) : Out :=
  match s.aux[s.part].run with
  | none => .next s
  | some r => .next (jump s r (r.pc + d.toNat))
/-- FORQ (R381): the first visit. -/
def execTopiaryForq (n : BitVec 8) (s : State) : Out :=
  match s.aux[s.part].run with
  | none => .next s
  | some r => .next (goOn s { r with loopPc := some (r.pc + 1), visit := 0, passes := min (max n.toNat 1) 16 } (r.pc + 1))
/-- NEXTQ (R380, R381). -/
def execTopiaryNextq (s : State) : Out :=
  match s.aux[s.part].run with
  | none => .next s
  | some r => match r.loopPc with
    | none => .next (abandonRun s)
    | some l =>
      if r.visit + 1 < 4 * r.passes then .next (goOn s { r with visit := r.visit + 1 } l)
      else .next (goOn s { r with loopPc := none } (r.pc + 1))
/-- PICK (R381). (DEDUCED: log 33.) -/
def execTopiaryPick (s : State) : Out :=
  popOp (fun r x =>
    let good : Bool := decide (x.toNat < 4) && r.fields[ix 4 x.toNat][(0 : Fin 6)] == 1
    goOn s { r with choice := if good then some (ix 4 x.toNat) else r.choice } (r.pc + 1)) s
/-- SLICE (R381). -/
def execTopiarySlice (s : State) : Out :=
  popOp (fun r x =>
    let n : BitVec 32 := if x.slt 0 then 0 else if (65535 : BitVec 32).slt x then 65535 else x
    goOn s { r with slice := n } (r.pc + 1)) s
/-- RET (R381). -/
def execTopiaryRet (s : State) : Out :=
  match s.aux[s.part].run with
  | none => .next s
  | some r => .next (goOn s r s.aux[s.part].policy.length)

/-- One turn of the acting partition's policy. `run` is the meaning of an operation. (DEDUCED: log 33.) -/
def topiaryTurn (run : Instr → State → Out) (s : State) : Out :=
  let a := s.aux[s.part]
  match a.front.pick, a.run with
  | some _, some r =>
    if frontHeld s s.part then .next s
    else match decodeTopiary (opAt a.policy r.pc) with
    | some i => run i s
    | none => .next (abandonRun s)
  | _, _ => .next s

end Sys2Proof.Machine
end

