-- ==== Sys2Proof/Machine/Messages.lean ====
section
/-! DEFINITION. Messages that arrive from other packages (R356, R357, R363 to R365): requests to this package's memory,
answers to what this package has asked for, and the notices of Quickset stores. An answer goes to the first request of its
core and address that waits for one of its kind. -/

namespace Sys2Proof.Machine

/-! ### Which request an answer is for -/

/-- R365: the entry of a context that has sent its request for an address. (DEDUCED: log 36.) -/
def sentEnt (s : State) (c : Fin 512) (fw : Bool) (addr : Word) (f : QEnt → Bool) : Option QEnt :=
  (s.cores[c].ctx fw).mq.find? fun e => f e && e.stage == .sent && (e.todo.head?).any fun p => p.loc == .glob addr

/-- An answer of an entry of either context of a core. (DEDUCED: log 36.) -/
def toEnt (s : State) (c : Fin 512) (addr : Word) (f : QEnt → Bool) (st : Stage) : Option State :=
  match sentEnt s c false addr f, sentEnt s c true addr f with
  | some e, _ => some (putEnt s c false { e with stage := st })
  | none, some e => some (putEnt s c true { e with stage := st })
  | none, none => none

/-- R85: an answer of a context's MWAIT. (DEDUCED: log 36.) -/
def toMwait (s : State) (c : Fin 512) (addr : Word) (st : Stage) : Option State :=
  [false, true].findSome? fun fw =>
    match (s.cores[c].ctx fw).mwait with
    | some w => if w.ea = addr ∧ w.stage = .sent then some (putMwait s c fw { w with stage := st }) else none
    | none => none

/-- A change of the first copy of a core for which there is one. (DEDUCED: log 36.) -/
def toCopy (s : State) (c : Fin 512) (f : Fin 256 → Copy → Option State) : Option State :=
  (List.finRange 256).findSome? fun i => (s.cores[c].copies[i]).bind (f i)

/-- R160, R365: the box of a copy that waits for an answer from an address, and the part that it is for. -/
def Copy.asked (k : Copy) (addr : Word) (writing : Option Bool) : Option (BoxRun × Piece) :=
  k.runs.findSome? fun r =>
    if writing.any (· != r.writing) then none else (r.away.find? fun p => p.loc == .glob addr).map fun p => (r, p)

/-- R160, R365: a copy's box takes the bytes of one of its reads. -/
def copyGot (s : State) (c : Fin 512) (addr : Word) (bs : List Byte) : Option State :=
  toCopy s c fun i k => (k.asked addr (some false)).map fun (r, p) =>
    putCopy s c i (some (k.putRun { r with away := r.away.erase p, data := patch r.data p.off bs }))

/-- R160, R165, R365: a copy's box, or its stamp, takes an acknowledgement. -/
def copyAck (s : State) (c : Fin 512) (addr : Word) : Option State :=
  toCopy s c fun i k => (k.asked addr (some true)).map fun (r, p) =>
    putCopy s c i (some (k.putRun { r with away := r.away.erase p }))

/-- R161, R357: a copy's box, or its stamp, fails. -/
def copyErr (s : State) (c : Fin 512) (addr : Word) (e : Cause) : Option State :=
  toCopy s c fun i k => (k.asked addr none).map fun (r, p) =>
    let k := k.putRun { r with away := r.away.erase p }
    if r.dead then putCopy s c i (some k) else copyFault s c i k r.num e addr

/-- R183: an answer of an MMA's B tile. (DEDUCED: log 36.) -/
def toMma (s : State) (c : Fin 512) (addr : Word) (st : Stage) : Option State :=
  [false, true].findSome? fun fw =>
    match (s.cores[c].ctx fw).mmas.find? fun r =>
        r.bStage == .sent && r.tileAt == addr with
    | some r => some (putMma s c fw { r with bStage := st })
    | none => none

/-- R259: an answer of a shard's read of a wait word, which the cluster's core 0 has asked for. (DEDUCED: log 36.) -/
def toRecord (s : State) (c : Fin 512) (addr : Word) (st : Stage) : Option State :=
  let k := clusterOf c
  let sh := s.clusters[k].shard
  match (List.range sh.length).find? fun i => match sh[i]? with
      | some r => r.stage == .sent && r.saved[1] == addr
      | none => false with
  | some i => (sh[i]?).map fun r => putRec s k i { r with stage := st }
  | none => none

/-- The first of several that applies; an answer that nothing waits for changes nothing. -/
def firstOf (s : State) (l : List (Unit → Option State)) : State := (l.findSome? fun f => f ()).getD s

/-- Whether an entry waits for bytes of a read. -/
def QEnt.reads (e : QEnt) : Bool :=
  match e.kind with
  | .ld _ _ | .ldAcq _ _ | .vld _ | .vldElems _ | .mld _ _ | .streamRead _ _ => true
  | _ => false

/-- Whether an entry is an AMO. -/
def QEnt.isAmo (e : QEnt) : Bool :=
  match e.kind with
  | .amo _ _ _ => true
  | _ => false

/-- R70, R357: a Quickset store that has left for an address fails. (DEDUCED: log 36.) -/
def toQst (s : State) (c : Fin 512) (addr : Word) (k : Cause) : Option State :=
  (oldestAway s.cores[c] addr).bind fun (_, t) => t.away.bind fun e => match e.kind with
    | .qst tok _ _ _ => some (failAway s c tok k)
    | _ => none

/-- R70, R357: a failed request becomes its access's deferred fault. (DEDUCED: log 36.) -/
def failRequest (s : State) (p : Option (Fin 16)) (c : Fin 512) (addr : Word) (k : Cause) : State :=
  firstOf s [fun _ => toEnt s c addr (fun _ => true) (.failed k), fun _ => toMwait s c addr (.failed k),
    fun _ => copyErr s c addr k, fun _ => toMma s c addr (.failed k), fun _ => toRecord s c addr (.failed k), fun _ => toQst s c addr k,
    fun _ => p.bind fun p => toHub s p none addr (.failed k)]

/-! ### Arriving -/

/-- R357: the kinds of messages. -/
def knownKind (k : BitVec 5) : Bool := decide (1 ≤ k.toNat) && decide (k.toNat ≤ 15)

/-- R357: the link on which a message of another package is taken to have come: the last of the ordered route. (DESIGN CHOICE: log 46.) -/
def cameOn (s : State) (m : Msg) : Fin 6 :=
  if switched s then ix 6 (ownPkg s).toNat
  else (([2, 1, 0] : List Nat).findSome? (linkToward s (ownPkg s) m.spkg)).getD 0

/-- R357: a message of another kind is discarded and counted as a link error. -/
def unknownKind (m : Msg) (s : State) : State :=
  let k := cameOn s m
  let l := s.fabric.links[k]
  { s with fabric := { s.fabric with links := vput s.fabric.links k { l with errors := l.errors + 1 } } }

/-- R336: whether an edge accepts messages of an epoch for a partition: that of the ACTIVE XPORT key, and while another is RETIRING both. -/
def acceptsEpoch (s : State) (p : Fin 16) (epoch : Bool) : Bool :=
  s.hub.keys.toList.any fun k => k.cls == 1 && k.part == p && k.epoch == epoch && (k.st == .active || k.st == .retiring)

/-- R336: whether a message for a protected partition fails where it is opened. -/
def badSeal (s : State) (p : Fin 16) (m : Msg) : Bool := s.parts[p].prot && (!m.tagOk || !acceptsEpoch s p m.epoch)

/-- R336: a message that fails is discarded, and INTEGRITY is reported to the access that waits on it: here for an answer, and by ERR to
the package that asked for a request. (DEDUCED: log 37.) -/
def sealFailed (s : State) (p : Fin 16) (m : Msg) : State :=
  if isRequest m.kind then errAnswer s p m .integrity
  else if [kRdrsp, kWrack, kAmorsp, kTilersp].contains m.kind then failRequest s (some p) (msgCore m) m.addr .integrity
  else s

/-- R356, R357, R358, R401: a message of a kind for this package takes effect for the local partition of its FDID, and its payload is
counted; without such a partition it is answered with REMOTE, but for an ERR, which is dropped. One for another package passes
on. (DEDUCED: log 34.) -/
def arriving (k : BitVec 5) (m : Msg) (s : State) (f : Fin 16 → Msg → State → Out) : Out :=
  if !knownKind m.kind then .next (unknownKind m s)
  else
    let m := { m with kind := k }
    if m.dpkg ≠ ownPkg s then
      .next { s with fabric := { s.fabric with out := s.fabric.out ++ [⟨m, partOfFdid s m.fdid, none, s.clk, false, true⟩] } }
    else match partOfFdid s m.fdid with
    | some p =>
      let t := if isRequest k then s else noteAnswer s p m
      let hop := hubHop s (ix 4 m.ddie.toNat) true
      if badSeal s p m then .next (sealFailed t p m)
      else if isRequest k || k == kRel then f p m (t.count (some p) 8 m.payload.length)
      else if ivOpen s p hop then f p m ((useIv t p hop).count (some p) 8 m.payload.length)
      else stall s
    | none =>
      if k = kErr then .next s
      else .next (sendFor s none none { answerMsg s m kErr [] with opx := Cause.remote.code, addr := m.addr })

/-! ### Requests (R365) -/

/-- R200, R302, R365: a request comes to its home, where it is performed by its parts. It waits while its page is being moved. -/
def request (k : BitVec 5) (m : Msg) (s : State) : Out :=
  arriving k m s fun p m t => match enterInward t p m with
    | some t => .next t
    | none => stall s

/-- R200, R365: RD. -/
def execRd (m : Msg) (s : State) : Out := request kRd m s

/-- R365: WR: performed, and then acknowledged. -/
def execWr (m : Msg) (s : State) : Out := request kWr m s

/-- R210, R365: AMO: performed by the home cluster's atomic engine. -/
def execAmoMessage (m : Msg) (s : State) : Out := request kAmo m s

/-- R130, R365: VAMO: one line at the atomic engine, acknowledged. -/
def execVamoMessage (m : Msg) (s : State) : Out := request kVamo m s

/-- R165, R365: RED: each element is combined at the atomic engine, and the message acknowledged. -/
def execRed (m : Msg) (s : State) : Out := request kRed m s

/-- R183, R365: TILE: the whole extent of a B tile. -/
def execTile (m : Msg) (s : State) : Out := request kTile m s

/-! ### Answers (R357, R365) -/

/-- R365: RDRSP. (DEDUCED: log 36.) -/
def execRdrsp (m : Msg) (s : State) : Out :=
  arriving kRdrsp m s fun p m s =>
    let c := msgCore m
    let st : Stage := .returned m.payload
    .next (firstOf s [fun _ => toEnt s c m.addr QEnt.reads st, fun _ => toMwait s c m.addr st, fun _ => copyGot s c m.addr m.payload,
      fun _ => toRecord s c m.addr st, fun _ => toHub s p (some true) m.addr st])

/-- R365: WRACK. (DEDUCED: log 36.) -/
def execWrack (m : Msg) (s : State) : Out :=
  arriving kWrack m s fun p m s =>
    let c := msgCore m
    .next (firstOf s [fun _ => toEnt s c m.addr (fun e => !e.reads && !e.isAmo) (.returned []), fun _ => copyAck s c m.addr,
      fun _ => toHub s p (some false) m.addr (.returned [])])

/-- R365: AMORSP. (DEDUCED: log 36.) -/
def execAmorsp (m : Msg) (s : State) : Out :=
  arriving kAmorsp m s fun p m s => .next (firstOf s [fun _ => toEnt s (msgCore m) m.addr QEnt.isAmo (.returned m.payload),
    fun _ => toHub s p (some false) m.addr (.returned m.payload)])

/-- R183, R365: TILERSP. (DEDUCED: log 36.) -/
def execTilersp (m : Msg) (s : State) : Out :=
  arriving kTilersp m s fun _ m s => .next (firstOf s [fun _ => toMma s (msgCore m) m.addr (.returned m.payload)])

/-- R70, R357: ERR. (DEDUCED: log 36.) -/
def execErr (m : Msg) (s : State) : Out :=
  arriving kErr m s fun p m s =>
    match causeOf m.opx with
    | some k => .next (failRequest s (some p) (msgCore m) m.addr k)
    | none => .next s

/-! ### Quickset stores (R363, R364) -/

/-- R364: QST_MESSAGE. -/
def execQstMessage (m : Msg) (s : State) : Out :=
  arriving kQst m s fun p m t => match arriveQst t p m with
    | some t => .next t
    | none => stall s

/-- R363 to R365: LAND. One that names no live token is discarded. -/
def execLand (m : Msg) (s : State) : Out :=
  arriving kLand m s fun _ m s => .next (landToken s (msgCore m) m.token)

/-- R364: REL. -/
def execRel (m : Msg) (s : State) : Out :=
  arriving kRel m s fun _ m s => .next (arriveRel s m.spkg (msgCore m) m.token)

/-- R364: HOLDFULL. -/
def execHoldfull (m : Msg) (s : State) : Out :=
  arriving kHoldfull m s fun _ m s => .next (holdFull s (msgCore m) m.addr)

/-- R364: HOLD_EXPIRE: a held store passes HOLDLIM: it is marked, its record goes to the fault buffer, and it is dropped
when the record enters. A store with no carry left goes on instead. -/
def execHoldExpire (entry : Fin 1024) (s : State) : Out :=
  match s.fabric.hold[entry] with
  | none => .next s
  | some e =>
    if e.carry0 = 0 ∧ e.carry1 = 0 then .next (releaseHolds 1024 s)
    else if e.expired ∨ s.clk < e.due then .next s
    else
      let s := { s with fabric := { s.fabric with hold := vput s.fabric.hold entry (some { e with expired := true }) } }
      .next (releaseHolds 1024 (hubRecord s e.part (hubRec .holdExpire e.msg.addr)))

/-! ### Leaving (R357, R358) -/

/-- R358: ESCAPE_ROUTE: an adaptive message that has waited 256 clk takes the ordered route from here on. (DEDUCED: log 34.) -/
def execEscapeRoute (idx : Fin 256) (s : State) : Out :=
  match s.fabric.out[idx.val]? with
  | none => .next s
  | some o =>
    if o.msg.cls ∨ o.escape ∨ s.clk < o.since + 256 ∨ switched s then .next s
    else .next { s with fabric := { s.fabric with out := s.fabric.out.set idx.val { o with escape := true } } }

/-- R356, R357: whether a request of this package cannot be carried: its package is not attached, every link that it may take is down,
or its partition is in no domain. (DEDUCED: log 34.) -/
def undeliverable (s : State) (o : OutMsg) : Bool :=
  !o.transit && isRequest o.msg.kind &&
    (!attached s o.msg.dpkg || (routes s o).all (fun k => !s.fabric.links[k].up) || (o.part.bind (fdidOf s)).isNone)

/-- R357: such requests are answered with REMOTE. -/
def refuseUndeliverable (s : State) : State :=
  let lost := s.fabric.out.filter (undeliverable s)
  let s := { s with fabric := { s.fabric with out := s.fabric.out.filter fun o => !undeliverable s o } }
  lost.foldl (fun s o =>
    let c := msgCore o.msg
    if o.msg.kind = kQst then failAway s c o.msg.token .remote else failRequest s o.part c o.msg.addr .remote) s

end Sys2Proof.Machine
end

