-- ==== Sys2Proof/Machine/Links.lean ====
section
/-! DEFINITION. The Hedgerow links and the fabric registers (R355, R356, R360 to R362). -/

namespace Sys2Proof.Machine

/-! ### The fabric registers (R356) -/

/-- The registers by the number of HFCFG_WRITE: 0 HFCFG, 1 + p FDMAPp, 0x1000 + n SWPORTn. -/
inductive HfReg where
  | hfcfg
  | fdmap (p : Fin 16)
  | swport (n : Nat)
  | none
deriving DecidableEq, Repr

/-- The register of a number. -/
def hfReg (reg : BitVec 13) : HfReg :=
  let n := reg.toNat
  if n = 0 then .hfcfg else if n ≤ 16 then .fdmap (ix 16 (n - 1)) else if 0x1000 ≤ n then .swport (n - 0x1000) else .none

/-- R356: whether two valid FDMAP entries would hold FDIDs that are equal in bits [3:0]. -/
def fdidClash (s : State) (p : Fin 16) (fdid : BitVec 16) : Bool :=
  (List.finRange 16).any fun q => q != p && (fdidOf s q).any fun f => f.extractLsb' 0 4 == fdid.extractLsb' 0 4

/-- R356: whether a write of a fabric register is refused: links are up, or reserves would be shared. -/
def hfRefused (s : State) (reg : BitVec 13) (value : Word) : Bool :=
  (s.fabric.links.toList.any (·.up)) || match hfReg reg with
    | .fdmap p => value.getLsbD 63 && fdidClash s p (value.extractLsb' 0 16)
    | .none => true
    | _ => false

/-- HFCFG_WRITE (R356). Reserved bits ignore what is written to them (R7). -/
def execHfcfgWrite (reg : BitVec 13) (value : BitVec 64) (s : State) : Out :=
  if hfRefused s reg value then .next s
  else
    let f := s.fabric
    .next { s with fabric := match hfReg reg with
      | .hfcfg => { f with hfcfg := value &&& 0xC0FFF000FFF00000 }
      | .fdmap p => { f with fdmap := vput f.fdmap p (value &&& 0x800000000000FFFF) }
      | .swport n =>
        let others := f.swport.filter fun e => e.1 != n
        let x : BitVec 16 := value.setWidth 16 &&& 0x80FF
        { f with swport := if x = 0 then others else (n, x) :: others }
      | .none => f }

/-! ### Links (R355, R360, R361) -/

/-- A link changes. -/
def modLink (s : State) (k : Fin 6) (f : Link → Link) : State :=
  { s with fabric := { s.fabric with links := vput s.fabric.links k (f s.fabric.links[k]) } }

/-- R355, R407: an event of a link is reported: a hub record to each partition in a fabric domain, and a log record. The
spec gives these records no cause and no address, so these are free: the cause is one of those of R18. (DESIGN CHOICE: log 35; DEDUCED: log 37.) -/
def reportLink (s : State) : State :=
  let code := freeCause s.free
  let a := Config.reportAddr s.free
  let s := { s with free := s.free + 1 }
  let s := (List.finRange 16).foldl (fun s p =>
    if s.parts[p].st = .live ∧ (fdidOf s p).isSome then hubRecord s p { hubRec .remote a with cause := code } else s) s
  logRecord s { logRec .remote 0xFFFF 0 a with cause := code }

/-- A link with its input empty, up or down. -/
def Link.fresh (l : Link) (up : Bool) (k : Nat) : Link :=
  { l with up := up, k := k, used := Vector.replicate 33 0, stop := Vector.replicate 33 false, far := Vector.replicate 33 false }

/-- LINK_TRAIN (R356, R361): a link trains once HFCFG.EN is set, and stays down with too long a round trip. -/
def execLinkTrain (link : Fin 6) (k : BitVec 8) (s : State) : Out :=
  if !s.fabric.hfcfg.getLsbD 63 then .next s
  else
    let ok := decide (k.toNat ≤ if switched s then 3 else 2)
    .next (reportLink (modLink s link fun l => l.fresh ok (if ok then k.toNat else 0)))

/-- LINK_DOWN (R355). -/
def execLinkDown (link : Fin 6) (s : State) : Out :=
  if s.fabric.links[link].up then .next (reportLink (modLink s link fun l => l.fresh false 0)) else .next s

/-- R360: how many slots a pool has: 4 in a reserved sub-pool, 128 in the shared pool. -/
def poolSlots (pool : Fin 33) : Nat := if pool.val = 32 then 128 else 4

/-- R360: the pool whose slot an arriving flit takes. (DEDUCED: log 37.) -/
def flitPool (l : Link) (f : Flit) : Option (Fin 33) :=
  let sub := ix 33 (2 * (f.fdid.toNat % 16) + f.crossed.toNat)
  if f.ordered ∧ l.used[sub] < 4 then some sub else if l.used[(32 : Fin 33)] < 128 then some 32 else none

/-- FLIT_RECEIVE (R355, R360, R362, R408): a flit takes a slot, or is discarded on a CRC failure, counted and reported;
or R336: on a failed tag, and its link sends it again. (DEDUCED: log 37.) -/
def execFlitReceive (link : Fin 6) (flit : Flit) (s : State) : Out :=
  let l := s.fabric.links[link]
  if !l.up then .next s
  else if !flit.crcOk then
    let n := s.pf.sercnt[(6 : Fin 8)]
    let pf := { s.pf with sercnt := vput s.pf.sercnt 6 (if n = BitVec.allOnes 64 then n else n + 1) }
    .next (reportLink { modLink s link fun l => { l with errors := l.errors + 1 } with pf := pf })
  else if !flit.tagOk || (partOfFdid s flit.fdid).any (fun p => s.parts[p].prot && !acceptsEpoch s p flit.epoch) then
    .next (modLink s link fun l => { l with errors := l.errors + 1 })
  else match flitPool l flit with
  | some i => .next (modLink s link fun l => { l with used := vput l.used i (l.used[i] + 1) })
  | none => .next (reportLink (modLink s link fun l => { l with errors := l.errors + 1 }))

/-- POOL_STOP_GO (R361): flits of a pool have moved on, and the receiver signals STOP when at most K of its slots are free,
else GO. (DESIGN CHOICE: log 35.) -/
def execPoolStopGo (link : Fin 6) (pool : Fin 33) (s : State) : Out :=
  if !s.fabric.links[link].up then .next s
  else
    let gone := Config.poolDrain s.free
    let s := { s with free := s.free + 1 }
    .next (modLink s link fun l =>
      let used := l.used[pool] - gone
      { l with used := vput l.used pool used, stop := vput l.stop pool (decide (poolSlots pool - used ≤ l.k)) })

end Sys2Proof.Machine
end

