-- ==== Sys2Proof/Machine/Attest.lean ====
section
/-! DEFINITION. TDISP, SPDM and measurements (R351 to R353, R366, R367, R400). The spec gives the requests' effects and what
a measurement holds; the other bytes of an answer are free values. -/

namespace Sys2Proof.Machine

/-! ### Answers -/

/-- R351, R352: the numbers by which the free bytes of answers are told apart. -/
inductive Request where
  | tdispVersion | tdispCapabilities | lock | report | state | start | stop | sealSecret | version | capabilities | algorithms
  | digests | certificate | challenge | measurements | keyExchange | finish | endSession | error
deriving DecidableEq, Repr

/-- The number of a request. -/
def Request.num : Request → Nat
  | .tdispVersion => 0 | .tdispCapabilities => 1 | .lock => 2 | .report => 3 | .state => 4 | .start => 5 | .stop => 6
  | .sealSecret => 7 | .version => 8 | .capabilities => 9 | .algorithms => 10 | .digests => 11 | .certificate => 12
  | .challenge => 13 | .measurements => 14 | .keyExchange => 15 | .finish => 16 | .endSession => 17 | .error => 18

/-- An answer: bytes that the spec does not state, and then the bytes that it does. (DESIGN CHOICE: log 32; DESIGN CHOICE: log 38.) -/
def reply (s : State) (r : Request) (stated : List Byte) : State :=
  let n := Config.attestLen r.num s.free
  let s' := answerHost s ((List.range n).map (Config.attest r.num s.free) ++ stated)
  { s' with free := s.free + 1 }

/-- R351, R352: an error answer. (DESIGN CHOICE: log 38.) -/
def replyError (s : State) : Out := .next (reply s .error [])

/-- R351: a request to a partition's TDI. Only the VF of a protected partition is one. -/
def tdiRequest (p : Fin 16) (s : State) (f : State → Out) : Out := if s.parts[p].prot then f s else replyError s

/-! ### TDISP (R351) -/

/-- GET_TDISP_VERSION (R351). -/
def execGetTdispVersion (part : Fin 16) (s : State) : Out := tdiRequest part s fun s => .next (reply s .tdispVersion [])

/-- GET_TDISP_CAPABILITIES (R351). -/
def execGetTdispCapabilities (part : Fin 16) (s : State) : Out := tdiRequest part s fun s => .next (reply s .tdispCapabilities [])

/-- R351: the session with the host that a TDI is bound to when it is locked. (DEDUCED: log 39.) -/
def hostSession (s : State) : Option (BitVec 16) := (s.fabric.sessions.find? fun e => e.live && e.peer.isNone).map (·.id)

/-- LOCK_INTERFACE_REQUEST (R351): from CONFIG_UNLOCKED, with the memory wiped and both keys installed. (DEDUCED: log 39.) -/
def execLockInterfaceRequest (part : Fin 16) (s : State) : Out :=
  tdiRequest part s fun s =>
    let p := s.parts[part]
    if p.tdi = .unlocked ∧ p.wiped ∧ (activeSlot s part 0).isSome ∧ (activeSlot s part 1).isSome then
      .next (reply (s.putPart part { p with tdi := .locked, bound := hostSession s }) .lock [])
    else replyError s

/-- R351: a range of the interface report: its first page in its BAR and its number of pages, whether it holds the MSI-X table or the PBA, and
its BAR. A TEE range has bit 2 of the attributes clear. (PRESUMED: log 48.) -/
def teeRange (first pages : Nat) (table pba : Bool) (bar : Nat) : List Byte :=
  leBytes 8 first ++ leBytes 4 pages ++ leBytes 2 (table.toNat + 2 * pba.toNat) ++ leBytes 2 bar

/-- R351: BAR0 and BAR2 as TEE ranges, with the MSI-X table and the PBA marked. -/
def teeRanges : List Byte :=
  leBytes 4 5 ++ teeRange 0 2 false false 0 ++ teeRange 2 1 true false 0 ++ teeRange 3 1 false true 0 ++ teeRange 4 12 false false 0 ++
    teeRange 0 (2 ^ 22) false false 2

/-- GET_DEVICE_INTERFACE_REPORT (R351). (DESIGN CHOICE: log 38.) -/
def execGetDeviceInterfaceReport (part : Fin 16) (s : State) : Out := tdiRequest part s fun s => .next (reply s .report teeRanges)

/-- The number of a TDI state, in the order of R351's table. (PRESUMED: log 48.) -/
def tdiCode : TdiSt → Nat
  | .unlocked => 0 | .locked => 1 | .run => 2 | .error => 3

/-- GET_DEVICE_INTERFACE_STATE (R351). -/
def execGetDeviceInterfaceState (part : Fin 16) (s : State) : Out :=
  tdiRequest part s fun s => .next (reply s .state (leBytes 1 (tdiCode s.parts[part].tdi)))

/-- START_INTERFACE_REQUEST (R351). -/
def execStartInterfaceRequest (part : Fin 16) (s : State) : Out :=
  tdiRequest part s fun s =>
    if s.parts[part].tdi = .locked then .next (reply (s.putPart part { s.parts[part] with tdi := .run }) .start [])
    else replyError s

/-- R351: the stream of a partition goes to Off. -/
def streamOff (s : State) (p : Fin 16) : State :=
  let a := s.aux[p]
  let w := match a.front.graph with
    | some g => closeLevel a.window 1 g.level
    | none => a.window
  let f := { a.front with
    st := .off, levels := [], blocks := [], entries := [], current := none, pick := none, signals := [], wait := .none, restart := []
    graph := none, node := none, sliceLen := 0, queues := a.front.queues.map fun q => { q with parked := none } }
  s.putAux p { a with front := f, window := { w with stop := none }, run := none }

/-- R351: CONFIG_UNLOCKED is entered from another state: the stream goes to Off, the window's entries are cancelled, and the
keys and the seal secret are destroyed. A later lock needs a wipe. (DEDUCED: log 39.) -/
def unlockTdi (s : State) (p : Fin 16) : State :=
  if s.parts[p].tdi = .unlocked then s
  else
    let s := destroyKeys (streamOff (cancelWindow s p) p) p
    s.putPart p { s.parts[p] with tdi := .unlocked, wiped := false, secret := none, bound := none }

/-- STOP_INTERFACE_REQUEST (R351). (DEDUCED: log 39.) -/
def execStopInterfaceRequest (part : Fin 16) (s : State) : Out :=
  tdiRequest part s fun s => .next (reply (unlockTdi s part) .stop [])

/-- R351: whether the session that a TDI is bound to is in place. (DEDUCED: log 39.) -/
def boundSession (s : State) (p : Fin 16) : Bool := s.fabric.sessions.any fun e => e.live && e.peer.isNone && s.parts[p].bound == some e.id

/-- SET_SEAL_SECRET (R351): in CONFIG_LOCKED, inside a session that is bound to the TDI. (DEDUCED: log 39.) -/
def execSetSealSecret (part : Fin 16) (secret : BitVec 512) (s : State) : Out :=
  tdiRequest part s fun s =>
    if s.parts[part].tdi = .locked ∧ boundSession s part then
      .next (reply (s.putPart part { s.parts[part] with secret := some secret }) .sealSecret [])
    else replyError s

/-- TDI_ERROR (R351): the locked configuration has changed, or the IDE stream has failed. -/
def execTdiError (part : Fin 16) (s : State) : Out := .next (if s.parts[part].prot then tdiToError s part else s)

/-- R296, R351: VF_FLR: the stream goes to Off; a TDI that is locked goes to ERROR. (DEDUCED: log 31.) -/
def vfReset (s : State) (p : Fin 16) : State :=
  let s := streamReset s p
  if s.parts[p].prot then tdiToError s p else s

/-- VF_FLR (R296). (DEDUCED: log 31.) -/
def execVfFlr (part : Fin 16) (s : State) : Out := .next (vfReset s part)

/-! ### Measurements (R353) -/

/-- A measurement: a digest, or a raw bit stream. -/
inductive Measurement where
  | digest (d : BitVec 512)
  | raw (bs : List Byte)
deriving DecidableEq, Repr

/-- R353: the indices that the device reports, but for the manifest, in ascending order. -/
def measured : List Nat := [1, 2, 3, 4, 5, 6] ++ (List.range 16).map (0x10 + ·)

/-- R353, R400: what index 0x04 holds: the life-cycle state, whether debug is enabled, and what the spec does not state. (DESIGN CHOICE: log 38.) -/
def fuseState : List Byte := [Config.lifeCycle.setWidth 8, if Config.lifeCycle = 0 then 1 else 0] ++ leBytes 64 (Config.bootMeasure 4).toNat

/-- R353: what index 0x05 holds: 64 slots, no path by which a key returns, and the random generator's health. (DESIGN CHOICE: log 38.) -/
def keyPolicy : List Byte := [64, 0] ++ leBytes 64 (Config.bootMeasure 5).toNat

/-- R353: the measurement of an index other than the manifest's. (DESIGN CHOICE: log 38.) -/
def measurement (s : State) (i : Nat) : Measurement :=
  let m := s.hub.measures
  if i = 1 then .digest (Config.bootMeasure 1)
  else if i = 2 then .digest m.image
  else if i = 3 then .raw (leBytes 4 m.svn.toNat ++ leBytes 2 m.version.toNat ++ [0, 0])
  else if i = 4 then .raw fuseState
  else if i = 5 then .raw keyPolicy
  else if i = 6 then .raw (Config.partitionTable (s.parts.toList.map fun p => (p.groups, p.prot)))
  else .digest m.part[ix 16 i]

/-- The value of a measurement. -/
def Measurement.bytes : Measurement → List Byte
  | .digest d => leBytes 64 d.toNat
  | .raw bs => bs

/-- R352: the value type of a measurement in DMTF's specification: the kind of what is measured, and bit 7 for a raw bit stream. (PRESUMED: log 48.) -/
def dmtfType (i : Nat) : Nat :=
  if i = 1 then 0x00 else if i = 2 then 0x01 else if i = 3 then 0x87 else if i = 4 then 0x82 else if i = 5 ∨ i = 6 then 0x83
  else if i = 0xFD then 0x84 else 0x03

/-- R352: a DMTF measurement block: the index, the specification, and the typed value with its size. (PRESUMED: log 48.) -/
def dmtfBlock (i : Nat) (value : List Byte) : List Byte :=
  leBytes 1 i ++ [1] ++ leBytes 2 (3 + value.length) ++ leBytes 1 (dmtfType i) ++ leBytes 2 value.length ++ value

/-- R353: the digest by which the manifest holds a measurement. -/
def Measurement.hash : Measurement → BitVec 512
  | .digest d => d
  | .raw bs => sha512 bs

/-- R353: the manifest. (DESIGN CHOICE: log 38.) -/
def manifest (s : State) : List Byte :=
  measured.flatMap fun i => leBytes 1 i ++ leBytes 64 (measurement s i).hash.toNat

/-- R400: whether the device identity key can be used. -/
def identityUsable : Bool := decide (Config.lifeCycle.toNat < 2)

/-- GET_MEASUREMENTS (R353): the block of an index, and a signature that covers the nonce. (DESIGN CHOICE: log 38.) -/
def execGetMeasurements (index : BitVec 8) (nonce : BitVec 256) (s : State) : Out :=
  let i := index.toNat
  if !identityUsable ∨ !(measured.contains i || i == 0xFD) then replyError s
  else
    let body := dmtfBlock i (if i = 0xFD then manifest s else (measurement s i).bytes)
    .next (reply s .measurements (body ++ leBytes 512 (Config.sign (sha512 (body ++ leBytes 32 nonce.toNat))).toNat))

/-! ### SPDM (R352) -/

/-- GET_VERSION (R352). -/
def execGetVersion (s : State) : Out := .next (reply s .version [])

/-- GET_CAPABILITIES (R352). -/
def execGetCapabilities (s : State) : Out := .next (reply s .capabilities [])

/-- R352: the algorithms that are offered, by their bits in SPDM: the DMTF measurement specification, SHA-512 for measurements, RSASSA-4096,
SHA-512, ECDHE secp384r1 and AES-256-GCM. (PRESUMED: log 48.) -/
def algorithms : List Byte := [1] ++ leBytes 4 8 ++ leBytes 4 0x20 ++ leBytes 4 4 ++ leBytes 2 0x10 ++ leBytes 2 2

/-- NEGOTIATE_ALGORITHMS (R352). -/
def execNegotiateAlgorithms (s : State) : Out := .next (reply s .algorithms algorithms)

/-- GET_DIGESTS (R352). -/
def execGetDigests (s : State) : Out := .next (reply s .digests [])

/-- GET_CERTIFICATE (R352): a part of the certificate chain, whose bytes are fixed. -/
def execGetCertificate (offset length : BitVec 16) (s : State) : Out :=
  .next (reply s .certificate ((List.range length.toNat).map fun i => Config.attest Request.certificate.num 0 (2 ^ 32 + offset.toNat + i)))

/-- CHALLENGE (R352): signed under the device identity key. -/
def execChallenge (nonce : BitVec 256) (s : State) : Out :=
  if identityUsable then .next (reply s .challenge (leBytes 512 (Config.sign (sha512 (leBytes 32 nonce.toNat))).toNat)) else replyError s

/-- R352: the private number of a KEY_EXCHANGE: 384 bits of the key unit's generator, from draw n on. (DESIGN CHOICE: log 55.) -/
def privateKey (n : Nat) : Nat := (List.range 6).foldl (fun x i => x + (Config.random (n + i)).toNat * 2 ^ (64 * i)) 0

/-- KEY_EXCHANGE (R352, R366): a session with the host or with another package is begun, with ECDHE on secp384r1. A share that is no point of the
curve is an error. (DESIGN CHOICE: log 55.) -/
def execKeyExchange (peer : Option (BitVec 12)) (share : BitVec 768) (s : State) : Out :=
  if !identityUsable then replyError s
  else match ecdhe (privateKey s.hub.drawn) (leBytes 96 share.toNat) with
    | none => replyError s
    | some (own, shared) =>
      let id := s.fabric.nextSession
      let sessions := ⟨id, peer, false, shared⟩ :: s.fabric.sessions.filter fun e => e.id != id
      let fabric := { s.fabric with sessions := sessions, nextSession := id + 1 }
      let s := { s with fabric := fabric, hub := { s.hub with drawn := s.hub.drawn + 6 } }
      .next (reply s .keyExchange
        (leBytes 2 id.toNat ++ own ++ leBytes 512 (Config.sign (sha512 (leBytes 96 share.toNat ++ own))).toNat))

/-- R367: the streams that a pairing with a package keys start again at IV 0. -/
def restartPair (s : State) (peer : Pkg) : State :=
  let toward (k : Fin 6) : Bool := farEnd s ⟨coreMsg s 0 0 0 (BitVec.ofNat 64 (peer.toNat * 2 ^ 51)) [], none, none, 0, false, false⟩ k == peer
  let sids := ((List.finRange 6).filter toward).map (linkSid s)
  let restart (x : IvStream) : IvStream :=
    if x.peer == some peer || (x.peer.isNone && sids.contains x.sid) then { x with iv := 0, exhausted := false } else x
  { s with hub := { s.hub with streams := s.hub.streams.map restart } }

/-- FINISH (R352, R366, R367): the session is in place; a pairing's keys are derived. (DESIGN CHOICE: log 55.) -/
def execFinish (session : BitVec 16) (s : State) : Out :=
  match s.fabric.sessions.find? fun e => e.id == session && !e.live with
  | none => replyError s
  | some e =>
    let sessions := s.fabric.sessions.map fun x => if x.id = session then { x with live := true } else x
    let s := { s with fabric := { s.fabric with sessions := sessions } }
    let s := match e.peer with
      | some p => restartPair s p
      | none => s
    .next (reply s .finish [])

/-- END_SESSION (R352, R367): the session and every key derived from it are gone. (DESIGN CHOICE: log 55.) -/
def execEndSession (session : BitVec 16) (s : State) : Out :=
  if s.fabric.sessions.any (fun e => e.id == session) then
    .next (reply { s with fabric := { s.fabric with sessions := s.fabric.sessions.filter fun e => e.id != session } } .endSession [])
  else replyError s

end Sys2Proof.Machine
end

