-- ==== Sys2Proof/Machine/Usage.lean ====
section
/-! DEFINITION. The admin ring (R394), meters and usage records (R401 to R403), power and heat (R404 to R406), and the PF's
registers (R392, R393). -/

namespace Sys2Proof.Machine

/-- The PF's registers change. -/
def modPf (s : State) (f : Pf → Pf) : State := { s with pf := f s.pf }

/-! ### Meters (R401) -/

/-- R401: how many regions a partition holds. -/
def regionsHeld (s : State) (p : Fin 16) : Nat :=
  s.dies.toList.foldl (fun n d => n + (d.regions.filter fun r => r.part == p).length) 0

/-- R401: the clk that the cores of a partition have held their units, of those that hold one now. -/
def holdingNow (s : State) (p : Fin 16) : Nat :=
  (List.finRange 512).foldl (fun n c => match s.cores[c].heldAt with
    | some t => if s.partOf c = some p then n + (s.clk - t) else n
    | none => n) 0

/-- A meter goes on by an amount that the spec leaves open. It never decreases. -/
def freeGain (old x : Word) : Word := BitVec.ofNat 64 (old.toNat + x.toNat % (2 ^ 64 - old.toNat))

/-- R401: meters 5 and 6 count the bytes of HBM, metadata included. Which bytes of metadata the part moves is left open,
so their increments are free. -/
def countHbm (s : State) (p : Fin 16) : State :=
  let a := s.aux[p]
  let m := vput a.meters 5 (freeGain a.meters[(5 : Fin 16)] (Config.hbmBytes p.val 5 s.free))
  let m := vput m 6 (freeGain a.meters[(6 : Fin 16)] (Config.hbmBytes p.val 6 s.free))
  { s.putAux p { a with meters := m } with free := s.free + 1 }

/-- R401: the meters of a partition at a cut. -/
def metersNow (s : State) (p : Fin 16) : Vector Word 16 :=
  let a := s.aux[p]
  let m := vput a.meters 0 (a.meters[(0 : Fin 16)] + BitVec.ofNat 64 (holdingNow s p))
  vput m 12 (BitVec.ofNat 64 (s.clk - a.created))

/-- REGINT_BOUNDARY (R401): at every 2^24-clk boundary the regions held are added. -/
def execRegintBoundary (s : State) : Out :=
  if s.clk / 2 ^ 24 ≤ s.pf.regint then .next s
  else
    let s := (List.finRange 16).foldl (fun s p => s.count (some p) 10 (regionsHeld s p)) s
    .next (modPf s fun f => { f with regint := f.regint + 1 })

/-! ### Usage records (R402, R403) -/

/-- R402: the prefix of what is signed: `DZ7800 usage`. -/
def usePrefix : List Byte := [0x44, 0x5A, 0x37, 0x38, 0x30, 0x30, 0x20, 0x75, 0x73, 0x61, 0x67, 0x65]

/-- R402: bytes 0 to 255 of a usage record. -/
def useBody (s : State) (p : Fin 16) (reason : BitVec 8) : List Byte :=
  let a := s.aux[p]
  leBytes 4 0x55525A44 ++ leBytes 4 1 ++ leBytes 8 0 ++ leBytes 2 ((ownPkg s).toNat + 2 ^ 12 * p.val) ++
    leBytes 2 s.parts[p].fdid.toNat ++ leBytes 3 0 ++ leBytes 1 reason.toNat ++ leBytes 8 0 ++ leBytes 8 s.hub.bootid.toNat ++
    leBytes 8 (a.useSeq + 1) ++ leBytes 8 (s.clk - a.created) ++ leBytes 8 s.pf.walltime.toNat ++
    (metersNow s p).toList.flatMap (fun w => leBytes 8 w.toNat) ++ leBytes 64 a.usePrev.toNat

/-- R402, R403: whether the usage ring is full. -/
def useFull (s : State) : Bool := s.pf.usetail - s.pf.usehead == 256

/-- R402, R403: a record is written to the next slot, USETAIL counts it, and vector 2 is raised. -/
def writeUse (s : State) (p : Fin 16) (reason : BitVec 8) : State :=
  let s := countHbm s p
  let body := useBody s p reason
  let sig := Config.sign (sha512 (usePrefix ++ body))
  let a := s.aux[p]
  let s := s.store (hostAddr ((s.pf.usebase.toNat + 1024 * (s.pf.usetail.toNat % 256)) % 2 ^ 64)) (body ++ leBytes 512 sig.toNat)
  let s := s.putAux p { a with useSeq := a.useSeq + 1, usePrev := sha512 body, usePend := none }
  pfRaise (modPf s fun f => { f with usetail := f.usetail + 1 }) 2

/-- R403: a cut. With the ring full one is pending per partition; REASON 3 and 4 are never replaced. -/
def cutUse (s : State) (p : Fin 16) (reason : BitVec 8) : State :=
  if useFull s then
    let a := s.aux[p]
    s.putAux p { a with usePend := match a.usePend with
      | some r => some (if r = 3 ∨ (r = 4 ∧ reason ≠ 3) then r else reason)
      | none => some reason }
  else writeUse s p reason

/-- R403: pending cuts are made while the ring has room. (DEDUCED: log 42.) -/
def releaseUse (s : State) : State :=
  (List.finRange 16).foldl (fun s p => match s.aux[p].usePend with
    | some r => if useFull s then s else writeUse s p r
    | none => s) s

/-- R403: the next interval of a partition begins. -/
def nextInterval (s : State) (p : Fin 16) : State :=
  let a := s.aux[p]
  s.putAux p { a with meterDue := a.meterDue + a.meterInt.toNat * 2 ^ 24 }

/-- INTERVAL_CUT (R403). -/
def execIntervalCut (part : Fin 16) (s : State) : Out :=
  let a := s.aux[part]
  if s.parts[part].st ≠ .live ∨ a.meterInt = 0 ∨ s.clk < a.meterDue then .next s
  else .next (nextInterval (cutUse s part 1) part)

/-! ### The admin ring (R394) -/

/-- R394: ADMTAIL: each new record is copied into the firmware's ring, whose TAIL counts it. -/
def copyAdmin : Nat → State → State
  | 0, s => s
  | n + 1, s =>
    let t := s.pf.admtail
    let bs := s.load (hostAddr ((s.pf.admbase.toNat + 32 * (t.toNat % 256)) % 2 ^ 64)) 32
    let tail := ringTail s adminRing
    let s := devWrite s (ringSlot adminRing tail) bs
    let s := devWrite s adminRing (leBytes 8 ((tail + 1) % 2 ^ 64))
    copyAdmin n (modPf s fun f => { f with admtail := t + 1 })

/-- R281, R392: an access of the PF's registers is refused. -/
def pfRefuse (s : State) : State := modPf s fun f => { f with regerr := true }

/-- R288, R394: a write of ADMTAIL, with the checks of a ring of 256 entries. -/
def writeAdmtail (s : State) (t : BitVec 32) : State :=
  let f := s.pf
  if (t - f.admhead).toNat ≤ 256 ∧ (t - f.admtail).toNat ≤ (t - f.admhead).toNat then copyAdmin (t - f.admtail).toNat s
  else pfRefuse s

/-- ADMTAIL_WRITE (R394). -/
def execAdmtailWrite (tail : BitVec 32) (s : State) : Out := .next (writeAdmtail s tail)

/-- R394: an admin record is finished: STATUS in both copies, ADMHEAD, and vector 0. -/
def adminDone (s : State) (status : Nat) : Out :=
  let h := s.pf.admhead
  let s := s.store (hostAddr ((s.pf.admbase.toNat + 32 * (h.toNat % 256) + 4) % 2 ^ 64)) (leBytes 2 status)
  let s := ringDone s adminRing status
  .next (pfRaise (modPf s fun f => { f with admhead := h + 1 }) 0)

/-- R394: the command at the head, if it is of the kind given; a malformed one finishes with 3. -/
def adminCommand (s : State) (cmd : Nat) (arg : Bool) (f : Fin 16 → Nat → Out) : Out :=
  onHead s (headRecord s adminRing) fun r =>
    if cmdOf r ≠ cmd then .next s
    else if !cmdClean r ∨ cmdArg1 r ≠ 0 ∨ 16 ≤ cmdPart r ∨ (!arg ∧ cmdArg0 r ≠ 0) then adminDone s 3
    else f (ix 16 (cmdPart r)) (cmdArg0 r)

/-- R394: whether the record at the head is of no kind that R394 lists. (DEDUCED: log 40.) -/
def adminUnknown (s : State) : Bool :=
  (headRecord s adminRing).any fun r => decide (cmdOf r < 0x10) || decide (0x13 < cmdOf r)

/-- METER (R394, R403, R409), and every record of an unknown kind. -/
def execMeter (s : State) : Out :=
  if adminUnknown s then adminDone s 3
  else adminCommand s 0x13 false fun p _ =>
    if s.parts[p].st ≠ .live then adminDone s 2
    else
      let s := cutUse s p 2
      adminDone (if s.aux[p].meterInt ≠ 0 ∧ s.aux[p].meterDue = s.clk then nextInterval s p else s) 1

/-! ### Power and heat (R404 to R406) -/

/-- R405, R406: the level in force. -/
def levelInForce (f : Pf) : BitVec 3 := if f.trip1 ∧ 1 < f.command.toNat then 1 else f.command

/-- R404: a write of PWRCMD. -/
def writePwrcmd (s : State) (x : Word) : State :=
  if x.toNat / 8 ≠ 0 then pfRefuse s
  else modPf s fun f =>
    let f := { f with command := x.setWidth 3 }
    { f with effect := levelInForce f }

/-- PWRCMD_WRITE (R404). -/
def execPwrcmdWrite (value : BitVec 64) (s : State) : Out := .next (writePwrcmd s value)

/-- R405: the hottest sensor of the package now. -/
def hottest (s : State) : Nat := (Config.sensor s.clk).toNat % 256

/-- R406: a write of THERMCLR; one that is too early is ignored. (DEDUCED: log 42.) -/
def writeThermclr (s : State) (x : Word) : State :=
  if x.getLsbD 0 ∧ hottest s < 95 then modPf s fun f => { f with trip1 := false, effect := f.command } else s

/-- THERMCLR (R406). (DEDUCED: log 42.) -/
def execThermclr (value : BitVec 64) (s : State) : Out := .next (writeThermclr s value)

/-- R407: a thermal trip's log record; the spec gives it no cause and no address, so these are free. (DESIGN CHOICE: log 35.) -/
def logTrip (s : State) : State :=
  let r := { logRec .remote 0xFFFF 0 (Config.reportAddr s.free) with cause := freeCause s.free }
  logRecord { s with free := s.free + 1 } r

/-- R406: TRIP1 is set: the level in force is at most L1. -/
def setTrip1 (s : State) : State :=
  if s.pf.trip1 then s
  else
    let s := modPf s fun f => { f with trip1 := true, effect := levelInForce { f with trip1 := true } }
    pfRaise (logTrip s) 3

/-- THERMAL_TRIP1 (R406). -/
def execThermalTrip1 (temp : BitVec 8) (s : State) : Out := .next (if 105 ≤ temp.toNat then setTrip1 s else s)

/-- THERMAL_TRIP2 (R406): nothing issues and no link sends until a reset. (DEDUCED: log 42.) -/
def execThermalTrip2 (temp : BitVec 8) (s : State) : Out :=
  if temp.toNat < 115 ∨ s.pf.trip2 then .next s
  else .next (pfRaise (logTrip (modPf (setTrip1 s) fun f => { f with trip2 := true })) 3)

/-! ### The PF's registers (R392, R393) -/

/-- R375, R392: a write of UPDREQ: the package duty core is told which slot the host names. -/
def writeUpdreq (s : State) (x : Word) : State :=
  if x.toNat / 2 ≠ 0 then pfRefuse s else deliver s 0 ⟨0x06, 0, x, 0⟩

/-- UPDREQ_WRITE (R392). -/
def execUpdreqWrite (value : BitVec 64) (s : State) : Out := .next (writeUpdreq s value)

/-- R393: PFID. -/
def pfid (s : State) : Word :=
  BitVec.ofNat 64 (2 ^ 63 * s.pf.regerr.toNat + 2 ^ 48 * 2 + 2 ^ 40 * Config.lifeCycle.toNat + 2 ^ 16 * s.pf.scrubbing.toNat +
    s.pf.free.toNat)

/-- PFID_READ (R393). -/
def execPfidRead (s : State) : Out := .next (modPf (answerHost s (leBytes 8 (pfid s).toNat)) fun f => { f with regerr := false })

/-- R392: a write of the PF's MSI-X table. A vector that is unmasked while pending is sent. (PRESUMED: log 5.) -/
def writePfMsix (s : State) (o : Nat) (wide : Bool) (x : Word) : State :=
  let v : Fin 8 := ix 8 (o / 16)
  let s := modPf s fun f => { f with msix := vput f.msix v (mergeMsix f.msix[v] (o % 16) wide x) }
  if s.pf.pba.getLsbD v.val && !s.pf.msix[v].getLsbD 96 then
    pfRaise (modPf s fun f => { f with pba := f.pba &&& ~~~BitVec.ofNat 8 (2 ^ v.val) }) v
  else s

/-- R392: a write of a ring's base, refused unless the ring is empty. -/
def writeBaseIf (s : State) (empty : Bool) (f : Pf → Pf) : State := if empty then modPf s f else pfRefuse s

/-- R281, R392: a write of 4 or 8 bytes to BAR0 of the PF. (DEDUCED: log 31.) -/
def pfWrite (s : State) (offset : Nat) (wide : Bool) (x : Word) : State :=
  let f := s.pf
  let high : Bool := offset % 8 == 4
  let n := offset / 8 * 8
  let merged (old : Word) : Word := mergeReg old high wide x
  if offset % (if wide then 8 else 4) ≠ 0 then pfRefuse s
  else if 0x2000 ≤ offset ∧ offset < 0x2080 then writePfMsix s (offset - 0x2000) wide x
  else if n = 0x08 then
    if merged f.admbase % 4096 ≠ 0 then pfRefuse s
    else writeBaseIf s (f.admhead == f.admtail) fun f => { f with admbase := merged f.admbase }
  else if offset = 0x10 then writeAdmtail s (x.setWidth 32)
  else if n = 0x18 then modPf s fun f => { f with walltime := merged f.walltime }
  else if n = 0x20 then writePwrcmd s (merged (f.command.setWidth 64))
  else if n = 0x30 then writeThermclr s (merged 0)
  else if n = 0x38 then writeUpdreq s (merged 0)
  else if n = 0x48 then writeBaseIf s (f.loghead == f.logtail) fun f => { f with logbase := merged f.logbase }
  else if offset = 0x54 then releaseLog 64 (modPf s fun f => { f with loghead := x.setWidth 32 })
  else if offset = 0x50 ∧ wide then releaseLog 64 (modPf s fun f => { f with loghead := (x >>> 32).setWidth 32 })
  else if n = 0x60 then writeBaseIf s (f.usehead == f.usetail) fun f => { f with usebase := merged f.usebase }
  else if offset = 0x6C then releaseUse (modPf s fun f => { f with usehead := x.setWidth 32 })
  else if offset = 0x68 ∧ wide then releaseUse (modPf s fun f => { f with usehead := (x >>> 32).setWidth 32 })
  else s

/-- R397: the code of a partition's state. -/
def partStateCode : PartSt → Nat
  | .free => 0 | .creating => 1 | .live => 2 | .destroying => 3 | .wiping => 4

/-- R397: PSTATE of a partition. -/
def pstate (s : State) (p : Fin 16) : Word :=
  let q := s.parts[p]
  BitVec.ofNat 64 (2 ^ 32 * q.left.toNat + 2 ^ 16 * q.groups.toNat + 2 ^ 7 * q.prot.toNat + partStateCode q.st)

/-- R405: PWRSTAT. The power and the temperature are what the sensors give now. -/
def pwrstat (s : State) : Word :=
  let f := s.pf
  BitVec.ofNat 64 (2 ^ 48 * ((Config.sensor s.clk).toNat / 2 ^ 8) + 2 ^ 40 * hottest s + 2 ^ 9 * f.trip2.toNat + 2 ^ 8 * f.trip1.toNat +
    2 ^ 4 * f.effect.toNat + f.command.toNat)

/-- R392: the word that BAR0 of the PF holds at a multiple of 8. What is write-only or not listed reads zero. -/
def pfReg (s : State) (o : Nat) : Word :=
  let f := s.pf
  if o = 0 then pfid s
  else if o = 0x08 then f.admbase
  else if o = 0x10 then f.admhead ++ f.admtail
  else if o = 0x18 then f.walltime
  else if o = 0x20 then f.command.setWidth 64
  else if o = 0x28 then pwrstat s
  else if o = 0x40 then BitVec.ofNat 64 (leNat (s.load (devAddr updstatAddr) 8))
  else if o = 0x48 then f.logbase
  else if o = 0x50 then f.loghead ++ f.logtail
  else if o = 0x58 then f.loglost.setWidth 64
  else if o = 0x60 then f.usebase
  else if o = 0x68 then f.usehead ++ f.usetail
  else if 0x80 ≤ o ∧ o < 0xC0 then f.sercnt[ix 8 ((o - 0x80) / 8)]
  else if 0x100 ≤ o ∧ o < 0x180 then pstate s (ix 16 ((o - 0x100) / 8))
  else if 0x2000 ≤ o ∧ o < 0x2080 then (f.msix[ix 8 ((o - 0x2000) / 16)]).extractLsb' (8 * (o % 16)) 64
  else if o = 0x3000 then f.pba.setWidth 64
  else 0

/-- R281, R392, R393: a read of BAR0 of the PF. One that is refused returns all ones, and one of PFID clears its REGERR. (DEDUCED: log 31.) -/
def pfRead (s : State) (o n : Nat) : State :=
  if !barAccepts o n then answerHost (pfRefuse s) (List.replicate n (BitVec.allOnes 8))
  else
    let s' := answerHost s (barBytes (pfReg s (o / 8 * 8)) o n)
    if o / 8 = 0 then modPf s' fun f => { f with regerr := false } else s'

/-- R281: a read of BAR0 of a VF, or of the PF, of any size. -/
def barRead (s : State) (fn : Option (Fin 16)) (o n : Nat) : State :=
  match fn with
  | some p => vfRead s p o n
  | none => pfRead s o n

/-- R281: a write of BAR0 of a VF, or of the PF, of any size. -/
def barWrite (s : State) (fn : Option (Fin 16)) (o n : Nat) (x : Word) : State :=
  match fn with
  | some p => if barAccepts o n then vfWrite s p o (n == 8) x else vfRefuse s p
  | none => if barAccepts o n then pfWrite s o (n == 8) x else pfRefuse s

/-- REG_WRITE (R281): a write of a register of a VF, or of the PF. -/
def execRegWrite (vf : Option (Fin 16)) (offset : BitVec 16) (wide : Bool) (value : BitVec 64) (s : State) : Out :=
  .next (match vf with
    | some p => vfWrite s p offset.toNat wide value
    | none => pfWrite s offset.toNat wide value)

/-- R392: whether a write of the PF's BAR2 is dropped: it lands in the ACTIVE slot, or a trial runs. -/
def imageWriteDropped (s : State) (slot : Bool) : Bool := s.hub.images.trial || slot == s.hub.images.active

/-- R392: a read of the PF's BAR2, which maps the image slots. What lies beyond them reads all ones. (DESIGN CHOICE: log 32.) -/
def pfBar2Read (s : State) (o n : Nat) : State :=
  answerHost s (if 2 ^ 21 < o + n then List.replicate n (BitVec.allOnes 8) else s.load (imageAddr false o) n)

/-- PF_BAR2_WRITE (R383, R392): the bytes of an image slot, whose VERIFIED bit is cleared. -/
def execPfBar2Write (offset : BitVec 21) (size : MemSize) (value : BitVec 64) (s : State) : Out :=
  let n := memBytes size
  let first := decide (2 ^ 20 ≤ offset.toNat)
  let last := decide (2 ^ 20 ≤ offset.toNat + n - 1)
  if 2 ^ 21 < offset.toNat + n ∨ imageWriteDropped s first ∨ imageWriteDropped s last then .next s
  else
    let s := s.store (imageAddr false offset.toNat) (leBytes n value.toNat)
    .next (modImages s fun i => (i.setVerified first false).setVerified last false)

end Sys2Proof.Machine
end

