-- ==== Sys2Proof/Machine/Create.lean ====
section
/-! DEFINITION. Creating, destroying and wiping a partition (R395 to R400), and reset (R399). -/

namespace Sys2Proof.Machine

/-! ### The creation descriptor (R395) -/

def cdReserved (d : List Byte) : Bool := fieldAt d 104 24 == 0 && fieldAt d 0 43 == 0 && byteAt d 43 % 128 == 0
def cdPolicy (d : List Byte) : Nat := fieldAt d 96 8
def cdPolLen (d : List Byte) : Nat := fieldAt d 94 2
def cdSaves (d : List Byte) : Nat := fieldAt d 92 2
def cdTokLim (d : List Byte) : Nat := fieldAt d 88 4
def cdHoldLim (d : List Byte) : Nat := fieldAt d 84 4
def cdLeases (d : List Byte) : Nat := fieldAt d 76 8
def cdNLease (d : List Byte) : Nat := fieldAt d 74 2
def cdExport (d : List Byte) : Nat := fieldAt d 72 2
def cdMap (d : List Byte) : Nat := fieldAt d 64 8
def cdNMap (d : List Byte) : Nat := fieldAt d 60 4
def cdRegions (d : List Byte) (die : Fin 4) : Nat := fieldAt d (52 + 2 * die.val) 2
def cdGroups (d : List Byte) : BitVec 16 := BitVec.ofNat 16 (fieldAt d 50 2)
def cdFdid (d : List Byte) : BitVec 16 := BitVec.ofNat 16 (fieldAt d 48 2)
def cdMeterInt (d : List Byte) : Nat := fieldAt d 44 4
def cdProt (d : List Byte) : Bool := 128 ≤ byteAt d 43

/-- The groups of a bitmap, in ascending order. -/
def groupList (g : BitVec 16) : List (Fin 16) := (List.finRange 16).filter fun i => g.getLsbD i.val

/-- R395: the checks of a descriptor. (DEDUCED: log 40.) -/
def cdOk (iova : Nat) (d : List Byte) : Bool :=
  let groups := (groupList (cdGroups d)).length
  iova % 64 == 0 && cdReserved d && decide (1 ≤ groups) &&
    (if cdPolicy d = 0 then cdPolLen d == 0 else decide (1 ≤ cdPolLen d) && decide (cdPolLen d ≤ 256)) &&
    decide (32 * groups ≤ cdSaves d) && decide (cdSaves d ≤ 4096) && decide (cdNLease d ≤ 255) && decide (cdExport d ≤ 4096) &&
    (cdProt d || cdExport d == 0) && decide (1 ≤ cdNMap d) && decide (cdNMap d ≤ 4096)

/-- R395: the entries of `n` bytes of a list in host memory. -/
def hostEntries (s : State) (iova n count : Nat) : List (List Byte) :=
  (List.range count).map fun i => s.load (hostAddr ((iova + n * i) % 2 ^ 64)) n

/-! ### Map entries (R395, R396) -/

/-- R395: the fields of a map entry. -/
def meVa (e : BitVec 128) : Word := e.setWidth 64
def meCount (e : BitVec 128) : Nat := (e.extractLsb' 64 24).toNat
def meWr (e : BitVec 128) : Bool := e.getLsbD 88
def meCode (e : BitVec 128) : Bool := e.getLsbD 89
def meG1 (e : BitVec 128) : Bool := e.getLsbD 90

/-- Where a map entry lies in its die's virtual space. -/
def meRange (e : BitVec 128) : Nat × Nat := (offsetOf (meVa e), meCount e * 2 ^ 21)

/-- R395: the checks of one map entry. -/
def meOk (s : State) (e : BitVec 128) : Bool :=
  e.toNat / 2 ^ 91 == 0 && (meVa e).getLsbD 63 && (meVa e).toNat % 2 ^ 21 == 0 && pkgOf (meVa e) == ownPkg s &&
    decide ((meRange e).1 + (meRange e).2 ≤ 2 ^ 49) && !(meCode e && meWr e)

/-- R396: whether two map entries overlap. -/
def meMeet (a b : BitVec 128) : Bool :=
  dieOfVa (meVa a) == dieOfVa (meVa b) && rangesMeet (meRange a).1 (meRange a).2 (meRange b).1 (meRange b).2

/-- R396: whether no two entries of a list overlap. -/
def mapsApart : List (BitVec 128) → Bool
  | [] => true
  | e :: rest => rest.all (fun f => !meMeet e f) && mapsApart rest

/-- A page of a table under construction: offset in the die's virtual space, size, and leaf entry. -/
structure NewLeaf where
  off : Nat
  big : Bool
  entry : Nat
deriving DecidableEq, Repr

/-- R306: a leaf entry. -/
def leafBits (pa : Nat) (wr code : Bool) : Nat :=
  2 ^ 63 + 2 ^ 62 + 2 ^ 61 + 2 ^ 60 + 2 ^ 59 * wr.toNat + 2 ^ 58 * code.toNat + pa

/-- R306: a non-leaf entry. -/
def tableBits (pa : Nat) : Nat := 2 ^ 63 + 2 ^ 61 + 2 ^ 60 + 2 ^ 59 + pa

/-- R396: whether the next 512 regions make a 1 GiB page: a run that starts at a multiple of 1 GiB. -/
def bigRun (regs : List Nat) : Bool :=
  match regs with
  | r :: _ => r % 512 == 0 && regs.take 512 == (List.range 512).map (r + ·)
  | [] => false

/-- R396: the leaves of a range over its regions. -/
def leavesOver (g1 wr code : Bool) : Nat → Nat → List Nat → List NewLeaf
  | 0, _, _ => []
  | _ + 1, _, [] => []
  | n + 1, off, r :: rest =>
    if g1 && off % 2 ^ 30 == 0 && bigRun (r :: rest) then
      ⟨off, true, leafBits (r * 2 ^ 21) wr code⟩ :: leavesOver g1 wr code n (off + 2 ^ 30) (rest.drop 511)
    else ⟨off, false, leafBits (r * 2 ^ 21) wr code⟩ :: leavesOver g1 wr code n (off + 2 ^ 21) rest

/-- R396: the leaves of a die: its entries take its tenant regions in list order. -/
def dieLeaves : List (BitVec 128) → List Nat → List NewLeaf
  | [], _ => []
  | e :: rest, regs =>
    leavesOver (meG1 e) (meWr e) (meCode e) (meCount e) (meRange e).1 (regs.take (meCount e)) ++ dieLeaves rest (regs.drop (meCount e))

/-- The map entries of a die. -/
def mapsOf (maps : List (BitVec 128)) (d : Fin 4) : List (BitVec 128) := maps.filter fun e => dieOfVa (meVa e) == d

/-! ### Page tables (R304 to R306) -/

/-- The tables that a die's leaves need: the level 2 and the level 1 tables by what they map. -/
def level2s (l : List NewLeaf) : List Nat := (l.map fun x => x.off / 2 ^ 39).eraseDups
def level1s (l : List NewLeaf) : List Nat := ((l.filter (!·.big)).map fun x => x.off / 2 ^ 30).eraseDups

/-- R305: how many bytes a die's tables take: level 3, then level 2, then level 1. -/
def tableSize (l : List NewLeaf) : Nat := if l.isEmpty then 0 else 8192 + 4096 * ((level2s l).length + (level1s l).length)

/-- The physical address of a byte of the tables, which lie in regions that need not follow each other. -/
def tableAt (regs : List Nat) (o : Nat) : Nat := regs.getD (o / 2 ^ 21) 0 * 2 ^ 21 + o % 2 ^ 21

/-- Where the table of a key lies. -/
def level2At (l : List NewLeaf) (regs : List Nat) (k : Nat) : Nat := tableAt regs (8192 + 4096 * (level2s l).idxOf k)
def level1At (l : List NewLeaf) (regs : List Nat) (k : Nat) : Nat :=
  tableAt regs (8192 + 4096 * ((level2s l).length + (level1s l).idxOf k))

/-- R305, R306: the entries of a die's tables: physical address and value. -/
def tableEntries (l : List NewLeaf) (regs : List Nat) : List (Nat × Nat) :=
  (level2s l).map (fun k => (tableAt regs (8 * k), tableBits (level2At l regs k))) ++
  (level1s l).map (fun k => (level2At l regs (k / 512) + 8 * (k % 512), tableBits (level1At l regs k))) ++
  l.map (fun x =>
    if x.big then (level2At l regs (x.off / 2 ^ 39) + 8 * (x.off / 2 ^ 30 % 512), x.entry)
    else (level1At l regs (x.off / 2 ^ 30) + 8 * (x.off / 2 ^ 21 % 512), x.entry))

/-- R304, R396: a die's tables are written and its root set. -/
def writeTables (s : State) (p : Fin 16) (d : Fin 4) (l : List NewLeaf) (regs : List Nat) : State :=
  if l.isEmpty then s
  else
    let s := (tableEntries l regs).foldl (fun s (a, x) => devWrite s (hbmAddr d a) (leBytes 8 x)) s
    let die := s.dies[d]
    s.putDie d { die with roots := vput die.roots p (BitVec.ofNat 64 (tableAt regs 0 + 1)) }

/-- The regions of a partition on a die, by their use, in ascending order. -/
def regionsOf (s : State) (p : Fin 16) (d : Fin 4) (u : RegionUse) : List Nat :=
  ((s.dies[d].regions.filter fun r => r.part == p && r.use == u).map (·.num)).mergeSort fun a b => decide (a ≤ b)

/-- R347, R395: the leaves of the export window on its die. -/
def exportLeaves (s : State) (p : Fin 16) (d : Fin 4) : List NewLeaf :=
  let regs := regionsOf s p d .exportWindow
  leavesOver false true false regs.length (offsetOf s.parts[p].exportLo) regs

/-- Every leaf of a partition on a die. -/
def allLeaves (s : State) (p : Fin 16) (d : Fin 4) : List NewLeaf :=
  dieLeaves (mapsOf s.aux[p].maps d) (regionsOf s p d .tenant) ++ exportLeaves s p d

/-- R396 step 3: the page tables of a partition. They take the last of its reserved regions on each die. (DESIGN CHOICE: log 41.) -/
def buildTables (s : State) (p : Fin 16) : State :=
  (List.finRange 4).foldl (fun s d =>
    let l := allLeaves s p d
    let regs := regionsOf s p d .reserved
    writeTables s p d l (regs.drop (regs.length - (tableSize l + 2 ^ 21 - 1) / 2 ^ 21))) s

/-! ### Claiming (R396 step 2) -/

/-- R396: the scrubbed regions of a die that are free, in ascending order. -/
def freeRegions (s : State) (d : Fin 4) : List Nat :=
  let die := s.dies[d]
  (List.range 65536).filter fun r =>
    decide (r % 32768 < 28672) && !(die.regions.any (·.num == r)) && !die.unscrubbed.contains r && !die.badRegions.contains r

/-- R393, R396: whether a cluster group is free and scrubbed. -/
def groupFree (s : State) (g : Fin 16) : Bool := s.hub.owner[g].isNone && !s.pf.scrubbing.getLsbD g.val

/-- The die that holds a new partition's reserved memory other than its page tables: that of its first group. -/
def homeDie (groups : BitVec 16) : Fin 4 := match groupList groups with
  | g :: _ => ix 4 (g.val / 4)
  | [] => 0

/-- R260, R321, R324: the reserved regions of a new partition before its page tables: the fault buffer, the save slots, and
the overflow area of 256 MiB. (DESIGN CHOICE: log 41.) -/
def reservedCount (d : List Byte) : Nat := 1 + (cdSaves d + 1) / 2 + 128

/-- How many regions each use takes on a die: tenant, reserved, export window. -/
structure Claim where
  tenant : Nat
  reserved : Nat
  export_ : Nat
deriving DecidableEq, Repr

/-- R396: what a descriptor claims on a die; the page tables are sized by the leaves as its entries could need them. -/
def claimOf (s : State) (d : List Byte) (maps : List (BitVec 128)) (die : Fin 4) : Claim :=
  let home : Bool := die == homeDie (cdGroups d)
  let tenant := cdRegions d die
  let exp := if home then cdExport d else 0
  let free := freeRegions s die
  let l := dieLeaves (mapsOf maps die) (free.take tenant)
  let spread := 4096 * (exp / 512 + 2) * 2
  let tables := if l.isEmpty ∧ exp = 0 then 0 else (8192 + tableSize l + (if exp = 0 then 0 else spread) + 2 ^ 21 - 1) / 2 ^ 21
  ⟨tenant, (if home then reservedCount d else 0) + tables, exp⟩

/-- R396: the regions of a claim, in ascending order: tenant, reserved, export window. None where they are too few. (DESIGN CHOICE: log 41.) -/
def takeRegions (s : State) (p : Fin 16) (die : Fin 4) (c : Claim) : Option (List Region) :=
  let free := freeRegions s die
  if free.length < c.tenant + c.reserved + c.export_ then none
  else
    let reserved := free.drop c.tenant
    some ((free.take c.tenant).map (⟨·, p, .tenant⟩) ++ (reserved.take c.reserved).map (⟨·, p, .reserved⟩) ++
      ((reserved.drop c.reserved).take c.export_).map (⟨·, p, .exportWindow⟩))

/-- R396: the regions of every die are claimed, or none. (DESIGN CHOICE: log 41.) -/
def claimAll (s : State) (p : Fin 16) (d : List Byte) (maps : List (BitVec 128)) : Option State :=
  (List.finRange 4).foldlM (fun t die =>
    (takeRegions s p die (claimOf s d maps die)).map fun l => t.putDie die { t.dies[die] with regions := t.dies[die].regions ++ l }) s

/-! ### Configuring (R396 steps 4 to 8) -/

/-- R313: the place table: the partition's clusters in ascending order. (DESIGN CHOICE: log 41.) -/
def placeTable (groups : BitVec 16) : Vector Word 64 :=
  let l := (groupList groups).flatMap fun g => (List.range 4).map fun i => 4 * g.val + i
  Vector.ofFn fun k : Fin 64 => match l[k.val]? with
    | some c => BitVec.ofNat 64 (2 ^ 63 + c)
    | none => 0

/-- R395: a standing lease. -/
def leaseOf (i : Nat) (e : List Byte) : Lease := ⟨i, BitVec.ofNat 64 (fieldAt e 0 8), fieldAt e 8 5, byteAt e 13 % 2 == 1, none⟩

/-- R347: where the export window lies: the spec gives it no address, so it takes a freely chosen gap. (DESIGN CHOICE: log 35.) -/
def exportPlace (s : State) (maps : List (BitVec 128)) (d : Fin 4) (n : Nat) : Word :=
  let used := ((mapsOf maps d).map meRange).mergeSort fun a b => decide (a.1 ≤ b.1)
  let fits := (gapsFrom 0 (2 ^ 49) used).filter fun g => decide (n ≤ g.2)
  let off := (fits.getD (Config.exportGap s.free % max 1 fits.length) (0, 0)).1
  BitVec.ofNat 64 (2 ^ 63 + (ownPkg s).toNat * 2 ^ 51 + d.val * 2 ^ 49 + off)

/-- R331, R396 step 5: a MEM and an XPORT key in two FREE slots. -/
def installPair (s : State) (p : Fin 16) : Option State :=
  match (List.finRange 64).filter fun i => s.hub.keys[i].st == .free with
  | i :: j :: _ => some (installKey (installKey s i p 0) j p 1)
  | _ => none

/-- R389, R396 step 7: the measurement is reset and extended with the digest of each part of the configuration. (DESIGN CHOICE: log 41.) -/
def measurePart (s : State) (p : Fin 16) : State :=
  let part := s.parts[p]
  let m := s.hub.measures
  let s := { s with hub := { s.hub with measures := { m with part := vput m.part p 0 } } }
  let add (s : State) (bs : List Byte) : State := extendPart s p (leBytes 64 (sha512 bs).toNat)
  let s := add s (part.places.toList.flatMap fun w => leBytes 8 w.toNat)
  let s := add s (part.leases.flatMap fun l => leBytes 8 l.lo.toNat ++ leBytes 5 l.len ++ leBytes 1 l.write.toNat)
  let s := add s (leBytes 8 part.exportLo.toNat ++ leBytes 8 part.exportLen)
  let s := add s (s.aux[p].policy.flatMap fun w => leBytes 2 w.toNat)
  add s (leBytes 1 (tdiCode part.tdi))

/-- R356, R396 step 4: FDMAPp of a new partition. (DEDUCED: log 40.) -/
def joinDomain (s : State) (p : Fin 16) (fdid : BitVec 16) : State :=
  let x : Word := if fdid = 0xFFFF then 0 else BitVec.ofNat 64 (2 ^ 63 + fdid.toNat)
  { s with fabric := { s.fabric with fdmap := vput s.fabric.fdmap p x } }

/-- The flat addresses of the save slots, in the reserved regions of the home die after the fault buffer's. (DESIGN CHOICE: log 41.) -/
def saveList (die : Fin 4) (regs : List Nat) (n : Nat) : List Nat :=
  (List.range n).map fun i => hbmAddr die (regs.getD (1 + i / 2) 0 * 2 ^ 21 + i % 2 * 2 ^ 20)

/-- R13, R396 step 4: a partition with its configuration, no work, and no records. -/
def newPart (s : State) (p : Fin 16) (d : List Byte) (leases : List (List Byte)) (exportLo : Word) : Part :=
  let home := homeDie (cdGroups d)
  let regs := regionsOf s p home .reserved
  let exportLen := cdExport d * 2 ^ 21
  let standing := leases.zipIdx.map fun (e, i) => leaseOf i e
  let standing := if exportLen = 0 then standing else standing ++ [⟨standing.length, exportLo, exportLen, true, none⟩]
  let lim (x : Nat) : BitVec 32 := if x = 0 then 0x00100000 else BitVec.ofNat 32 x
  { Part.zero with
    st := .live, prot := cdProt d, groups := cdGroups d, fdid := cdFdid d, places := placeTable (cdGroups d)
    toklim := lim (cdTokLim d), holdlim := lim (cdHoldLim d), leases := standing, nextLease := standing.length
    exportLo := if exportLen = 0 then 0 else exportLo, exportLen := exportLen
    faultBase := hbmAddr home (regs.getD 0 0 * 2 ^ 21), saves := saveList home regs (cdSaves d) }

/-- R379, R396 step 8: the rest of a partition: its maps, arena and policy, meters at zero, the stream Off. -/
def newAux (s : State) (p : Fin 16) (d : List Byte) (maps : List (BitVec 128)) (policy : List (BitVec 16)) : PartAux :=
  { PartAux.zero with
    maps := maps, policy := policy, arenaLo := Config.arenaLo p.val s.free, arenaLen := Config.arenaLen p.val s.free
    meterInt := BitVec.ofNat 32 (cdMeterInt d), meterDue := s.clk + cdMeterInt d * 2 ^ 24, created := s.clk }

/-- R393: groups leave or join those that are free. -/
def setFree (s : State) (groups : BitVec 16) (on : Bool) : State :=
  modPf s fun f => { f with free := if on then f.free ||| groups else f.free &&& ~~~groups }

/-- R396: the owner of each group of a bitmap. -/
def setOwner (s : State) (groups : BitVec 16) (o : Option (Fin 16)) : State :=
  { s with hub := { s.hub with owner := (groupList groups).foldl (fun v g => vput v g o) s.hub.owner } }

/-- R396: CREATE's steps after its checks. The STATUS of the first that fails, or the new state. -/
def createPart (s : State) (p : Fin 16) (d : List Byte) : Except Nat State :=
  let maps := (hostEntries s (cdMap d) 16 (cdNMap d)).map fun e => BitVec.ofNat 128 (leNat e)
  let leases := hostEntries s (cdLeases d) 16 (cdNLease d)
  let policy := (hostEntries s (cdPolicy d) 2 (cdPolLen d)).map fun e => BitVec.ofNat 16 (leNat e)
  let mapped (die : Fin 4) : Nat := (mapsOf maps die).foldl (fun n e => n + meCount e) 0
  if !(groupList (cdGroups d)).all (groupFree s) then .error 4
  else match claimAll s p d maps with
  | none => .error 4
  | some t =>
    if !(maps.all (meOk s) && mapsApart maps && (List.finRange 4).all fun die => decide (mapped die ≤ cdRegions d die)) then .error 3
    else if cdFdid d ≠ 0xFFFF ∧ fdidClash s p (cdFdid d) then .error 4
    else
      let exportLo := exportPlace s maps (homeDie (cdGroups d)) (cdExport d * 2 ^ 21)
      let t := setOwner (setFree t (cdGroups d) false) (cdGroups d) (some p)
      let t := t.putPart p (newPart t p d leases exportLo)
      let t := t.putAux p (newAux s p d maps policy)
      let t := joinDomain (buildTables { t with free := s.free + 1 } p) p (cdFdid d)
      match (if cdProt d then installPair t p else some t) with
      | none => .error 4
      | some t => if cdPolicy d ≠ 0 ∧ !policyOk policy then .error 3 else .ok (measurePart t p)

/-- R393: the groups that the boot ROM has scrubbed and nobody holds read as free before the first CREATE. (DEDUCED: log 40.) -/
def markFree (s : State) : State :=
  setFree s (BitVec.ofNat 16 ((List.finRange 16).foldl (fun n g => if groupFree s g then n + 2 ^ g.val else n) 0)) true

/-- R400: whether the life-cycle state refuses a CREATE. (DEDUCED: log 40.) -/
def cycleRefuses (prot : Bool) : Bool :=
  Config.lifeCycle == 3 || (prot && (Config.lifeCycle == 0 || Config.lifeCycle == 2))

/-- CREATE (R396). (DEDUCED: log 40.) -/
def execCreate (s : State) : Out :=
  adminCommand s 0x10 true fun p iova =>
    let d := s.load (hostAddr iova) 128
    if s.parts[p].st ≠ .free ∨ cycleRefuses (cdProt d) then adminDone s 2
    else if !cdOk iova d then adminDone s 3
    else
      let s := markFree s
      match createPart s p d with
      | .error k => adminDone s k
      | .ok t =>
        let clean (x : Die) : Die := { x with absent := x.absent.filter (·.1 != p), evicted := x.evicted.filter (·.1 != p) }
        adminDone { t with dies := t.dies.map clean } 1

/-! ### DESTROY and WIPE (R398) -/

/-- R398 step 2: the unit of a core is cancelled, and the core scrubbed. -/
def wipeCore (s : State) (c : Fin 512) : State :=
  let s := s.putCore c { clearUnit s.cores[c] with st := .none }
  settleHold (scrubCore s c) c

/-- R398 step 3: a die forgets every translation of a partition. -/
def forgetDie (p : Fin 16) (d : Die) : Die :=
  let keep (t : TlbEnt) : Bool := t.part != p
  { d with
    roots := vput d.roots p 0
    slices := d.slices.map fun sl =>
      { sl with l1 := sl.l1.filter keep, l2 := sl.l2.filter keep, pins := sl.pins.filter fun e => e.part != p }
    absent := d.absent.filter (·.1 != p), evicted := d.evicted.filter (·.1 != p) }

/-- R398 step 3: every region of a partition is scrubbed. -/
def scrubPart (s : State) (p : Fin 16) : State :=
  (List.finRange 4).foldl (fun s d => ((s.dies[d].regions.filter fun r => r.part == p).map (·.num)).foldl (fun s r => scrubRegion s d r) s) s

/-- R364: a partition's held stores are dropped. -/
def dropHolds (s : State) (p : Fin 16) : State :=
  { s with fabric := { s.fabric with hold := s.fabric.hold.map fun h => if h.any (·.part == p) then none else h } }

/-- R398 steps 1 to 3. (DESIGN CHOICE: log 44.) -/
def clearPart (s : State) (p : Fin 16) : State :=
  let s := destroyKeys (unlockTdi (streamReset s p) p) p
  let cores := (List.finRange 512).filter fun c => s.partOf c == some p
  let clusters := (List.finRange 64).filter fun k => s.partOfCluster k == some p
  let s := cores.foldl wipeCore s
  let w := s.aux[p].window
  let s := s.putAux p { s.aux[p] with window := { Window.zero with nextSerial := w.nextSerial, nextLaunch := w.nextLaunch, nextUid := w.nextUid } }
  let s := clusters.foldl (fun s k =>
    (scrubCluster s k).putCluster k { s.clusters[k] with shard := [], overflow := [], leaseCache := [], lines := [] }) s
  let s := dropHolds { s with dies := s.dies.map (forgetDie p) } p
  let part := s.parts[p]
  let s := scrubPart s p
  s.putPart p { part with
    tdi := .unlocked, wiped := true, secret := none, bound := none, head := 0, tail := 0, heldFront := none, heldWindow := none, heldHub := []
    leases := part.leases.filter (·.holder.isNone), usedSlots := [], saved := [] }

/-- R393: groups are being scrubbed, or no longer. (DEDUCED: log 40.) -/
def setScrubbing (s : State) (groups : BitVec 16) (on : Bool) : State :=
  modPf s fun f => { f with scrubbing := if on then f.scrubbing ||| groups else f.scrubbing &&& ~~~groups }

/-- R398: what DESTROY does once its record has been cut. (DEDUCED: log 40.) -/
def freePart (s : State) (p : Fin 16) : State :=
  let groups := s.parts[p].groups
  let unclaim (d : Die) : Die := { d with regions := d.regions.filter fun r => r.part != p }
  let s := { s with dies := s.dies.map unclaim }
  let s := { s with fabric := { s.fabric with fdmap := vput s.fabric.fdmap p 0 } }
  let s := { s with hub := { s.hub with streams := s.hub.streams.filter fun x => x.part != p } }
  let s := { s with fabric := { s.fabric with flying := s.fabric.flying.filter fun x => x.1 != p } }
  let s := setOwner (setFree (setScrubbing s groups false) groups true) groups none
  (s.putPart p Part.zero).putAux p PartAux.zero

/-- DESTROY (R398). With the usage ring full its record is pending, and the partition stays DESTROYING until it is cut. (DEDUCED: log 40.) -/
def execDestroy (s : State) : Out :=
  adminCommand s 0x11 false fun p _ =>
    match s.parts[p].st with
    | .live =>
      let s := cutUse (clearPart s p) p 3
      if s.aux[p].usePend.isSome then
        .next (setScrubbing (s.putPart p { s.parts[p] with st := .destroying }) s.parts[p].groups true)
      else adminDone (freePart s p) 1
    | .destroying => if s.aux[p].usePend.isSome then .next s else adminDone (freePart s p) 1
    | _ => adminDone s 2

/-- WIPE (R398). The page tables are rebuilt, and fresh keys are installed. (DEDUCED: log 40.) -/
def execWipe (s : State) : Out :=
  adminCommand s 0x12 false fun p _ =>
    if s.parts[p].st ≠ .live then adminDone s 2
    else
      let s := buildTables (cutUse (clearPart s p) p 4) p
      adminDone (if s.parts[p].prot then (installPair s p).getD s else s) 1

/-! ### Reset (R399) -/

/-- R383, R399: what a reset keeps: the image slots, which slot is ACTIVE, and CSVN; and what lies outside the package. (DEDUCED: log 42.) -/
def kept (s : State) : List Host.Cell :=
  s.mem.filter fun c => decide (2 ^ 44 ≤ c.1)

/-- R399: the hub after a reset: fresh tree and system keys, which no earlier key equals. (DEDUCED: log 42.) -/
def resetHub (s : State) : Hub :=
  let h := s.hub
  let i := { Images.reset with
    active := h.images.active, csvn := h.images.csvn
    verified0 := !h.images.active && imgHeaderOk s false && imgSigOk s false
    verified1 := h.images.active && imgHeaderOk s true && imgSigOk s true }
  { Hub.reset with
    nextKey := h.nextKey + 9, sysKey := h.nextKey, treeKeys := Vector.ofFn fun i => h.nextKey + 1 + i.val, drawn := h.drawn + 1, bootid := Config.random h.drawn, images := i
    measures := { Hub.reset.measures with image := imageDigest s h.images.active }
    hostOut := h.hostOut, answers := h.answers }

/-- RESET (R399): the boot ROM has scrubbed every cluster and core, and firmware starts at the ACTIVE image. (DEDUCED: log 42.) -/
def execReset (s : State) : Out :=
  let r := State.reset
  let key : BlockTag := ⟨0x1FC0000 * 64, s.hub.nextKey, 0, 0, 1⟩
  let die0 := { Die.reset with tags := [key] }
  let pf := { r.pf with regint := s.pf.regint }
  let t := { r with
    hub := resetHub s, mem := r.mem ++ kept s, dies := vput r.dies 0 die0, pf := pf
    turn := s.turn, inbox := s.inbox, serial := s.serial, tick := s.tick, clk := s.clk, free := s.free }
  .next ((List.finRange 512).foldl (fun t c => bootFw t c 0) t)

end Sys2Proof.Machine
end

