-- ==== Sys2Proof/Machine/VMem.lean ====
section
/-! DEFINITION. The vector memory words (R116 to R123), VAMO (R130) and VQST (R131). -/

namespace Sys2Proof.Machine

/-! ### Contiguous words (R117) -/

/-- R117: a contiguous vector access is checked over its active bytes; with none it does nothing. -/
def contiguous (s : State) (m : Mask) (ea : Word) (i : Intent) (f : Nat → Nat → Loc → Out) : Out :=
  match maskSpan m with
  | none => .next s
  | some (lo, n) =>
    if ea.toNat % 4 ≠ 0 then raiseAt s .misalign ea
    else onRes (checkAddr s (ea + BitVec.ofNat 64 lo) n i) s (ea + BitVec.ofNat 64 lo) (f lo n)

/-- VLD (R117). The B field is not used. -/
def execVld (h : Head) (m : BitVec 3) (d : BitVec 5) (a : BitVec 5) (_ : BitVec 5) (s : State) : Out :=
  guarded h s fun s =>
    contiguous s (s.rm m) (s.rs a) .read fun lo n l =>
      if captureFull s || recordMeets s l n then stall s
      else .next (pushEnt s { newEnt s (.vld d) true false (s.rs a) (maskedPieces l lo n (s.rm m)) with mask := s.rm m })

/-- A contiguous vector store joins the store queue. -/
def issueVst (s : State) (m : Mask) (ea : Word) (v : Vec) (after : State → State) : Out :=
  contiguous s m ea .write fun lo n l =>
    if guardStalls s l n || recordMeets s l n then stall s
    else
      let e := { newEnt s .vst false true ea (maskedPieces l lo n m) with mask := m, data := vecBytes v }
      .next (after (pushEnt s e))

/-- VST (R117). The B field is not used. -/
def execVst (h : Head) (m : BitVec 3) (d : BitVec 5) (a : BitVec 5) (_ : BitVec 5) (s : State) : Out :=
  guarded h s fun s => issueVst s (s.rm m) (s.rs a) (s.rv d) id

/-! ### Strided, gather and scatter words (R118, R119) -/

/-- Whether an active element of an entry meets a range that `f` names. -/
def anyElem (s : State) (e : QEnt) (write : Bool) (f : Loc → Bool) : Bool :=
  (List.range 64).any fun i => e.mask.getLsbD (4 * i) &&
    match checkElem s s.core s.fw (elemAddr e i) 4 write with
    | .ok l => f l
    | .error _ => false

/-- R118: a load by elements joins the load queue; its elements are checked as they perform. -/
def issueElemLoad (s : State) (d : BitVec 5) (m : Mask) (base : Word) (offs : Bool) (stride : Word) (v : Vec) : Out :=
  let e := { newEnt s (.vldElems d) true false base [] with
    opa := (if offs then 1 else 0), opb := stride, vec := v, mask := m }
  if captureFull s || anyElem s e false (fun l => recordMeets s l 4) then stall s else .next (pushEnt s e)

/-- R118: a store by elements joins the store queue. -/
def issueElemStore (s : State) (m : Mask) (base : Word) (offs : Bool) (stride : Word) (v data : Vec) : Out :=
  let e := { newEnt s .vstElems false true base [] with
    opa := (if offs then 1 else 0), opb := stride, vec := v, mask := m, data := vecBytes data }
  if captureFull s || anyElem s e true (fun l => guardStalls s l 4 || recordMeets s l 4) then stall s else .next (pushEnt s e)

/-- VLDS (R118). -/
def execVlds (h : Head) (m : BitVec 3) (d : BitVec 5) (a : BitVec 5) (b : BitVec 5) (s : State) : Out :=
  guarded h s fun s => issueElemLoad s d (s.rm m) (s.rs a) false (s.rs b) 0

/-- VGATHER (R118). -/
def execVgather (h : Head) (m : BitVec 3) (d : BitVec 5) (a : BitVec 5) (b : BitVec 5) (s : State) : Out :=
  guarded h s fun s => issueElemLoad s d (s.rm m) (s.rs a) true 0 (s.rv b)

/-- VSTS (R118). -/
def execVsts (h : Head) (m : BitVec 3) (d : BitVec 5) (a : BitVec 5) (b : BitVec 5) (s : State) : Out :=
  guarded h s fun s => issueElemStore s (s.rm m) (s.rs a) false (s.rs b) 0 (s.rv d)

/-- VSCATTER (R118). -/
def execVscatter (h : Head) (m : BitVec 3) (d : BitVec 5) (a : BitVec 5) (b : BitVec 5) (s : State) : Out :=
  guarded h s fun s => issueElemStore s (s.rm m) (s.rs a) true 0 (s.rv b) (s.rv d)

/-! ### Streams (R120 to R123) -/

/-- A stream register of the acting context. -/
def State.stream (s : State) (q : BitVec 2) : Option StreamReg := s.ctx.streams[q.toNat]'q.isLt

/-- A stream register of the acting context is written. -/
def State.setStream (s : State) (q : BitVec 2) (x : Option StreamReg) : State :=
  s.setCtx { s.ctx with streams := s.ctx.streams.set q.toNat x q.isLt }

/-- R122: position k of a stream has been used; the last one also unbinds. -/
def usePos (s : State) (q : BitVec 2) (sr : StreamReg) : State :=
  if sr.pos + 1 = qTotal sr.desc then releaseStream s s.core s.fw q
  else s.setStream q (some { sr with pos := sr.pos + 1, got := sr.got.filter fun g => g.1 != sr.pos })

/-- VLDQ (R122, R123): the next position of a load stream; the read four positions on is issued. -/
def execVldq (h : Head) (m : BitVec 3) (d : BitVec 5) (q : BitVec 2) (s : State) : Out :=
  guarded h s fun s =>
    match s.stream q with
    | none => raise s .illegalOp
    | some sr =>
      if qStore sr.desc then raise s .illegalOp
      else match sr.got.lookup sr.pos with
      | some (.inr c) => raiseAt s c (qAddr sr.desc sr.pos)
      | some (.inl bs) =>
        let more := decide (sr.pos + 4 < qTotal sr.desc)
        if more && !readFits s s.core s.fw sr.desc (sr.pos + 4) then stall s
        else
          let s := usePos s q sr
          let s := if more then issueRead s s.core s.fw q sr.desc (sr.pos + 4) else s
          .next (s.wrV d (mergeBytes (s.rm m) (s.rv d) bs))
      | none =>
        if readInFlight s.ctx q sr.pos || !readFits s s.core s.fw sr.desc sr.pos then stall s
        else stall (issueRead s s.core s.fw q sr.desc sr.pos)

/-- VSTQ (R122): one contiguous store at the next position of a store stream. -/
def execVstq (h : Head) (m : BitVec 3) (d : BitVec 5) (q : BitVec 2) (s : State) : Out :=
  guarded h s fun s =>
    match s.stream q with
    | none => raise s .illegalOp
    | some sr =>
      if !qStore sr.desc then raise s .illegalOp
      else match maskSpan (s.rm m) with
      | none => .next (usePos s q sr)
      | some _ => issueVst s (s.rm m) (qAddr sr.desc sr.pos) (s.rv d) fun s => usePos s q sr

/-- R121: steps 3 to 8 of VBIND's checks. -/
def bindFault (s : State) (d : List Byte) : Option Cause :=
  let (lo, hi) := qSpan d
  if !qAligned d then some .misalign
  else if !qShapeOk d then some .copyShape
  else if lo < 0 ∨ 2 ^ 64 ≤ hi then some .straddle
  else if crossesRows lo.toNat (hi + 1 - lo).toNat then some .straddle
  else match localCheck s s.core s.fw lo.toNat 1 (if qStore d then .write else .read) with
  | .error c => some c
  | .ok _ => none

/-- The first reads of a load stream, if the guard can take them all. -/
def firstReads (s : State) (q : BitVec 2) (d : List Byte) : Option State :=
  if qStore d then some s
  else (List.range (min 4 (qTotal d))).foldl (fun t k => match t with
    | some t => if readFits t t.core t.fw d k then some (issueRead t t.core t.fw q d k) else none
    | none => none) (some s)

/-- VBIND (R121, R122, R114). A fault that the descriptor's contents raise names the descriptor's address. (DESIGN CHOICE: log 44.) -/
def execVbind (h : Head) (d : BitVec 2) (a : BitVec 5) (s : State) : Out :=
  guarded h s fun s =>
    let at_ := (s.rs a).toNat
    if at_ % 32 ≠ 0 then raiseAt s .misalign (s.rs a)
    else if rowOf at_ ≠ .general then raiseAt s .unmapped (s.rs a)
    else if storesMeet s at_ 32 || recordMeets s (.tm at_) 32 then stall s
    else
      let desc := s.load (tmAddr s.core at_) 32
      match bindFault s desc with
      | some c => raiseAt s c (s.rs a)
      | none =>
        let t := (releaseStream s s.core s.fw d).setStream d (some ⟨desc, 0, []⟩)
        match firstReads t d desc with
        | some t => .next t
        | none => stall s

/-- VUNBIND (R121). -/
def execVunbind (h : Head) (d : BitVec 2) (s : State) : Out :=
  guarded h s fun s => .next (releaseStream s s.core s.fw d)

/-- R122: the read of a stream position at the head of the load queue performs its next part. -/
def execStreamRead (core : Fin 512) (fw : Bool) (s : State) : Out :=
  match headOf s core fw (·.ld) with
  | some e => match e.kind with
    | .streamRead _ _ => .next (turnEnt s core fw e true)
    | _ => .next s
  | none => .next s

/-! ### VAMO (R130) and VQST (R131) -/

/-- R116, R130: a VAMO joins the store queue. Its address is checked over its active elements, and one that has none does nothing but
for its alignment check. (DESIGN CHOICE: log 44.) -/
def issueVamo (b16 : Bool) (h : Head) (m : BitVec 3) (d a : BitVec 5) (s : State) : Out :=
  guarded h s fun s =>
    let ea := s.rs a
    let mask := s.rm m
    let w := if b16 then 2 else 4
    let on := (List.range (128 / w)).filter fun i => mask.getLsbD (w * i)
    aligned s ea 128 (match on.head?, on.getLast? with
      | some i, some j =>
        let lo := w * i
        let n := w * (j + 1 - i)
        let at_ := ea + BitVec.ofNat 64 lo
        onRes (checkAddr s at_ n .write) s at_ fun l =>
          if captureFull s || guardStalls s l n || recordMeets s l n then stall s
          else
            let line := (relocate s s.core ea).getD l
            .next (pushEnt s { newEnt s (.vamo b16) false true ea [⟨line, 0, 128, none⟩] with vec := s.rv d, mask := mask })
      | _, _ => .next s)

/-- VAMO_ADD_F32 (R130). -/
def execVamoAddF32 (h : Head) (m : BitVec 3) (d : BitVec 5) (a : BitVec 5) (s : State) : Out := issueVamo false h m d a s

/-- VAMO_ADD_BF16 (R130). -/
def execVamoAddBf16 (h : Head) (m : BitVec 3) (d : BitVec 5) (a : BitVec 5) (s : State) : Out := issueVamo true h m d a s

/-- VQST (R131). Its alignment and its address are checked whatever its mask. (DESIGN CHOICE: log 44.) -/
def execVqst (h : Head) (m : BitVec 3) (d : BitVec 5) (a : BitVec 5) (b : BitVec 5) (t : Bool) (o : Bool) (s : State) : Out :=
  guarded h s fun s =>
    let ea := s.rs a
    aligned s ea 64
      (match maskSpan (s.rm m) with
       | none => if ea.getLsbD 63 then emptyQst s d else raiseAt s .unmapped ea
       | some (lo, n) => qstChecks s ea lo n
         (issueQst s d (carriedTokens t (s.rs d)) o ea lo n (s.rm m) (vecBytes (s.rv b)) 0))

end Sys2Proof.Machine
end

