-- ==== Sys2Proof/Machine/Sched.lean ====
section
/-! DEFINITION. What may happen by itself, and whose turn the next step is (R4). The choice is free: `Config.pick` names it
by a number, and every agent is among the choices. An event that is not due leaves the state as it is. -/

namespace Sys2Proof.Machine

/-- An event happens: the meaning of its row. -/
def runEvent (e : Event) (s : State) : Out :=
  match e with
  | .mwaitReread core fw => execMwaitReread core fw s
  | .streamRead core fw => execStreamRead core fw s
  | .mmaTileFetch core fw => execMmaTileFetch core fw s
  | .mmaAccumulate core fw => execMmaAccumulate core fw s
  | .nestEmit core fw => execNestEmit core fw s
  | .deferredFault core fw => execDeferredFault core fw s
  | .loadReturn core fw => execLoadReturn core fw s
  | .storePerform core fw => execStorePerform core fw s
  | .leaseLookup core fw => execLeaseLookup core fw s
  | .translate core fw => execTranslate core fw s
  | .counterWrite core fw => execCounterWrite core fw s
  | .quantBlockWritten core fw => execQuantBlockWritten core fw s
  | .copyBox core slot => execCopyBox core slot s
  | .copyStamp core slot => execCopyStamp core slot s
  | .resumeRecord core => execResumeRecord core s
  | .takeTrap core => execTakeTrap core s
  | .tokenExpire core => execTokenExpire core s
  | .watchdog core => execWatchdog core s
  | .rampWindow core => execRampWindow core s
  | .saveWrite core => execSaveWrite core s
  | .shardWatch cluster idx => execShardWatch cluster idx s
  | .overflowRefill cluster => execOverflowRefill cluster s
  | .bankRequest cluster bank => execBankRequest cluster bank s
  | .atomicEngineRequest cluster => execAtomicEngineRequest cluster s
  | .nodeWriteback die level node => execNodeWriteback die level node s
  | .inval die => execInval die s
  | .invalAll die => execInvalAll die s
  | .evict die => execEvict die s
  | .evictComplete die => execEvictComplete die s
  | .migrate die => execMigrate die s
  | .migrateMove die => execMigrateMove die s
  | .present die => execPresent die s
  | .refuse die => execRefuse die s
  | .keyDrained slot => execKeyDrained slot s
  | .memSweep part => execMemSweep part s
  | .handUnit part => execHandUnit part s
  | .wwaitReread part => execWwaitReread part s
  | .wwaitLimit part => execWwaitLimit part s
  | .wsignalEffect part => execWsignalEffect part s
  | .haltEffect part => execHaltEffect part s
  | .streamFault part => execStreamFault part s
  | .fetchBlock part => execFetchBlock part s
  | .leaseGrant part => execLeaseGrant part s
  | .issueLaunch part => execIssueLaunch part s
  | .retire part => execRetire part s
  | .faultReport part => execFaultReport part s
  | .cancel part => execCancel part s
  | .pick part => execPick part s
  | .pickTimeout part => execPickTimeout part s
  | .sliceExpire part => execSliceExpire part s
  | .entryComplete part => execEntryComplete part s
  | .pickq part => execPickq part s
  | .abandon part => execAbandon part s
  | .save part => execSave part s
  | .restore part => execRestore part s
  | .intervalCut part => execIntervalCut part s
  | .regintBoundary => execRegintBoundary s
  | .create => execCreate s
  | .destroy => execDestroy s
  | .wipe => execWipe s
  | .meter => execMeter s
  | .heartbeatMissed => execHeartbeatMissed s
  | .holdExpire entry => execHoldExpire entry s
  | .escapeRoute idx => execEscapeRoute idx s
  | .inward => execInward s

/-- The event of a number. -/
def eventOf (k r : Nat) : Event :=
  match k with
  | 0 => .mwaitReread (ix 512 r) (r / 512 % 2 == 1)
  | 1 => .streamRead (ix 512 r) (r / 512 % 2 == 1)
  | 2 => .mmaTileFetch (ix 512 r) (r / 512 % 2 == 1)
  | 3 => .mmaAccumulate (ix 512 r) (r / 512 % 2 == 1)
  | 4 => .nestEmit (ix 512 r) (r / 512 % 2 == 1)
  | 5 => .deferredFault (ix 512 r) (r / 512 % 2 == 1)
  | 6 => .loadReturn (ix 512 r) (r / 512 % 2 == 1)
  | 7 => .storePerform (ix 512 r) (r / 512 % 2 == 1)
  | 8 => .leaseLookup (ix 512 r) (r / 512 % 2 == 1)
  | 9 => .translate (ix 512 r) (r / 512 % 2 == 1)
  | 10 => .counterWrite (ix 512 r) (r / 512 % 2 == 1)
  | 11 => .quantBlockWritten (ix 512 r) (r / 512 % 2 == 1)
  | 12 => .copyBox (ix 512 r) (ix 256 (r / 512))
  | 13 => .copyStamp (ix 512 r) (ix 256 (r / 512))
  | 14 => .resumeRecord (ix 512 r)
  | 15 => .takeTrap (ix 512 r)
  | 16 => .tokenExpire (ix 512 r)
  | 17 => .watchdog (ix 512 r)
  | 18 => .rampWindow (ix 512 r)
  | 19 => .saveWrite (ix 512 r)
  | 20 => .shardWatch (ix 64 r) (ix 1024 (r / 64))
  | 21 => .overflowRefill (ix 64 r)
  | 22 => .bankRequest (ix 64 r) (ix 64 (r / 64))
  | 23 => .atomicEngineRequest (ix 64 r)
  | 24 => .nodeWriteback (ix 4 r) (ix 9 (r / 4)) (BitVec.ofNat 25 (r / 36))
  | 25 => .inval (ix 4 r)
  | 26 => .invalAll (ix 4 r)
  | 27 => .evict (ix 4 r)
  | 28 => .evictComplete (ix 4 r)
  | 29 => .migrate (ix 4 r)
  | 30 => .migrateMove (ix 4 r)
  | 31 => .present (ix 4 r)
  | 32 => .refuse (ix 4 r)
  | 33 => .keyDrained (ix 64 r)
  | 34 => .memSweep (ix 16 r)
  | 35 => .handUnit (ix 16 r)
  | 36 => .wwaitReread (ix 16 r)
  | 37 => .wwaitLimit (ix 16 r)
  | 38 => .wsignalEffect (ix 16 r)
  | 39 => .haltEffect (ix 16 r)
  | 40 => .streamFault (ix 16 r)
  | 41 => .fetchBlock (ix 16 r)
  | 42 => .leaseGrant (ix 16 r)
  | 43 => .issueLaunch (ix 16 r)
  | 44 => .retire (ix 16 r)
  | 45 => .faultReport (ix 16 r)
  | 46 => .cancel (ix 16 r)
  | 47 => .pick (ix 16 r)
  | 48 => .pickTimeout (ix 16 r)
  | 49 => .sliceExpire (ix 16 r)
  | 50 => .entryComplete (ix 16 r)
  | 51 => .pickq (ix 16 r)
  | 52 => .abandon (ix 16 r)
  | 53 => .save (ix 16 r)
  | 54 => .restore (ix 16 r)
  | 55 => .intervalCut (ix 16 r)
  | 56 => .regintBoundary
  | 57 => .create
  | 58 => .destroy
  | 59 => .wipe
  | 60 => .meter
  | 61 => .heartbeatMissed
  | 62 => .holdExpire (ix 1024 r)
  | 63 => .escapeRoute (ix 256 r)
  | _ => .inward

/-- How many kinds of turn there are: four that are no event, and 65 events. -/
def turnKinds : Nat := 69

/-- The turn of a number. -/
def turnOf (k r : Nat) : Turn :=
  match k with
  | 0 => .issue
  | 1 => .stream
  | 2 => .topiary
  | 3 => .input
  | k => .event (eventOf (k - 4) r)

/-- The next turn, with the acting core and context of an issue and the acting partition of the others. (DESIGN CHOICE: log 2.) -/
def nextTurn (s : State) (n : Nat) : State :=
  let k := n % turnKinds
  let r := n / turnKinds
  { s with turn := turnOf k r, core := if k = 0 then ix 512 r else s.core,
           fw := if k = 0 then r / 512 % 2 == 1 else s.fw, part := if k = 1 || k = 2 then ix 16 r else s.part }

/-- R4, R240: time goes on, what is due in the windows happens, what can leave the package leaves, and the next turn is chosen. -/
def endStep (s : State) : State :=
  let s := { s with mark := .none, clk := s.clk + Config.elapsed s.tick, tick := s.tick + 1 }
  let s := settleWindows s
  let s := if s.fabric.out.isEmpty then s else flushOut (refuseUndeliverable s)
  nextTurn s (Config.pick s.tick)

end Sys2Proof.Machine
end

