-- ==== Sys2Proof/Machine/Place.lean ====
section
/-! DEFINITION. States in which one instruction is the next to run. -/

namespace Sys2Proof.Machine

/-- A state in which a unit of partition 0 runs on a core: its code is one packet at the start of die 0, present in the
translation cache. (DESIGN CHOICE: log 1.) -/
def withUnitWord (s : State) (w : Nat) : State :=
  let base : Word := 0x8000000000000000
  let c := s.cur
  let s := s.setCur { c with st := .running, codeBase := base, codePackets := 1, unit := { c.unit with pc := 0, word := 0 } }
  let s := fillSlice s 0 0 false ⟨0, 0, 1, 0xF400000000000000⟩
  let s := s.store (hbmAddr 0 0) (leBytes 4 w ++ leBytes 8 0)
  { s with hub := { s.hub with owner := vput s.hub.owner (ix 16 ((clusterOf s.core).val / 4)) (some 0) }, fw := false }

/-- A state in which the acting firmware context's next packet is one word and two NOPs. (DESIGN CHOICE: log 1.) -/
def withFwWord (s : State) (w : Nat) : State :=
  let c := s.cur
  let s := s.setCur { c with fwOn := true }
  let s := s.storeNat (imageAddr s.hub.images.active 16) 4 (c.fw.pc.toNat + 1)
  { s.store (imagePacket s c.fw.pc.toNat) (leBytes 4 w ++ leBytes 8 0) with fw := true }

/-- A state in which the acting partition's policy is one operation, and a pick has just started its run. (DESIGN CHOICE: log 1.) -/
def withTopiaryWord (s : State) (w : Nat) : State :=
  let a := s.aux[s.part]
  let front := { a.front with pick := some s.clk }
  { s.putAux s.part { a with policy := [BitVec.ofNat 16 w], front := front, run := some (startRun front s.clk) } with turn := .topiary }

/-- A state whose next step runs a tile word in the acting core: in its firmware context, but for the words of a unit. (DESIGN CHOICE: log 1.) -/
def withTileWord (s : State) (w : Nat) : State :=
  let s := { s with turn := .issue }
  match decodeWord (BitVec.ofNat 32 w) with
  | some i => if unitOnly i then withUnitWord s w else withFwWord s w
  | none => withFwWord s w

end Sys2Proof.Machine
end

