-- ==== Sys2Proof/Machine/Caps.lean ====
section
/-! DEFINITION. The capability words (R343 to R346). -/

namespace Sys2Proof.Machine

/-- R346: every CAP word faults PRIV where the partition is not protected. -/
def capWord (h : Head) (s : State) (f : State → Fin 16 → Out) : Out :=
  guarded h s fun s =>
    match s.curPart with
    | some p => if s.parts[p].prot then f s p else raise s .priv
    | none => raise s .priv

/-- The request of a register pair (R343). (DEDUCED: log 17.) -/
def capReq (s : State) (b : BitVec 4) : BitVec 128 := s.rs (b ++ 1#1) ++ s.rs (b ++ 0#1)

/-- R346: the checks of one capability address: 16-byte aligned, then R68, then the places where a capability may stand. -/
def capAddr (s : State) (ea : Word) (i : Intent) : Res Loc :=
  if ea.toNat % 16 ≠ 0 then .fail .misalign
  else match checkAddr s ea 16 i with
  | .ok l =>
    match rowOf ea.toNat with
    | .general | .ownCm | .place _ | .global => .ok l
    | .args => if i = .read then .ok l else .fail .unmapped
    | _ => .fail .unmapped
  | r => r

/-- Whether an older store of the context has still to write a granule of TM or CM. -/
def capPending (s : State) (l : Loc) : Bool :=
  match scratch s.core l with
  | some a => (olderEnts s).any fun e => e.st && (e.byElem || e.todo.any fun p =>
      match scratch s.core p.loc with
      | some b => decide (b < a + 16) && decide (a < b + p.len)
      | none => false)
  | none => false

/-- R346: what a check of a capability in TM or CM finds at issue; for global space it is found later. (DEDUCED: log 17.) -/
def capNow (s : State) (l : Loc) (f : Bool → BitVec 128 → Option Cause) : Option Cause :=
  match scratch s.core l with
  | some a => f (s.tagged a) (capOf (s.load a 16))
  | none => none

/-- R345: CAPLD. (DEDUCED: log 17.) -/
def execCapld (h : Head) (d : BitVec 4) (a : BitVec 5) (n : BitVec 5) (s : State) : Out :=
  capWord h s fun s p =>
    let ea := s.rs a + BitVec.ofNat 64 (16 * n.toNat)
    onRes (capAddr s ea .read) s ea fun l =>
      if captureFull s || recordMeets s l 16 || capPending s l then stall s
      else match capNow s l (heldCheck p.val) with
      | some k => raiseAt s k ea
      | none => .next (pushEnt s (newEnt s (.capLd (d ++ 0#1)) true false ea [⟨l, 0, 16, none⟩]))

/-- R345: CAPCHK. (DEDUCED: log 17.) -/
def execCapchk (h : Head) (d : BitVec 3) (a : BitVec 5) (b : BitVec 4) (s : State) : Out :=
  capWord h s fun s _ =>
    let ea := s.rs a
    onRes (capAddr s ea .read) s ea fun l =>
      if captureFull s || recordMeets s l 16 then stall s
      else .next (pushEnt s (newEnt s (.capChk d (capReq s b)) true false ea [⟨l, 0, 16, none⟩]))

/-- R345, R346: a word that writes a capability enters both queues, as an AMO does. -/
def pushCap (s : State) (k : QKind) (ea : Word) (todo : List Piece) (data : List Byte) : State :=
  pushEnt s { newEnt s k true true ea todo with data := data }

/-- R345: a minted capability: the request with its reserved bits zero. (DEDUCED: log 17.) -/
def minted (q : BitVec 128) : BitVec 128 := q &&& BitVec.ofNat 128 (0xF0F * 2 ^ 104 + (2 ^ 104 - 1))

/-- R345: whether a range lies within the standing leases of the partition that a request names. (DEDUCED: log 17.) -/
def standing (s : State) (q : BitVec 128) : Bool :=
  s.parts[ix 16 (capPart q)].leases.any fun l =>
    l.holder.isNone && decide (l.lo.toNat ≤ capBase q) && decide (capBase q + capLen q ≤ l.lo.toNat + l.len)

/-- R345: CAPDRV. With A = 0 in the firmware context a capability is minted. (DEDUCED: log 17.) -/
def execCapdrv (h : Head) (d : BitVec 5) (a : BitVec 5) (b : BitVec 4) (s : State) : Out :=
  capWord h s fun s p =>
    let q := capReq s b
    let ea := s.rs d
    if s.fw && a == 0 then
      onRes (capAddr s ea .write) s ea fun l =>
        if captureFull s || guardStalls s l 16 then stall s
        else if !standing s q then raise s .capBounds
        else .next (pushCap s (.capDrv q none) ea [⟨l, 0, 16, none⟩] (leBytes 16 (minted q).toNat))
    else
      let from_ := s.rs a
      onRes (capAddr s from_ .read) s from_ fun src =>
        onRes (capAddr s ea .write) s ea fun l =>
          if captureFull s || guardStalls s l 16 || recordMeets s src 16 || capPending s src then stall s
          else match capNow s src fun tag par => deriveCheck p.val tag par q with
          | some k => raiseAt s k from_
          | none => .next (pushCap s (.capDrv q (some src)) ea [⟨src, 0, 16, none⟩, ⟨l, 0, 16, none⟩] (leBytes 16 (withPart q p.val).toNat))

/-- R345: CAPST. (DEDUCED: log 17.) -/
def execCapst (h : Head) (d : BitVec 5) (a : BitVec 5) (s : State) : Out :=
  capWord h s fun s p =>
    let ea := s.rs d
    let from_ := s.rs a
    onRes (capAddr s from_ .read) s from_ fun src =>
      onRes (capAddr s ea .write) s ea fun l =>
        if captureFull s || guardStalls s l 16 || recordMeets s src 16 || capPending s src then stall s
        else match capNow s src (heldCheck p.val) with
        | some k => raiseAt s k from_
        | none => .next (pushCap s (.capSt src) ea [⟨src, 0, 16, none⟩, ⟨l, 0, 16, none⟩] [])

end Sys2Proof.Machine
end

