-- ==== Sys2Proof/Machine/Flags.lean ====
section
/-! DEFINITION. The relations that set predicates (R75). The machine has no other condition flags. -/

namespace Sys2Proof.Machine

/-- R75: the relations of CMP and CMPI. -/
inductive Rel where
  | eq | ne | lt | le | ltu | leu | ge | geu
deriving DecidableEq, Repr

/-- R75: whether the relation holds. -/
def relHolds (r : Rel) (a b : Word) : Bool :=
  match r with
  | .eq => a == b
  | .ne => a != b
  | .lt => a.slt b
  | .le => a.sle b
  | .ltu => a.ult b
  | .leu => a.ule b
  | .ge => b.sle a
  | .geu => b.ule a

/-- R214: the conditions of WPRED and WWAIT on two 64-bit values. -/
def condHolds (c : WCond) (a b : Word) : Bool :=
  match c with
  | .eq => a == b
  | .ne => a != b
  | .ltu => a.ult b
  | .geu => b.ule a
  | .lt => a.slt b
  | .ge => b.sle a

/-- R214: the condition of an observed word under a mask. -/
def condMasked (c : WCond) (word value mask : Word) : Bool := condHolds c (word &&& mask) value

end Sys2Proof.Machine
end

