-- ==== Sys2Proof/Machine/Scalar.lean ====
section
/-! DEFINITION. The scalar register words (R67, R72 to R76). -/

namespace Sys2Proof.Machine

/-- An s register gets a function of two values. -/
def setS2 (h : Head) (d : BitVec 5) (x y : State → Word) (f : Word → Word → Word) (s : State) : Out :=
  guarded h s fun s => .next (s.wrS d (f (x s) (y s)))

/-- A predicate gets the value of a test. -/
def setP1 (h : Head) (d : BitVec 3) (f : State → Bool) (s : State) : Out := guarded h s fun s => .next (s.wrP d (f s))

/-! ### The functions of R72 -/

def aluSll (a b : Word) : Word := a <<< (b.toNat % 64)
def aluSrl (a b : Word) : Word := a >>> (b.toNat % 64)
def aluSra (a b : Word) : Word := a.sshiftRight (b.toNat % 64)
def aluMin (a b : Word) : Word := if a.sle b then a else b
def aluMax (a b : Word) : Word := if a.sle b then b else a
def aluMinu (a b : Word) : Word := if a.ule b then a else b
def aluMaxu (a b : Word) : Word := if a.ule b then b else a
def aluMulh (a b : Word) : Word := BitVec.ofInt 64 (a.toInt * b.toInt / 2 ^ 64)
def aluMulhu (a b : Word) : Word := BitVec.ofNat 64 (a.toNat * b.toNat / 2 ^ 64)
def aluDiv (a b : Word) : Word := if b = 0 then BitVec.allOnes 64 else BitVec.ofInt 64 (Int.tdiv a.toInt b.toInt)
def aluDivu (a b : Word) : Word := if b = 0 then BitVec.allOnes 64 else BitVec.ofNat 64 (a.toNat / b.toNat)
def aluRem (a b : Word) : Word := if b = 0 then a else BitVec.ofInt 64 (Int.tmod a.toInt b.toInt)
def aluRemu (a b : Word) : Word := if b = 0 then a else BitVec.ofNat 64 (a.toNat % b.toNat)
def aluClz (a : Word) : Word := BitVec.ofNat 64 (((List.range 64).find? fun i => a.getMsbD i).getD 64)
def aluCtz (a : Word) : Word := BitVec.ofNat 64 (((List.range 64).find? fun i => a.getLsbD i).getD 64)
def aluPopc (a : Word) : Word := BitVec.ofNat 64 (popCount a)

/-- R74: the 16 bits from bit `lo` on are replaced. -/
def insert16 (x : Word) (u : BitVec 16) (lo : Nat) : Word :=
  (x &&& ~~~((0xFFFF : Word) <<< lo)) ||| (u.setWidth 64 <<< lo)

/-! ### Meanings -/


/-- ADD (R72). -/
def execAdd (h : Head) (d : BitVec 5) (a : BitVec 5) (b : BitVec 5) (s : State) : Out := setS2 h d (·.rs a) (·.rs b) (fun x y => x + y) s

/-- SUB (R72). -/
def execSub (h : Head) (d : BitVec 5) (a : BitVec 5) (b : BitVec 5) (s : State) : Out := setS2 h d (·.rs a) (·.rs b) (fun x y => x - y) s

/-- AND (R72). -/
def execAnd (h : Head) (d : BitVec 5) (a : BitVec 5) (b : BitVec 5) (s : State) : Out := setS2 h d (·.rs a) (·.rs b) (fun x y => x &&& y) s

/-- OR (R72). -/
def execOr (h : Head) (d : BitVec 5) (a : BitVec 5) (b : BitVec 5) (s : State) : Out := setS2 h d (·.rs a) (·.rs b) (fun x y => x ||| y) s

/-- XOR (R72). -/
def execXor (h : Head) (d : BitVec 5) (a : BitVec 5) (b : BitVec 5) (s : State) : Out := setS2 h d (·.rs a) (·.rs b) (fun x y => x ^^^ y) s

/-- SLL (R72). -/
def execSll (h : Head) (d : BitVec 5) (a : BitVec 5) (b : BitVec 5) (s : State) : Out := setS2 h d (·.rs a) (·.rs b) aluSll s

/-- SRL (R72). -/
def execSrl (h : Head) (d : BitVec 5) (a : BitVec 5) (b : BitVec 5) (s : State) : Out := setS2 h d (·.rs a) (·.rs b) aluSrl s

/-- SRA (R72). -/
def execSra (h : Head) (d : BitVec 5) (a : BitVec 5) (b : BitVec 5) (s : State) : Out := setS2 h d (·.rs a) (·.rs b) aluSra s

/-- MIN (R72). -/
def execMin (h : Head) (d : BitVec 5) (a : BitVec 5) (b : BitVec 5) (s : State) : Out := setS2 h d (·.rs a) (·.rs b) aluMin s

/-- MAX (R72). -/
def execMax (h : Head) (d : BitVec 5) (a : BitVec 5) (b : BitVec 5) (s : State) : Out := setS2 h d (·.rs a) (·.rs b) aluMax s

/-- MINU (R72). -/
def execMinu (h : Head) (d : BitVec 5) (a : BitVec 5) (b : BitVec 5) (s : State) : Out := setS2 h d (·.rs a) (·.rs b) aluMinu s

/-- MAXU (R72). -/
def execMaxu (h : Head) (d : BitVec 5) (a : BitVec 5) (b : BitVec 5) (s : State) : Out := setS2 h d (·.rs a) (·.rs b) aluMaxu s

/-- MUL (R72). -/
def execMul (h : Head) (d : BitVec 5) (a : BitVec 5) (b : BitVec 5) (s : State) : Out := setS2 h d (·.rs a) (·.rs b) (fun x y => x * y) s

/-- MULH (R72). -/
def execMulh (h : Head) (d : BitVec 5) (a : BitVec 5) (b : BitVec 5) (s : State) : Out := setS2 h d (·.rs a) (·.rs b) aluMulh s

/-- MULHU (R72). -/
def execMulhu (h : Head) (d : BitVec 5) (a : BitVec 5) (b : BitVec 5) (s : State) : Out := setS2 h d (·.rs a) (·.rs b) aluMulhu s

/-- DIV (R72). -/
def execDiv (h : Head) (d : BitVec 5) (a : BitVec 5) (b : BitVec 5) (s : State) : Out := setS2 h d (·.rs a) (·.rs b) aluDiv s

/-- DIVU (R72). -/
def execDivu (h : Head) (d : BitVec 5) (a : BitVec 5) (b : BitVec 5) (s : State) : Out := setS2 h d (·.rs a) (·.rs b) aluDivu s

/-- REM (R72). -/
def execRem (h : Head) (d : BitVec 5) (a : BitVec 5) (b : BitVec 5) (s : State) : Out := setS2 h d (·.rs a) (·.rs b) aluRem s

/-- REMU (R72). -/
def execRemu (h : Head) (d : BitVec 5) (a : BitVec 5) (b : BitVec 5) (s : State) : Out := setS2 h d (·.rs a) (·.rs b) aluRemu s

/-- CLZ (R72). -/
def execClz (h : Head) (d : BitVec 5) (a : BitVec 5) (s : State) : Out := setS2 h d (·.rs a) (fun _ => 0) (fun x _ => aluClz x) s

/-- CTZ (R72). -/
def execCtz (h : Head) (d : BitVec 5) (a : BitVec 5) (s : State) : Out := setS2 h d (·.rs a) (fun _ => 0) (fun x _ => aluCtz x) s

/-- POPC (R72). -/
def execPopc (h : Head) (d : BitVec 5) (a : BitVec 5) (s : State) : Out := setS2 h d (·.rs a) (fun _ => 0) (fun x _ => aluPopc x) s

/-- ANDN (R72). -/
def execAndn (h : Head) (d : BitVec 5) (a : BitVec 5) (b : BitVec 5) (s : State) : Out := setS2 h d (·.rs a) (·.rs b) (fun x y => x &&& ~~~y) s

/-- ORN (R72). -/
def execOrn (h : Head) (d : BitVec 5) (a : BitVec 5) (b : BitVec 5) (s : State) : Out := setS2 h d (·.rs a) (·.rs b) (fun x y => x ||| ~~~y) s

/-- ADDI (R73). -/
def execAddi (h : Head) (d : BitVec 5) (a : BitVec 5) (i : BitVec 11) (s : State) : Out := setS2 h d (·.rs a) (fun _ => imm11 i) (fun x y => x + y) s

/-- ANDI (R73). -/
def execAndi (h : Head) (d : BitVec 5) (a : BitVec 5) (i : BitVec 11) (s : State) : Out := setS2 h d (·.rs a) (fun _ => imm11 i) (fun x y => x &&& y) s

/-- ORI (R73). -/
def execOri (h : Head) (d : BitVec 5) (a : BitVec 5) (i : BitVec 11) (s : State) : Out := setS2 h d (·.rs a) (fun _ => imm11 i) (fun x y => x ||| y) s

/-- XORI (R73). -/
def execXori (h : Head) (d : BitVec 5) (a : BitVec 5) (i : BitVec 11) (s : State) : Out := setS2 h d (·.rs a) (fun _ => imm11 i) (fun x y => x ^^^ y) s

/-- SLLI (R73). -/
def execSlli (h : Head) (d : BitVec 5) (a : BitVec 5) (n : BitVec 6) (s : State) : Out := setS2 h d (·.rs a) (fun _ => n.setWidth 64) aluSll s

/-- SRLI (R73). -/
def execSrli (h : Head) (d : BitVec 5) (a : BitVec 5) (n : BitVec 6) (s : State) : Out := setS2 h d (·.rs a) (fun _ => n.setWidth 64) aluSrl s

/-- SRAI (R73). -/
def execSrai (h : Head) (d : BitVec 5) (a : BitVec 5) (n : BitVec 6) (s : State) : Out := setS2 h d (·.rs a) (fun _ => n.setWidth 64) aluSra s

/-- LI (R74). -/
def execLi (h : Head) (d : BitVec 5) (u : BitVec 16) (s : State) : Out := setS2 h d (fun _ => u.setWidth 64) (fun _ => 0) (fun x _ => x) s

/-- LI16 (R74). -/
def execLi16 (h : Head) (d : BitVec 5) (u : BitVec 16) (s : State) : Out := setS2 h d (·.rs d) (fun _ => 0) (fun x _ => insert16 x u 16) s

/-- LI32 (R74). -/
def execLi32 (h : Head) (d : BitVec 5) (u : BitVec 16) (s : State) : Out := setS2 h d (·.rs d) (fun _ => 0) (fun x _ => insert16 x u 32) s

/-- LI48 (R74). -/
def execLi48 (h : Head) (d : BitVec 5) (u : BitVec 16) (s : State) : Out := setS2 h d (·.rs d) (fun _ => 0) (fun x _ => insert16 x u 48) s

/-- CMP_EQ (R75). -/
def execCmpEq (h : Head) (d : BitVec 3) (a : BitVec 5) (b : BitVec 5) (s : State) : Out := setP1 h d (fun s => relHolds .eq (s.rs a) (s.rs b)) s

/-- CMP_NE (R75). -/
def execCmpNe (h : Head) (d : BitVec 3) (a : BitVec 5) (b : BitVec 5) (s : State) : Out := setP1 h d (fun s => relHolds .ne (s.rs a) (s.rs b)) s

/-- CMP_LT (R75). -/
def execCmpLt (h : Head) (d : BitVec 3) (a : BitVec 5) (b : BitVec 5) (s : State) : Out := setP1 h d (fun s => relHolds .lt (s.rs a) (s.rs b)) s

/-- CMP_LE (R75). -/
def execCmpLe (h : Head) (d : BitVec 3) (a : BitVec 5) (b : BitVec 5) (s : State) : Out := setP1 h d (fun s => relHolds .le (s.rs a) (s.rs b)) s

/-- CMP_LTU (R75). -/
def execCmpLtu (h : Head) (d : BitVec 3) (a : BitVec 5) (b : BitVec 5) (s : State) : Out := setP1 h d (fun s => relHolds .ltu (s.rs a) (s.rs b)) s

/-- CMP_LEU (R75). -/
def execCmpLeu (h : Head) (d : BitVec 3) (a : BitVec 5) (b : BitVec 5) (s : State) : Out := setP1 h d (fun s => relHolds .leu (s.rs a) (s.rs b)) s

/-- PAND (R75). -/
def execPand (h : Head) (d : BitVec 3) (a : BitVec 3) (b : BitVec 3) (s : State) : Out := setP1 h d (fun s => s.rp a && s.rp b) s

/-- POR (R75). -/
def execPor (h : Head) (d : BitVec 3) (a : BitVec 3) (b : BitVec 3) (s : State) : Out := setP1 h d (fun s => s.rp a || s.rp b) s

/-- PXOR (R75). -/
def execPxor (h : Head) (d : BitVec 3) (a : BitVec 3) (b : BitVec 3) (s : State) : Out := setP1 h d (fun s => s.rp a != s.rp b) s

/-- PANDN (R75). -/
def execPandn (h : Head) (d : BitVec 3) (a : BitVec 3) (b : BitVec 3) (s : State) : Out := setP1 h d (fun s => s.rp a && !s.rp b) s

/-- CMPI_EQ (R75). -/
def execCmpiEq (h : Head) (d : BitVec 3) (a : BitVec 5) (i : BitVec 8) (s : State) : Out := setP1 h d (fun s => relHolds .eq (s.rs a) (imm8 i)) s

/-- CMPI_NE (R75). -/
def execCmpiNe (h : Head) (d : BitVec 3) (a : BitVec 5) (i : BitVec 8) (s : State) : Out := setP1 h d (fun s => relHolds .ne (s.rs a) (imm8 i)) s

/-- CMPI_LT (R75). -/
def execCmpiLt (h : Head) (d : BitVec 3) (a : BitVec 5) (i : BitVec 8) (s : State) : Out := setP1 h d (fun s => relHolds .lt (s.rs a) (imm8 i)) s

/-- CMPI_GE (R75). -/
def execCmpiGe (h : Head) (d : BitVec 3) (a : BitVec 5) (i : BitVec 8) (s : State) : Out := setP1 h d (fun s => relHolds .ge (s.rs a) (imm8 i)) s

/-- CMPI_LTU (R75). -/
def execCmpiLtu (h : Head) (d : BitVec 3) (a : BitVec 5) (i : BitVec 8) (s : State) : Out := setP1 h d (fun s => relHolds .ltu (s.rs a) (imm8 i)) s

/-- CMPI_GEU (R75). -/
def execCmpiGeu (h : Head) (d : BitVec 3) (a : BitVec 5) (i : BitVec 8) (s : State) : Out := setP1 h d (fun s => relHolds .geu (s.rs a) (imm8 i)) s

/-- SEL (R76). -/
def execSel (h : Head) (d : BitVec 5) (a : BitVec 5) (b : BitVec 5) (p : BitVec 3) (s : State) : Out := 
  guarded h s fun s => .next (s.wrS d (if s.rp p then s.rs a else s.rs b))

/-- ADDSH (R76). -/
def execAddsh (h : Head) (d : BitVec 5) (a : BitVec 5) (b : BitVec 5) (n : BitVec 6) (s : State) : Out := 
  setS2 h d (·.rs a) (·.rs b) (fun x y => x + y <<< n.toNat) s

end Sys2Proof.Machine
end

