-- ==== Sys2Proof/Machine/Vector.lean ====
section
/-! DEFINITION. The vector register words (R97 to R111, R124 to R129): they read and write registers only (R101). -/

namespace Sys2Proof.Machine

/-- A vector register gets a function of the mask, of sources and of its old value (R98). -/
def setV (h : Head) (d : BitVec 5) (f : State → Vec → Vec) (s : State) : Out :=
  guarded h s fun s => .next (s.wrV d (f s (s.rv d)))

/-- A mask register gets a function of its old value (R125). -/
def setM (h : Head) (d : BitVec 3) (f : State → Mask → Mask) (s : State) : Out :=
  guarded h s fun s => .next (s.wrM d (f s (s.rm d)))

/-- A slide's distance: the whole 64-bit value counts, and 256 already moves everything out (R105). -/
def slideBy (x : Word) : Nat := min x.toNat 256


/-- VADD (R102). -/
def execVadd (h : Head) (m : BitVec 3) (d : BitVec 5) (a : BitVec 5) (b : BitVec 5) (t : ElemTy) (s : State) : Out := 
  setV h d (fun s old => vElem opAdd t (s.rm m) (s.rv a) (s.rv b) old) s

/-- VSUB (R102). -/
def execVsub (h : Head) (m : BitVec 3) (d : BitVec 5) (a : BitVec 5) (b : BitVec 5) (t : ElemTy) (s : State) : Out := 
  setV h d (fun s old => vElem opSub t (s.rm m) (s.rv a) (s.rv b) old) s

/-- VMUL (R102). -/
def execVmul (h : Head) (m : BitVec 3) (d : BitVec 5) (a : BitVec 5) (b : BitVec 5) (t : ElemTy) (s : State) : Out := 
  setV h d (fun s old => vElem opMul t (s.rm m) (s.rv a) (s.rv b) old) s

/-- VFMA (R102). -/
def execVfma (h : Head) (m : BitVec 3) (d : BitVec 5) (a : BitVec 5) (b : BitVec 5) (t : ElemTy) (s : State) : Out := 
  setV h d (fun s old => vElem opFma t (s.rm m) (s.rv a) (s.rv b) old) s

/-- VMIN (R102). -/
def execVmin (h : Head) (m : BitVec 3) (d : BitVec 5) (a : BitVec 5) (b : BitVec 5) (t : ElemTy) (s : State) : Out := 
  setV h d (fun s old => vElem opMin t (s.rm m) (s.rv a) (s.rv b) old) s

/-- VMAX (R102). -/
def execVmax (h : Head) (m : BitVec 3) (d : BitVec 5) (a : BitVec 5) (b : BitVec 5) (t : ElemTy) (s : State) : Out := 
  setV h d (fun s old => vElem opMax t (s.rm m) (s.rv a) (s.rv b) old) s

/-- VDIV (R103). -/
def execVdiv (h : Head) (m : BitVec 3) (d : BitVec 5) (a : BitVec 5) (b : BitVec 5) (s : State) : Out := 
  setV h d (fun s old => vElem opDiv .f32 (s.rm m) (s.rv a) (s.rv b) old) s

/-- VSQRT (R103). -/
def execVsqrt (h : Head) (m : BitVec 3) (d : BitVec 5) (a : BitVec 5) (s : State) : Out := 
  setV h d (fun s old => vSqrt (s.rm m) (s.rv a) old) s

/-- VEXP2 (R103). -/
def execVexp2 (h : Head) (m : BitVec 3) (d : BitVec 5) (a : BitVec 5) (s : State) : Out := 
  setV h d (fun s old => vExp2 (s.rm m) (s.rv a) old) s

/-- VABS (R103). -/
def execVabs (h : Head) (m : BitVec 3) (d : BitVec 5) (a : BitVec 5) (t : ElemTy) (s : State) : Out := 
  setV h d (fun s old => vElem opAbs t (s.rm m) (s.rv a) (s.rv a) old) s

/-- VNEG (R103). -/
def execVneg (h : Head) (m : BitVec 3) (d : BitVec 5) (a : BitVec 5) (t : ElemTy) (s : State) : Out := 
  setV h d (fun s old => vElem opNeg t (s.rm m) (s.rv a) (s.rv a) old) s

/-- VADDS (R104). -/
def execVadds (h : Head) (m : BitVec 3) (d : BitVec 5) (a : BitVec 5) (b : BitVec 5) (t : ElemTy) (s : State) : Out := 
  setV h d (fun s old => vSat (fun x y => x + y) t (s.rm m) (s.rv a) (s.rv b) old) s

/-- VSUBS (R104). -/
def execVsubs (h : Head) (m : BitVec 3) (d : BitVec 5) (a : BitVec 5) (b : BitVec 5) (t : ElemTy) (s : State) : Out := 
  setV h d (fun s old => vSat (fun x y => x - y) t (s.rm m) (s.rv a) (s.rv b) old) s

/-- VAND (R126). -/
def execVand (h : Head) (m : BitVec 3) (d : BitVec 5) (a : BitVec 5) (b : BitVec 5) (s : State) : Out := 
  setV h d (fun s old => vLogic (fun x y => x &&& y) (s.rm m) (s.rv a) (s.rv b) old) s

/-- VOR (R126). -/
def execVor (h : Head) (m : BitVec 3) (d : BitVec 5) (a : BitVec 5) (b : BitVec 5) (s : State) : Out := 
  setV h d (fun s old => vLogic (fun x y => x ||| y) (s.rm m) (s.rv a) (s.rv b) old) s

/-- VXOR (R126). -/
def execVxor (h : Head) (m : BitVec 3) (d : BitVec 5) (a : BitVec 5) (b : BitVec 5) (s : State) : Out := 
  setV h d (fun s old => vLogic (fun x y => x ^^^ y) (s.rm m) (s.rv a) (s.rv b) old) s

/-- VANDN (R126). -/
def execVandn (h : Head) (m : BitVec 3) (d : BitVec 5) (a : BitVec 5) (b : BitVec 5) (s : State) : Out := 
  setV h d (fun s old => vLogic (fun x y => x &&& ~~~y) (s.rm m) (s.rv a) (s.rv b) old) s

/-- VSLL (R126). -/
def execVsll (h : Head) (m : BitVec 3) (d : BitVec 5) (a : BitVec 5) (b : BitVec 5) (s : State) : Out := 
  setV h d (fun s old => vShift (fun x n => x <<< n) (s.rm m) (s.rv a) (vShiftCount (s.rv b)) old) s

/-- VSRL (R126). -/
def execVsrl (h : Head) (m : BitVec 3) (d : BitVec 5) (a : BitVec 5) (b : BitVec 5) (s : State) : Out := 
  setV h d (fun s old => vShift (fun x n => x >>> n) (s.rm m) (s.rv a) (vShiftCount (s.rv b)) old) s

/-- VSRA (R126). -/
def execVsra (h : Head) (m : BitVec 3) (d : BitVec 5) (a : BitVec 5) (b : BitVec 5) (s : State) : Out := 
  setV h d (fun s old => vShift (fun x n => x.sshiftRight n) (s.rm m) (s.rv a) (vShiftCount (s.rv b)) old) s

/-- VSLLI (R126). -/
def execVslli (h : Head) (m : BitVec 3) (d : BitVec 5) (a : BitVec 5) (n : BitVec 5) (s : State) : Out := 
  setV h d (fun s old => vShift (fun x n => x <<< n) (s.rm m) (s.rv a) (fun _ => n.toNat) old) s

/-- VSRLI (R126). -/
def execVsrli (h : Head) (m : BitVec 3) (d : BitVec 5) (a : BitVec 5) (n : BitVec 5) (s : State) : Out := 
  setV h d (fun s old => vShift (fun x n => x >>> n) (s.rm m) (s.rv a) (fun _ => n.toNat) old) s

/-- VSRAI (R126). -/
def execVsrai (h : Head) (m : BitVec 3) (d : BitVec 5) (a : BitVec 5) (n : BitVec 5) (s : State) : Out := 
  setV h d (fun s old => vShift (fun x n => x.sshiftRight n) (s.rm m) (s.rv a) (fun _ => n.toNat) old) s

/-- VCLMUL_LO (R127). -/
def execVclmulLo (h : Head) (m : BitVec 3) (d : BitVec 5) (a : BitVec 5) (b : BitVec 5) (s : State) : Out := 
  setV h d (fun s old => vClmul false (s.rm m) (s.rv a) (s.rv b) old) s

/-- VCLMUL_HI (R127). -/
def execVclmulHi (h : Head) (m : BitVec 3) (d : BitVec 5) (a : BitVec 5) (b : BitVec 5) (s : State) : Out := 
  setV h d (fun s old => vClmul true (s.rm m) (s.rv a) (s.rv b) old) s

/-- VPOPC_32 (R128). The B field is not used. -/
def execVpopc32 (h : Head) (m : BitVec 3) (d : BitVec 5) (a : BitVec 5) (_ : BitVec 5) (s : State) : Out :=
  setV h d (fun s old => vPopc 4 (s.rm m) (s.rv a) old) s

/-- VPOPC_64 (R128). The B field is not used. -/
def execVpopc64 (h : Head) (m : BitVec 3) (d : BitVec 5) (a : BitVec 5) (_ : BitVec 5) (s : State) : Out :=
  setV h d (fun s old => vPopc 8 (s.rm m) (s.rv a) old) s

/-- VCMP_EQ (R124). -/
def execVcmpEq (h : Head) (m : BitVec 3) (d : BitVec 3) (a : BitVec 5) (b : BitVec 5) (t : ElemTy) (s : State) : Out := 
  setM h d (fun s old => vCmp .eq t (s.rm m) (s.rv a) (s.rv b) old) s

/-- VCMP_LT (R124). -/
def execVcmpLt (h : Head) (m : BitVec 3) (d : BitVec 3) (a : BitVec 5) (b : BitVec 5) (t : ElemTy) (s : State) : Out := 
  setM h d (fun s old => vCmp .lt t (s.rm m) (s.rv a) (s.rv b) old) s

/-- VCMP_LE (R124). -/
def execVcmpLe (h : Head) (m : BitVec 3) (d : BitVec 3) (a : BitVec 5) (b : BitVec 5) (t : ElemTy) (s : State) : Out := 
  setM h d (fun s old => vCmp .le t (s.rm m) (s.rv a) (s.rv b) old) s

/-- VCMP_LTU (R124). -/
def execVcmpLtu (h : Head) (m : BitVec 3) (d : BitVec 3) (a : BitVec 5) (b : BitVec 5) (t : ElemTy) (s : State) : Out := 
  setM h d (fun s old => vCmp .ltu t (s.rm m) (s.rv a) (s.rv b) old) s

/-- MAND (R125). -/
def execMand (h : Head) (m : BitVec 3) (d : BitVec 3) (a : BitVec 3) (b : BitVec 3) (s : State) : Out := 
  setM h d (fun s old => mMerge (s.rm m) (s.rm a &&& s.rm b) old) s

/-- MOR (R125). -/
def execMor (h : Head) (m : BitVec 3) (d : BitVec 3) (a : BitVec 3) (b : BitVec 3) (s : State) : Out := 
  setM h d (fun s old => mMerge (s.rm m) (s.rm a ||| s.rm b) old) s

/-- MXOR (R125). -/
def execMxor (h : Head) (m : BitVec 3) (d : BitVec 3) (a : BitVec 3) (b : BitVec 3) (s : State) : Out := 
  setM h d (fun s old => mMerge (s.rm m) (s.rm a ^^^ s.rm b) old) s

/-- MANDN (R125). -/
def execMandn (h : Head) (m : BitVec 3) (d : BitVec 3) (a : BitVec 3) (b : BitVec 3) (s : State) : Out := 
  setM h d (fun s old => mMerge (s.rm m) (s.rm a &&& ~~~s.rm b) old) s

/-- MNOT (R125). -/
def execMnot (h : Head) (m : BitVec 3) (d : BitVec 3) (a : BitVec 3) (s : State) : Out := 
  setM h d (fun s old => mMerge (s.rm m) (~~~s.rm a) old) s

/-- MCNT (R125). -/
def execMcnt (h : Head) (m : BitVec 3) (d : BitVec 5) (a : BitVec 3) (s : State) : Out := 
  guarded h s fun s => .next (s.wrS d (BitVec.ofNat 64 (mCount (s.rm a) (s.rm m))))

/-- MFIRST (R125). -/
def execMfirst (h : Head) (m : BitVec 3) (d : BitVec 5) (a : BitVec 3) (s : State) : Out := 
  guarded h s fun s => .next (s.wrS d (BitVec.ofNat 64 (mFirst (s.rm a) (s.rm m))))

/-- VPERM_32 (R105). -/
def execVperm32 (h : Head) (m : BitVec 3) (d : BitVec 5) (a : BitVec 5) (b : BitVec 5) (s : State) : Out := 
  setV h d (fun s old => vPerm 4 (s.rm m) (s.rv a) (s.rv b) old) s

/-- VSLIDEUP_32 (R105). -/
def execVslideup32 (h : Head) (m : BitVec 3) (d : BitVec 5) (a : BitVec 5) (b : BitVec 5) (s : State) : Out := 
  setV h d (fun s old => vSlideUp 4 (s.rm m) (s.rv a) (slideBy (s.rs b)) old) s

/-- VSLIDEDN_32 (R105). -/
def execVslidedn32 (h : Head) (m : BitVec 3) (d : BitVec 5) (a : BitVec 5) (b : BitVec 5) (s : State) : Out := 
  setV h d (fun s old => vSlideDn 4 (s.rm m) (s.rv a) (slideBy (s.rs b)) old) s

/-- VBCAST_32 (R105). -/
def execVbcast32 (h : Head) (m : BitVec 3) (d : BitVec 5) (a : BitVec 5) (s : State) : Out := 
  setV h d (fun s old => vBcast 4 (s.rm m) (s.rs a) old) s

/-- VCOMPRESS_32 (R129). -/
def execVcompress32 (h : Head) (m : BitVec 3) (d : BitVec 5) (a : BitVec 5) (s : State) : Out := 
  setV h d (fun s _ => vCompress 4 (s.rm m) (s.rv a)) s

/-- VEXPAND_32 (R129). -/
def execVexpand32 (h : Head) (m : BitVec 3) (d : BitVec 5) (a : BitVec 5) (s : State) : Out := 
  setV h d (fun s old => vExpand 4 (s.rm m) (s.rv a) old) s

/-- VMOV_32 (R105). -/
def execVmov32 (h : Head) (m : BitVec 3) (d : BitVec 5) (a : BitVec 5) (s : State) : Out := 
  setV h d (fun s old => vMov 4 (s.rm m) (s.rv a) old) s

/-- VPERM_8 (R105). -/
def execVperm8 (h : Head) (m : BitVec 3) (d : BitVec 5) (a : BitVec 5) (b : BitVec 5) (s : State) : Out := 
  setV h d (fun s old => vPerm 1 (s.rm m) (s.rv a) (s.rv b) old) s

/-- VSLIDEUP_8 (R105). -/
def execVslideup8 (h : Head) (m : BitVec 3) (d : BitVec 5) (a : BitVec 5) (b : BitVec 5) (s : State) : Out := 
  setV h d (fun s old => vSlideUp 1 (s.rm m) (s.rv a) (slideBy (s.rs b)) old) s

/-- VSLIDEDN_8 (R105). -/
def execVslidedn8 (h : Head) (m : BitVec 3) (d : BitVec 5) (a : BitVec 5) (b : BitVec 5) (s : State) : Out := 
  setV h d (fun s old => vSlideDn 1 (s.rm m) (s.rv a) (slideBy (s.rs b)) old) s

/-- VBCAST_8 (R105). -/
def execVbcast8 (h : Head) (m : BitVec 3) (d : BitVec 5) (a : BitVec 5) (s : State) : Out := 
  setV h d (fun s old => vBcast 1 (s.rm m) (s.rs a) old) s

/-- VCOMPRESS_8 (R129). -/
def execVcompress8 (h : Head) (m : BitVec 3) (d : BitVec 5) (a : BitVec 5) (s : State) : Out := 
  setV h d (fun s _ => vCompress 1 (s.rm m) (s.rv a)) s

/-- VEXPAND_8 (R129). -/
def execVexpand8 (h : Head) (m : BitVec 3) (d : BitVec 5) (a : BitVec 5) (s : State) : Out := 
  setV h d (fun s old => vExpand 1 (s.rm m) (s.rv a) old) s

/-- VMOV_8 (R105). -/
def execVmov8 (h : Head) (m : BitVec 3) (d : BitVec 5) (a : BitVec 5) (s : State) : Out := 
  setV h d (fun s old => vMov 1 (s.rm m) (s.rv a) old) s

/-- VRSUM (R106, R107). -/
def execVrsum (h : Head) (m : BitVec 3) (d : BitVec 5) (a : BitVec 5) (t : ElemTy) (s : State) : Out := 
  setV h d (fun s _ => vReduce .sum t (s.rm m) (s.rv a)) s

/-- VRMAX (R106, R107). -/
def execVrmax (h : Head) (m : BitVec 3) (d : BitVec 5) (a : BitVec 5) (t : ElemTy) (s : State) : Out := 
  setV h d (fun s _ => vReduce .max t (s.rm m) (s.rv a)) s

/-- VRMIN (R106, R107). -/
def execVrmin (h : Head) (m : BitVec 3) (d : BitVec 5) (a : BitVec 5) (t : ElemTy) (s : State) : Out := 
  setV h d (fun s _ => vReduce .min t (s.rm m) (s.rv a)) s

/-- VSCAN (R106, R108). -/
def execVscan (h : Head) (m : BitVec 3) (d : BitVec 5) (a : BitVec 5) (t : ElemTy) (s : State) : Out := 
  setV h d (fun s _ => vScan t (s.rm m) (s.rv a)) s

/-- VCVT (R109 to R111). -/
def execVcvt (h : Head) (m : BitVec 3) (d : BitVec 5) (a : BitVec 5) (cv : Conv) (r : RMode) (s : State) : Out := 
  setV h d (fun s old => vCvt cv r (s.rm m) (s.rv a) old) s

end Sys2Proof.Machine
end

