-- ==== Sys2Proof/Machine/Dispatch.lean ====
section
/-! DEFINITION. The meaning of every instruction, one arm each. -/

namespace Sys2Proof.Machine

/-- One instruction, or one event, from a state. -/
def exec (i : Instr) (s : State) : Host.Outcome State Fault Refusal :=
  match i with
  | .add h d a b => Sys2Proof.Machine.execAdd h d a b s
  | .sub h d a b => Sys2Proof.Machine.execSub h d a b s
  | .and h d a b => Sys2Proof.Machine.execAnd h d a b s
  | .or h d a b => Sys2Proof.Machine.execOr h d a b s
  | .xor h d a b => Sys2Proof.Machine.execXor h d a b s
  | .sll h d a b => Sys2Proof.Machine.execSll h d a b s
  | .srl h d a b => Sys2Proof.Machine.execSrl h d a b s
  | .sra h d a b => Sys2Proof.Machine.execSra h d a b s
  | .min h d a b => Sys2Proof.Machine.execMin h d a b s
  | .max h d a b => Sys2Proof.Machine.execMax h d a b s
  | .minu h d a b => Sys2Proof.Machine.execMinu h d a b s
  | .maxu h d a b => Sys2Proof.Machine.execMaxu h d a b s
  | .mul h d a b => Sys2Proof.Machine.execMul h d a b s
  | .mulh h d a b => Sys2Proof.Machine.execMulh h d a b s
  | .mulhu h d a b => Sys2Proof.Machine.execMulhu h d a b s
  | .div h d a b => Sys2Proof.Machine.execDiv h d a b s
  | .divu h d a b => Sys2Proof.Machine.execDivu h d a b s
  | .rem h d a b => Sys2Proof.Machine.execRem h d a b s
  | .remu h d a b => Sys2Proof.Machine.execRemu h d a b s
  | .clz h d a => Sys2Proof.Machine.execClz h d a s
  | .ctz h d a => Sys2Proof.Machine.execCtz h d a s
  | .popc h d a => Sys2Proof.Machine.execPopc h d a s
  | .andn h d a b => Sys2Proof.Machine.execAndn h d a b s
  | .orn h d a b => Sys2Proof.Machine.execOrn h d a b s
  | .addi h d a imm => Sys2Proof.Machine.execAddi h d a imm s
  | .andi h d a imm => Sys2Proof.Machine.execAndi h d a imm s
  | .ori h d a imm => Sys2Proof.Machine.execOri h d a imm s
  | .xori h d a imm => Sys2Proof.Machine.execXori h d a imm s
  | .slli h d a n => Sys2Proof.Machine.execSlli h d a n s
  | .srli h d a n => Sys2Proof.Machine.execSrli h d a n s
  | .srai h d a n => Sys2Proof.Machine.execSrai h d a n s
  | .li h d u => Sys2Proof.Machine.execLi h d u s
  | .li16 h d u => Sys2Proof.Machine.execLi16 h d u s
  | .li32 h d u => Sys2Proof.Machine.execLi32 h d u s
  | .li48 h d u => Sys2Proof.Machine.execLi48 h d u s
  | .cmpEq h d a b => Sys2Proof.Machine.execCmpEq h d a b s
  | .cmpNe h d a b => Sys2Proof.Machine.execCmpNe h d a b s
  | .cmpLt h d a b => Sys2Proof.Machine.execCmpLt h d a b s
  | .cmpLe h d a b => Sys2Proof.Machine.execCmpLe h d a b s
  | .cmpLtu h d a b => Sys2Proof.Machine.execCmpLtu h d a b s
  | .cmpLeu h d a b => Sys2Proof.Machine.execCmpLeu h d a b s
  | .pand h d a b => Sys2Proof.Machine.execPand h d a b s
  | .por h d a b => Sys2Proof.Machine.execPor h d a b s
  | .pxor h d a b => Sys2Proof.Machine.execPxor h d a b s
  | .pandn h d a b => Sys2Proof.Machine.execPandn h d a b s
  | .cmpiEq h d a imm => Sys2Proof.Machine.execCmpiEq h d a imm s
  | .cmpiNe h d a imm => Sys2Proof.Machine.execCmpiNe h d a imm s
  | .cmpiLt h d a imm => Sys2Proof.Machine.execCmpiLt h d a imm s
  | .cmpiGe h d a imm => Sys2Proof.Machine.execCmpiGe h d a imm s
  | .cmpiLtu h d a imm => Sys2Proof.Machine.execCmpiLtu h d a imm s
  | .cmpiGeu h d a imm => Sys2Proof.Machine.execCmpiGeu h d a imm s
  | .sel h d a b p => Sys2Proof.Machine.execSel h d a b p s
  | .addsh h d a b n => Sys2Proof.Machine.execAddsh h d a b n s
  | .br h o => Sys2Proof.Machine.execBr h o s
  | .call h a o => Sys2Proof.Machine.execCall h a o s
  | .jr h a => Sys2Proof.Machine.execJr h a s
  | .loop h a o => Sys2Proof.Machine.execLoop h a o s
  | .crd h d n => Sys2Proof.Machine.execCrd h d n s
  | .cwr h a n => Sys2Proof.Machine.execCwr h a n s
  | .fenceCore h => Sys2Proof.Machine.execFenceCore h s
  | .fenceCluster h => Sys2Proof.Machine.execFenceCluster h s
  | .fenceDie h => Sys2Proof.Machine.execFenceDie h s
  | .fencePkg h => Sys2Proof.Machine.execFencePkg h s
  | .fenceSys h => Sys2Proof.Machine.execFenceSys h s
  | .done h => Sys2Proof.Machine.execDone h s
  | .suspend h k => Sys2Proof.Machine.execSuspend h k s
  | .post h d a k => Sys2Proof.Machine.execPost h d a k s
  | .trap h k => Sys2Proof.Machine.execTrap h k s
  | .tret h => Sys2Proof.Machine.execTret h s
  | .ld h d a f o => Sys2Proof.Machine.execLd h d a f o s
  | .ldAcq h d a f o => Sys2Proof.Machine.execLdAcq h d a f o s
  | .st h d a f o => Sys2Proof.Machine.execSt h d a f o s
  | .stRel h d a f o => Sys2Proof.Machine.execStRel h d a f o s
  | .lsaln h => Sys2Proof.Machine.execLsaln h s
  | .amoAdd h d a b z => Sys2Proof.Machine.execAmoAdd h d a b z s
  | .amoAnd h d a b z => Sys2Proof.Machine.execAmoAnd h d a b z s
  | .amoOr h d a b z => Sys2Proof.Machine.execAmoOr h d a b z s
  | .amoXor h d a b z => Sys2Proof.Machine.execAmoXor h d a b z s
  | .amoMin h d a b z => Sys2Proof.Machine.execAmoMin h d a b z s
  | .amoMax h d a b z => Sys2Proof.Machine.execAmoMax h d a b z s
  | .amoMinu h d a b z => Sys2Proof.Machine.execAmoMinu h d a b z s
  | .amoMaxu h d a b z => Sys2Proof.Machine.execAmoMaxu h d a b z s
  | .amoSwap h d a b z => Sys2Proof.Machine.execAmoSwap h d a b z s
  | .amoCas h d a b z => Sys2Proof.Machine.execAmoCas h d a b z s
  | .qst h d a b t o z => Sys2Proof.Machine.execQst h d a b t o z s
  | .mwaitNe h d a b => Sys2Proof.Machine.execMwaitNe h d a b s
  | .mwaitEq h d a b => Sys2Proof.Machine.execMwaitEq h d a b s
  | .mwaitReread core fw => Sys2Proof.Machine.execMwaitReread core fw s
  | .vadd h m d a b t => Sys2Proof.Machine.execVadd h m d a b t s
  | .vsub h m d a b t => Sys2Proof.Machine.execVsub h m d a b t s
  | .vmul h m d a b t => Sys2Proof.Machine.execVmul h m d a b t s
  | .vfma h m d a b t => Sys2Proof.Machine.execVfma h m d a b t s
  | .vmin h m d a b t => Sys2Proof.Machine.execVmin h m d a b t s
  | .vmax h m d a b t => Sys2Proof.Machine.execVmax h m d a b t s
  | .vdiv h m d a b => Sys2Proof.Machine.execVdiv h m d a b s
  | .vsqrt h m d a => Sys2Proof.Machine.execVsqrt h m d a s
  | .vexp2 h m d a => Sys2Proof.Machine.execVexp2 h m d a s
  | .vabs h m d a t => Sys2Proof.Machine.execVabs h m d a t s
  | .vneg h m d a t => Sys2Proof.Machine.execVneg h m d a t s
  | .vadds h m d a b t => Sys2Proof.Machine.execVadds h m d a b t s
  | .vsubs h m d a b t => Sys2Proof.Machine.execVsubs h m d a b t s
  | .vand h m d a b => Sys2Proof.Machine.execVand h m d a b s
  | .vor h m d a b => Sys2Proof.Machine.execVor h m d a b s
  | .vxor h m d a b => Sys2Proof.Machine.execVxor h m d a b s
  | .vandn h m d a b => Sys2Proof.Machine.execVandn h m d a b s
  | .vsll h m d a b => Sys2Proof.Machine.execVsll h m d a b s
  | .vsrl h m d a b => Sys2Proof.Machine.execVsrl h m d a b s
  | .vsra h m d a b => Sys2Proof.Machine.execVsra h m d a b s
  | .vslli h m d a n => Sys2Proof.Machine.execVslli h m d a n s
  | .vsrli h m d a n => Sys2Proof.Machine.execVsrli h m d a n s
  | .vsrai h m d a n => Sys2Proof.Machine.execVsrai h m d a n s
  | .vclmulLo h m d a b => Sys2Proof.Machine.execVclmulLo h m d a b s
  | .vclmulHi h m d a b => Sys2Proof.Machine.execVclmulHi h m d a b s
  | .vpopc32 h m d a b => Sys2Proof.Machine.execVpopc32 h m d a b s
  | .vpopc64 h m d a b => Sys2Proof.Machine.execVpopc64 h m d a b s
  | .vcmpEq h m d a b t => Sys2Proof.Machine.execVcmpEq h m d a b t s
  | .vcmpLt h m d a b t => Sys2Proof.Machine.execVcmpLt h m d a b t s
  | .vcmpLe h m d a b t => Sys2Proof.Machine.execVcmpLe h m d a b t s
  | .vcmpLtu h m d a b t => Sys2Proof.Machine.execVcmpLtu h m d a b t s
  | .mand h m d a b => Sys2Proof.Machine.execMand h m d a b s
  | .mor h m d a b => Sys2Proof.Machine.execMor h m d a b s
  | .mxor h m d a b => Sys2Proof.Machine.execMxor h m d a b s
  | .mandn h m d a b => Sys2Proof.Machine.execMandn h m d a b s
  | .mnot h m d a => Sys2Proof.Machine.execMnot h m d a s
  | .mcnt h m d a => Sys2Proof.Machine.execMcnt h m d a s
  | .mfirst h m d a => Sys2Proof.Machine.execMfirst h m d a s
  | .vperm32 h m d a b => Sys2Proof.Machine.execVperm32 h m d a b s
  | .vslideup32 h m d a b => Sys2Proof.Machine.execVslideup32 h m d a b s
  | .vslidedn32 h m d a b => Sys2Proof.Machine.execVslidedn32 h m d a b s
  | .vbcast32 h m d a => Sys2Proof.Machine.execVbcast32 h m d a s
  | .vcompress32 h m d a => Sys2Proof.Machine.execVcompress32 h m d a s
  | .vexpand32 h m d a => Sys2Proof.Machine.execVexpand32 h m d a s
  | .vmov32 h m d a => Sys2Proof.Machine.execVmov32 h m d a s
  | .vperm8 h m d a b => Sys2Proof.Machine.execVperm8 h m d a b s
  | .vslideup8 h m d a b => Sys2Proof.Machine.execVslideup8 h m d a b s
  | .vslidedn8 h m d a b => Sys2Proof.Machine.execVslidedn8 h m d a b s
  | .vbcast8 h m d a => Sys2Proof.Machine.execVbcast8 h m d a s
  | .vcompress8 h m d a => Sys2Proof.Machine.execVcompress8 h m d a s
  | .vexpand8 h m d a => Sys2Proof.Machine.execVexpand8 h m d a s
  | .vmov8 h m d a => Sys2Proof.Machine.execVmov8 h m d a s
  | .vrsum h m d a t => Sys2Proof.Machine.execVrsum h m d a t s
  | .vrmax h m d a t => Sys2Proof.Machine.execVrmax h m d a t s
  | .vrmin h m d a t => Sys2Proof.Machine.execVrmin h m d a t s
  | .vscan h m d a t => Sys2Proof.Machine.execVscan h m d a t s
  | .vcvt h m d a cv r => Sys2Proof.Machine.execVcvt h m d a cv r s
  | .vqrec h t a b f => Sys2Proof.Machine.execVqrec h t a b f s
  | .vld h m d a b => Sys2Proof.Machine.execVld h m d a b s
  | .vlds h m d a b => Sys2Proof.Machine.execVlds h m d a b s
  | .vgather h m d a b => Sys2Proof.Machine.execVgather h m d a b s
  | .vldq h m d q => Sys2Proof.Machine.execVldq h m d q s
  | .vst h m d a b => Sys2Proof.Machine.execVst h m d a b s
  | .vsts h m d a b => Sys2Proof.Machine.execVsts h m d a b s
  | .vscatter h m d a b => Sys2Proof.Machine.execVscatter h m d a b s
  | .vstq h m d q => Sys2Proof.Machine.execVstq h m d q s
  | .vbind h d a => Sys2Proof.Machine.execVbind h d a s
  | .vunbind h d => Sys2Proof.Machine.execVunbind h d s
  | .streamRead core fw => Sys2Proof.Machine.execStreamRead core fw s
  | .vamoAddF32 h m d a => Sys2Proof.Machine.execVamoAddF32 h m d a s
  | .vamoAddBf16 h m d a => Sys2Proof.Machine.execVamoAddBf16 h m d a s
  | .vqst h m d a b t o => Sys2Proof.Machine.execVqst h m d a b t o s
  | .mmaDesc h d a b k => Sys2Proof.Machine.execMmaDesc h d a b k s
  | .mmaReg h d a b k => Sys2Proof.Machine.execMmaReg h d a b k s
  | .mmaRmt h d a b k => Sys2Proof.Machine.execMmaRmt h d a b k s
  | .mmaTileFetch core fw => Sys2Proof.Machine.execMmaTileFetch core fw s
  | .mmaAccumulate core fw => Sys2Proof.Machine.execMmaAccumulate core fw s
  | .mldF32 h d a => Sys2Proof.Machine.execMldF32 h d a s
  | .mldRaw h d a => Sys2Proof.Machine.execMldRaw h d a s
  | .mstF32 h d a => Sys2Proof.Machine.execMstF32 h d a s
  | .mstRaw h d a => Sys2Proof.Machine.execMstRaw h d a s
  | .mzero h d => Sys2Proof.Machine.execMzero h d s
  | .msmax h d => Sys2Proof.Machine.execMsmax h d s
  | .mread h d a b => Sys2Proof.Machine.execMread h d a b s
  | .mwrite h d a b => Sys2Proof.Machine.execMwrite h d a b s
  | .mqnt h d a k t => Sys2Proof.Machine.execMqnt h d a k t s
  | .cpy2d h d a b => Sys2Proof.Machine.execCpy2d h d a b s
  | .cpy2dCvtRelay h d a b => Sys2Proof.Machine.execCpy2dCvtRelay h d a b s
  | .cpy2dCvtQnt h d a b => Sys2Proof.Machine.execCpy2dCvtQnt h d a b s
  | .cpy2dCvtZexp h d a b => Sys2Proof.Machine.execCpy2dCvtZexp h d a b s
  | .cpy2dRedAddF32 h d a b => Sys2Proof.Machine.execCpy2dRedAddF32 h d a b s
  | .cpy2dRedAddBf16 h d a b => Sys2Proof.Machine.execCpy2dRedAddBf16 h d a b s
  | .cpy2dRedMaxF32 h d a b => Sys2Proof.Machine.execCpy2dRedMaxF32 h d a b s
  | .cpy2dRedMinF32 h d a b => Sys2Proof.Machine.execCpy2dRedMinF32 h d a b s
  | .cpy2dStamp h d a b => Sys2Proof.Machine.execCpy2dStamp h d a b s
  | .copyBox core slot => Sys2Proof.Machine.execCopyBox core slot s
  | .copyStamp core slot => Sys2Proof.Machine.execCopyStamp core slot s
  | .cpycan h a => Sys2Proof.Machine.execCpycan h a s
  | .nestLd h a => Sys2Proof.Machine.execNestLd h a s
  | .nestGo h => Sys2Proof.Machine.execNestGo h s
  | .nestWait h => Sys2Proof.Machine.execNestWait h s
  | .nestEmit core fw => Sys2Proof.Machine.execNestEmit core fw s
  | .binit h a b => Sys2Proof.Machine.execBinit h a b s
  | .bexp h a b => Sys2Proof.Machine.execBexp h a b s
  | .barrv h a b => Sys2Proof.Machine.execBarrv h a b s
  | .bwait h a b => Sys2Proof.Machine.execBwait h a b s
  | .btest h d a b => Sys2Proof.Machine.execBtest h d a b s
  | .krotInstall h d a b => Sys2Proof.Machine.execKrotInstall h d a b s
  | .krotQuery h d a b => Sys2Proof.Machine.execKrotQuery h d a b s
  | .krotRetire h d a b => Sys2Proof.Machine.execKrotRetire h d a b s
  | .krotDestroy h d a b => Sys2Proof.Machine.execKrotDestroy h d a b s
  | .sealChunks h d a b => Sys2Proof.Machine.execSealChunks h d a b s
  | .unsealChunks h d a b => Sys2Proof.Machine.execUnsealChunks h d a b s
  | .scrubRegions h d a b => Sys2Proof.Machine.execScrubRegions h d a b s
  | .scrubCluster h d a b => Sys2Proof.Machine.execScrubCluster h d a b s
  | .scrubCore h d a b => Sys2Proof.Machine.execScrubCore h d a b s
  | .capdrv h d a b => Sys2Proof.Machine.execCapdrv h d a b s
  | .capchk h d a b => Sys2Proof.Machine.execCapchk h d a b s
  | .capld h d a n => Sys2Proof.Machine.execCapld h d a n s
  | .capst h d a => Sys2Proof.Machine.execCapst h d a s
  | .sigchk h d a => Sys2Proof.Machine.execSigchk h d a s
  | .mext h d a b => Sys2Proof.Machine.execMext h d a b s
  | .slotswQuery h d a b => Sys2Proof.Machine.execSlotswQuery h d a b s
  | .slotswQuiesce h d a b => Sys2Proof.Machine.execSlotswQuiesce h d a b s
  | .slotswSwitch h d a b => Sys2Proof.Machine.execSlotswSwitch h d a b s
  | .slotswBeat h d a b => Sys2Proof.Machine.execSlotswBeat h d a b s
  | .slotswResume h d a b => Sys2Proof.Machine.execSlotswResume h d a b s
  | .heartbeatMissed => Sys2Proof.Machine.execHeartbeatMissed s
  | .fwFault core cause => Sys2Proof.Machine.execFwFault core cause s
  | .handUnit part => Sys2Proof.Machine.execHandUnit part s
  | .resumeRecord core => Sys2Proof.Machine.execResumeRecord core s
  | .shardWatch cluster idx => Sys2Proof.Machine.execShardWatch cluster idx s
  | .overflowRefill cluster => Sys2Proof.Machine.execOverflowRefill cluster s
  | .takeTrap core => Sys2Proof.Machine.execTakeTrap core s
  | .deferredFault core fw => Sys2Proof.Machine.execDeferredFault core fw s
  | .tokenExpire core => Sys2Proof.Machine.execTokenExpire core s
  | .watchdog core => Sys2Proof.Machine.execWatchdog core s
  | .loadReturn core fw => Sys2Proof.Machine.execLoadReturn core fw s
  | .storePerform core fw => Sys2Proof.Machine.execStorePerform core fw s
  | .bankRequest cluster bank => Sys2Proof.Machine.execBankRequest cluster bank s
  | .atomicEngineRequest cluster => Sys2Proof.Machine.execAtomicEngineRequest cluster s
  | .leaseLookup core fw => Sys2Proof.Machine.execLeaseLookup core fw s
  | .translate core fw => Sys2Proof.Machine.execTranslate core fw s
  | .counterWrite core fw => Sys2Proof.Machine.execCounterWrite core fw s
  | .nodeWriteback die level node => Sys2Proof.Machine.execNodeWriteback die level node s
  | .memSweep part => Sys2Proof.Machine.execMemSweep part s
  | .keyDrained slot => Sys2Proof.Machine.execKeyDrained slot s
  | .rampWindow core => Sys2Proof.Machine.execRampWindow core s
  | .inval die => Sys2Proof.Machine.execInval die s
  | .invalAll die => Sys2Proof.Machine.execInvalAll die s
  | .evict die => Sys2Proof.Machine.execEvict die s
  | .evictComplete die => Sys2Proof.Machine.execEvictComplete die s
  | .migrate die => Sys2Proof.Machine.execMigrate die s
  | .migrateMove die => Sys2Proof.Machine.execMigrateMove die s
  | .present die => Sys2Proof.Machine.execPresent die s
  | .refuse die => Sys2Proof.Machine.execRefuse die s
  | .wnop units => Sys2Proof.Machine.execWnop units s
  | .wbuf fixed depth buf size base => Sys2Proof.Machine.execWbuf fixed depth buf size base s
  | .wfree buf => Sys2Proof.Machine.execWfree buf s
  | .wtask r => Sys2Proof.Machine.execWtask r s
  | .wcall bufForm buf length target => Sys2Proof.Machine.execWcall bufForm buf length target s
  | .wret => Sys2Proof.Machine.execWret s
  | .wpred cond buf skip offset value mask => Sys2Proof.Machine.execWpred cond buf skip offset value mask s
  | .wloop count endoff => Sys2Proof.Machine.execWloop count endoff s
  | .wend => Sys2Proof.Machine.execWend s
  | .wfence => Sys2Proof.Machine.execWfence s
  | .wfenceT buf offset => Sys2Proof.Machine.execWfenceT buf offset s
  | .wwait cond buf limit offset value mask => Sys2Proof.Machine.execWwait cond buf limit offset value mask s
  | .wwaitReread part => Sys2Proof.Machine.execWwaitReread part s
  | .wwaitLimit part => Sys2Proof.Machine.execWwaitLimit part s
  | .wsignalSt irq buf vector offset value => Sys2Proof.Machine.execWsignalSt irq buf vector offset value s
  | .wsignalAdd irq buf vector offset value => Sys2Proof.Machine.execWsignalAdd irq buf vector offset value s
  | .wsignalEffect part => Sys2Proof.Machine.execWsignalEffect part s
  | .wgraph pre buf offset => Sys2Proof.Machine.execWgraph pre buf offset s
  | .wphase job id => Sys2Proof.Machine.execWphase job id s
  | .wcancelLaunch tag => Sys2Proof.Machine.execWcancelLaunch tag s
  | .wcancelGraph id => Sys2Proof.Machine.execWcancelGraph id s
  | .wcancelPhase id => Sys2Proof.Machine.execWcancelPhase id s
  | .wcancelJob id => Sys2Proof.Machine.execWcancelJob id s
  | .whalt code => Sys2Proof.Machine.execWhalt code s
  | .haltEffect part => Sys2Proof.Machine.execHaltEffect part s
  | .streamFault part => Sys2Proof.Machine.execStreamFault part s
  | .fetchBlock part => Sys2Proof.Machine.execFetchBlock part s
  | .leaseGrant part => Sys2Proof.Machine.execLeaseGrant part s
  | .issueLaunch part => Sys2Proof.Machine.execIssueLaunch part s
  | .retire part => Sys2Proof.Machine.execRetire part s
  | .faultReport part => Sys2Proof.Machine.execFaultReport part s
  | .cancel part => Sys2Proof.Machine.execCancel part s
  | .pick part => Sys2Proof.Machine.execPick part s
  | .pickTimeout part => Sys2Proof.Machine.execPickTimeout part s
  | .sliceExpire part => Sys2Proof.Machine.execSliceExpire part s
  | .entryComplete part => Sys2Proof.Machine.execEntryComplete part s
  | .enable part => Sys2Proof.Machine.execEnable part s
  | .restart part => Sys2Proof.Machine.execRestart part s
  | .skip part => Sys2Proof.Machine.execSkip part s
  | .drop part => Sys2Proof.Machine.execDrop part s
  | .stop part => Sys2Proof.Machine.execStop part s
  | .clrerr part => Sys2Proof.Machine.execClrerr part s
  | .qtailWrite part queue tail => Sys2Proof.Machine.execQtailWrite part queue tail s
  | .jobcan part value => Sys2Proof.Machine.execJobcan part value s
  | .regWrite vf offset wide value => Sys2Proof.Machine.execRegWrite vf offset wide value s
  | .vfFlr part => Sys2Proof.Machine.execVfFlr part s
  | .bar2Read part offset size => Sys2Proof.Machine.execBar2Read part offset size s
  | .bar2Write part offset size value => Sys2Proof.Machine.execBar2Write part offset size value s
  | .pickq part => Sys2Proof.Machine.execPickq part s
  | .abandon part => Sys2Proof.Machine.execAbandon part s
  | .save part => Sys2Proof.Machine.execSave part s
  | .saveWrite core => Sys2Proof.Machine.execSaveWrite core s
  | .restore part => Sys2Proof.Machine.execRestore part s
  | .topiaryLit k => Sys2Proof.Machine.execTopiaryLit k s
  | .topiaryDup => Sys2Proof.Machine.execTopiaryDup s
  | .topiaryDrop => Sys2Proof.Machine.execTopiaryDrop s
  | .topiarySwap => Sys2Proof.Machine.execTopiarySwap s
  | .topiaryLdq f => Sys2Proof.Machine.execTopiaryLdq f s
  | .topiaryLdl n => Sys2Proof.Machine.execTopiaryLdl n s
  | .topiaryStl n => Sys2Proof.Machine.execTopiaryStl n s
  | .topiaryAdd => Sys2Proof.Machine.execTopiaryAdd s
  | .topiarySub => Sys2Proof.Machine.execTopiarySub s
  | .topiaryMul => Sys2Proof.Machine.execTopiaryMul s
  | .topiaryMin => Sys2Proof.Machine.execTopiaryMin s
  | .topiaryMax => Sys2Proof.Machine.execTopiaryMax s
  | .topiaryAnd => Sys2Proof.Machine.execTopiaryAnd s
  | .topiaryOr => Sys2Proof.Machine.execTopiaryOr s
  | .topiaryLt => Sys2Proof.Machine.execTopiaryLt s
  | .topiaryEq => Sys2Proof.Machine.execTopiaryEq s
  | .topiaryJz d => Sys2Proof.Machine.execTopiaryJz d s
  | .topiaryJmp d => Sys2Proof.Machine.execTopiaryJmp d s
  | .topiaryForq n => Sys2Proof.Machine.execTopiaryForq n s
  | .topiaryNextq => Sys2Proof.Machine.execTopiaryNextq s
  | .topiaryPick => Sys2Proof.Machine.execTopiaryPick s
  | .topiarySlice => Sys2Proof.Machine.execTopiarySlice s
  | .topiaryRet => Sys2Proof.Machine.execTopiaryRet s
  | .rd m => Sys2Proof.Machine.execRd m s
  | .rdrsp m => Sys2Proof.Machine.execRdrsp m s
  | .wr m => Sys2Proof.Machine.execWr m s
  | .wrack m => Sys2Proof.Machine.execWrack m s
  | .qstMessage m => Sys2Proof.Machine.execQstMessage m s
  | .land m => Sys2Proof.Machine.execLand m s
  | .rel m => Sys2Proof.Machine.execRel m s
  | .amoMessage m => Sys2Proof.Machine.execAmoMessage m s
  | .amorsp m => Sys2Proof.Machine.execAmorsp m s
  | .vamoMessage m => Sys2Proof.Machine.execVamoMessage m s
  | .red m => Sys2Proof.Machine.execRed m s
  | .tile m => Sys2Proof.Machine.execTile m s
  | .tilersp m => Sys2Proof.Machine.execTilersp m s
  | .holdfull m => Sys2Proof.Machine.execHoldfull m s
  | .err m => Sys2Proof.Machine.execErr m s
  | .holdExpire entry => Sys2Proof.Machine.execHoldExpire entry s
  | .escapeRoute idx => Sys2Proof.Machine.execEscapeRoute idx s
  | .flitReceive link flit => Sys2Proof.Machine.execFlitReceive link flit s
  | .poolStopGo link pool => Sys2Proof.Machine.execPoolStopGo link pool s
  | .linkTrain link k => Sys2Proof.Machine.execLinkTrain link k s
  | .hfcfgWrite reg value => Sys2Proof.Machine.execHfcfgWrite reg value s
  | .getTdispVersion part => Sys2Proof.Machine.execGetTdispVersion part s
  | .getTdispCapabilities part => Sys2Proof.Machine.execGetTdispCapabilities part s
  | .lockInterfaceRequest part => Sys2Proof.Machine.execLockInterfaceRequest part s
  | .getDeviceInterfaceReport part => Sys2Proof.Machine.execGetDeviceInterfaceReport part s
  | .getDeviceInterfaceState part => Sys2Proof.Machine.execGetDeviceInterfaceState part s
  | .startInterfaceRequest part => Sys2Proof.Machine.execStartInterfaceRequest part s
  | .stopInterfaceRequest part => Sys2Proof.Machine.execStopInterfaceRequest part s
  | .setSealSecret part secret => Sys2Proof.Machine.execSetSealSecret part secret s
  | .tdiError part => Sys2Proof.Machine.execTdiError part s
  | .getVersion => Sys2Proof.Machine.execGetVersion s
  | .getCapabilities => Sys2Proof.Machine.execGetCapabilities s
  | .negotiateAlgorithms => Sys2Proof.Machine.execNegotiateAlgorithms s
  | .getDigests => Sys2Proof.Machine.execGetDigests s
  | .getCertificate offset length => Sys2Proof.Machine.execGetCertificate offset length s
  | .challenge nonce => Sys2Proof.Machine.execChallenge nonce s
  | .getMeasurements index nonce => Sys2Proof.Machine.execGetMeasurements index nonce s
  | .keyExchange peer share => Sys2Proof.Machine.execKeyExchange peer share s
  | .finish session => Sys2Proof.Machine.execFinish session s
  | .endSession session => Sys2Proof.Machine.execEndSession session s
  | .uncorrectableError die addr site => Sys2Proof.Machine.execUncorrectableError die addr site s
  | .correctableError cls => Sys2Proof.Machine.execCorrectableError cls s
  | .admtailWrite tail => Sys2Proof.Machine.execAdmtailWrite tail s
  | .create => Sys2Proof.Machine.execCreate s
  | .destroy => Sys2Proof.Machine.execDestroy s
  | .wipe => Sys2Proof.Machine.execWipe s
  | .meter => Sys2Proof.Machine.execMeter s
  | .intervalCut part => Sys2Proof.Machine.execIntervalCut part s
  | .pwrcmdWrite value => Sys2Proof.Machine.execPwrcmdWrite value s
  | .thermclr value => Sys2Proof.Machine.execThermclr value s
  | .thermalTrip1 temp => Sys2Proof.Machine.execThermalTrip1 temp s
  | .thermalTrip2 temp => Sys2Proof.Machine.execThermalTrip2 temp s
  | .updreqWrite value => Sys2Proof.Machine.execUpdreqWrite value s
  | .pfidRead => Sys2Proof.Machine.execPfidRead s
  | .pfBar2Write offset size value => Sys2Proof.Machine.execPfBar2Write offset size value s
  | .reset => Sys2Proof.Machine.execReset s
  | .linkDown link => Sys2Proof.Machine.execLinkDown link s
  | .quantBlockWritten core fw => Sys2Proof.Machine.execQuantBlockWritten core fw s
  | .regintBoundary => Sys2Proof.Machine.execRegintBoundary s

end Sys2Proof.Machine
end

