-- ==== Sys2Proof/Machine/Turn.lean ====
section
/-! DEFINITION. What one turn does (R4): an issue, a stream record, a Topiary operation, an event, or an input from outside. -/

namespace Sys2Proof.Machine

/-! ### Inputs -/

/-- The rows of the opcode table that the outside world brings about. (DESIGN CHOICE: log 32.) -/
def isInput : Instr → Bool
  | .rd _ | .rdrsp _ | .wr _ | .wrack _ | .qstMessage _ | .land _ | .rel _ | .amoMessage _ | .amorsp _ | .vamoMessage _ | .red _
  | .tile _ | .tilersp _ | .holdfull _ | .err _ | .flitReceive _ _ | .poolStopGo _ _ | .linkTrain _ _ | .linkDown _
  | .hfcfgWrite _ _ | .getTdispVersion _ | .getTdispCapabilities _ | .lockInterfaceRequest _ | .getDeviceInterfaceReport _
  | .getDeviceInterfaceState _ | .startInterfaceRequest _ | .stopInterfaceRequest _ | .setSealSecret _ _ | .tdiError _
  | .getVersion | .getCapabilities | .negotiateAlgorithms | .getDigests | .getCertificate _ _ | .challenge _
  | .getMeasurements _ _ | .keyExchange _ _ | .finish _ | .endSession _ | .uncorrectableError _ _ _ | .correctableError _
  | .admtailWrite _ | .pwrcmdWrite _ | .thermclr _ | .thermalTrip1 _ | .thermalTrip2 _ | .updreqWrite _ | .pfidRead
  | .pfBar2Write _ _ _ | .reset | .regWrite _ _ _ _ | .vfFlr _ | .qtailWrite _ _ _ | .enable _ | .restart _ | .skip _ | .drop _
  | .stop _ | .clrerr _ | .jobcan _ _ | .bar2Read _ _ _ | .bar2Write _ _ _ _ => true
  | _ => false

/-- R308, R351: the standing leases of a partition change; a change while the TDI is locked moves it to ERROR. (DESIGN CHOICE: log 32.) -/
def changeLeases (s : State) (p : Fin 16) (l : List Lease) (next : Nat) : State :=
  tdiToError (s.putPart p { s.parts[p] with leases := l, nextLease := next }) p

/-- R351: whether an access that is not on the TDI's selective IDE stream with the T bit set is refused: its TDI is in RUN. -/
def plainRefused (s : State) (p : Fin 16) : Bool := s.parts[p].prot && s.parts[p].tdi == .run

/-- R351: a refused access: a read answers all ones, a write is dropped. -/
def plainAnswer (s : State) (n : Nat) : Option Word → State
  | none => answerHost s (List.replicate n (BitVec.allOnes 8))
  | some _ => s

/-- R304, R308, R351, R361, R379: what an input does that no row of the opcode table names. (DESIGN CHOICE: log 32.) -/
def outside (s : State) : Input → State
  | .event _ => s
  | .hostWrite iova bs => s.store (hostAddr iova.toNat) bs
  | .barRead fn o n => barRead s fn o.toNat n
  | .barWrite fn o n x => barWrite s fn o.toNat n x
  | .plainBar0 p o n x =>
    if plainRefused s p then plainAnswer s n x
    else match x with
      | none => barRead s (some p) o.toNat n
      | some v => barWrite s (some p) o.toNat n v
  | .plainBar2 _ _ _ _ => s
  | .attestOther => reply s .error []
  | .pfBar2Read o size => pfBar2Read s o.toNat (memBytes size)
  | .linkSignal k pool stop =>
    let l := s.fabric.links[k]
    { s with fabric := { s.fabric with links := vput s.fabric.links k { l with far := vput l.far pool stop } } }
  | .policy p ops => loadPolicy s p ops
  | .root d p x =>
    if x.toNat / 2 ^ 40 = 0 ∧ x.toNat % 2 ^ 13 / 2 = 0 then s.putDie d { s.dies[d] with roots := vput s.dies[d].roots p x } else s
  | .grantLease p lo len w =>
    let q := s.parts[p]
    if (q.leases.filter (·.holder.isNone)).length < 256 then
      changeLeases s p (q.leases ++ [⟨q.nextLease, lo, len, w, none⟩]) (q.nextLease + 1)
    else s
  | .releaseLease p i =>
    let q := s.parts[p]
    let s := changeLeases s p (q.leases.filter fun l => !(l.id == i && l.holder.isNone)) q.nextLease
    let forget (k : Fin 64) : Cluster :=
      if s.partOfCluster k = some p then { s.clusters[k] with leaseCache := s.clusters[k].leaseCache.filter (· != i) } else s.clusters[k]
    { s with clusters := Vector.ofFn forget }

/-- What an input leaves: one that cannot be taken yet stays in the inbox. (DEDUCED: log 24; DESIGN CHOICE: log 32.) -/
def endInput (s : State) : Out → Out
  | .next t => if t.mark = .stall then .next { t with mark := .none, inbox := s.inbox } else .next { t with mark := .none }
  | r => r

/-- The next input. One that cannot be taken yet stays. (DEDUCED: log 24; DESIGN CHOICE: log 32.) -/
def takeInput (s : State) : Out :=
  match s.inbox with
  | [] => .next s
  | .event i :: rest =>
    if !isInput i then .next { s with inbox := rest } else endInput s (exec i { s with inbox := rest })
  | .plainBar2 p o size x :: rest =>
    let s' := { s with inbox := rest }
    if plainRefused s p then .next (plainAnswer s' (memBytes size) x)
    else endInput s (match x with
      | none => execBar2Read p o size s'
      | some v => execBar2Write p o size v s')
  | i :: rest => .next (outside { s with inbox := rest } i)

/-! ### Turns -/

/-- R392: vector 4 is raised when the update status word has changed. -/
def watchUpdstat (old s : State) : State :=
  if old.load (devAddr updstatAddr) 8 = s.load (devAddr updstatAddr) 8 then s else pfRaise s 4

/-- The turn in hand. R406: with TRIP2 set no context issues. (DESIGN CHOICE: log 2.) -/
def runTurn (s : State) : Out :=
  match s.turn with
  | .issue => if s.pf.trip2 then .next s else issue exec s
  | .stream => streamTurn exec s
  | .topiary => topiaryTurn exec s
  | .event e => runEvent e s
  | .input => takeInput s

/-- A turn, with what follows it. (DESIGN CHOICE: log 2.) -/
def afterTurn (s : State) : Out → Out
  | .next t => .next (endStep (watchUpdstat s t))
  | r => r

end Sys2Proof.Machine
end

