-- ==== Sys2Proof/Machine/Step.lean ====
section
/-! DEFINITION. The step of the package: the turn in hand, and then the next turn. -/

namespace Sys2Proof.Machine

/-- One step. -/
def step (s : State) : Host.Outcome State Fault Refusal := afterTurn s (runTurn s)

/-- A state whose next step runs one instruction: a Topiary operation, or a tile word. (DESIGN CHOICE: log 1.) -/
def State.withFetchWord (s : State) (nbits w : Nat) : State :=
  if nbits = 16 then withTopiaryWord s w else withTileWord s w

end Sys2Proof.Machine
end

