-- ==== Sys2Proof/Safety.lean ====
section
/-! DEFINITION. What a safe run is, and the terms that claims use: what a step keeps, and what a word leaves alone. -/

namespace Sys2Proof

/-- The state an outcome goes on with, if it goes on. -/
def Machine.goesOn : Machine.Out → Option Machine.State
  | .next t => some t
  | _ => none

/-- Whether an instruction, as the next thing to happen in a state, leaves a next state. -/
def Machine.Completes (i : Instr) (s : Machine.State) : Prop := ∃ t, Machine.exec i s = .next t

/-- The canonical form of a state's memory. -/
def Machine.State.memWf (s : Machine.State) : Prop := Machine.Memory.wf s.mem = true

/-- A safe run: from a state, every number of steps goes on, with no fault and no refusal. -/
def Safe (s : Machine.State) : Prop := ∀ n : Nat, ∃ t, core.run n s = .next t

/-- What every step keeps. -/
def Kept (p : Machine.State → Prop) : Prop := ∀ s t, p s → Machine.step s = .next t → p t

namespace Machine

/-! ### Frames -/

/-- Every byte of memory reads as before, and every capability tag stands. -/
def SameMemory (s t : State) : Prop := (∀ a, readByte t.mem a = readByte s.mem a) ∧ t.caps = s.caps

/-- Every byte of memory outside a range reads as before. -/
def SameOutside (s t : State) (a n : Nat) : Prop := ∀ x, x < a ∨ a + n ≤ x → readByte t.mem x = readByte s.mem x

/-- What lies outside the cores, the memory and the fields of the turn in hand is as before. -/
def SameRest (s t : State) : Prop :=
  t.clusters = s.clusters ∧ t.dies = s.dies ∧ t.parts = s.parts ∧ t.aux = s.aux ∧ t.hub = s.hub ∧ t.fabric = s.fabric ∧
    t.pf = s.pf

/-- Every core but the acting one is as before. -/
def SameOtherCores (s t : State) : Prop := ∀ c, c ≠ s.core → t.cores[c] = s.cores[c]

/-- The acting core's other context, its control registers and all that its two contexts share are as before. -/
def SameShared (s t : State) : Prop := t.cur = s.cur.setCtx s.fw t.ctx

/-- The acting context differs in its register files only: its PC, loop stack, queues, streams and n-table stand. -/
def SameButRegs (s t : State) : Prop := t.ctx = { s.ctx with regs := t.ctx.regs }

/-- Two states that differ in the register files of the acting context only. -/
def OnlyRegs (s t : State) : Prop :=
  SameMemory s t ∧ SameRest s t ∧ SameOtherCores s t ∧ SameShared s t ∧ SameButRegs s t ∧
    t.core = s.core ∧ t.fw = s.fw ∧ t.mark = s.mark ∧ t.redirect = s.redirect

/-- A word has joined the queues of the acting context as an entry, and has changed nothing else. -/
def Queued (s t : State) (e : QEnt) : Prop :=
  t.ctx = { s.ctx with mq := s.ctx.mq ++ [e] } ∧ SameMemory s t ∧ SameRest s t ∧ SameOtherCores s t ∧ SameShared s t ∧
    t.core = s.core ∧ t.fw = s.fw ∧ t.mark = s.mark ∧ e.id = s.serial ∧ e.stage = .waiting

/-- The one register that a word writes, by its file. -/
inductive Dest where
  | s (r : BitVec 5)
  | p (r : BitVec 3)
  | v (r : BitVec 5)
  | m (r : BitVec 3)
  | a (r : BitVec 4)
deriving DecidableEq, Repr

/-- Every register of the acting context but one reads as before. -/
def OtherRegs (s t : State) (d : Dest) : Prop :=
  (∀ r, d ≠ .s r → t.ctx.regs.getS r = s.ctx.regs.getS r) ∧ (∀ r, d ≠ .p r → t.ctx.regs.getP r = s.ctx.regs.getP r) ∧
    (∀ r, d ≠ .v r → t.ctx.regs.getV r = s.ctx.regs.getV r) ∧ (∀ r, d ≠ .m r → t.ctx.regs.getM r = s.ctx.regs.getM r) ∧
    (∀ r, d ≠ .a r → t.ctx.regs.getA r = s.ctx.regs.getA r)

end Machine

/-! ### Parts of a tile word -/

/-- R52: the chain bit and the guard of a tile word; the other rows have none. -/
def headOf : Instr → Option Head
  | .add h _ _ _ => some h
  | .sub h _ _ _ => some h
  | .and h _ _ _ => some h
  | .or h _ _ _ => some h
  | .xor h _ _ _ => some h
  | .sll h _ _ _ => some h
  | .srl h _ _ _ => some h
  | .sra h _ _ _ => some h
  | .min h _ _ _ => some h
  | .max h _ _ _ => some h
  | .minu h _ _ _ => some h
  | .maxu h _ _ _ => some h
  | .mul h _ _ _ => some h
  | .mulh h _ _ _ => some h
  | .mulhu h _ _ _ => some h
  | .div h _ _ _ => some h
  | .divu h _ _ _ => some h
  | .rem h _ _ _ => some h
  | .remu h _ _ _ => some h
  | .clz h _ _ => some h
  | .ctz h _ _ => some h
  | .popc h _ _ => some h
  | .andn h _ _ _ => some h
  | .orn h _ _ _ => some h
  | .addi h _ _ _ => some h
  | .andi h _ _ _ => some h
  | .ori h _ _ _ => some h
  | .xori h _ _ _ => some h
  | .slli h _ _ _ => some h
  | .srli h _ _ _ => some h
  | .srai h _ _ _ => some h
  | .li h _ _ => some h
  | .li16 h _ _ => some h
  | .li32 h _ _ => some h
  | .li48 h _ _ => some h
  | .cmpEq h _ _ _ => some h
  | .cmpNe h _ _ _ => some h
  | .cmpLt h _ _ _ => some h
  | .cmpLe h _ _ _ => some h
  | .cmpLtu h _ _ _ => some h
  | .cmpLeu h _ _ _ => some h
  | .pand h _ _ _ => some h
  | .por h _ _ _ => some h
  | .pxor h _ _ _ => some h
  | .pandn h _ _ _ => some h
  | .cmpiEq h _ _ _ => some h
  | .cmpiNe h _ _ _ => some h
  | .cmpiLt h _ _ _ => some h
  | .cmpiGe h _ _ _ => some h
  | .cmpiLtu h _ _ _ => some h
  | .cmpiGeu h _ _ _ => some h
  | .sel h _ _ _ _ => some h
  | .addsh h _ _ _ _ => some h
  | .br h _ => some h
  | .call h _ _ => some h
  | .jr h _ => some h
  | .loop h _ _ => some h
  | .crd h _ _ => some h
  | .cwr h _ _ => some h
  | .fenceCore h => some h
  | .fenceCluster h => some h
  | .fenceDie h => some h
  | .fencePkg h => some h
  | .fenceSys h => some h
  | .done h => some h
  | .suspend h _ => some h
  | .post h _ _ _ => some h
  | .trap h _ => some h
  | .tret h => some h
  | .ld h _ _ _ _ => some h
  | .ldAcq h _ _ _ _ => some h
  | .st h _ _ _ _ => some h
  | .stRel h _ _ _ _ => some h
  | .lsaln h => some h
  | .amoAdd h _ _ _ _ => some h
  | .amoAnd h _ _ _ _ => some h
  | .amoOr h _ _ _ _ => some h
  | .amoXor h _ _ _ _ => some h
  | .amoMin h _ _ _ _ => some h
  | .amoMax h _ _ _ _ => some h
  | .amoMinu h _ _ _ _ => some h
  | .amoMaxu h _ _ _ _ => some h
  | .amoSwap h _ _ _ _ => some h
  | .amoCas h _ _ _ _ => some h
  | .qst h _ _ _ _ _ _ => some h
  | .mwaitNe h _ _ _ => some h
  | .mwaitEq h _ _ _ => some h
  | .vadd h _ _ _ _ _ => some h
  | .vsub h _ _ _ _ _ => some h
  | .vmul h _ _ _ _ _ => some h
  | .vfma h _ _ _ _ _ => some h
  | .vmin h _ _ _ _ _ => some h
  | .vmax h _ _ _ _ _ => some h
  | .vdiv h _ _ _ _ => some h
  | .vsqrt h _ _ _ => some h
  | .vexp2 h _ _ _ => some h
  | .vabs h _ _ _ _ => some h
  | .vneg h _ _ _ _ => some h
  | .vadds h _ _ _ _ _ => some h
  | .vsubs h _ _ _ _ _ => some h
  | .vand h _ _ _ _ => some h
  | .vor h _ _ _ _ => some h
  | .vxor h _ _ _ _ => some h
  | .vandn h _ _ _ _ => some h
  | .vsll h _ _ _ _ => some h
  | .vsrl h _ _ _ _ => some h
  | .vsra h _ _ _ _ => some h
  | .vslli h _ _ _ _ => some h
  | .vsrli h _ _ _ _ => some h
  | .vsrai h _ _ _ _ => some h
  | .vclmulLo h _ _ _ _ => some h
  | .vclmulHi h _ _ _ _ => some h
  | .vpopc32 h _ _ _ _ => some h
  | .vpopc64 h _ _ _ _ => some h
  | .vcmpEq h _ _ _ _ _ => some h
  | .vcmpLt h _ _ _ _ _ => some h
  | .vcmpLe h _ _ _ _ _ => some h
  | .vcmpLtu h _ _ _ _ _ => some h
  | .mand h _ _ _ _ => some h
  | .mor h _ _ _ _ => some h
  | .mxor h _ _ _ _ => some h
  | .mandn h _ _ _ _ => some h
  | .mnot h _ _ _ => some h
  | .mcnt h _ _ _ => some h
  | .mfirst h _ _ _ => some h
  | .vperm32 h _ _ _ _ => some h
  | .vslideup32 h _ _ _ _ => some h
  | .vslidedn32 h _ _ _ _ => some h
  | .vbcast32 h _ _ _ => some h
  | .vcompress32 h _ _ _ => some h
  | .vexpand32 h _ _ _ => some h
  | .vmov32 h _ _ _ => some h
  | .vperm8 h _ _ _ _ => some h
  | .vslideup8 h _ _ _ _ => some h
  | .vslidedn8 h _ _ _ _ => some h
  | .vbcast8 h _ _ _ => some h
  | .vcompress8 h _ _ _ => some h
  | .vexpand8 h _ _ _ => some h
  | .vmov8 h _ _ _ => some h
  | .vrsum h _ _ _ _ => some h
  | .vrmax h _ _ _ _ => some h
  | .vrmin h _ _ _ _ => some h
  | .vscan h _ _ _ _ => some h
  | .vcvt h _ _ _ _ _ => some h
  | .vqrec h _ _ _ _ => some h
  | .vld h _ _ _ _ => some h
  | .vlds h _ _ _ _ => some h
  | .vgather h _ _ _ _ => some h
  | .vldq h _ _ _ => some h
  | .vst h _ _ _ _ => some h
  | .vsts h _ _ _ _ => some h
  | .vscatter h _ _ _ _ => some h
  | .vstq h _ _ _ => some h
  | .vbind h _ _ => some h
  | .vunbind h _ => some h
  | .vamoAddF32 h _ _ _ => some h
  | .vamoAddBf16 h _ _ _ => some h
  | .vqst h _ _ _ _ _ _ => some h
  | .mmaDesc h _ _ _ _ => some h
  | .mmaReg h _ _ _ _ => some h
  | .mmaRmt h _ _ _ _ => some h
  | .mldF32 h _ _ => some h
  | .mldRaw h _ _ => some h
  | .mstF32 h _ _ => some h
  | .mstRaw h _ _ => some h
  | .mzero h _ => some h
  | .msmax h _ => some h
  | .mread h _ _ _ => some h
  | .mwrite h _ _ _ => some h
  | .mqnt h _ _ _ _ => some h
  | .cpy2d h _ _ _ => some h
  | .cpy2dCvtRelay h _ _ _ => some h
  | .cpy2dCvtQnt h _ _ _ => some h
  | .cpy2dCvtZexp h _ _ _ => some h
  | .cpy2dRedAddF32 h _ _ _ => some h
  | .cpy2dRedAddBf16 h _ _ _ => some h
  | .cpy2dRedMaxF32 h _ _ _ => some h
  | .cpy2dRedMinF32 h _ _ _ => some h
  | .cpy2dStamp h _ _ _ => some h
  | .cpycan h _ => some h
  | .nestLd h _ => some h
  | .nestGo h => some h
  | .nestWait h => some h
  | .binit h _ _ => some h
  | .bexp h _ _ => some h
  | .barrv h _ _ => some h
  | .bwait h _ _ => some h
  | .btest h _ _ _ => some h
  | .krotInstall h _ _ _ => some h
  | .krotQuery h _ _ _ => some h
  | .krotRetire h _ _ _ => some h
  | .krotDestroy h _ _ _ => some h
  | .sealChunks h _ _ _ => some h
  | .unsealChunks h _ _ _ => some h
  | .scrubRegions h _ _ _ => some h
  | .scrubCluster h _ _ _ => some h
  | .scrubCore h _ _ _ => some h
  | .capdrv h _ _ _ => some h
  | .capchk h _ _ _ => some h
  | .capld h _ _ _ => some h
  | .capst h _ _ => some h
  | .sigchk h _ _ => some h
  | .mext h _ _ _ => some h
  | .slotswQuery h _ _ _ => some h
  | .slotswQuiesce h _ _ _ => some h
  | .slotswSwitch h _ _ _ => some h
  | .slotswBeat h _ _ _ => some h
  | .slotswResume h _ _ _ => some h
  | _ => none

/-- R332, R350, R390: the rows whose word is that of an earlier row. A register tells them apart. -/
def sharesWord : Instr → Bool
  | .krotQuery _ _ _ _ | .krotRetire _ _ _ _ | .krotDestroy _ _ _ _ | .scrubCluster _ _ _ _ | .scrubCore _ _ _ _ => true
  | .slotswQuiesce _ _ _ _ | .slotswSwitch _ _ _ _ | .slotswBeat _ _ _ _ | .slotswResume _ _ _ _ => true
  | _ => false

/-- R101, R72 to R76, R102 to R111, R124 to R129: the words that write one register and nothing else. -/
def onlyDest : Instr → Option Machine.Dest
  | .add _ d _ _ => some (.s d)
  | .sub _ d _ _ => some (.s d)
  | .and _ d _ _ => some (.s d)
  | .or _ d _ _ => some (.s d)
  | .xor _ d _ _ => some (.s d)
  | .sll _ d _ _ => some (.s d)
  | .srl _ d _ _ => some (.s d)
  | .sra _ d _ _ => some (.s d)
  | .min _ d _ _ => some (.s d)
  | .max _ d _ _ => some (.s d)
  | .minu _ d _ _ => some (.s d)
  | .maxu _ d _ _ => some (.s d)
  | .mul _ d _ _ => some (.s d)
  | .mulh _ d _ _ => some (.s d)
  | .mulhu _ d _ _ => some (.s d)
  | .div _ d _ _ => some (.s d)
  | .divu _ d _ _ => some (.s d)
  | .rem _ d _ _ => some (.s d)
  | .remu _ d _ _ => some (.s d)
  | .clz _ d _ => some (.s d)
  | .ctz _ d _ => some (.s d)
  | .popc _ d _ => some (.s d)
  | .andn _ d _ _ => some (.s d)
  | .orn _ d _ _ => some (.s d)
  | .addi _ d _ _ => some (.s d)
  | .andi _ d _ _ => some (.s d)
  | .ori _ d _ _ => some (.s d)
  | .xori _ d _ _ => some (.s d)
  | .slli _ d _ _ => some (.s d)
  | .srli _ d _ _ => some (.s d)
  | .srai _ d _ _ => some (.s d)
  | .li _ d _ => some (.s d)
  | .li16 _ d _ => some (.s d)
  | .li32 _ d _ => some (.s d)
  | .li48 _ d _ => some (.s d)
  | .sel _ d _ _ _ => some (.s d)
  | .addsh _ d _ _ _ => some (.s d)
  | .mcnt _ _ d _ => some (.s d)
  | .mfirst _ _ d _ => some (.s d)
  | .cmpEq _ d _ _ => some (.p d)
  | .cmpNe _ d _ _ => some (.p d)
  | .cmpLt _ d _ _ => some (.p d)
  | .cmpLe _ d _ _ => some (.p d)
  | .cmpLtu _ d _ _ => some (.p d)
  | .cmpLeu _ d _ _ => some (.p d)
  | .pand _ d _ _ => some (.p d)
  | .por _ d _ _ => some (.p d)
  | .pxor _ d _ _ => some (.p d)
  | .pandn _ d _ _ => some (.p d)
  | .cmpiEq _ d _ _ => some (.p d)
  | .cmpiNe _ d _ _ => some (.p d)
  | .cmpiLt _ d _ _ => some (.p d)
  | .cmpiGe _ d _ _ => some (.p d)
  | .cmpiLtu _ d _ _ => some (.p d)
  | .cmpiGeu _ d _ _ => some (.p d)
  | .vadd _ _ d _ _ _ => some (.v d)
  | .vsub _ _ d _ _ _ => some (.v d)
  | .vmul _ _ d _ _ _ => some (.v d)
  | .vfma _ _ d _ _ _ => some (.v d)
  | .vmin _ _ d _ _ _ => some (.v d)
  | .vmax _ _ d _ _ _ => some (.v d)
  | .vdiv _ _ d _ _ => some (.v d)
  | .vsqrt _ _ d _ => some (.v d)
  | .vexp2 _ _ d _ => some (.v d)
  | .vabs _ _ d _ _ => some (.v d)
  | .vneg _ _ d _ _ => some (.v d)
  | .vadds _ _ d _ _ _ => some (.v d)
  | .vsubs _ _ d _ _ _ => some (.v d)
  | .vand _ _ d _ _ => some (.v d)
  | .vor _ _ d _ _ => some (.v d)
  | .vxor _ _ d _ _ => some (.v d)
  | .vandn _ _ d _ _ => some (.v d)
  | .vsll _ _ d _ _ => some (.v d)
  | .vsrl _ _ d _ _ => some (.v d)
  | .vsra _ _ d _ _ => some (.v d)
  | .vslli _ _ d _ _ => some (.v d)
  | .vsrli _ _ d _ _ => some (.v d)
  | .vsrai _ _ d _ _ => some (.v d)
  | .vclmulLo _ _ d _ _ => some (.v d)
  | .vclmulHi _ _ d _ _ => some (.v d)
  | .vpopc32 _ _ d _ _ => some (.v d)
  | .vpopc64 _ _ d _ _ => some (.v d)
  | .vperm32 _ _ d _ _ => some (.v d)
  | .vslideup32 _ _ d _ _ => some (.v d)
  | .vslidedn32 _ _ d _ _ => some (.v d)
  | .vbcast32 _ _ d _ => some (.v d)
  | .vcompress32 _ _ d _ => some (.v d)
  | .vexpand32 _ _ d _ => some (.v d)
  | .vmov32 _ _ d _ => some (.v d)
  | .vperm8 _ _ d _ _ => some (.v d)
  | .vslideup8 _ _ d _ _ => some (.v d)
  | .vslidedn8 _ _ d _ _ => some (.v d)
  | .vbcast8 _ _ d _ => some (.v d)
  | .vcompress8 _ _ d _ => some (.v d)
  | .vexpand8 _ _ d _ => some (.v d)
  | .vmov8 _ _ d _ => some (.v d)
  | .vrsum _ _ d _ _ => some (.v d)
  | .vrmax _ _ d _ _ => some (.v d)
  | .vrmin _ _ d _ _ => some (.v d)
  | .vscan _ _ d _ _ => some (.v d)
  | .vcvt _ _ d _ _ _ => some (.v d)
  | .vcmpEq _ _ d _ _ _ => some (.m d)
  | .vcmpLt _ _ d _ _ _ => some (.m d)
  | .vcmpLe _ _ d _ _ _ => some (.m d)
  | .vcmpLtu _ _ d _ _ _ => some (.m d)
  | .mand _ _ d _ _ => some (.m d)
  | .mor _ _ d _ _ => some (.m d)
  | .mxor _ _ d _ _ => some (.m d)
  | .mandn _ _ d _ _ => some (.m d)
  | .mnot _ _ d _ => some (.m d)
  | _ => none

end Sys2Proof
end

