-- ==== Sys2Proof/Certificates/Slice0/Obligations.lean ====
section
/-! DEFINITION. The statements for the provers, one definition each. -/

open Sys2Proof Sys2Proof.Machine

/-- Sanity: words that the spec writes out beside its forms (SUB s7, s8, s9; ADDI s3, s3, -8; SRAI s5, s6, 3; CMP.LT; LD.ACQ.64;
AMO.CAS.32; QST.T.64; CALL; RET; LOOP; CRD; CWR; FENCE.SYS; SUSPEND 1; POST; TRAP; TRET), NOP, an unallocated opcode, a Topiary LIT and an
erased stream record decode as the tables say. -/
def Obligations.TableWordsDecode : Prop :=
  decodeWord 0x00074241 = some (.sub ⟨false, 0⟩ 7 8 9) ∧ decodeWord 0x01031FF8 = some (.addi ⟨false, 0⟩ 3 3 0x7F8) ∧
    decodeWord 0x05053403 = some (.srai ⟨false, 0⟩ 5 6 3) ∧ decodeWord 0x0A011902 = some (.cmpLt ⟨false, 0⟩ 1 3 4) ∧
    decodeWord 0x31061301 = some (.ldAcq ⟨false, 0⟩ 6 2 .b64 1) ∧ decodeWord 0x35071226 = some (.amoCas ⟨false, 0⟩ 7 2 8 .w32) ∧
    decodeWord 0x3609120B = some (.qst ⟨false, 0⟩ 9 2 8 true false .b64) ∧ decodeWord 0x111F0005 = some (.call ⟨false, 0⟩ 31 5) ∧
    decodeWord 0x1200F800 = some (.jr ⟨false, 0⟩ 31) ∧ decodeWord 0x13090003 = some (.loop ⟨false, 0⟩ 9 3) ∧
    decodeWord 0x18050003 = some (.crd ⟨false, 0⟩ 5 3) ∧ decodeWord 0x19002051 = some (.cwr ⟨false, 0⟩ 4 0x51) ∧
    decodeWord 0x1A000004 = some (.fenceSys ⟨false, 0⟩) ∧ decodeWord 0x1B000041 = some (.suspend ⟨false, 0⟩ 1) ∧
    decodeWord 0x1B071002 = some (.post ⟨false, 0⟩ 7 2 0) ∧ decodeWord 0x1C00002A = some (.trap ⟨false, 0⟩ 0x2A) ∧
    decodeWord 0x1D000000 = some (.tret ⟨false, 0⟩) ∧ decodeWord 0 = some (.add ⟨false, 0⟩ 0 0 0) ∧
    decodeWord 0x7E000000 = none ∧ decodeTopiary 0x0105 = some (.topiaryLit 5) ∧
    decodeStream (List.replicate 32 0xFF) = none

/-- For every well-formed tile instruction, with every operand at every value its encoding admits, decoding its word gives it back. KROT,
SCRUB and SLOTSW rows that share one word with an earlier row are told apart by a register, not by the word, and are left to the statement
about `resolve`. -/
def Obligations.TileEncodeThenDecode : Prop :=
  ∀ (i : Instr) (w : BitVec 32), WellFormed i = true → sharesWord i = false → encodeTile i = some w → decodeWord w = some i

/-- Every word that decodes to a tile instruction is that instruction's encoding, bit for bit, and the instruction is well formed: no two
words decode to one instruction, and no reserved bit of a word is dropped. -/
def Obligations.TileDecodeThenEncode : Prop :=
  ∀ (w : BitVec 32) (i : Instr), decodeWord w = some i → encodeTile i = some w ∧ WellFormed i = true

/-- A well-formed Topiary operation decodes from its own 16 bits, and 16 bits that decode are the encoding of what they decode to. -/
def Obligations.TopiaryEncodeAndDecode : Prop :=
  (∀ (i : Instr) (w : BitVec 16), WellFormed i = true → encodeTopiary i = some w → decodeTopiary w = some i) ∧
    (∀ (w : BitVec 16) (i : Instr), decodeTopiary w = some i → encodeTopiary i = some w ∧ WellFormed i = true)

/-- For every well-formed stream record, WTASK with all its slots among them, decoding the bytes of its encoding gives it back, and the length
that word 0 of those bytes states is the length of the encoding. -/
def Obligations.RecordEncodeThenDecode : Prop :=
  ∀ (i : Instr) (bs : List Byte), WellFormed i = true → encodeStream i = some bs →
    decodeStream bs = some i ∧ recordBytes bs = bs.length

/-- The words that several rows of the opcode table share run the row that the request in sA names: KROT by bits [9:8], SCRUB by
bits [1:0], SLOTSW by bits [3:0]. -/
def Obligations.SharedWordsResolve : Prop :=
  ∀ (s : State) (h : Head) (d a b : BitVec 5),
    let x := s.rs a
    (x.extractLsb' 8 2 = 0 → resolve s (.krotInstall h d a b) = .krotInstall h d a b) ∧
    (x.extractLsb' 8 2 = 1 → resolve s (.krotInstall h d a b) = .krotQuery h d a b) ∧
    (x.extractLsb' 8 2 = 2 → resolve s (.krotInstall h d a b) = .krotRetire h d a b) ∧
    (x.extractLsb' 8 2 = 3 → resolve s (.krotInstall h d a b) = .krotDestroy h d a b) ∧
    (x.extractLsb' 0 2 = 0 → resolve s (.scrubRegions h d a b) = .scrubRegions h d a b) ∧
    (x.extractLsb' 0 2 = 1 → resolve s (.scrubRegions h d a b) = .scrubCluster h d a b) ∧
    (x.extractLsb' 0 2 = 2 → resolve s (.scrubRegions h d a b) = .scrubCore h d a b) ∧
    (x.extractLsb' 0 4 = 0 → resolve s (.slotswQuery h d a b) = .slotswQuery h d a b) ∧
    (x.extractLsb' 0 4 = 1 → resolve s (.slotswQuery h d a b) = .slotswQuiesce h d a b) ∧
    (x.extractLsb' 0 4 = 2 → resolve s (.slotswQuery h d a b) = .slotswSwitch h d a b) ∧
    (x.extractLsb' 0 4 = 3 → resolve s (.slotswQuery h d a b) = .slotswBeat h d a b) ∧
    (x.extractLsb' 0 4 = 4 → resolve s (.slotswQuery h d a b) = .slotswResume h d a b)

/-- In every state s0 reads zero, p0 reads true and m0 reads all ones, and a write of any value to one of them leaves the whole state as it
was; every other s, p, m, v and a register reads back the value last written to it. -/
def Obligations.HardWiredRegisters : Prop :=
  ∀ (s : State) (x : Word) (q : Bool) (k : Mask) (y : Vec) (z : Acc),
    s.rs 0 = 0 ∧ s.rp 0 = true ∧ s.rm 0 = BitVec.allOnes 256 ∧ s.wrS 0 x = s ∧ s.wrP 0 q = s ∧ s.wrM 0 k = s ∧
    (∀ r, r ≠ 0 → (s.wrS r x).ctx.regs.getS r = x) ∧ (∀ r, r ≠ 0 → (s.wrP r q).ctx.regs.getP r = q) ∧
    (∀ r, r ≠ 0 → (s.wrM r k).ctx.regs.getM r = k) ∧ (∀ r, (s.wrV r y).ctx.regs.getV r = y) ∧
    (∀ r, (s.wrA r z).ctx.regs.getA r = z)

/-- Every one of the 208 tile rows: with a false guard the word goes on and leaves the whole state as it was, whatever its operands, the
mode or the state; it raises no fault and sets no branch target. -/
def Obligations.FalseGuardDoesNothing : Prop :=
  ∀ (i : Instr) (h : Head) (s : State), headOf i = some h → s.rp h.g = false → exec i s = .next s

/-- R72, every row of its table: with a true guard each ALU word goes on with sD holding the value the table gives (the value is discarded for
s0) and everything else as it was. Products are the halves of the exact 128-bit product, quotients truncate, remainders take the sign of the
dividend, and the divisions by zero and of −2^63 by −1 have the table's values. -/
def Obligations.ScalarArithmetic : Prop :=
  ∀ (s : State) (h : Head) (d a b : BitVec 5), s.rp h.g = true →
    let x := s.rs a
    let y := s.rs b
    exec (.add h d a b) s = .next (s.wrS d (BitVec.ofNat 64 (x.toNat + y.toNat))) ∧
    exec (.sub h d a b) s = .next (s.wrS d (BitVec.ofInt 64 (x.toInt - y.toInt))) ∧
    exec (.and h d a b) s = .next (s.wrS d (x &&& y)) ∧
    exec (.or h d a b) s = .next (s.wrS d (x ||| y)) ∧
    exec (.xor h d a b) s = .next (s.wrS d (x ^^^ y)) ∧
    exec (.sll h d a b) s = .next (s.wrS d (x <<< (y.extractLsb' 0 6))) ∧
    exec (.srl h d a b) s = .next (s.wrS d (x >>> (y.extractLsb' 0 6))) ∧
    exec (.sra h d a b) s = .next (s.wrS d (BitVec.ofInt 64 (x.toInt / 2 ^ (y.extractLsb' 0 6).toNat))) ∧
    exec (.min h d a b) s = .next (s.wrS d (BitVec.ofInt 64 (min x.toInt y.toInt))) ∧
    exec (.max h d a b) s = .next (s.wrS d (BitVec.ofInt 64 (max x.toInt y.toInt))) ∧
    exec (.minu h d a b) s = .next (s.wrS d (BitVec.ofNat 64 (min x.toNat y.toNat))) ∧
    exec (.maxu h d a b) s = .next (s.wrS d (BitVec.ofNat 64 (max x.toNat y.toNat))) ∧
    exec (.mul h d a b) s = .next (s.wrS d (BitVec.ofInt 64 (x.toInt * y.toInt))) ∧
    exec (.mulh h d a b) s = .next (s.wrS d ((x.signExtend 128 * y.signExtend 128).extractLsb' 64 64)) ∧
    exec (.mulhu h d a b) s = .next (s.wrS d ((x.setWidth 128 * y.setWidth 128).extractLsb' 64 64)) ∧
    exec (.div h d a b) s = .next (s.wrS d (if y = 0 then BitVec.allOnes 64 else x.sdiv y)) ∧
    exec (.divu h d a b) s = .next (s.wrS d (if y = 0 then BitVec.allOnes 64 else x / y)) ∧
    exec (.rem h d a b) s = .next (s.wrS d (if y = 0 then x else x.srem y)) ∧
    exec (.remu h d a b) s = .next (s.wrS d (if y = 0 then x else x % y)) ∧
    (∃ n : Nat, exec (.clz h d a) s = .next (s.wrS d (BitVec.ofNat 64 n)) ∧ n ≤ 64 ∧ (∀ i < n, x.getMsbD i = false) ∧
      (n < 64 → x.getMsbD n = true)) ∧
    (∃ n : Nat, exec (.ctz h d a) s = .next (s.wrS d (BitVec.ofNat 64 n)) ∧ n ≤ 64 ∧ (∀ i < n, x.getLsbD i = false) ∧
      (n < 64 → x.getLsbD n = true)) ∧
    exec (.popc h d a) s = .next (s.wrS d (BitVec.ofNat 64 ((List.range 64).countP fun i => x.getLsbD i))) ∧
    exec (.andn h d a b) s = .next (s.wrS d (x &&& ~~~y)) ∧
    exec (.orn h d a b) s = .next (s.wrS d (x ||| ~~~y)) ∧
    (-(2 : Int) ^ 63 = x.toInt → y = -1 → exec (.div h d a b) s = .next (s.wrS d x) ∧
      exec (.rem h d a b) s = .next (s.wrS d 0))

/-- R73: ADDI, ANDI, ORI and XORI combine sA with the sign-extended 11-bit immediate, so ANDI with −32 clears the low five bits, and SLLI,
SRLI and SRAI shift sA by n as SLL, SRL and SRA do. -/
def Obligations.ScalarImmediates : Prop :=
  ∀ (s : State) (h : Head) (d a : BitVec 5) (i : BitVec 11) (n : BitVec 6), s.rp h.g = true →
    let x := s.rs a
    exec (.addi h d a i) s = .next (s.wrS d (x + i.signExtend 64)) ∧
    exec (.andi h d a i) s = .next (s.wrS d (x &&& i.signExtend 64)) ∧
    exec (.ori h d a i) s = .next (s.wrS d (x ||| i.signExtend 64)) ∧
    exec (.xori h d a i) s = .next (s.wrS d (x ^^^ i.signExtend 64)) ∧
    exec (.slli h d a n) s = .next (s.wrS d (x <<< n)) ∧
    exec (.srli h d a n) s = .next (s.wrS d (x >>> n)) ∧
    exec (.srai h d a n) s = .next (s.wrS d (x.sshiftRight n.toNat)) ∧
    exec (.andi h d a (BitVec.ofInt 11 (-32))) s = .next (s.wrS d (x &&& ~~~(31 : Word)))

/-- R74: LI zero-extends U into sD; LI16, LI32 and LI48 read sD, replace bits [31:16], [47:32] or [63:48] of it by U and leave its other bits,
so four words build any constant of 64 bits, and the rule's table builds 0x0000_0001_0500_0000 in three. -/
def Obligations.ScalarConstants : Prop :=
  ∀ (s : State) (h : Head) (d : BitVec 5) (u : BitVec 16), s.rp h.g = true →
    let x := s.rs d
    exec (.li h d u) s = .next (s.wrS d (u.setWidth 64)) ∧
    exec (.li16 h d u) s = .next (s.wrS d (x.extractLsb' 32 32 ++ u ++ x.extractLsb' 0 16)) ∧
    exec (.li32 h d u) s = .next (s.wrS d (x.extractLsb' 48 16 ++ u ++ x.extractLsb' 0 32)) ∧
    exec (.li48 h d u) s = .next (s.wrS d (u ++ x.extractLsb' 0 48)) ∧
    (x = 0 → exec (.li16 h d 0x0500) s = .next (s.wrS d 0x0000000005000000)) ∧
    (x = 0x0000000005000000 → exec (.li32 h d 0x0001) s = .next (s.wrS d 0x0000000105000000))

/-- R75: every relation of CMP and CMPI on the signed or unsigned values, CMPI against the sign-extended 8-bit immediate (CMPI.LTU with −1 is
true but for all ones), and PAND, POR, PXOR and PANDN; PANDN with p0 complements a predicate. -/
def Obligations.PredicateWords : Prop :=
  ∀ (s : State) (h : Head) (d p q : BitVec 3) (a b : BitVec 5) (i : BitVec 8), s.rp h.g = true →
    let x := s.rs a
    let y := s.rs b
    let k := i.signExtend 64
    exec (.cmpEq h d a b) s = .next (s.wrP d (decide (x = y))) ∧
    exec (.cmpNe h d a b) s = .next (s.wrP d (decide (x ≠ y))) ∧
    exec (.cmpLt h d a b) s = .next (s.wrP d (decide (x.toInt < y.toInt))) ∧
    exec (.cmpLe h d a b) s = .next (s.wrP d (decide (x.toInt ≤ y.toInt))) ∧
    exec (.cmpLtu h d a b) s = .next (s.wrP d (decide (x.toNat < y.toNat))) ∧
    exec (.cmpLeu h d a b) s = .next (s.wrP d (decide (x.toNat ≤ y.toNat))) ∧
    exec (.cmpiEq h d a i) s = .next (s.wrP d (decide (x = k))) ∧
    exec (.cmpiNe h d a i) s = .next (s.wrP d (decide (x ≠ k))) ∧
    exec (.cmpiLt h d a i) s = .next (s.wrP d (decide (x.toInt < k.toInt))) ∧
    exec (.cmpiGe h d a i) s = .next (s.wrP d (decide (k.toInt ≤ x.toInt))) ∧
    exec (.cmpiLtu h d a i) s = .next (s.wrP d (decide (x.toNat < k.toNat))) ∧
    exec (.cmpiGeu h d a i) s = .next (s.wrP d (decide (k.toNat ≤ x.toNat))) ∧
    exec (.pand h d p q) s = .next (s.wrP d (s.rp p && s.rp q)) ∧
    exec (.por h d p q) s = .next (s.wrP d (s.rp p || s.rp q)) ∧
    exec (.pxor h d p q) s = .next (s.wrP d (s.rp p ^^ s.rp q)) ∧
    exec (.pandn h d p q) s = .next (s.wrP d (s.rp p && !s.rp q)) ∧
    exec (.pandn h d 0 q) s = .next (s.wrP d (!s.rp q)) ∧
    (x ≠ BitVec.allOnes 64 → exec (.cmpiLtu h d a (BitVec.allOnes 8)) s = .next (s.wrP d true))

/-- R76: SEL writes sA to sD if the named predicate is true and sB otherwise, under either value of the predicate, and ADDSH writes
sA + (sB << n), which wraps. -/
def Obligations.SelectAndScaledAdd : Prop :=
  ∀ (s : State) (h : Head) (d a b : BitVec 5) (p : BitVec 3) (n : BitVec 6), s.rp h.g = true →
    (s.rp p = true → exec (.sel h d a b p) s = .next (s.wrS d (s.rs a))) ∧
    (s.rp p = false → exec (.sel h d a b p) s = .next (s.wrS d (s.rs b))) ∧
    exec (.addsh h d a b n) s = .next (s.wrS d (BitVec.ofNat 64 ((s.rs a).toNat + (s.rs b).toNat * 2 ^ n.toNat)))

/-- The frame of every scalar, predicate, vector and mask word that only computes (the domain of `onlyDest`): it always goes on, every other
register of the five files reads as before, and every byte of memory and its tags, the PC, loop stack, queues, streams and n-table of its
context, the core's other context, control registers, tokens, guard, copies and replay queue, every other core, and the clusters, dies,
partitions, hub, fabric and PF are as before. -/
def Obligations.RegisterWordsFrame : Prop :=
  ∀ (i : Instr) (d : Dest) (s : State), onlyDest i = some d →
    ∃ t, exec i s = .next t ∧ OnlyRegs s t ∧ OtherRegs s t d

/-- R86: BR and CALL go to the word's packet plus the signed offset, CALL links to the next packet, JR goes to sA[31:0]; once the bundle ends
the context stands at word 0 of the target with no loop body handled, whatever follows in the packet, and a JR whose sA[63:32] is nonzero faults
UNMAPPED at the fetch. -/
def Obligations.BranchesAndTheirTargets : Prop :=
  ∀ (s : State) (h : Head) (a : BitVec 5) (o : BitVec 16) (run : Instr → State → Out) (x : Ctx) (i : BitVec 32) (v : Word) (last : Nat),
    (s.rp h.g = true →
      exec (.br h o) s = .next { s with redirect := some (.packet (s.ctx.pc + o.signExtend 32)) } ∧
      exec (.call h a o) s =
        .next { s.wrS a (BitVec.setWidth 64 (s.ctx.pc + 1)) with redirect := some (.packet (s.ctx.pc + o.signExtend 32)) } ∧
      exec (.jr h a) s = .next { s with redirect := some (.register (s.rs a)) }) ∧
    x.advance (some (.packet i)) last = { x with pc := i, word := 0, viaJr := none } ∧
    x.advance (some (.register v)) last = { x with pc := v.extractLsb' 0 32, word := 0, viaJr := some v } ∧
    (s.ctx.viaJr = some v → v.extractLsb' 32 32 ≠ 0 → fetchIssue run s = finish [] (raiseAt { s with word := s.ctx.word % 3 } .unmapped v))

/-- R87: a LOOP at packet L with a zero count goes to L + O + 1 and pushes nothing; otherwise, once an entry with origin L and every entry above
it are popped, it pushes (L, L + 1, L + O, sA) and goes to L + 1, and where four entries would remain it starts a trap with ILLEGAL_OP that names the
word. -/
def Obligations.LoopWord : Prop :=
  ∀ (s : State) (h : Head) (a : BitVec 5) (o : BitVec 16) (above below : List LoopEnt) (own : LoopEnt), s.rp h.g = true →
    let l := s.ctx.pc
    let pushed (stack : List LoopEnt) : State :=
      { s.setCtx { s.ctx with loops := ⟨l, l + 1, l + o.setWidth 32, a⟩ :: stack } with redirect := some (.packet (l + 1)) }
    (s.rs a = 0 → exec (.loop h a o) s = .next { s with redirect := some (.packet (l + o.setWidth 32 + 1)) }) ∧
    (s.rs a ≠ 0 → (∀ e ∈ s.ctx.loops, e.origin ≠ l) → s.ctx.loops.length < 4 →
      exec (.loop h a o) s = .next (pushed s.ctx.loops)) ∧
    (s.rs a ≠ 0 → s.ctx.loops = above ++ own :: below → (∀ e ∈ above, e.origin ≠ l) → own.origin = l → below.length < 4 →
      exec (.loop h a o) s = .next (pushed below)) ∧
    (s.rs a ≠ 0 → (∀ e ∈ s.ctx.loops, e.origin ≠ l) → s.ctx.loops.length = 4 → s.fw = false →
      exec (.loop h a o) s = .next (startTrap s s.core none (.at .illegalOp l (BitVec.ofNat 2 s.word) 0)))

/-- R87: at the end of a packet with no branch taken, the top entry whose last packet this is counts its register down; while the new value is not
zero the context goes to the body's first packet and the entry stays, else the entry is popped and the next one is tried; with no such entry the
context goes to the next packet. Within a packet the next bundle follows. -/
def Obligations.LoopBodyEnd : Prop :=
  ∀ (x : Ctx) (last : Nat) (t : LoopEnt) (rest : List LoopEnt),
    (last < 2 → x.advance none last = { x with word := last + 1, viaJr := none }) ∧
    (2 ≤ last → x.loops = [] → x.advance none last = { x with pc := x.pc + 1, word := 0, viaJr := none }) ∧
    (2 ≤ last → x.loops = t :: rest → t.last ≠ x.pc → x.advance none last = { x with pc := x.pc + 1, word := 0, viaJr := none }) ∧
    (2 ≤ last → x.loops = t :: rest → t.last = x.pc → x.regs.getS t.reg - 1 ≠ 0 →
      x.advance none last =
        { x with regs := x.regs.setS t.reg (x.regs.getS t.reg - 1), pc := t.first, word := 0, viaJr := none }) ∧
    (2 ≤ last → x.loops = t :: rest → t.last = x.pc → x.regs.getS t.reg - 1 = 0 →
      x.advance none last = { x with regs := x.regs.setS t.reg 0, loops := rest }.advance none last)

/-- R88, R17: with a true guard CRD writes the zero-extended value of each listed register to sD and changes nothing else: in the firmware context every
one of them, in a unit LAUNCHID, UNITID, PIX, TOKLIM, FORECAST and the place entries, and a read of any other number by a unit is a trap with PRIV that
names the word. PIX is that of the replay entry whose fault is TCAUSE, else zero (R318); FORECAST has its HORIZON counted down by the clk since it was
written (R266); FSTAT has OVF while a record is held (R322). On a core of no partition the partition's registers read their reset values (the model's
choice, assumption log 20). -/
def Obligations.ControlRegisterReads : Prop :=
  ∀ (s : State) (h : Head) (d : BitVec 5) (n : BitVec 11) (k : Fin 8) (j : Fin 64), s.rp h.g = true →
    let c := s.cur.ctl
    let reads (n : BitVec 11) (v : Word) : Prop := exec (.crd h d n) s = .next (s.wrS d v)
    let ofPart (reset : Word) (f : Fin 16 → Word) : Word :=
      match s.curPart with
      | some p => f p
      | none => reset
    let pix : Nat :=
      match s.cur.replay.find? fun r => r.cause.any fun z => z.code == c.tcause with
      | some r => r.pix
      | none => 0
    let horizon := c.forecast.toNat % 2 ^ 24 - (s.clk - c.forecastAt)
    reads 0x003 (BitVec.ofNat 64 (pix % 2 ^ 32)) ∧ reads 0x010 (c.launchid.setWidth 64) ∧ reads 0x011 (c.unitid.setWidth 64) ∧
    reads 0x040 (ofPart 0x00100000 fun p => s.parts[p].toklim.setWidth 64) ∧
    reads 0x051 (BitVec.ofNat 64 (c.forecast.toNat / 2 ^ 24 * 2 ^ 24 + horizon)) ∧
    reads (BitVec.ofNat 11 (0x100 + j.val)) (ofPart 0 fun p => s.parts[p].places[j]) ∧
    (s.fw = true →
      reads 0x000 (c.tcause.setWidth 64) ∧ reads 0x001 (c.tpc.setWidth 64) ∧ reads 0x002 (c.tword.setWidth 64) ∧
      reads 0x020 (c.fwshare.setWidth 64) ∧ reads (BitVec.ofNat 11 (0x030 + k.val)) c.brk[k] ∧
      reads 0x041 (ofPart 0x00100000 fun p => s.parts[p].holdlim.setWidth 64) ∧
      reads 0x042 (ofPart 0 fun p =>
        BitVec.ofNat 64 (s.parts[p].tail.toNat + 2 ^ 16 * s.parts[p].head.toNat + if heldCount s p = 0 then 0 else 2 ^ 31)) ∧
      reads 0x043 (ofPart 0 fun p => BitVec.ofNat 64 (min 65535 (heldCount s p))) ∧ reads 0x050 (c.rampstep.setWidth 64)) ∧
    (s.fw = false → n ≠ 0x003 → n ≠ 0x010 → n ≠ 0x011 → n ≠ 0x040 → n ≠ 0x051 → (n.toNat < 0x100 ∨ 0x13F < n.toNat) →
      exec (.crd h d n) s = .next (startTrap s s.core none (.at .priv s.ctx.pc (BitVec.ofNat 2 s.word) 0)))

/-- R88: with a true guard, a CWR of the firmware context writes the low bits of sA that the register has, and nothing else, to each of TCAUSE, TPC, TWORD,
FWSHARE, BRK0 to BRK7 (without their reserved bits, R328), TOKLIM, HOLDLIM and RAMPSTEP; FORECAST takes them in either context, and counts from now;
FHELD ignores the write. FSTAT takes HEAD where it neither passes TAIL nor goes backward, and held records then enter (R322). PIX goes to the replay entry
whose fault is TCAUSE, if there is one (R318, with the model's reading of assumption log 13). A place entry is written while no unit of the
partition runs or is Stopped and the entry names no cluster outside it, and is PRIV otherwise (R25). LAUNCHID and UNITID are PRIV, as is every register but FORECAST in a
unit. On a core of no partition a write of the partition's registers does nothing (assumption log 20). -/
def Obligations.ControlRegisterWrites : Prop :=
  ∀ (s : State) (h : Head) (a : BitVec 5) (n : BitVec 11) (k : Fin 8) (j : Fin 64) (p : Fin 16) (r : Replay), s.rp h.g = true →
    let x := s.rs a
    let c := s.cur
    let gives (n : BitVec 11) (t : State) : Prop := exec (.cwr h a n) s = .next t
    let ctl (f : Ctl → Ctl) : State := s.setCur { c with ctl := f c.ctl }
    let part := s.parts[p]
    let place := BitVec.ofNat 11 (0x100 + j.val)
    let entry := x &&& 0x800000000000003F
    let free := s.putPart p { part with places := vput part.places j entry }
    let busy : Prop := ∃ z : Fin 512, s.partOf z = some p ∧ s.cores[z].st ≠ .none
    let outsider : Prop := x.getLsbD 63 = true ∧ s.partOfCluster (ix 64 (x.toNat % 64)) ≠ some p
    let pixed (r q : Replay) : Replay := if q.id = r.id then setPix s.free (x.toNat % 2 ^ 32) q else q
    let pixOf (z : Replay) : Bool := z.cause.any fun y => y.code == c.ctl.tcause
    gives 0x051 (ctl fun z => { z with forecast := x.extractLsb' 0 32, forecastAt := s.clk }) ∧
    (s.fw = true →
      gives 0x000 (ctl fun z => { z with tcause := x.extractLsb' 0 8 }) ∧ gives 0x001 (ctl fun z => { z with tpc := x.extractLsb' 0 32 }) ∧
      gives 0x002 (ctl fun z => { z with tword := x.extractLsb' 0 2 }) ∧ gives 0x020 (ctl fun z => { z with fwshare := x.extractLsb' 0 8 }) ∧
      gives (BitVec.ofNat 11 (0x030 + k.val)) (ctl fun z => { z with brk := vput z.brk k (x &&& 0xFFFF0003FFFFFFFF) }) ∧
      gives 0x050 (ctl fun z => { z with rampstep := x.extractLsb' 0 16 }) ∧ gives 0x043 s ∧
      (c.replay.find? pixOf = none → gives 0x003 s) ∧
      (c.replay.find? pixOf = some r → gives 0x003 { s.setCur { c with replay := c.replay.map (pixed r) } with free := s.free + 2 }) ∧
      (s.curPart = some p →
        gives 0x040 (s.putPart p { part with toklim := x.extractLsb' 0 32 }) ∧ gives 0x041 (s.putPart p { part with holdlim := x.extractLsb' 0 32 }) ∧
        (let head := x.extractLsb' 16 13;
          ((head - part.head).toNat ≤ (part.tail - part.head).toNat →
            gives 0x042 (releaseHeld 4096 (s.putPart p { part with head := head }) p)) ∧
          ((part.tail - part.head).toNat < (head - part.head).toNat → gives 0x042 s)) ∧
        (busy ∨ outsider → gives place (fwFault s s.core .priv)) ∧
        (¬ busy → ¬ outsider → gives place (if part.places[j] = entry then free else tdiToError free p))) ∧
      (s.curPart = none → gives 0x040 s ∧ gives 0x041 s ∧ gives 0x042 s ∧
        gives place (if x.getLsbD 63 then fwFault s s.core .priv else s)) ∧
      gives 0x010 (fwFault s s.core .priv) ∧ gives 0x011 (fwFault s s.core .priv)) ∧
    (s.fw = false → n ≠ 0x051 → gives n (startTrap s s.core none (.at .priv s.ctx.pc (BitVec.ofNat 2 s.word) 0)))

/-- R89: a FENCE of any of the five scopes goes on and changes nothing exactly when no access of an earlier bundle is still in the context's queues and no
Quickset store of an earlier bundle whose destination lies in the scope has still to land: none lies in core or cluster scope; one to the issuing
package and the core's own die lies in die scope, one to the issuing package in package scope, and every one in system scope. Otherwise it only
waits. -/
def Obligations.FenceCompletes : Prop :=
  ∀ (s : State) (h : Head), s.rp h.g = true →
    let since := if s.snap.isSome then s.since else s.serial
    let entries : Prop := ∃ e ∈ s.ctx.mq, s.snap.isSome = true → e.id < s.since
    let out (scope : TokEnt → Prop) : Prop :=
      ∃ (i : Fin 256) (e : TokEnt), s.cur.tokens[i] = some e ∧ e.fw = s.fw ∧ e.notify = false ∧ e.serial < since ∧ scope e
    let fence (i : Instr) (scope : TokEnt → Prop) : Prop :=
      (¬ entries → ¬ out scope → exec i s = .next s) ∧ (entries ∨ out scope → exec i s = .next { s with mark := .stall })
    fence (.fenceCore h) (fun _ => False) ∧ fence (.fenceCluster h) (fun _ => False) ∧
    fence (.fenceDie h) (fun e => e.pkg = ownPkg s ∧ e.die.toNat = s.core.val / 128) ∧
    fence (.fencePkg h) (fun e => e.pkg = ownPkg s) ∧ fence (.fenceSys h) (fun _ => True)

/-- R19, R20: an access that lies in one row of the sequencer's map reaches TM, the own cluster's CM or a place's CM; the barrier area is read only,
the trap area and the work area are firmware's, the argument block is read only for a unit; a hole or an invalid place is UNMAPPED and an access that
leaves its row, or a hole for a window and back, is STRADDLE. -/
def Obligations.SequencerAddressMap : Prop :=
  ∀ (s : State) (c : Fin 512) (fw : Bool) (a n : Nat) (i : Intent) (k : Fin 64), 0 < n → a + n ≤ 2 ^ 63 →
    (a + n ≤ 0x78000 → localCheck s c fw a n i = .ok (.tm a)) ∧
    (0x78000 ≤ a → a + n ≤ 0x7C000 → localCheck s c fw a n i = if i = .read then .ok (.tm a) else .error .barrierRange) ∧
    (0x7C000 ≤ a → a + n ≤ 0x7E000 → localCheck s c fw a n i = if fw then .ok (.tm a) else .error .priv) ∧
    (0x7E000 ≤ a → a + n ≤ 0x7FF00 → localCheck s c fw a n i = if fw then .ok (.tm a) else .error .priv) ∧
    (0x7FF00 ≤ a → a + n ≤ 0x80000 → localCheck s c fw a n i = if fw = true ∨ i ≠ .write then .ok (.tm a) else .error .priv) ∧
    (0x80000 ≤ a → a + n ≤ 0x1000000 → localCheck s c fw a n i = .error .unmapped) ∧
    (0x1000000 ≤ a → a + n ≤ 0x1800000 → localCheck s c fw a n i = .ok (.cm (clusterOf c) (a - 0x1000000))) ∧
    (0x100000000 + k.val * 2 ^ 24 ≤ a → a + n ≤ 0x100000000 + k.val * 2 ^ 24 + 2 ^ 23 →
      localCheck s c fw a n i = (match placeCluster s c k with
        | some cl => .ok (.cm cl (a - (0x100000000 + k.val * 2 ^ 24)))
        | none => .error .unmapped)) ∧
    (0x1800000 ≤ a → a + n ≤ 0x100000000 → localCheck s c fw a n i = .error .unmapped) ∧
    (0x100000000 + k.val * 2 ^ 24 + 2 ^ 23 ≤ a → a + n ≤ 0x100000000 + (k.val + 1) * 2 ^ 24 → localCheck s c fw a n i = .error .unmapped) ∧
    (0x140000000 ≤ a → localCheck s c fw a n i = .error .unmapped) ∧
    (0x80000 ≤ a → a < 0x1000000 → 0x1000000 < a + n → localCheck s c fw a n i = .error .straddle) ∧
    (a < 0x100000000 + k.val * 2 ^ 24 → 0x100000000 + k.val * 2 ^ 24 < a + n → localCheck s c fw a n i = .error .straddle) ∧
    (a < 0x78000 → 0x78000 < a + n → localCheck s c fw a n i = .error .straddle) ∧
    (0x1000000 ≤ a → a < 0x1800000 → 0x1800000 < a + n → localCheck s c fw a n i = .error .straddle)

/-- R68, R79: with a true guard, an address that passes its checks, natural alignment for LD.ACQ and ST.REL, and no wait of R71, R80 or R114, the word
goes on having added one entry behind all others: a load to the load queue with its destination and the parts of its bytes, a store to the store
queue with the low bytes of sD, LSALN to both. EA is sA plus the signed offset scaled by the size. No register, no byte of memory and nothing else
of the machine changes. -/
def Obligations.ScalarMemoryWordsIssue : Prop :=
  ∀ (s : State) (h : Head) (d a : BitVec 5) (o : BitVec 8) (f : LdForm) (z : MemSize) (l : Loc), s.rp h.g = true →
    let at_ (n : Nat) : Word := s.rs a + BitVec.ofInt 64 (o.toInt * n)
    let joins (i : Instr) (e : QEnt) : Prop := ∃ t, exec i s = .next t ∧ Queued s t e
    (checkAddr s (at_ (ldBytes f)) (ldBytes f) .read = .ok l → captureFull s = false → recordMeets s l (ldBytes f) = false →
      joins (.ld h d a f o) (newEnt s (.ld d f) true false (at_ (ldBytes f)) (piecesOf l (ldBytes f)))) ∧
    (memBytes z ∣ (at_ (memBytes z)).toNat → checkAddr s (at_ (memBytes z)) (memBytes z) .read = .ok l → captureFull s = false →
      recordMeets s l (memBytes z) = false →
      joins (.ldAcq h d a z o) (newEnt s (.ldAcq d z) true false (at_ (memBytes z)) (piecesOf l (memBytes z)))) ∧
    (checkAddr s (at_ (memBytes z)) (memBytes z) .write = .ok l → guardStalls s l (memBytes z) = false →
      recordMeets s l (memBytes z) = false →
      joins (.st h d a z o) { newEnt s (.st false) false true (at_ (memBytes z)) (piecesOf l (memBytes z)) with
        data := leBytes (memBytes z) (s.rs d).toNat }) ∧
    (memBytes z ∣ (at_ (memBytes z)).toNat → checkAddr s (at_ (memBytes z)) (memBytes z) .write = .ok l →
      guardStalls s l (memBytes z) = false → recordMeets s l (memBytes z) = false →
      joins (.stRel h d a z o) { newEnt s (.st true) false true (at_ (memBytes z)) (piecesOf l (memBytes z)) with
        data := leBytes (memBytes z) (s.rs d).toNat }) ∧
    joins (.lsaln h) (newEnt s .lsaln true true 0 [])

/-- R81, R130: with a true guard, a naturally aligned address that passes its checks and no wait, each of the ten AMO words joins both queues with its
operation, size, sB and sD captured. A VAMO is checked from its first active element to its last and joins the store queue with its data vector and
mask, for its whole line; one that has no active element does nothing (log 44: the model's choice). No register, no byte of memory and nothing else of
the machine changes. -/
def Obligations.AtomicWordsIssue : Prop :=
  ∀ (s : State) (h : Head) (d a b : BitVec 5) (m : BitVec 3) (z : AmoSize) (l line : Loc) (w i j : Nat) (b16 : Bool), s.rp h.g = true →
    let ea := s.rs a
    let joins (i : Instr) (e : QEnt) : Prop := ∃ t, exec i s = .next t ∧ Queued s t e
    let amo (op : BitVec 4) : QEnt :=
      { newEnt s (.amo d op z) true true ea [⟨l, 0, amoBytes z, none⟩] with opa := s.rs b, opb := s.rs d }
    let vamo : QEnt := { newEnt s (.vamo b16) false true ea [⟨line, 0, 128, none⟩] with vec := s.rv d, mask := s.rm m }
    let word : Instr := if b16 then .vamoAddBf16 h m d a else .vamoAddF32 h m d a
    let active (k : Nat) : Prop := k < 128 / w ∧ (s.rm m).getLsbD (w * k) = true
    let first := ea + BitVec.ofNat 64 (w * i)
    let n := w * (j + 1 - i)
    (captureFull s = false → amoBytes z ∣ ea.toNat → checkAddr s ea (amoBytes z) .write = .ok l → guardStalls s l (amoBytes z) = false →
      recordMeets s l (amoBytes z) = false →
      joins (.amoAdd h d a b z) (amo 0) ∧ joins (.amoAnd h d a b z) (amo 1) ∧ joins (.amoOr h d a b z) (amo 2) ∧
      joins (.amoXor h d a b z) (amo 3) ∧ joins (.amoMin h d a b z) (amo 4) ∧ joins (.amoMax h d a b z) (amo 5) ∧
      joins (.amoMinu h d a b z) (amo 6) ∧ joins (.amoMaxu h d a b z) (amo 7) ∧ joins (.amoSwap h d a b z) (amo 8) ∧
      joins (.amoCas h d a b z) (amo 9)) ∧
    (w = (if b16 then 2 else 4) → 128 ∣ ea.toNat →
      (captureFull s = false → active i → active j → (∀ k, active k → i ≤ k ∧ k ≤ j) → checkAddr s first n .write = .ok l →
        guardStalls s l n = false → recordMeets s l n = false → relocate s s.core ea = some line → joins word vamo) ∧
      ((∀ k, ¬active k) → exec word s = .next s))

/-- R117, R118: a contiguous word with no active byte does nothing; otherwise, aligned to 4 and with its span of active bytes passing its checks, it
joins its queue with the parts that hold an active byte. A strided, gather or scatter word joins its queue with its base, its stride or offsets, and
its mask, to be checked element by element. No register, no byte of memory and nothing else of the machine changes. -/
def Obligations.VectorMemoryWordsIssue : Prop :=
  ∀ (s : State) (h : Head) (m : BitVec 3) (d a b : BitVec 5) (lo n : Nat) (l : Loc), s.rp h.g = true →
    let ea := s.rs a
    let first := ea + BitVec.ofNat 64 lo
    let joins (i : Instr) (e : QEnt) : Prop := ∃ t, exec i s = .next t ∧ Queued s t e
    let byElem (k : QKind) (ld : Bool) (stride : Word) (offs : Option Vec) : QEnt :=
      { newEnt s k ld (!ld) ea [] with
        opa := if offs.isSome then 1 else 0, opb := stride, vec := offs.getD 0, mask := s.rm m }
    let store (e : QEnt) : QEnt := { e with data := vecBytes (s.rv d) }
    (s.rm m = 0 → exec (.vld h m d a b) s = .next s ∧ exec (.vst h m d a b) s = .next s) ∧
    (maskSpan (s.rm m) = some (lo, n) → 4 ∣ ea.toNat → checkAddr s first n .read = .ok l → captureFull s = false →
      recordMeets s l n = false →
      joins (.vld h m d a b) { newEnt s (.vld d) true false ea (maskedPieces l lo n (s.rm m)) with mask := s.rm m }) ∧
    (maskSpan (s.rm m) = some (lo, n) → 4 ∣ ea.toNat → checkAddr s first n .write = .ok l → guardStalls s l n = false →
      recordMeets s l n = false →
      joins (.vst h m d a b) (store { newEnt s .vst false true ea (maskedPieces l lo n (s.rm m)) with mask := s.rm m })) ∧
    (captureFull s = false →
      (anyElem s (byElem (.vldElems d) true (s.rs b) none) false (fun l => recordMeets s l 4) = false →
        joins (.vlds h m d a b) (byElem (.vldElems d) true (s.rs b) none)) ∧
      (anyElem s (byElem (.vldElems d) true 0 (some (s.rv b))) false (fun l => recordMeets s l 4) = false →
        joins (.vgather h m d a b) (byElem (.vldElems d) true 0 (some (s.rv b)))) ∧
      (anyElem s (store (byElem .vstElems false (s.rs b) none)) true (fun l => guardStalls s l 4 || recordMeets s l 4) = false →
        joins (.vsts h m d a b) (store (byElem .vstElems false (s.rs b) none))) ∧
      (anyElem s (store (byElem .vstElems false 0 (some (s.rv b)))) true (fun l => guardStalls s l 4 || recordMeets s l 4) = false →
        joins (.vscatter h m d a b) (store (byElem .vstElems false 0 (some (s.rv b))))))

/-- R83, R131, R363: with a true guard, an aligned global address that passes its checks, no live carried token and a free entry of the token table (the
first one), the word goes on: the entry is allocated with the next generation, which is never 0, its limit is TOKLIM from now, sD holds generation and
entry zero-extended, and the store joins the store queue with its bytes; no byte of memory changes. A .T form whose carried tokens are live goes on in
the same way, ordered or as a waiter of its carries by their case, unless a case makes it wait. A VQST that moves no byte takes a token that has landed
at once. The model's own readings in it: assumption logs 18, 44. -/
def Obligations.QuicksetStoreTakesAToken : Prop :=
  ∀ (s : State) (h : Head) (d a b : BitVec 5) (m : BitVec 3) (c o : Bool) (z : MemSize) (l : Loc) (i : Fin 256) (lo n : Nat) (p : Fin 16),
    s.rp h.g = true → freeTok s.cur = some i → s.curPart = some p →
    let ea := s.rs a
    let gen := if s.cur.gens[i] = 255 then (1 : BitVec 8) else s.cur.gens[i] + 1
    let tok : BitVec 16 := gen ++ BitVec.ofNat 8 i.val
    let carry (k : Nat) : BitVec 16 := if c then (s.rs d).extractLsb' (16 * k) 16 else 0
    let case_ (k : Nat) : Carry := carryCase s (carry k) (pkgOf ea)
    let answers (t : State) : Prop := (d ≠ 0 → t.ctx.regs.getS d = BitVec.setWidth 64 tok) ∧
      (∀ r, r ≠ d → t.ctx.regs.getS r = s.ctx.regs.getS r) ∧ t.cur.gens[i] = gen ∧ gen ≠ 0
    let takes (w : Instr) (bytes : List Byte) : Prop :=
      (∀ k < 2, liveTok s.cur (carry k) = none) →
      ∃ t e k, exec w s = .next t ∧ t.ctx.mq = s.ctx.mq ++ [e] ∧ e.st = true ∧ e.ld = false ∧ e.data = bytes ∧ e.ea = ea ∧
        t.cur.tokens[i] = some k ∧ k.serial = s.serial ∧ k.notify = false ∧ k.limit = s.clk + s.parts[p].toklim.toNat ∧
        answers t ∧ SameMemory s t ∧ SameRest s t ∧ SameOtherCores s t
    let carries (w : Instr) (bytes : List Byte) : Prop :=
      (case_ 0 ≠ .wait → case_ 1 ≠ .wait → ∃ t e ord c0 c1, exec w s = .next t ∧ t.ctx.mq.getLast? = some e ∧ e.kind = .qst tok ord c0 c1 ∧
        e.data = bytes ∧ e.ea = ea ∧ answers t ∧ SameMemory s t ∧ SameOtherCores s t ∧
        (o = true ∨ case_ 0 ≠ .nothing ∨ case_ 1 ≠ .nothing → ord = true) ∧
        c0 = (if case_ 0 = .waiter then carry 0 else 0) ∧ c1 = (if case_ 1 = .waiter then carry 1 else 0)) ∧
      (case_ 0 = .wait ∨ case_ 1 = .wait → exec w s = .next { s with mark := .stall })
    let both (w : Instr) (bytes : List Byte) : Prop := takes w bytes ∧ carries w bytes
    ea.getLsbD 63 = true →
    (captureFull s = false → memBytes z ∣ ea.toNat → holeWindow s ea = false → checkAddr s ea (memBytes z) .write = .ok l →
      both (.qst h d a b c o z) (leBytes (memBytes z) (s.rs b).toNat)) ∧
    (captureFull s = false → 64 ∣ ea.toNat → maskSpan (s.rm m) = some (lo, n) → holeWindow s (ea + BitVec.ofNat 64 lo) = false →
      checkAddr s (ea + BitVec.ofNat 64 lo) n .write = .ok l → both (.vqst h m d a b c o) (vecBytes (s.rv b))) ∧
    (64 ∣ ea.toNat → s.rm m = 0 → ∃ t, exec (.vqst h m d a b c o) s = .next t ∧ answers t ∧ t.cur.tokens = s.cur.tokens ∧
      t.ctx.mq = s.ctx.mq ∧ SameMemory s t ∧ SameRest s t ∧ SameOtherCores s t)

/-- R85: an aligned MWAIT whose address passes its checks waits for the accesses and the records before it, and then starts its wait; with a kept value the
word goes on, writes it to sD, and the wait is over. A re-read of its word in TM first asks for the word; in its turn at the TM a word that differs from
(NE) or equals (EQ) the compare value is kept, and any other puts the next re-read at most 4,096 clk off.
The model's own readings in it: assumption log 12. -/
def Obligations.MonitorWaitCompletes : Prop :=
  ∀ (s : State) (h : Head) (d a b : BitVec 5) (l : Loc) (w : MWait) (c : Fin 512) (fw : Bool),
    let ea := s.rs a
    let word (eq : Bool) : Instr := if eq then .mwaitEq h d a b else .mwaitNe h d a b
    let part : Piece := ⟨.tm w.ea.toNat, 0, 8, none⟩
    (∀ eq, s.rp h.g = true → 8 ∣ ea.toNat → checkAddr s ea 8 .watch = .ok l →
      (olderEnts s ≠ [] ∨ recordMeets s l 8 = true → exec (word eq) s = .next { s with mark := .stall }) ∧
      (olderEnts s = [] → recordMeets s l 8 = false →
        (s.ctx.mwait = none →
          exec (word eq) s = .next { s.setCtx { s.ctx with mwait := some ⟨ea, s.rs b, eq, s.clk, .waiting, none, s.clk, none⟩ } with
            mark := .stall }) ∧
        (∀ v, s.ctx.mwait = some { w with ea := ea, cmp := s.rs b, eq := eq, stage := .waiting, found := some v } →
          exec (word eq) s = .next ((s.setCtx { s.ctx with mwait := none }).wrS d v)))) ∧
    ((s.cores[c].ctx fw).mwait = some w → w.stage = .waiting → w.found = none → w.ea.toNat < 0x78000 →
      let v : Word := BitVec.ofNat 64 (s.loadNat (tmAddr c w.ea.toNat) 8)
      (w.part = none → exec (.mwaitReread c fw) s = .next (putMwait s c fw { w with part := some part, arrival := s.clk })) ∧
      (w.part = some part → ⟨.watch c fw w, part⟩ ∈ tmRequests s c →
        ((v = w.cmp ↔ w.eq = true) → exec (.mwaitReread c fw) s = .next (putMwait s c fw { w with part := none, found := some v })) ∧
        (¬(v = w.cmp ↔ w.eq = true) → exec (.mwaitReread c fw) s = .next (putMwait s c fw { w with part := none, due := s.clk + 4096 }))))

/-- R68 step 1, R69: LD.ACQ, ST.REL, every AMO, QST, VQST, MWAIT and VAMO at an address that is not a multiple of the access size (VQST: of 64) start the
trap MISALIGN in a unit, with TPC and TWORD naming the word and FADDR the address, before any other check; in a firmware context they are its fault.
That VQST and VAMO check it whatever their mask is the model's choice (log 44). -/
def Obligations.MisalignedWordsTrap : Prop :=
  ∀ (s : State) (h : Head) (d a b : BitVec 5) (m : BitVec 3) (o : BitVec 8) (z : MemSize) (y : AmoSize) (t q : Bool),
    s.rp h.g = true →
    let trap (ea : Word) : Out :=
      if s.fw then .next (fwFault s s.core .misalign)
      else .next (startTrap s s.core none (.at .misalign s.ctx.pc (BitVec.ofNat 2 s.word) ea))
    let off := s.rs a + BitVec.ofInt 64 (o.toInt * memBytes z)
    let ea := s.rs a
    (off.toNat % memBytes z ≠ 0 → exec (.ldAcq h d a z o) s = trap off ∧ exec (.stRel h d a z o) s = trap off) ∧
    (ea.toNat % amoBytes y ≠ 0 → ∀ i ∈ [Instr.amoAdd h d a b y, .amoAnd h d a b y, .amoOr h d a b y, .amoXor h d a b y, .amoMin h d a b y,
      .amoMax h d a b y, .amoMinu h d a b y, .amoMaxu h d a b y, .amoSwap h d a b y, .amoCas h d a b y], exec i s = trap ea) ∧
    (ea.toNat % memBytes z ≠ 0 → exec (.qst h d a b t q z) s = trap ea) ∧
    (ea.toNat % 64 ≠ 0 → exec (.vqst h m d a b t q) s = trap ea) ∧
    (ea.toNat % 8 ≠ 0 → exec (.mwaitEq h d a b) s = trap ea ∧ exec (.mwaitNe h d a b) s = trap ea) ∧
    (ea.toNat % 128 ≠ 0 → exec (.vamoAddF32 h m d a) s = trap ea ∧ exec (.vamoAddBf16 h m d a) s = trap ea)

/-- R77, R78, R80, R81, R208: at the head of its queue and in its turn at the TM, an access of a unit to TM in one part, below the trap area, performs and
leaves its queues: a load writes its register with the bytes extended by its form and changes no byte; a store writes its bytes, little-endian, at its
computed place and no other byte; an AMO writes what its operation makes of the old value and sets its register to the old value, zero-extended. Every
byte outside the access reads as before. A register that a later word of the bundle writes keeps that word's value (R57).
The model's own readings in it: assumption log 12. -/
def Obligations.TileMemoryAccessesPerform : Prop :=
  ∀ (s : State) (c : Fin 512) (e : QEnt) (off n : Nat) (d : BitVec 5) (f : LdForm) (op : BitVec 4) (z : MemSize) (y : AmoSize) (rel : Bool),
    e.stage = .waiting → off + n ≤ 0x7C000 →
    let part : Piece := ⟨.tm off, 0, n, none⟩
    e.todo = [part] → ⟨.ent c false e, part⟩ ∈ tmRequests s c →
    let place := tmAddr c off
    let regs (t : State) := (t.cores[c].ctx false).regs
    let takes (x : Word) : Regs := if e.keep.contains d.toNat then regs s else (regs s).setS d x
    let left (t : State) : Prop := ∀ g ∈ (t.cores[c].ctx false).mq, g.id ≠ e.id
    (headOf s c false (·.ld) = some e → e.data = [] →
      (e.kind = .ld d f → n = ldBytes f →
        ∃ t, exec (.loadReturn c false) s = .next t ∧ regs t = takes (ldValue f (s.load place n)) ∧ SameMemory s t ∧ left t) ∧
      (e.kind = .ldAcq d z → n = memBytes z →
        ∃ t, exec (.loadReturn c false) s = .next t ∧ regs t = takes (BitVec.ofNat 64 (s.loadNat place n)) ∧ SameMemory s t ∧ left t)) ∧
    (headOf s c false (·.st) = some e → e.kind = .st rel → e.mask = 0 → e.data.length = n → s.memWf →
      ∃ t, exec (.storePerform c false) s = .next t ∧ regs t = regs s ∧ t.load place n = e.data ∧ SameOutside s t place n ∧ left t) ∧
    (headOf s c false (·.ld) = some e → e.kind = .amo d op y → n = amoBytes y → s.memWf →
      let old := s.loadNat place n
      ∃ t, exec (.loadReturn c false) s = .next t ∧ regs t = takes (BitVec.ofNat 64 old) ∧
        t.load place n = leBytes n (amoNew op n old (e.opa.toNat % 2 ^ (8 * n)) (e.opb.toNat % 2 ^ (8 * n))) ∧
        SameOutside s t place n ∧ left t)

/-- R81: for both sizes, ADD wraps, AND, OR and XOR act bitwise, MIN and MAX compare as signed values of the access size, MINU and MAXU as unsigned ones,
SWAP takes the operand, and CAS takes it only where the old value equals the compare value. -/
def Obligations.AtomicOperations : Prop :=
  ∀ (z : AmoSize) (x b k : BitVec (8 * amoBytes z)),
    let n := amoBytes z
    let r (op : BitVec 4) : Nat := amoNew op n x.toNat b.toNat k.toNat
    r 0 = (x + b).toNat ∧ r 1 = (x &&& b).toNat ∧ r 2 = (x ||| b).toNat ∧ r 3 = (x ^^^ b).toNat ∧
    r 4 = (if x.toInt ≤ b.toInt then x else b).toNat ∧ r 5 = (if x.toInt ≤ b.toInt then b else x).toNat ∧
    r 6 = (if x.toNat ≤ b.toNat then x else b).toNat ∧ r 7 = (if x.toNat ≤ b.toNat then b else x).toNat ∧ r 8 = b.toNat ∧
    r 9 = (if x = k then b else x).toNat

/-- R207, R210: of the requests of every core that wait at a bank of a cluster's CM, the one whose key (arrival, rank, place) comes before that of every
other is the one performed, as a whole; reads have rank 1, writes from another cluster 2, copy writes 3, other writes 4 and read-modify-writes 5. A core's
TM takes its requests in the same order. At an atomic engine the requests to each line go by (arrival, port, place), and the line of the one performed is
resident. The place among equal arrivals and ranks is the model's (log 45). -/
def Obligations.BanksAndEnginesPerformInOrder : Prop :=
  ∀ (s : State) (k bank : Fin 64) (c : Fin 512) (q : Req),
    let cores := (List.finRange 512).flatMap fun c => coreReqs s c
    (∀ a b, keyLt a b = true ↔ a.1 < b.1 ∨ (a.1 = b.1 ∧ (a.2.1 < b.2.1 ∨ (a.2.1 = b.2.1 ∧ a.2.2 < b.2.2)))) ∧
    (q.bankKey k).1 = q.arrival ∧ (q.engineKey k).1 = q.arrival ∧
    (q.bankKey k).2.1 = (if q.isRmw then 5 else if q.writes = false then 1 else if q.core?.map clusterOf ≠ some k then 2
      else match q.who with | .box _ _ _ _ => 3 | _ => 4) ∧
    (q ∈ cores → q.inBank k bank = true → (∀ r ∈ cores, r.inBank k bank = true → r = q ∨ keyLt (q.bankKey k) (r.bankKey k) = true) →
      exec (.bankRequest k bank) s = .next (q.run s)) ∧
    (q ∈ tmRequests s c ↔ q ∈ coreReqs s c ∧ q.inTm = true ∧
      ∀ r ∈ coreReqs s c, r.inTm = true → keyLt (r.bankKey (clusterOf c)) (q.bankKey (clusterOf c)) = false) ∧
    (q ∈ engineRequests s k →
      (∃ line, q.line = some (k, line) ∧ (q.isRmw = true ∨ resident s k line = true)) ∧
      (∀ r ∈ allReqs s, r.atEngine s = true → r.line = q.line → keyLt (r.engineKey k) (q.engineKey k) = false) ∧
      ((∀ r ∈ engineRequests s k, r = q) →
        exec (.atomicEngineRequest k) s = .next ((runAtEngine s k q).getD s) ∧
        ∀ t, runAtEngine s k q = some t → ∃ u line, t = q.run u ∧ q.line = some (k, line) ∧ resident u k line = true ∧ u.mem = s.mem))

/-- R309, R303, R335, R365: the hub's answer to a lease question is known after its look-up and the covering leases enter the edge's cache of 64. The first
head of a context that waits at its edge, with one global part: in another package, its message is sent and it waits for its answer; in this package, it
takes the physical address of its translation once its streams can seal it, or its deferred fault. What has been translated and that no engine performs is
performed at its die by its queue's turn. The model's own readings in it: assumption logs 12, 37. -/
def Obligations.GlobalAccessPath : Prop :=
  ∀ (s s' s'' : State) (c : Fin 512) (e : QEnt) (rest : List QEnt) (va : Word) (pa : Nat) (k : Cause) (len : Nat) (m : Msg),
    (s.cores[c].leaseAsk = some (va, false) →
      ∃ t, exec (.leaseLookup c false) s = .next t ∧ t.cores[c].leaseAsk = some (va, true) ∧ SameMemory s t ∧
        (t.clusters[clusterOf c].leaseCache.length ≤ 64) ∧
        (∀ l ∈ leasesOf s (s.partOf c), l.covers va 1 = true → (leasesOf s (s.partOf c)).length ≤ 64 →
          l.id ∈ t.clusters[clusterOf c].leaseCache)) ∧
    (e.byElem = false → e.inTurn = false →
      let part (pa : Option Nat) : Piece := ⟨.glob va, 0, len, pa⟩
      (readyHeads s c false = e :: rest → e.todo = [part none] → e.stage = .waiting → throughHub s c e = false →
        (pkgOf va ≠ ownPkg s → entMsg s c false e va 0 len = some m →
          exec (.translate c false) s = .next (putEnt (send s ((s.partOf c).getD 0) m) c false { e with stage := .sent })) ∧
        (pkgOf va ≠ ownPkg s → entMsg s c false e va 0 len = none → exec (.translate c false) s = .next (failEnt s c false e .remote)) ∧
        (pkgOf va = ownPkg s → translate s false (s.partOf c) va e.writes = (s', .ok pa) → crossParts s' c false [part (some pa)] = some s'' →
          exec (.translate c false) s = .next (putEnt s'' c false { e with todo := [part (some pa)], stage := .xlated, arrival := s''.clk })) ∧
        (pkgOf va = ownPkg s → translate s false (s.partOf c) va e.writes = (s', .fail k) →
          exec (.translate c false) s = .next (failEnt s' c false e k))) ∧
      (e.stage = .xlated → e.todo = [part (some pa)] → (⟨.ent c false e, part (some pa)⟩ : Req).atEngine s = false →
        (headOf s c false (·.st) = some e → e.ld = false →
          exec (.counterWrite c false) s = .next (runPart s c false e (part (some pa)))) ∧
        (headOf s c false (·.ld) = some e → (∀ q x, e.kind ≠ .streamRead q x) →
          exec (.loadReturn c false) s = .next (runPart s c false e (part (some pa))))))

/-- R98, R100, R102 to R104, for I32, I16 and I8: with a true guard VADD, VSUB, VMUL, VFMA, VMIN, VMAX, VABS and VNEG write each active element wrapped to
its width, VADDS and VSUBS write the exact sum or difference clamped to the type's range, and an element whose mask bit is clear keeps its old value. -/
def Obligations.VectorIntegerElements : Prop :=
  ∀ (s : State) (h : Head) (m : BitVec 3) (d a b : BitVec 5) (t : ElemTy), s.rp h.g = true → t.isInt = true →
    let lo : Int := -(2 : Int) ^ (t.bits - 1)
    let hi : Int := (2 : Int) ^ (t.bits - 1) - 1
    let gives (i : Instr) (f : Int → Int → Int → Int) : Prop :=
      ∃ z, exec i s = .next (s.wrV d z) ∧ ∀ k < t.lanes, elem t z k =
        if maskBit (s.rm m) t.bytes k then
          BitVec.ofInt t.bits (f (elem t (s.rv a) k).toInt (elem t (s.rv b) k).toInt (elem t (s.rv d) k).toInt)
        else elem t (s.rv d) k
    gives (.vadd h m d a b t) (fun x y _ => x + y) ∧ gives (.vsub h m d a b t) (fun x y _ => x - y) ∧
    gives (.vmul h m d a b t) (fun x y _ => x * y) ∧ gives (.vfma h m d a b t) (fun x y z => x * y + z) ∧
    gives (.vmin h m d a b t) (fun x y _ => min x y) ∧ gives (.vmax h m d a b t) (fun x y _ => max x y) ∧
    gives (.vabs h m d a t) (fun x _ _ => |x|) ∧ gives (.vneg h m d a t) (fun x _ _ => -x) ∧
    gives (.vadds h m d a b t) (fun x y _ => max lo (min hi (x + y))) ∧
    gives (.vsubs h m d a b t) (fun x y _ => max lo (min hi (x - y)))

/-- R98, R99, R102, R103, for F32, BF16 and F16: each active element is the exact result of its operation on the operands' values, rounded once to
nearest even in the element's format, VFMA's product and sum together; VDIV acts on F32; VSQRT and VEXP2 write their F32 results; masked-off elements
keep their old value. -/
def Obligations.VectorFloatElements : Prop :=
  ∀ (s : State) (h : Head) (m : BitVec 3) (d a b : BitVec 5) (t : ElemTy) (f : FloatFmt), s.rp h.g = true →
    let gives (i : Instr) (t : ElemTy) (r : Nat → Nat → Nat → Nat) : Prop :=
      ∃ z, exec i s = .next (s.wrV d z) ∧ ∀ k < t.lanes, elem t z k =
        if maskBit (s.rm m) t.bytes k then
          BitVec.ofNat t.bits (r (elem t (s.rv a) k).toNat (elem t (s.rv b) k).toNat (elem t (s.rv d) k).toNat)
        else elem t (s.rv d) k
    let v (f : FloatFmt) (x : Nat) : Val := f.value x
    (elemFmt t = some f →
      gives (.vadd h m d a b t) t (fun x y _ => f.round .rne ((v f x).add (v f y))) ∧
      gives (.vsub h m d a b t) t (fun x y _ => f.round .rne ((v f x).add (v f y).negate)) ∧
      gives (.vmul h m d a b t) t (fun x y _ => f.round .rne ((v f x).mul (v f y))) ∧
      gives (.vfma h m d a b t) t (fun x y z => f.round .rne (((v f x).mul (v f y)).add (v f z))) ∧
      gives (.vmin h m d a b t) t (fun x y _ => f.round .rne ((v f x).min (v f y))) ∧
      gives (.vmax h m d a b t) t (fun x y _ => f.round .rne ((v f x).max (v f y))) ∧
      gives (.vabs h m d a t) t (fun x _ _ => f.round .rne (v f x).abs) ∧
      gives (.vneg h m d a t) t (fun x _ _ => f.round .rne (v f x).negate)) ∧
    gives (.vdiv h m d a b) .f32 (fun x y _ => FloatFmt.f32.round .rne ((v .f32 x).div (v .f32 y))) ∧
    gives (.vsqrt h m d a) .f32 (fun x _ _ => FloatFmt.f32.sqrt (v .f32 x)) ∧
    gives (.vexp2 h m d a) .f32 (fun x _ _ => FloatFmt.f32.exp2 (v .f32 x))

/-- R126 to R128: the logic words act on each active byte; the shifts act on 32-bit lanes by the low five bits of the count lane or by the immediate;
VCLMUL writes the low or the high half of the carry-less product of 64-bit lanes; VPOPC counts the one bits of each active lane. Other lanes keep
their value. -/
def Obligations.VectorBitWords : Prop :=
  ∀ (s : State) (h : Head) (m : BitVec 3) (d a b n : BitVec 5), s.rp h.g = true →
    let gives (w bytes : Nat) (i : Instr) (f : BitVec w → BitVec w → BitVec w) : Prop :=
      ∃ z, exec i s = .next (s.wrV d z) ∧ ∀ k < 256 / bytes, lane w z k =
        if maskBit (s.rm m) bytes k then f (lane w (s.rv a) k) (lane w (s.rv b) k) else lane w (s.rv d) k
    gives 8 1 (.vand h m d a b) (fun x y => x &&& y) ∧ gives 8 1 (.vor h m d a b) (fun x y => x ||| y) ∧
    gives 8 1 (.vxor h m d a b) (fun x y => x ^^^ y) ∧ gives 8 1 (.vandn h m d a b) (fun x y => x &&& ~~~y) ∧
    gives 32 4 (.vsll h m d a b) (fun x y => x <<< y.extractLsb' 0 5) ∧
    gives 32 4 (.vsrl h m d a b) (fun x y => x >>> y.extractLsb' 0 5) ∧
    gives 32 4 (.vsra h m d a b) (fun x y => x.sshiftRight (y.extractLsb' 0 5).toNat) ∧
    gives 32 4 (.vslli h m d a n) (fun x _ => x <<< n) ∧ gives 32 4 (.vsrli h m d a n) (fun x _ => x >>> n) ∧
    gives 32 4 (.vsrai h m d a n) (fun x _ => x.sshiftRight n.toNat) ∧
    gives 64 8 (.vclmulLo h m d a b) (fun x y => (clmul x y 64).extractLsb' 0 64) ∧
    gives 64 8 (.vclmulHi h m d a b) (fun x y => (clmul x y 64).extractLsb' 64 64) ∧
    gives 32 4 (.vpopc32 h m d a b) (fun x _ => BitVec.ofNat 32 ((List.range 32).countP fun j => x.getLsbD j)) ∧
    gives 64 8 (.vpopc64 h m d a b) (fun x _ => BitVec.ofNat 64 ((List.range 64).countP fun j => x.getLsbD j))

/-- R105, R129, at 4 and at 1 byte: VPERM takes the element that vB names (zero past the last), the slides move by the whole value of sB with zeros
entering, VBCAST writes the low bytes of sA, VMOV copies, VEXPAND takes the next source element for each active one, each under the mask with other
elements kept; VCOMPRESS packs the active elements from element 0 on and writes zero to the rest. -/
def Obligations.VectorMoveWords : Prop :=
  ∀ (s : State) (h : Head) (m : BitVec 3) (d a b : BitVec 5), s.rp h.g = true →
    let gives (bytes : Nat) (i : Instr) (f : Nat → BitVec (8 * bytes)) : Prop :=
      ∃ z, exec i s = .next (s.wrV d z) ∧ ∀ k < 256 / bytes, lane (8 * bytes) z k =
        if maskBit (s.rm m) bytes k then f k else lane (8 * bytes) (s.rv d) k
    let pick (bytes k : Nat) : BitVec (8 * bytes) := if k < 256 / bytes then lane (8 * bytes) (s.rv a) k else 0
    let all (bytes : Nat) (perm up down bcast mov expand compress : Instr) : Prop :=
      gives bytes perm (fun k => pick bytes (lane (8 * bytes) (s.rv b) k).toNat) ∧
      gives bytes up (fun k => if (s.rs b).toNat ≤ k then lane (8 * bytes) (s.rv a) (k - (s.rs b).toNat) else 0) ∧
      gives bytes down (fun k => pick bytes (k + (s.rs b).toNat)) ∧
      gives bytes bcast (fun _ => (s.rs a).setWidth (8 * bytes)) ∧ gives bytes mov (fun k => lane (8 * bytes) (s.rv a) k) ∧
      gives bytes expand (fun k => lane (8 * bytes) (s.rv a) ((List.range k).countP (maskBit (s.rm m) bytes))) ∧
      (∃ z, exec compress s = .next (s.wrV d z) ∧ ∀ k < 256 / bytes, lane (8 * bytes) z k =
        match ((List.range (256 / bytes)).filter (maskBit (s.rm m) bytes))[k]? with
        | some j => lane (8 * bytes) (s.rv a) j
        | none => 0)
    all 4 (.vperm32 h m d a b) (.vslideup32 h m d a b) (.vslidedn32 h m d a b) (.vbcast32 h m d a) (.vmov32 h m d a)
      (.vexpand32 h m d a) (.vcompress32 h m d a) ∧
    all 1 (.vperm8 h m d a b) (.vslideup8 h m d a b) (.vslidedn8 h m d a b) (.vbcast8 h m d a) (.vmov8 h m d a)
      (.vexpand8 h m d a) (.vcompress8 h m d a)

/-- R124, R125: VCMP writes the result of an element's compare to all the mask bits of its bytes where the element is active and keeps the others, floats
compared by value and integers as signed or (LTU) unsigned; MAND, MOR, MXOR, MANDN and MNOT act on the bits that mM selects; MCNT counts the selected
one bits and MFIRST gives the index of the lowest, or 256. -/
def Obligations.VectorMaskWords : Prop :=
  ∀ (s : State) (h : Head) (m d p q : BitVec 3) (e a b : BitVec 5) (t : ElemTy), s.rp h.g = true →
    let cmp (i : Instr) (f : BitVec t.bits → BitVec t.bits → Bool) : Prop :=
      ∃ z, exec i s = .next (s.wrM d z) ∧ ∀ j < 256, z.getLsbD j =
        if maskBit (s.rm m) t.bytes (j / t.bytes) then f (elem t (s.rv a) (j / t.bytes)) (elem t (s.rv b) (j / t.bytes))
        else (s.rm d).getLsbD j
    let bits (i : Instr) (f : Bool → Bool → Bool) : Prop :=
      ∃ z, exec i s = .next (s.wrM d z) ∧ ∀ j < 256, z.getLsbD j =
        if (s.rm m).getLsbD j then f ((s.rm p).getLsbD j) ((s.rm q).getLsbD j) else (s.rm d).getLsbD j
    (t.isInt = true → cmp (.vcmpEq h m d a b t) (fun x y => decide (x = y)) ∧ cmp (.vcmpLt h m d a b t) (fun x y => decide (x.toInt < y.toInt)) ∧
      cmp (.vcmpLe h m d a b t) (fun x y => decide (x.toInt ≤ y.toInt)) ∧ cmp (.vcmpLtu h m d a b t) (fun x y => decide (x.toNat < y.toNat))) ∧
    (∀ f, elemFmt t = some f →
      let v (x : BitVec t.bits) : Val := f.value x.toNat
      cmp (.vcmpEq h m d a b t) (fun x y => (v x).eq (v y)) ∧ cmp (.vcmpLt h m d a b t) (fun x y => (v x).lt (v y)) ∧
      cmp (.vcmpLe h m d a b t) (fun x y => (v x).lt (v y) || (v x).eq (v y))) ∧
    bits (.mand h m d p q) (fun x y => x && y) ∧ bits (.mor h m d p q) (fun x y => x || y) ∧
    bits (.mxor h m d p q) (fun x y => x ^^ y) ∧ bits (.mandn h m d p q) (fun x y => x && !y) ∧ bits (.mnot h m d p) (fun x _ => !x) ∧
    exec (.mcnt h m e p) s = .next (s.wrS e (BitVec.ofNat 64 ((List.range 256).countP fun j => (s.rm p).getLsbD j && (s.rm m).getLsbD j))) ∧
    (∃ n : Nat, exec (.mfirst h m e p) s = .next (s.wrS e (BitVec.ofNat 64 n)) ∧ n ≤ 256 ∧
      (∀ j < n, ((s.rm p).getLsbD j && (s.rm m).getLsbD j) = false) ∧ (n < 256 → ((s.rm p).getLsbD n && (s.rm m).getLsbD n) = true))

/-- R106 to R111: with a true guard each of the five words goes on, having written one vector register. A reduction leaves zero in every element but element
0. There a float reduction leaves the root of the pairwise tree whose leaves are the active elements, or the identity of the operation, and whose nodes
are rounded to F32, rounded once more to the element's format; an integer reduction the wrapped sum, or the maximum or minimum of the active elements (with
none, the identity). VSCAN leaves in each element the sum up to it: of floats by the doubling steps, of integers wrapped. VCVT writes each active element's
converted code under the mask bits of the F32 lanes and zero above the 64 results. -/
def Obligations.VectorReductionsAndConversions : Prop :=
  ∀ (s : State) (h : Head) (m : BitVec 3) (d a : BitVec 5) (t : ElemTy) (cv : Conv) (r : RMode), s.rp h.g = true →
    let act (k : Nat) : Bool := maskBit (s.rm m) t.bytes k
    let x (k : Nat) : Int := (elem t (s.rv a) k).toInt
    let sumTo (n : Nat) : Int := ((List.range n).filter act).foldl (fun z k => z + x k) 0
    let toF32 (v : Val) : Nat := FloatFmt.f32.round .rne v
    let val (y : Nat) : Val := FloatFmt.f32.value y
    let word (op : RedOp) : Instr := match op with
      | .sum => .vrsum h m d a t
      | .max => .vrmax h m d a t
      | .min => .vrmin h m d a t
    let ident (op : RedOp) : Val := match op with
      | .sum => .num true 0
      | .max => .inf true
      | .min => .inf false
    let node (op : RedOp) (u v : Val) : Val := match op with
      | .sum => u.add v
      | .max => u.max v
      | .min => u.min v
    let leaf (op : RedOp) (f : FloatFmt) (i : Nat) : Nat := toF32 (if act i then f.value (elem t (s.rv a) i).toNat else ident op)
    (∀ op, ∃ z, exec (word op) s = .next (s.wrV d z) ∧ (∀ k, 0 < k → k < t.lanes → elem t z k = 0) ∧
      (∀ f (y : Nat → Nat → Nat) n, elemFmt t = some f → 2 ^ n = t.lanes → (∀ i, y 0 i = leaf op f i) →
        (∀ k i, y (k + 1) i = toF32 (node op (val (y k (2 * i))) (val (y k (2 * i + 1))))) →
        elem t z 0 = BitVec.ofNat _ (f.round .rne (val (y n 0)))) ∧
      (elemFmt t = none →
        (op = .sum → elem t z 0 = BitVec.ofInt t.bits (sumTo t.lanes)) ∧
        (op = .max → (∀ k < t.lanes, act k = true → x k ≤ (elem t z 0).toInt) ∧
          ((∃ k < t.lanes, act k = true ∧ elem t z 0 = elem t (s.rv a) k) ∨
            ((∀ k < t.lanes, act k = false) ∧ (elem t z 0).toInt = -(2 ^ (t.bits - 1) : Nat)))) ∧
        (op = .min → (∀ k < t.lanes, act k = true → (elem t z 0).toInt ≤ x k) ∧
          ((∃ k < t.lanes, act k = true ∧ elem t z 0 = elem t (s.rv a) k) ∨
            ((∀ k < t.lanes, act k = false) ∧ (elem t z 0).toInt = (2 ^ (t.bits - 1) : Nat) - 1))))) ∧
    (∃ z, exec (.vscan h m d a t) s = .next (s.wrV d z) ∧
      (∀ f (y : Nat → Nat → Nat) n, elemFmt t = some f → 2 ^ n = t.lanes → (∀ i, y 0 i = leaf .sum f i) →
        (∀ k i, y (k + 1) i = if i < 2 ^ k then y k i else toF32 ((val (y k (i - 2 ^ k))).add (val (y k i)))) →
        ∀ i < t.lanes, elem t z i = BitVec.ofNat _ (f.round .rne (val (y n i)))) ∧
      (elemFmt t = none → ∀ i < t.lanes, elem t z i = BitVec.ofInt t.bits (sumTo (i + 1)))) ∧
    (∃ z, exec (.vcvt h m d a cv r) s = .next (s.wrV d z) ∧
      (∀ k < 64, lane (convDstBits cv) z k = if maskBit (s.rm m) 4 k then
        BitVec.ofNat _ (convOne cv r (lane (convSrcBits cv) (s.rv a) k).toNat) else lane (convDstBits cv) (s.rv d) k) ∧
      (∀ j, 64 * convDstBits cv ≤ j → z.getLsbD j = false))

/-- R316: a trap that starts is taken at once where everything that must finish before its frame has finished (R71, R162, R187: stores drained, requests
that have left the core come back, fully fetched MMAs written, boxes in progress credited); else the core keeps it and its unit issues no more, and the
core's trap turn takes it once that has finished. Taking it leaves the unit Stopped, with TCAUSE, TPC and TWORD as the trap says. A fault found at issue
starts the trap of the word in hand, with its packet, its place and its address (R69); in a firmware context it is that context's own fault (R372).
The model's own readings in it: assumption log 10. -/
def Obligations.TrapEntry : Prop :=
  ∀ (s : State) (c : Fin 512) (taken : Option Nat) (t : TrapInfo) (k : Cause) (a : Word),
    let u := takeTrap s c taken t
    let core := s.cores[c]
    (u.cores[c].st = .stopped ∧ u.cores[c].ctl.tcause = t.cause.code ∧ u.cores[c].ctl.tpc = t.tpc ∧
      u.cores[c].ctl.tword = t.tword ∧ u.cores[c].trap = none ∧ u.mark = .trap) ∧
    (trapReady s c = true ↔ (∀ e ∈ core.unit.mq, e.drains = true → e.failed = true) ∧ (∀ r ∈ core.unit.mmas, r.pix ≠ r.steps) ∧
      ∀ (i : Fin 256) (y : Copy), core.copies[i] = some y → y.settled = true) ∧
    (trapReady s c = true → startTrap s c taken t = u) ∧
    (trapReady s c = false →
      startTrap s c taken t = { s.putCore c { core with trap := some (t, taken) } with mark := .trap } ∧ trapFree (startTrap s c taken t) c = false) ∧
    (core.trap = some (t, taken) → cancelDue s c = false →
      exec (.takeTrap c) s = .next (if trapReady s c then u else s)) ∧
    (s.fw = false →
      raiseAt s k a = .next (startTrap s s.core none ⟨k, s.ctx.pc, BitVec.ofNat 2 s.word, a, 0, 0, 0, 0, 0, 0⟩)) ∧
    (s.fw = true → raiseAt s k a = .next (fwFault s s.core k))

/-- R317, R318: the trap frame of a unit holds CAUSE, TWORD, TPC, PIX, LAUNCH, UNITID and FADDR at their places in the header, every s register and
predicate at its own place, and zero where the area is reserved; reading the registers and the loop stack back from it gives what the unit had. No byte
outside the core's trap area changes. The memory is in its canonical form before. -/
def Obligations.TrapFrameHoldsTheUnit : Prop :=
  ∀ (s : State) (c : Fin 512) (t : TrapInfo) (r : Regs) (a : Nat),
    s.memWf →
    let x := s.cores[c].unit
    let u := writeFrame s c t
    let tm (o n : Nat) : Nat := u.loadNat (tmAddr c o) n
    tm 0x7C000 1 = t.cause.code.toNat ∧ tm 0x7C001 1 % 4 = t.tword.toNat ∧ tm 0x7C010 4 = t.tpc.toNat ∧ tm 0x7C014 4 = t.pix.toNat ∧
      tm 0x7C018 4 = s.cores[c].ctl.launchid.toNat ∧ tm 0x7C01C 4 = s.cores[c].ctl.unitid.toNat ∧ tm 0x7C038 8 = t.addr.toNat ∧
      (∀ i : BitVec 5, tm (0x7C040 + 8 * i.toNat) 8 = (x.regs.getS i).toNat) ∧ tm 0x7C141 7 = 0 ∧
      (∀ i, (frameRegs u c r).getS i = x.regs.getS i) ∧ (∀ i, (frameRegs u c r).getP i = x.regs.getP i) ∧
      (x.loops.length ≤ 4 → frameLoops u c = x.loops) ∧ (a < tmAddr c 0x7C000 ∨ tmAddr c 0x7E000 ≤ a → readByte u.mem a = readByte s.mem a)

/-- R95: in a unit TRAP starts a trap with TRAP_INSN, with TPC and TWORD naming the bundle that would issue next, and its code; its bundle has then
ended. While the end of its packet waits for a loop's count, TRAP waits. R96: in the firmware context TRET with a Stopped unit whose record is not held
makes it running again, at word TWORD of packet TPC, with no word captured; with no Stopped unit it is a fault ILLEGAL_OP, in a unit a trap with PRIV,
and while the unit's record is held it waits. The model's own readings in it: assumption logs 10, 14. -/
def Obligations.TrapWordAndReturn : Prop :=
  ∀ (s : State) (h : Head) (k : BitVec 11), s.rp h.g = true →
    let ends := s.redirect.isSome = true ∨ s.last < 2 ∨ countPending s.ctx (olderEnts s) = false
    (s.fw = false → ends →
      let b := atBoundary (advance s) s.core
      let info : TrapInfo := { TrapInfo.at .trapInsn b.ctx.pc (BitVec.ofNat 2 b.ctx.word) 0 with tcode := k }
      exec (.trap h k) s = .next { startTrap b s.core none info with mark := .ended } ∧
      (trapReady b s.core = true → let t := startTrap b s.core none info
        t.cur.st = .stopped ∧ t.cur.ctl.tcause = 0x15 ∧ t.cur.ctl.tpc = b.ctx.pc ∧ t.cur.ctl.tword = BitVec.ofNat 2 b.ctx.word)) ∧
    (s.fw = false → ¬ends → exec (.trap h k) s = .next { s with mark := .stall }) ∧
    (s.fw = true → exec (.trap h k) s = .next (fwFault s s.core .trapInsn)) ∧
    (s.fw = true → s.cur.st = .stopped → s.cur.heldRec = none →
      ∃ t, exec (.tret h) s = .next t ∧ t = returnFromTrap s s.core ∧ t.cur.st = .running ∧ t.cur.unit.pc = s.cur.ctl.tpc ∧
        t.cur.unit.word = s.cur.ctl.tword.toNat ∧ t.cur.replay = []) ∧
    (s.fw = true → s.cur.st = .stopped → s.cur.heldRec.isSome = true → exec (.tret h) s = .next { s with mark := .stall }) ∧
    (s.fw = true → s.cur.st ≠ .stopped → exec (.tret h) s = .next (fwFault s s.core .illegalOp)) ∧
    (s.fw = false →
      exec (.tret h) s = .next (startTrap s s.core none (.at .priv s.ctx.pc (BitVec.ofNat 2 s.word) 0)))

/-- R315: a running unit in which no trap has begun takes at its boundary the oldest deferred fault, else TOKEN_EXPIRE with its entry, else WATCHDOG, else
BREAK with its number, else PREEMPT, and nothing where none is pending; the causes not taken stay pending. A unit whose DONE or SUSPEND has issued takes
neither BREAK nor PREEMPT, and one whose next bundle's DONE is due, or that waits for a CPYCAN, takes nothing yet (R329, R166). A unit that a cancel has
chosen is discarded instead (R255). A unit that does not run takes none. A deferred fault of a firmware context is that context's fault (R372).
The model's own readings in it: assumption log 10. -/
def Obligations.BoundaryTraps : Prop :=
  ∀ (s : State) (c : Fin 512) (d : Deferred) (t : BitVec 8) (rest : List (BitVec 8)) (i : Fin 8),
    let free := s.cores[c].st = .running ∧ s.cores[c].trap = none
    let go := free ∧ cancelDue s c = false ∧ cancelling s c = false ∧ doneDue s c = false
    let b := atBoundary s c
    let p := s.cores[c].pend
    let ends := s.cores[c].ending.isSome = true
    let goesOnWith (f : Pend → Pend) (w : TrapInfo) : Prop := exec (.takeTrap c) s = .next (startTrap (modPend b c f) c none w)
    (go → oldestFault s c false = some d → exec (.takeTrap c) s = .next (takeDeferred s c d)) ∧
    (free → oldestFault s c false = some d → exec (.deferredFault c false) s = .next (takeDeferred s c d)) ∧
    (go → oldestFault s c false = none →
      (p.tokens = t :: rest →
        goesOnWith (fun q => { q with tokens := rest }) { boundaryInfo b c .tokenExpire with tokent := t }) ∧
      (p.tokens = [] → p.watchdog = true → goesOnWith (fun q => { q with watchdog := false }) (boundaryInfo b c .watchdog)) ∧
      (p.tokens = [] → p.watchdog = false → ends → exec (.takeTrap c) s = .next s) ∧
      (p.tokens = [] → p.watchdog = false → ¬ends → breakHit b c = some i →
        exec (.takeTrap c) s = .next (startTrap b c none { boundaryInfo b c .brk with brkn := BitVec.ofNat 3 i.val })) ∧
      (p.tokens = [] → p.watchdog = false → ¬ends → breakHit b c = none → p.preempt = true →
        goesOnWith (fun q => { q with preempt := false }) (boundaryInfo b c .preempt)) ∧
      (p.tokens = [] → p.watchdog = false → ¬ends → breakHit b c = none → p.preempt = false → exec (.takeTrap c) s = .next s)) ∧
    (free → cancelDue s c = false → cancelling s c = true ∨ doneDue s c = true → exec (.takeTrap c) s = .next s) ∧
    (cancelDue s c = true → exec (.takeTrap c) s = .next (discardUnit s c)) ∧
    (s.cores[c].st ≠ .running → cancelDue s c = false → s.cores[c].trap = none →
      exec (.takeTrap c) s = .next s ∧ exec (.deferredFault c false) s = .next s) ∧
    (oldestFault s c false = none → exec (.deferredFault c false) s = .next s) ∧
    (oldestFault s c true = some d → exec (.deferredFault c true) s = .next (fwFault s c d.cause)) ∧
    (oldestFault s c true = none → exec (.deferredFault c true) s = .next s)

/-- R55: of a packet, the first word that does not decode is ILLEGAL_OP; only when all decode is C on word 2 ILLEGAL_CHAIN; only then is the second
word of a bundle for one pipe PIPE_CLASH; only then is the lowest word that a unit may not execute PRIV. The fault found names that word and no
word runs, whatever the guards; a packet with none of these faults goes on to its bundle. The firmware context has no PRIV. -/
def Obligations.PacketChecks : Prop :=
  ∀ (run : Instr → State → Out) (s : State) (ws : List (BitVec 32)) (i : Nat) (k : Cause) (fw : Bool),
    let bad (j : Nat) : Bool := !wordLegal fw (ws.getD j 0)
    let first (f : Nat → Bool) (j : Nat) : Prop := j < 3 ∧ f j = true ∧ ∀ n < j, f n = false
    let clear (f : Nat → Bool) : Prop := ∀ j < 3, f j = false
    (first bad i → packetFault fw ws = some (i, .illegalOp)) ∧
    (clear bad → chainedAt ws 2 = true → packetFault fw ws = some (2, .illegalChain)) ∧
    (clear bad → chainedAt ws 2 = false → first (pipeClash ws) i → packetFault fw ws = some (i, .pipeClash)) ∧
    (clear bad → chainedAt ws 2 = false → clear (pipeClash ws) → first (fun j => wordPriv fw (ws.getD j 0)) i →
      packetFault fw ws = some (i, .priv)) ∧
    (clear bad → chainedAt ws 2 = false → clear (pipeClash ws) → clear (fun j => wordPriv fw (ws.getD j 0)) →
      packetFault fw ws = none) ∧
    (∀ w, wordPriv true w = false) ∧
    (packetFault s.fw ws = some (i, k) → issueFrom run s ws = finish [] (raise { s with word := i } k))

/-- R320: once the unit context of a running core has issued nothing for 2^31 clk, WATCHDOG is pending, and before that nothing changes. R84: the
lowest token entry of a core whose limit has passed, where none is to be sent again, is pending for a running unit as TOKEN_EXPIRE; that of a firmware context is its fault. R383: a restarted firmware context stands at word 0 of the ENTRY packet of the ACTIVE image, with its reason in
s2, the directory in s3, its core in s4, the handover address in s1 (zero at cold boot), zero in every other s register and false in p1 to p7.
The model's own readings in it: assumption log 10. -/
def Obligations.TokenLimitsAndWatchdog : Prop :=
  ∀ (s : State) (c : Fin 512) (reason : Nat),
    (s.cores[c].st = .running → 2 ^ 31 ≤ s.clk - s.cores[c].issued →
      ∃ t, exec (.watchdog c) s = .next t ∧ t.cores[c] = { s.cores[c] with pend := { s.cores[c].pend with watchdog := true } } ∧
        SameMemory s t ∧ SameRest s t ∧ ∀ d, d ≠ c → t.cores[d] = s.cores[d]) ∧
    (s.cores[c].st ≠ .running ∨ s.clk - s.cores[c].issued < 2 ^ 31 → exec (.watchdog c) s = .next s) ∧
    (let due (i : Fin 256) : Bool :=
        (s.cores[c].tokens[i]).any fun k => !k.notify && !k.expired && decide (k.limit ≤ s.clk);
      (∀ i : Fin 256, (s.cores[c].tokens[i]).all (fun k => !k.resend) = true) → s.cores[c].st = .running →
      (∀ (i : Fin 256) (k : TokEnt), s.cores[c].tokens[i] = some k → k.fw = false → due i = true → (∀ j < i, due j = false) →
        ∃ t, exec (.tokenExpire c) s = .next t ∧ t.cores[c].pend.tokens = s.cores[c].pend.tokens ++ [BitVec.ofNat 8 i.val] ∧
          t.cores[c].tokens[i] = some { k with expired := true } ∧ t.cores[c].unit = s.cores[c].unit ∧ SameMemory s t) ∧
      (∀ (i : Fin 256) (k : TokEnt), s.cores[c].tokens[i] = some k → k.fw = true → due i = true → (∀ j < i, due j = false) →
        exec (.tokenExpire c) s = .next (fwFault (s.putCore c { s.cores[c] with
          tokens := s.cores[c].tokens.set i.val (some { k with expired := true }) i.isLt }) c .tokenExpire)) ∧
      ((∀ i, due i = false) → exec (.tokenExpire c) s = .next s)) ∧
    (let x := (bootFw s c reason).cores[c].fw;
      x.pc = BitVec.ofNat 32 (imageEntry s) ∧ x.word = 0 ∧ x.loops = [] ∧ x.mq = [] ∧ x.streams = Vector.replicate 4 none ∧
        x.regs.getS 1 = (if reason = 0 then 0 else s.hub.images.handover) ∧ x.regs.getS 2 = BitVec.ofNat 64 reason ∧
        x.regs.getS 3 = dirAddr ∧ x.regs.getS 4 = BitVec.ofNat 64 c.val ∧ (∀ r, r = 0 ∨ 4 < r → x.regs.getS r = 0) ∧
        (∀ p, p ≠ 0 → x.regs.getP p = false) ∧ (∀ v, x.regs.getV v = 0) ∧ ∀ a, x.regs.getA a = Acc.zero)

/-- When it is the turn of a context to issue, nothing is to be taken at its boundary, its streams lack no read, the packet at its PC is fetched and passes its checks, and its
next bundle is one word that decodes to an instruction and waits for no register, the step is the meaning of that instruction (for KROT, SCRUB and
SLOTSW of the request in sA) with the word in hand, followed by what ends a bundle and then by what ends a step.
The model's own readings in it: assumption logs 2, 11. -/
def Obligations.StepRunsTheDecodedWord : Prop :=
  ∀ (s u' v : State) (ws : List (BitVec 32)) (n : Nat) (i : Instr),
    s.turn = .issue → s.pf.trip2 = false → present? s = true →
    let u := shareWindow s
    shareSpent exec u = false → u.ctx.word < 3 →
    (if u.fw then oldestFault u u.core true = none
      else cancelDue u u.core = false ∧ (cancelling u u.core = true ∨ boundaryTrap u u.core = none)) →
    streamsReady u = (u', true) → u'.ctx.viaJr = none →
    fetchPacket u' u'.core u'.fw u'.ctx.pc = (v, .ok ws) → packetFault v.fw ws = none →
    bundleFirst ws v.ctx.word = n → bundleLast ws n = n → decodeWord (ws.getD n 0) = some i →
    let w : Slot := ⟨n, ws.getD n 0, resolve v i⟩
    mustWait v.ctx w = false →
    step s = afterTurn s (finish [w] (exec (resolve v i) (enter v v.serial v.ctx.regs n w)))

/-- A partition whose front end can decode, with nothing to skip and a fetched record that decodes to an instruction, runs that record, and what it had read
of other packages is forgotten unless it waits; a policy in a run of a pick runs the operation at its index; the next input of the outside world is the
meaning of its row, and stays where it must wait; an event is the meaning of its row. After every turn the time goes on by a free amount, the next turn is
the free choice, and no word is in hand. The model's own readings in it: assumption logs 2, 32. -/
def Obligations.StepRunsTheTurn : Prop :=
  ∀ (s t v : State) (i : Instr) (r : TopRun) (bs : List Byte) (rest : List Input) (e : Event) (iova : Word),
    let f := s.front
    (s.turn = .stream → canDecode s s.part = true → f.skip = false → f.graph = none → f.level.ended = false → entryFence f = false →
      f.fetchDue = none → recordBytesAt s = (v, .ok bs) → recordBytes bs ≤ bs.length → decodeStream bs = some i → exec i v = .next t →
      (t.mark = .stall → step s = afterTurn s (.next { t with mark := .none })) ∧
      (t.mark ≠ .stall → step s = afterTurn s (.next { dropAsks t t.part askDecode with mark := .none }))) ∧
    (s.turn = .topiary → f.pick.isSome = true → s.aux[s.part].run = some r → frontHeld s s.part = false →
      decodeTopiary (opAt s.aux[s.part].policy r.pc) = some i → step s = afterTurn s (exec i s)) ∧
    (s.turn = .input → s.inbox = .event i :: rest → isInput i = true → exec i { s with inbox := rest } = .next t →
      (t.mark = .stall → step s = afterTurn s (.next { t with mark := .none, inbox := s.inbox })) ∧
      (t.mark ≠ .stall → step s = afterTurn s (.next { t with mark := .none }))) ∧
    (s.turn = .input → s.inbox = .hostWrite iova bs :: rest →
      step s = afterTurn s (.next (State.store { s with inbox := rest } (hostAddr iova.toNat) bs))) ∧
    (s.turn = .event e → step s = afterTurn s (runEvent e s)) ∧
    (∀ c fw, runEvent (.loadReturn c fw) s = exec (.loadReturn c fw) s ∧ runEvent (.storePerform c fw) s = exec (.storePerform c fw) s ∧
      runEvent (.translate c fw) s = exec (.translate c fw) s ∧ runEvent (.takeTrap c) s = exec (.takeTrap c) s ∧
      runEvent (.mmaAccumulate c fw) s = exec (.mmaAccumulate c fw) s ∧ runEvent .create s = exec .create s) ∧
    (∀ k b, runEvent (.bankRequest k b) s = exec (.bankRequest k b) s ∧
      runEvent (.atomicEngineRequest k) s = exec (.atomicEngineRequest k) s) ∧
    (∃ w, afterTurn s (.next t) = .next w ∧ w.mark = .none ∧ w.tick = t.tick + 1 ∧ w.clk = t.clk + Config.elapsed t.tick ∧
      w.turn = turnOf (Config.pick (t.tick + 1) % turnKinds) (Config.pick (t.tick + 1) / turnKinds))

/-- R399, R383, R13: after reset no core has a unit, every firmware context stands at word 0 of its start packet with s2 = 0, the directory address in s3
and its core number in s4 and every other register of R13 zero; no partition exists, no token, copy or guard entry is in use, every link is down, no
byte outside the firmware directory that the hub writes reads as other than zero, and the memory is in its canonical form. The packet 0 and the
directory's address are the model's choices (assumption log 3 and 4). -/
def Obligations.ResetState : Prop :=
  let s := State.reset
  s.memWf ∧ s.mark = .none ∧ s.inbox = [] ∧ s.caps = [] ∧ s.fabric.out = [] ∧ s.fabric.inward = [] ∧
      s.fabric.hold = Vector.replicate 1024 none ∧ (∀ k : Fin 6, s.fabric.links[k].up = false) ∧
      (∀ a, a < hbmAddr 0 0x1FC0000000 ∨ hbmAddr 0 0x1FC0000040 ≤ a → readByte s.mem a = 0) ∧
      (∀ p : Fin 16, s.parts[p].st = .free ∧ s.aux[p].front.st = .off ∧ s.aux[p].window.entries = [] ∧ s.hub.owner[p] = none) ∧
      (∀ k : Fin 64, s.clusters[k] = Cluster.zero ∧ s.hub.keys[k].st = .free) ∧
      (∀ c : Fin 512,
        s.cores[c].st = .none ∧ s.cores[c].unit = Ctx.zero ∧ s.cores[c].fwOn = true ∧ s.cores[c].ctl = Ctl.zero ∧
          s.cores[c].trap = none ∧ s.cores[c].tokens = Vector.replicate 256 none ∧ s.cores[c].copies = Vector.replicate 256 none ∧ s.cores[c].guard = [] ∧
          s.cores[c].fw.pc = 0 ∧ s.cores[c].fw.word = 0 ∧ s.cores[c].fw.mq = [] ∧ s.cores[c].fw.loops = [] ∧
          s.cores[c].fw.regs.getS 3 = dirAddr ∧ s.cores[c].fw.regs.getS 4 = BitVec.ofNat 64 c.val ∧
          (∀ r, r ≠ 3 → r ≠ 4 → s.cores[c].fw.regs.getS r = 0) ∧ ∀ p, p ≠ 0 → s.cores[c].fw.regs.getP p = false)

/-- Whatever the turn, a step from a state whose memory lists its bytes at strictly rising addresses, none of them reading as an unlisted byte, leaves the
memory in that form. Equal memories are therefore equal data after every step. (The form is the model's own, assumption log 3.) -/
def Obligations.MemoryKeepsItsForm : Prop :=
  Kept State.memWf

/-- R316, R372: no fault stops the machine. A fault of a unit is a trap that is taken, a fault of the firmware context restarts it, a request that fails is
answered, a word that cannot go on waits, and an event that is not due changes nothing: every step from every state has a next state, and so has every
instruction of the table as the next thing to happen. -/
def Obligations.NoStepStops : Prop :=
  ∀ (s : State), (∃ t, step s = .next t) ∧ ∀ i, Completes i s

/-- R381: each operation pops and pushes what the table of operations says, on 32-bit two's complement values that wrap, and the run goes on at the next
index, at the target of a jump (one past the loop's NEXTQ ends the loop), or at the loop's first operation; STL keeps locals 0 to 7 in the partition;
PICK takes a choice only if it is a candidate; SLICE is cut to 0 to 65,535; RET posts the choice (0xFF if none) and the slice. R380: a run that pops from
an empty stack, pushes onto 16 values, or meets NEXTQ with no loop posts 0xFF. -/
def Obligations.TopiaryOperations : Prop :=
  ∀ (s : State) (r : TopRun) (k : BitVec 8) (a b : BitVec 32) (rest : List (BitVec 32)) (l : Nat),
    let p := s.part
    let len := s.aux[p].policy.length
    s.aux[p].run = some r → r.pc + 1 < len →
    let at_ (u : State) (q : TopRun) (pc : Nat) : State := u.putAux p { u.aux[p] with run := some { q with pc := pc } }
    let goes (i : Instr) (q : TopRun) : Prop := exec i s = .next (at_ s q (r.pc + 1))
    let fails (i : Instr) : Prop := exec i s = .next (postRun s p 0xFF 0)
    let past (q : TopRun) (pc : Nat) : TopRun := if nextqAt s < pc then { q with loopPc := none } else q
    (r.stack.length < 16 →
      goes (.topiaryLit k) { r with stack := k.setWidth 32 :: r.stack } ∧ goes (.topiaryLdq k) { r with stack := queueField r k.toNat :: r.stack } ∧
      goes (.topiaryLdl k) { r with stack := readLocal s r k.toNat :: r.stack }) ∧
    (r.stack.length = 16 → fails (.topiaryLit k) ∧ fails (.topiaryLdq k) ∧ fails (.topiaryLdl k) ∧ fails .topiaryDup) ∧
    (r.stack = a :: rest →
      (rest.length < 15 → goes .topiaryDup { r with stack := a :: a :: rest }) ∧
      (rest.length < 16 → goes .topiaryDrop { r with stack := rest }) ∧
      (k.toNat % 16 < 8 → exec (.topiaryStl k) s = .next (at_ (s.putAux p { s.aux[p] with locals := vput s.aux[p].locals (ix 8 k.toNat) a })
        { r with stack := rest } (r.pc + 1))) ∧
      (8 ≤ k.toNat % 16 → goes (.topiaryStl k) { r with stack := rest, locals := vput r.locals (ix 8 k.toNat) a }) ∧
      (a = 0 → r.pc + k.toNat < len →
        exec (.topiaryJz k) s = .next (at_ s (past { r with stack := rest } (r.pc + k.toNat)) (r.pc + k.toNat))) ∧
      (a ≠ 0 → goes (.topiaryJz k) { r with stack := rest }) ∧
      (let good : Bool := decide (a.toNat < 4) && r.fields[ix 4 a.toNat][(0 : Fin 6)] == 1;
        goes .topiaryPick { r with stack := rest, choice := if good then some (ix 4 a.toNat) else r.choice }) ∧
      goes .topiarySlice { r with stack := rest, slice := if a.slt 0 then 0 else if (65535 : BitVec 32).slt a then 65535 else a }) ∧
    (r.stack = b :: a :: rest → rest.length ≤ 14 → goes .topiarySwap { r with stack := a :: b :: rest }) ∧
    (r.stack = b :: a :: rest → rest.length ≤ 14 → goes .topiaryAdd { r with stack := (a + b) :: rest }) ∧
    (r.stack = b :: a :: rest → rest.length ≤ 14 → goes .topiarySub { r with stack := (a - b) :: rest }) ∧
    (r.stack = b :: a :: rest → rest.length ≤ 14 → goes .topiaryMul { r with stack := (a * b) :: rest }) ∧
    (r.stack = b :: a :: rest → rest.length ≤ 14 → goes .topiaryMin { r with stack := (if a.slt b then a else b) :: rest }) ∧
    (r.stack = b :: a :: rest → rest.length ≤ 14 → goes .topiaryMax { r with stack := (if a.slt b then b else a) :: rest }) ∧
    (r.stack = b :: a :: rest → rest.length ≤ 14 → goes .topiaryAnd { r with stack := (a &&& b) :: rest }) ∧
    (r.stack = b :: a :: rest → rest.length ≤ 14 → goes .topiaryOr { r with stack := (a ||| b) :: rest }) ∧
    (r.stack = b :: a :: rest → rest.length ≤ 14 → goes .topiaryLt { r with stack := (if a.slt b then 1 else 0) :: rest }) ∧
    (r.stack = b :: a :: rest → rest.length ≤ 14 → goes .topiaryEq { r with stack := (if a = b then 1 else 0) :: rest }) ∧
    (r.stack.length < 2 → fails .topiaryAdd ∧ fails .topiarySub ∧ fails .topiaryMul ∧ fails .topiaryMin ∧ fails .topiaryMax ∧
      fails .topiaryAnd ∧ fails .topiaryOr ∧ fails .topiaryLt ∧ fails .topiaryEq ∧ fails .topiarySwap) ∧
    (r.stack = [] → fails .topiaryDup ∧ fails .topiaryDrop ∧ fails (.topiaryStl k) ∧ fails (.topiaryJz k) ∧ fails .topiaryPick ∧ fails .topiarySlice) ∧
    (r.pc + k.toNat < len → exec (.topiaryJmp k) s = .next (at_ s (past r (r.pc + k.toNat)) (r.pc + k.toNat))) ∧
    goes (.topiaryForq k) { r with loopPc := some (r.pc + 1), visit := 0, passes := min (max k.toNat 1) 16 } ∧
    (r.loopPc = none → fails .topiaryNextq) ∧
    (r.loopPc = some l → l < len → r.visit + 1 < 4 * r.passes → exec .topiaryNextq s = .next (at_ s { r with visit := r.visit + 1 } l)) ∧
    (r.loopPc = some l → 4 * r.passes ≤ r.visit + 1 → goes .topiaryNextq { r with loopPc := none }) ∧
    exec .topiaryRet s = .next (postRun (at_ s r len) p (match r.choice with | some q => q.val | none => 0xFF) r.slice.toNat)

/-- R167, R156: on a barrier in range with no acquire before it, BINIT starts it, BEXP adds sB to PEND, BARRV also takes one arrival, both with the flip
that follows, BWAIT goes on once PHASE differs from bit 0 of sB and waits until then, BTEST writes that comparison; only the barrier's eight bytes
change, and the place of the event among those of its clk is kept (R157). A number out of range, or an object that is not initialised or has OVF, is BARRIER_RANGE. R171, R172: NEST.LD loads the shadow bank from a
descriptor that passes its checks, NEST.GO starts a run at index zero, NEST.WAIT goes on once no run and none of its MMAs is left, and the engine emits
its next iteration. R121, R122: VBIND binds from a descriptor that passes, VUNBIND unbinds, VLDQ writes the active bytes of the next position and VSTQ
stores the active bytes there, each using the position and VLDQ asking for the read four on (its read's fault is its own); the read of a position performs at the head of its queue.
The model's own readings in it: assumption logs 14, 16, 18, 44. -/
def Obligations.BarrierNestAndStreamWords : Prop :=
  ∀ (s : State) (h : Head) (a b d : BitVec 5) (p m : BitVec 3) (q : BitVec 2) (o : Bar) (sr : StreamReg) (bs : List Byte) (v : Variant)
    (ty : MmaTy) (rm : Bool) (c : Fin 512) (fw : Bool) (e : QEnt) (u : State) (lo n : Nat) (l : Loc) (f : Cause), s.rp h.g = true →
    let k := (s.rs a).toNat
    let x := s.rs b
    let bar := getBar s s.core s.fw k
    let put (y : Bar) : Out := .next (putBar s s.core s.fw k y)
    let event (y : Bar) : Out := .next (putBar (markBar s s.core s.fw k .word) s.core s.fw k y)
    let sum := bar.pend.toInt + x.toNat
    let off := tmAddr s.core (s.rs a).toNat
    let copyOf (j : Nat) : List Byte := s.load off j
    let nest := (s.cores[c].ctx fw).nest
    (k < barrierMax s.fw → acqWaits s = false →
      (x.toNat ≤ 4095 → barrierBusy s k = false →
        exec (.binit h a b) s = put ⟨true, false, false, x.setWidth 12, x.setWidth 12, 0⟩) ∧
      (4095 < x.toNat → exec (.binit h a b) s = raise s .barrierRange) ∧
      (bar.v = true → bar.ovf = false →
        (sum < 2 ^ 31 → exec (.bexp h a b) s = event { bar with pend := BitVec.ofInt 32 sum }.flip) ∧
        (2 ^ 31 ≤ sum → exec (.bexp h a b) s = event { bar with ovf := true }) ∧
        (sum < 2 ^ 31 → bar.arrive ≠ 0 →
          exec (.barrv h a b) s = event { bar with pend := BitVec.ofInt 32 sum, arrive := bar.arrive - 1 }.flip) ∧
        (bar.arrive = 0 → sum < 2 ^ 31 → exec (.barrv h a b) s = event { bar with pend := BitVec.ofInt 32 sum, ovf := true }) ∧
        (2 ^ 31 ≤ sum → exec (.barrv h a b) s = event { bar with ovf := true, arrive := if bar.arrive = 0 then 0 else bar.arrive - 1 }) ∧
        (bar.phase ≠ x.getLsbD 0 → exec (.bwait h a b) s = .next s) ∧
        (bar.phase = x.getLsbD 0 → exec (.bwait h a b) s = .next { s with mark := .stall }) ∧
        exec (.btest h p a b) s = .next (s.wrP p (bar.phase != x.getLsbD 0))) ∧
      (bar.v = false ∨ bar.ovf = true → ∀ i ∈ [Instr.bexp h a b, .barrv h a b, .bwait h a b, .btest h p a b],
        exec i s = raise s .barrierRange)) ∧
    (barrierMax s.fw ≤ k → ∀ i ∈ [Instr.binit h a b, .bexp h a b, .barrv h a b, .bwait h a b, .btest h p a b],
      exec i s = raise s .barrierRange) ∧
    (markBar s s.core s.fw k .word = s.setCur { s.cur with barMarks := (markBar s s.core s.fw k .word).cur.barMarks }) ∧
    (SameOutside s (putBar s s.core s.fw k o) (tmAddr s.core (barrierOff s.fw k)) 8 ∧
      (s.memWf → getBar (putBar s s.core s.fw k o) s.core s.fw k = o)) ∧
    (k % 64 = 0 → k + 256 ≤ 0x78000 → engineReads s k 256 = false → nestShapeOk (copyOf 256) = true →
      nestFormatOk s (copyOf 256) = true → nestBarrierOk s.fw (copyOf 256) = true →
      exec (.nestLd h a) s = .next (s.setCtx { s.ctx with nest := { s.ctx.nest with shadow := copyOf 256, shadowValid := true } })) ∧
    (s.ctx.nest.go = false → acqWaits s = false → s.ctx.nest.shadowValid = true → nestBarrier s.ctx.nest.shadow = none →
      ∃ t, exec (.nestGo h) s = .next t ∧ t.ctx.nest.go = true ∧ t.ctx.nest.active = s.ctx.nest.shadow ∧
        t.ctx.nest.idx = Vector.replicate 6 0 ∧ t.ctx.regs = s.ctx.regs ∧ SameMemory s t) ∧
    (s.ctx.nest.go = false → acqWaits s = false → s.ctx.nest.shadowValid = false → exec (.nestGo h) s = raise s .copyShape) ∧
    (s.ctx.nest.go = false → s.ctx.mmas.any (·.nest) = false → exec (.nestWait h) s = .next s) ∧
    (nest.go = true → nest.fault = none → (fw = true ∨ trapFree s c = true) → s.cores[c].cpyAt ≠ some s.clk →
      (nestVariant (nWord nest.active) = some v → exec (.nestEmit c fw) s = .next (emitCopy s c fw nest v)) ∧
      (nestVariant (nWord nest.active) = none → nestMma (nWord nest.active) = some (ty, rm) →
        exec (.nestEmit c fw) s = .next (emitMma s c fw nest ty rm))) ∧
    (nest.go = false → exec (.nestEmit c fw) s = .next s) ∧
    (k % 32 = 0 → k + 32 ≤ 0x78000 → storesMeet s k 32 = false → recordMeets s (.tm k) 32 = false → bindFault s (copyOf 32) = none →
      firstReads ((releaseStream s s.core s.fw q).setStream q (some ⟨copyOf 32, 0, []⟩)) q (copyOf 32) = some u →
      exec (.vbind h q a) s = .next u) ∧
    (∃ t, exec (.vunbind h q) s = .next t ∧ t.stream q = none ∧ t.ctx.regs = s.ctx.regs ∧ SameMemory s t) ∧
    (s.stream q = none → exec (.vldq h m d q) s = raise s .illegalOp ∧ exec (.vstq h m d q) s = raise s .illegalOp) ∧
    (s.stream q = some sr → qStore sr.desc = false → sr.got.lookup sr.pos = some (.inl bs) → qTotal sr.desc ≤ sr.pos + 4 →
      exec (.vldq h m d q) s = .next ((usePos s q sr).wrV d (mergeBytes (s.rm m) (s.rv d) bs))) ∧
    (s.stream q = some sr → qStore sr.desc = false → sr.got.lookup sr.pos = some (.inl bs) → sr.pos + 4 < qTotal sr.desc →
      readFits s s.core s.fw sr.desc (sr.pos + 4) = true →
      exec (.vldq h m d q) s =
        .next ((issueRead (usePos s q sr) s.core s.fw q sr.desc (sr.pos + 4)).wrV d (mergeBytes (s.rm m) (s.rv d) bs))) ∧
    (s.stream q = some sr → qStore sr.desc = false → sr.got.lookup sr.pos = some (.inr f) →
      exec (.vldq h m d q) s = raiseAt s f (qAddr sr.desc sr.pos)) ∧
    (s.stream q = some sr → qStore sr.desc = true →
      (maskSpan (s.rm m) = none → exec (.vstq h m d q) s = .next (usePos s q sr)) ∧
      (let ea := qAddr sr.desc sr.pos;
        maskSpan (s.rm m) = some (lo, n) → ea.toNat % 4 = 0 → checkAddr s (ea + BitVec.ofNat 64 lo) n .write = .ok l →
        guardStalls s l n = false → recordMeets s l n = false →
        exec (.vstq h m d q) s = .next (usePos (pushEnt s { newEnt s .vst false true ea (maskedPieces l lo n (s.rm m)) with
          mask := s.rm m, data := vecBytes (s.rv d) }) q sr))) ∧
    (headOf s c fw (·.ld) = some e → e.kind = .streamRead q k → exec (.streamRead c fw) s = .next (turnEnt s c fw e true)) ∧
    (headOf s c fw (·.ld) = none → exec (.streamRead c fw) s = .next s)

/-- R175, R190, R191, R193: once no earlier word stands in its way, MZERO clears an accumulator and sets .max to minus infinity and .sum to zero, MREAD
writes four rows read out as FP32, MWRITE writes four rows and keeps the others and the side registers, and MSMAX does one softmax step. R189: MLD and MST
join the queues with the bytes of their image. R112, R115: VQREC and MQNT hold their record in the guard and write its header, then its blocks, and
then leave, the oldest first.
R185: MMA on register groups replaces each element by one exact sum of its products with the old value, rounded once; the descriptor forms enter the
matrix unit, fetch one step after the other, its A tile and then its B tile part by part, each step within the ramp's cap, and write the accumulator in
one go, unless a later word of the bundle writes it (R57). A register word changes its accumulator or
vector alone. The model's own readings in it: assumption logs 16, 44. -/
def Obligations.MatrixWords : Prop :=
  ∀ (s : State) (h : Head) (d a b : BitVec 4) (e : BitVec 3) (x y : BitVec 5) (g : BitVec 2) (t f : BitVec 3) (k : MmaTy) (q : QFmt) (c : Fin 512)
    (fw : Bool) (run : MmaRun) (qu : Quant) (rest : List Quant) (ta tb : List Byte) (j : Fin 256), s.rp h.g = true →
    let ea := (s.rs x).toNat
    let joins (i : Instr) (en : QEnt) : Prop := ∃ u, exec i s = .next u ∧ Queued s u en
    let size := (qRecFmt q).size
    let record (i : Instr) (vs : List Vec) (acc : Option (BitVec 4)) : Prop := ∃ u, exec i s = .next u ∧
      u.ctx = { s.ctx with quants := s.ctx.quants ++ [⟨s.serial, s.clk, q, t, vs, acc, ea, false, 0, s.ctx.pc, s.word, s.iword⟩] } ∧
      u.cur.guard = s.cur.guard ++ [⟨s.serial, s.fw, tmAddr s.core ea, size, true⟩] ∧ SameMemory s u ∧ SameOtherCores s u
    let args (rm : Bool) : MmaArgs := ⟨d, rm, k, s.rs (a ++ 0#1), s.rs (a ++ 1#1), s.rs (b ++ 0#1), s.rs (b ++ 1#1)⟩
    let run0 (rm : Bool) : MmaRun := ⟨s.serial, d, false, rm, k, s.rs (a ++ 0#1), s.rs (a ++ 1#1), s.rs (b ++ 0#1), s.rs (b ++ 1#1), 0, [], [],
      .waiting, none, [], [], s.clk, false, s.ctx.pc, s.word, s.iword⟩
    let enters (i : Instr) (rm : Bool) : Prop := ∃ u, exec i s = .next u ∧ SameMemory s u ∧ u.ctx.regs = s.ctx.regs ∧
      u.ctx.mmas = s.ctx.mmas ++ [run0 rm]
    let steps := groupSteps k (groupBytes s.src e) (groupBytes s.src f)
    let ws := steps.map fun z => stepWeight k z.1 z.2
    (writeWaits s.olderCtx d = false →
      exec (.mzero h d) s = .next (s.wrA d ⟨Vector.replicate 256 0, Vector.replicate 16 0xFF800000, Vector.replicate 16 0⟩) ∧
      exec (.mwrite h d x g) s = .next (s.wrA d (writeRows (s.ctx.regs.getA d) (s.rv x) g.toNat))) ∧
    (readWaits s.olderCtx a = false → exec (.mread h y a g) s = .next (s.wrV y (readRows (s.ra a) g.toNat))) ∧
    (writeWaits s.olderCtx (e ++ 0#1) = false → writeWaits s.olderCtx (e ++ 1#1) = false →
      exec (.msmax h e) s = .next ((s.wrA (e ++ 0#1) (softmax (s.ra (e ++ 0#1)) (s.ra (e ++ 1#1))).1).wrA (e ++ 1#1)
        (softmax (s.ra (e ++ 0#1)) (s.ra (e ++ 1#1))).2)) ∧
    (∀ v : Acc, OnlyRegs s (s.wrA d v) ∧ OtherRegs s (s.wrA d v) (.a d)) ∧
    (∀ (v : Acc) (w : Vec), (writeRows v w g.toNat).max = v.max ∧ (writeRows v w g.toNat).sum = v.sum ∧
      (writeRows v w g.toNat).elems[j] = if j.val / 64 = g.toNat then accOfF32 (lane 32 w (j.val % 64)).toNat else v.elems[j]) ∧
    (ea % 64 = 0 → ea + 1152 ≤ 0x78000 → writeWaits s.olderCtx d = false → recordMeets s (.tm ea) 1152 = false → captureFull s = false →
      joins (.mldF32 h d x) (newEnt s (.mld d false) true false (s.rs x) (piecesOf (.tm ea) 1152))) ∧
    (ea % 64 = 0 → ea + 2176 ≤ 0x78000 → writeWaits s.olderCtx d = false → recordMeets s (.tm ea) 2176 = false → captureFull s = false →
      joins (.mldRaw h d x) (newEnt s (.mld d true) true false (s.rs x) (piecesOf (.tm ea) 2176))) ∧
    (ea % 64 = 0 → ea + 1152 ≤ 0x78000 → readWaits s.olderCtx a = false → guardStalls s (.tm ea) 1152 = false →
      joins (.mstF32 h x a) { newEnt s .mst false true (s.rs x) (piecesOf (.tm ea) 1152) with data := f32Image (s.ra a) }) ∧
    (ea % 64 = 0 → ea + 2176 ≤ 0x78000 → readWaits s.olderCtx a = false → guardStalls s (.tm ea) 2176 = false →
      joins (.mstRaw h x a) { newEnt s .mst false true (s.rs x) (piecesOf (.tm ea) 2176) with data := rawImage (s.ra a) }) ∧
    (ea % 16 = 0 → ea + size ≤ 0x78000 → tableValid s s.core t.toNat = true → acqWaits s = false → captureFull s = false →
      guardOk s.cur [(tmAddr s.core ea, size, true)] = true →
      record (.vqrec h t e x q) ((List.range 4).map fun i => s.rv (BitVec.ofNat 5 (4 * e.toNat + i))) none ∧
      (readWaits s.olderCtx d = false → record (.mqnt h d x q t) [] (some d))) ∧
    ((s.cores[c].ctx fw).quants = qu :: rest → olderStores s c fw qu.id qu.addr (qRecFmt qu.fmt).size = false →
      loadsMeet s c fw qu.id (2 ^ 80 + tmAddr c qu.addr) (qRecFmt qu.fmt).size = false →
      exec (.quantBlockWritten c fw) s = .next (quantStep s c fw qu) ∧
      (let left := ((quantStep s c fw qu).cores[c].ctx fw).quants;
        (qu.headed = false → left.head? = some { qu with headed := true }) ∧
        (qu.headed = true → qu.pix < 8 → left.head? = some { qu with pix := qu.pix + 1 }) ∧
        (qu.headed = true → 8 ≤ qu.pix → (∀ z ∈ left, z.id ≠ qu.id) ∧ ∀ g ∈ (quantStep s c fw qu).cores[c].guard, g.owner ≠ qu.id))) ∧
    ((s.cores[c].ctx fw).quants = [] → exec (.quantBlockWritten c fw) s = .next s) ∧
    (matrixRun s.olderCtx = false → acqWaits s = false →
      (mmaFault s s.core s.fw (args false) = none → mmaWaits s s.core s.fw (args false) = false → enters (.mmaDesc h d a b k) false) ∧
      (mmaFault s s.core s.fw (args true) = none → mmaWaits s s.core s.fw (args true) = false → enters (.mmaRmt h d a b k) true)) ∧
    (acqWaits s = false → writeWaits s.olderCtx d = false →
      (rampAllows s.cur ws = true → exec (.mmaReg h d e f k) s =
        .next ((rampStart s s.core s.fw ws).wrA d (mmaResult s s.core k (s.ra d) steps))) ∧
      (rampAllows s.cur ws = false → exec (.mmaReg h d e f k) s = .next { rampWaits s s.core with mark := .stall })) ∧
    (∀ (v : Acc) (l : List (List Byte × List Byte)), (mmaResult s c k v l).max = v.max ∧ (mmaResult s c k v l).sum = v.sum ∧
      (mmaResult s c k v l).elems[j] = BitVec.ofNat 48 (FloatFmt.e8m39.round .rne (exactSum (FloatFmt.e8m39.value v.elems[j].toNat ::
        l.flatMap fun z => (List.range 16).map fun i =>
          (tileValue s c k z.1 (j.val / 16) i).mul (tileValue s c k z.2 i (j.val % 16)))))) ∧
    (run.bStage = .waiting → run.got ≠ [] → run.operand.2.2 = false → (run.ty ≠ .recd ∨ run.got.length ≠ 16) →
      mmaTurn s c fw run = mmaGot s c fw run run.got) ∧
    (∀ bs, run.bStage = .returned bs → run.operand.2.2 = true → remoteTile s c run.ty run.operand.2.1 bs = .ok tb →
      mmaTurn s c fw run = mmaGot s c fw run tb) ∧
    (fetchingMma (s.cores[c].ctx fw) = some run →
      (run.parts ≠ [] → exec (.mmaTileFetch c fw) s = .next (runOwn s c (tileReqs s c fw))) ∧
      (run.parts = [] → run.got = [] → run.bStage = .waiting → (∀ z ∈ (s.cores[c].ctx fw).mmas, z.id = run.id → z.pix = run.pix) →
        exec (.mmaTileFetch c fw) s = .next (mmaStart s c fw run)) ∧
      (run.parts = [] → run.tile = none → mmaTurn s c fw run = mmaGot s c fw run ta →
        exec (.mmaTileFetch c fw) s = .next (putMma s c fw { run with tile := some ta, parts := [], got := [], bStage := .waiting })) ∧
      (run.parts = [] → run.tile = some ta → mmaTurn s c fw run = mmaGot s c fw run tb →
        (rampAllows s.cores[c] [stepWeight run.ty ta tb] = true → exec (.mmaTileFetch c fw) s =
          .next (rampStart (mmaGot s c fw run tb) c fw [stepWeight run.ty ta tb])) ∧
        (rampAllows s.cores[c] [stepWeight run.ty ta tb] = false → exec (.mmaTileFetch c fw) s = .next (rampWaits s c)))) ∧
    (fetchingMma (s.cores[c].ctx fw) = none → exec (.mmaTileFetch c fw) s = .next s) ∧
    (readyMma (s.cores[c].ctx fw) = some run → ∃ u, exec (.mmaAccumulate c fw) s = .next u ∧ SameMemory s u ∧
      (u.cores[c].ctx fw).regs.getA run.acc = (let old := (s.cores[c].ctx fw).regs.getA run.acc;
        if run.lost then old else mmaResult s c run.ty old (run.aTiles.zip run.bTiles)) ∧
      (u.cores[c].ctx fw).mmas = (s.cores[c].ctx fw).mmas.filter fun z => z.id != run.id) ∧
    (readyMma (s.cores[c].ctx fw) = none → exec (.mmaAccumulate c fw) s = .next s)

/-- R163, R349: each CPY2D variant, SEAL and UNSEAL, with a descriptor and ranges that pass every check in their order, start a copy in the lowest free
slot once the range guard can take it, and write its handle (the slot's next generation and its number) to sD; the memory does not change. R166: CPYCAN of
a handle that names no copy does nothing; of a copy with no box in progress it ends the copy and credits the boxes left, and it waits for those in
progress. R160, R165: the engine does for a copy one of the things that it may do next (it starts a box, performs a part of one, or ends a phase of one,
whose last credits it), and starts the stamp once every box is credited. R345, R346: in a protected partition CAPLD,
CAPCHK, CAPDRV (deriving, or minting in the firmware context with A = 0) and CAPST join the queues once what they name passes its checks; elsewhere every
one of them is PRIV. The model's own readings in it: assumption logs 12, 17, 44. -/
def Obligations.CopyAndCapabilityWords : Prop :=
  ∀ (s u : State) (h : Head) (d a b : BitVec 5) (pr dr : BitVec 4) (pd : BitVec 3) (n : BitVec 5) (bar : Option (BitVec 11)) (handle : BitVec 16)
    (c : Fin 512) (slot : Fin 256) (k : Copy) (p : Fin 16) (l m : Loc) (i : Instr) (fk : BitVec 3 × BitVec 3) (v : Variant), s.rp h.g = true →
    let at_ := (s.rs a).toNat
    let desc := s.load (tmAddr s.core at_) 64
    let src := copySrc v desc
    let dst := copyDst v desc
    let ready := at_ % 64 = 0 ∧ at_ + 64 ≤ 0x78000 ∧ engineReads s at_ 64 = false ∧ copyBarrier s s.core s.fw (s.rs b) = some bar
    let clean (r : List (Res Unit × Word)) : Prop := firstFail (r.map (·.1)) = .ok ()
    let sealed (open_ : Bool) : Prop :=
      let len := sLen desc
      let from_ := Span.bytes (sSrc desc) (if open_ then imageLen len else len)
      let to_ := Span.bytes (sDst desc) (if open_ then len else imageLen len)
      let win := windowGlob s s.core s.fw
      s.curPart = some p → s.parts[p].prot = true → sealShapeOk desc = true → sSrc desc % 64 = 0 → sDst desc % 64 = 0 →
      sealPermOk s p (if open_ then from_ else to_) (if open_ then to_ else from_) = true → from_.meets s s.core to_ = false →
      clean (spanChecks s s.core s.fw (if open_ then win else issueGlob s) (if open_ then issueGlob s else win) from_ to_ none) →
      startCopy s s.core s.fw false (if open_ then .unsealing else .sealing) desc bar from_ to_ (sSrc desc) (sDst desc) none (sealChunks len)
        (if open_ then 0 else Config.random s.hub.drawn) = some (u, handle) →
      exec (if open_ then .unsealChunks h d a b else .sealChunks h d a b) s =
        .next ({ u with hub := { u.hub with drawn := u.hub.drawn + 1 } }.wrS d (handle.setWidth 64))
    let joins (j : Instr) (e : QEnt) : Prop := ∃ t, exec j s = .next t ∧ Queued s t e
    let ld := s.rs a + BitVec.ofNat 64 (16 * n.toNat)
    let free_ (w : Loc) : Prop := captureFull s = false ∧ recordMeets s w 16 = false ∧ capPending s w = false
    ((i, fk, v) ∈ [(Instr.cpy2d h d a b, (0#3, 0#3), Variant.plain), (.cpy2dCvtRelay h d a b, (1#3, 0#3), .relay),
        (.cpy2dCvtQnt h d a b, (1#3, 1#3), .quant), (.cpy2dCvtZexp h d a b, (1#3, 2#3), .zexp),
        (.cpy2dRedAddF32 h d a b, (2#3, 0#3), .reduce true 0), (.cpy2dRedAddBf16 h d a b, (2#3, 1#3), .reduce false 0),
        (.cpy2dRedMaxF32 h d a b, (2#3, 2#3), .reduce true 2), (.cpy2dRedMinF32 h d a b, (2#3, 3#3), .reduce true 3),
        (.cpy2dStamp h d a b, (3#3, 0#3), .stamp)] →
      ready → descFault s s.core v desc = none → overlapFault s s.core s.fw v desc = false →
      clean (spanChecks s s.core s.fw (issueGlob s) (issueGlob s) src dst (stampOf v desc)) →
      startCopy s s.core s.fw false (.cpy fk.1 fk.2) desc bar src dst (dSrc desc) (dDst desc) (stampOf v desc) (boxCount v desc) 0 = some (u, handle) →
      exec i s = .next (u.wrS d (handle.setWidth 64))) ∧
    (ready → sealed false ∧ sealed true) ∧
    (freeCopy s.cores[c] = some slot → guardOk s.cores[c] (copyNeeds s c src dst) = true →
      ∃ t, startCopy s c s.fw false (.cpy fk.1 fk.2) desc bar src dst (dSrc desc) (dDst desc) (stampOf v desc) (boxCount v desc) 0 =
        some (t, nextGen s.cores[c].copyGens[slot] ++ BitVec.ofNat 8 slot.val) ∧ SameMemory s t ∧ SameRest s t ∧
        t.cores[c].unit = s.cores[c].unit ∧ t.cores[c].fw = s.cores[c].fw ∧
        (t.cores[c].copies[slot]).any (fun z => z.boxes == boxCount v desc && z.credited.isEmpty && z.fault.isNone && z.fw == s.fw) = true ∧
        ∀ j, j ≠ slot → t.cores[c].copies[j] = s.cores[c].copies[j]) ∧
    (acqWaits s = true → exec (.cpycan h a) s = .next { s with mark := .stall }) ∧
    (acqWaits s = false → handleCopy s ((s.rs a).setWidth 16) = none → exec (.cpycan h a) s = .next s) ∧
    (acqWaits s = false → handleCopy s ((s.rs a).setWidth 16) = some (slot, k) →
      (k.runs = [] → creditFree s s.core slot k = true →
        exec (.cpycan h a) s = .next (credit (endCopy s s.core slot k) s.core k.fw k.barrier (creditSource slot k) (bytesLeft k))) ∧
      (k.runs ≠ [] ∨ creditFree s s.core slot k = false →
        exec (.cpycan h a) s = .next { putCopy s s.core slot (some { k with cancelled := true }) with mark := .stall })) ∧
    (let boxes := boxTurns s c slot k
      let stamp := runTurns s c slot k fun r => r.num == k.stampBox
      (∀ b, .start b ∈ boxes ↔ boxToStart s.cores[c] k = some b) ∧
      (∀ r, .phase r ∈ boxes ↔ r ∈ k.runs ∧ r.num ≠ k.stampBox ∧ phaseDue s c slot k r = true) ∧
      (s.cores[c].copies[slot] = some k → k.held = false → k.abandoned = false →
        (boxes = [] → exec (.copyBox c slot) s = .next s) ∧
        (boxes ≠ [] → ∃ t ∈ boxes, exec (.copyBox c slot) s = .next (takeTurn s c slot k t)) ∧
        (stampDue s.cores[c] k = true → exec (.copyStamp c slot) s = .next (startStamp s c slot k)) ∧
        (stampDue s.cores[c] k = false → stamp = [] → exec (.copyStamp c slot) s = .next s) ∧
        (stampDue s.cores[c] k = false → stamp ≠ [] → ∃ t ∈ stamp, exec (.copyStamp c slot) s = .next (takeTurn s c slot k t)))) ∧
    (∀ r : BoxRun, r.dead = false → r.writing = true →
      takeTurn s c slot k (.phase r) = if r.num = k.stampBox then endCopy s c slot k else creditBox s c slot k r.num) ∧
    (s.cores[c].copies[slot] = none → exec (.copyBox c slot) s = .next s ∧ exec (.copyStamp c slot) s = .next s) ∧
    (s.curPart = some p → s.parts[p].prot = true →
      (capAddr s ld .read = .ok l → free_ l → capNow s l (heldCheck p.val) = none →
        joins (.capld h dr a n) (newEnt s (.capLd (dr ++ 0#1)) true false ld [⟨l, 0, 16, none⟩])) ∧
      (capAddr s (s.rs a) .read = .ok l → captureFull s = false → recordMeets s l 16 = false →
        joins (.capchk h pd a pr) (newEnt s (.capChk pd (capReq s pr)) true false (s.rs a) [⟨l, 0, 16, none⟩])) ∧
      (s.fw = true → capAddr s (s.rs d) .write = .ok l → captureFull s = false → guardStalls s l 16 = false →
        standing s (capReq s pr) = true →
        joins (.capdrv h d 0 pr) { newEnt s (.capDrv (capReq s pr) none) true true (s.rs d) [⟨l, 0, 16, none⟩] with
          data := leBytes 16 (minted (capReq s pr)).toNat }) ∧
      (s.fw = false ∨ a ≠ 0 → capAddr s (s.rs a) .read = .ok l → capAddr s (s.rs d) .write = .ok m → free_ l → guardStalls s m 16 = false →
        (capNow s l (fun t q => deriveCheck p.val t q (capReq s pr)) = none →
          joins (.capdrv h d a pr) { newEnt s (.capDrv (capReq s pr) (some l)) true true (s.rs d) [⟨l, 0, 16, none⟩, ⟨m, 0, 16, none⟩] with
            data := leBytes 16 (withPart (capReq s pr) p.val).toNat }) ∧
        (capNow s l (heldCheck p.val) = none →
          joins (.capst h d a) (newEnt s (.capSt l) true true (s.rs d) [⟨l, 0, 16, none⟩, ⟨m, 0, 16, none⟩])))) ∧
    ((∀ q, s.curPart = some q → s.parts[q].prot = false) →
      ∀ j ∈ [Instr.capld h dr a n, .capchk h pd a pr, .capdrv h d a pr, .capst h d a], exec j s = raise s .priv)

/-- R332: KROT INSTALL, QUERY, RETIRE and DESTROY answer in sD the result that the request earns, in the order of its refusals, and act only with 0 (or, for
QUERY, no refusal). R350: SCRUB of regions counts the regions scrubbed up to the first in use and refuses a malformed request with all ones; SCRUB of the
cluster gives 0 and leaves its CM zero, its lines dropped, and its shard and overflow records gone; SCRUB of the core is refused with 1 while it has a unit. R388: SIGCHK sets VERIFIED of
the slot that is not ACTIVE when its header and signature hold. R389: MEXT extends one partition's measurement by 64 bytes of TM general use or
of the work area. R390: SLOTSW waits as a FENCE.SYS, gives 5
for a reserved bit or operation, and QUERY, QUIESCE, SWITCH, BEAT and RESUME act or are refused as listed; a SWITCH that is not refused restarts every
firmware context with the other image in trial. R386: a trial whose heartbeat window has passed
rolls back, and nothing else happens before that; FW_FAULT is a fault of that firmware context.
The model's own readings in it: assumption logs 20, 21, 22. -/
def Obligations.FirmwareWords : Prop :=
  ∀ (s : State) (h : Head) (d a b : BitVec 5) (c : Fin 512) (k : Cause) (off : Nat) (r : Word), s.rp h.g = true →
    let x := s.rs a
    let y := s.rs b
    let slot : Fin 64 := ix 64 y.toNat
    let key := s.hub.keys[slot]
    let gives (i : Instr) (v : Word) : Prop := exec i s = .next (s.wrS d v)
    let does (i : Instr) (t : State) (v : Word) : Prop := exec i s = .next (t.wrS d v)
    let again := s.hub.keys.toList.any fun z => (z.st == .retiring || z.st == .drained) && z.cls == krotClass x && z.part == krotPart x
    let first := x.toNat / 2 ^ 5 % 2 ^ 15
    let n := y.toNat
    let badRun := x.extractLsb' 0 2 ≠ 0 ∨ x.extractLsb' 20 44 ≠ 0 ∨ 28671 < first ∨ n = 0 ∨ 28672 < first + n
    let cl := clusterOf s.core
    let img : Bool := x.toNat == 1
    let i := s.hub.images
    let fence := olderEnts s = [] ∧ tokenOut s.cur s.fw (sinceNow s) (fun _ => true) = false
    let swBad := swReserved x = true ∨ 5 ≤ x.toNat % 16
    let beat : State := { s with hub := { s.hub with images := { i with beats := i.beats + 1, due := s.clk + 2 ^ i.hblog.toNat } } }
    (krotBad x y false = true → gives (.krotInstall h d a b) 3 ∧ gives (.krotRetire h d a b) 3 ∧ gives (.krotDestroy h d a b) 3) ∧
    (krotBad x y false = false →
      (key.st ≠ .free → gives (.krotInstall h d a b) 2) ∧ (key.st = .free → again = true → gives (.krotInstall h d a b) 1) ∧
      (key.st = .free → again = false → does (.krotInstall h d a b) (installKey s slot (krotPart x) (krotClass x)) 0) ∧
      (key.st ≠ .drained ∨ key.part ≠ krotPart x → gives (.krotRetire h d a b) 2) ∧
      (key.st = .drained → key.part = krotPart x → does (.krotRetire h d a b) (putKey s slot KeySlot.zero) 0) ∧
      (y ≠ 0 → gives (.krotDestroy h d a b) 3) ∧ (y = 0 → does (.krotDestroy h d a b) (destroyKeys s (krotPart x)) 0)) ∧
    (krotBad x y true = true → gives (.krotQuery h d a b) (BitVec.allOnes 64)) ∧
    (krotBad x y true = false → gives (.krotQuery h d a b) (keyStatus key)) ∧
    (badRun → gives (.scrubRegions h d a b) (BitVec.allOnes 64)) ∧
    (¬ badRun → let run := scrubRun s (ix 4 (x.toNat / 4)) (x.toNat / 16 % 2 * 2 ^ 15 + first) 0 n;
      does (.scrubRegions h d a b) run.2 (BitVec.ofNat 64 run.1)) ∧
    (∀ e f g m, scrubRun s e f g 0 = (g, s) ∧ (regionInUse s e f = true → scrubRun s e f g m = (g, s)) ∧
      (regionInUse s e f = false → scrubRun s e f g (m + 1) = scrubRun (scrubRegion s e f) e (f + 1) (g + 1) m)) ∧
    (x = 1 → does (.scrubCluster h d a b) (scrubCluster s cl) 0) ∧
    ((scrubCluster s cl).clusters[cl] = { s.clusters[cl] with lines := [], shard := [], overflow := [] } ∧
      (off < 2 ^ 23 → readByte (scrubCluster s cl).mem (cmAddr cl off) = 0)) ∧
    (x ≠ 1 → gives (.scrubCluster h d a b) (BitVec.allOnes 64)) ∧
    (x = 2 → s.cur.st = .none → does (.scrubCore h d a b) (scrubCore s s.core) 0) ∧
    (x = 2 → s.cur.st ≠ .none → gives (.scrubCore h d a b) 1) ∧ (x ≠ 2 → gives (.scrubCore h d a b) (BitVec.allOnes 64)) ∧
    (1 < x.toNat ∨ img = i.active → gives (.sigchk h d a) 3) ∧
    (x.toNat ≤ 1 → img ≠ i.active → (imgHeaderOk s img = false → gives (.sigchk h d a) 1) ∧
      (imgHeaderOk s img = true → imgSigOk s img = false → gives (.sigchk h d a) 2) ∧
      (imgHeaderOk s img = true → imgSigOk s img = true →
        does (.sigchk h d a) { s with hub := { s.hub with images := i.setVerified img true } } 0)) ∧
    (y.toNat % 64 = 0 → (y.toNat + 64 ≤ 0x78000 ∨ s.fw = true ∧ 0x7E000 ≤ y.toNat ∧ y.toNat + 64 ≤ 0x7FF00) → engineReads s y.toNat 64 = false →
      (0x10 ≤ x.toNat → x.toNat ≤ 0x1F →
        does (.mext h d a b) (extendPart s (ix 16 x.toNat) (s.load (tmAddr s.core y.toNat) 64)) 0) ∧
      (x.toNat < 0x10 ∨ 0x1F < x.toNat → gives (.mext h d a b) 1)) ∧
    (fence → swBad → ∀ j ∈ [Instr.slotswQuery h d a b, .slotswQuiesce h d a b, .slotswSwitch h d a b, .slotswBeat h d a b,
      .slotswResume h d a b], gives j 5) ∧
    (fence → ¬ swBad →
      (swPlain x = false → gives (.slotswQuery h d a b) 5 ∧ gives (.slotswQuiesce h d a b) 5 ∧ gives (.slotswBeat h d a b) 5 ∧
        gives (.slotswResume h d a b) 5) ∧
      (swPlain x = true → gives (.slotswQuery h d a b) (imageStatus i) ∧
        does (.slotswQuiesce h d a b) { s with hub := { s.hub with images := { i with quiesced := true } } } 0 ∧
        (i.trial = true → gives (.slotswResume h d a b) 1) ∧ (i.trial = false → gives (.slotswBeat h d a b) 1 ∧
          does (.slotswResume h d a b) { s with hub := { s.hub with images := { i with quiesced := false } } } 0) ∧
        (i.trial = true → (i.beats + 1).toNat ≠ i.nbeat.toNat → does (.slotswBeat h d a b) beat 0) ∧
        (i.trial = true → (i.beats + 1).toNat = i.nbeat.toNat → does (.slotswBeat h d a b) (commitImage beat) 0)) ∧
      (switchRefusal s x y = some r → gives (.slotswSwitch h d a b) r) ∧
      (switchRefusal s x y = none → let u := (List.finRange 512).foldl (fun t c => settleFw t c) s;
        exec (.slotswSwitch h d a b) s = .next { restartAll { u with hub := { u.hub with images := { u.hub.images with
          fallback := u.hub.images.active, active := swSlot x == 1, trial := true, beats := 0, nbeat := swNbeat x, hblog := swHblog x,
          due := u.clk + 2 ^ (swHblog x).toNat, handover := y } } } 1 with mark := .ended })) ∧
    (¬ fence → ∀ j ∈ [Instr.slotswQuery h d a b, .slotswQuiesce h d a b, .slotswSwitch h d a b, .slotswBeat h d a b,
      .slotswResume h d a b], exec j s = .next { s with mark := .stall }) ∧
    (i.trial = true → i.due ≤ s.clk → exec .heartbeatMissed s = .next { rollBack s 1 with mark := .none }) ∧
    (i.trial = false ∨ s.clk < i.due → exec .heartbeatMissed s = .next s) ∧ exec (.fwFault c k) s = .next (fwFault s c k)

/-- R91, R92, R93: once no earlier work of the unit is out, DONE and SUSPEND (with a record of the wait kind, the next packet, the indices and s7 to s11) end
their bundle; POST puts such a record into the shard that its address chooses,
and a record's 64 bytes hold all of it; wait kinds above 2 and the firmware context are ILLEGAL_OP. R252, R257:
HAND_UNIT hands the next unit of the oldest Running launch to the next free core; R258: a free core takes the first ready record of its shard; the shard
watches, and takes from its overflow area while it has room. R240 to R255: leases are granted, the entries whose conditions hold become Ready at once
and the oldest of those Ready since an earlier clk issues while fewer than eight run, the
oldest Complete one retires with its versions, a Faulted one is reported, and one that a cancel has chosen, or
a faulting one once it is alone, leaves once its units have. R265: a ramp window ends
when it is due, and a new one begins. The model's own readings in it: assumption logs 19, 26. -/
def Obligations.UnitsAndLaunches : Prop :=
  ∀ (s u : State) (h : Head) (d a k : BitVec 5) (c : Fin 512) (p : Fin 16) (cl : Fin 64) (i : Fin 1024) (r : CRec) (e : WinEnt) (j : Nat)
    (rest : List WinEnt) (v : Word) (ov : List CRec) (x : WinStop) (o : Operand), s.rp h.g = true →
    let w := s.aux[p].window
    let wait := waitFault k (s.rs 8)
    let record : CRec := ⟨s.curPart.getD 0, s.ctx.pc + 1, s.cur.ctl.launchid, s.cur.index, false, s.cur.resumed, k.setWidth 4, savedRegs s,
      k == 0, .waiting, none⟩
    let posted : CRec := ⟨s.curPart.getD 0, (s.rs d).setWidth 32, s.cur.ctl.launchid,
      Vector.ofFn fun n => (s.rs (BitVec.ofNat 5 (1 + n.val))).setWidth 16, true, false, k.setWidth 4, savedRegs s, k == 0, .waiting, none⟩
    let ends (o : Option CRec) : Out := .next { finishEnding (s.setCur { s.cur with ending := some o }) s.core with mark := .ended }
    let q := s.curPart.getD 0
    let settled := modWindow s p settleWindow
    let marked := markReady s p
    let m := marked.aux[p].window
    let sw := settled.aux[p].window
    (s.fw = false → workOut s.cur (sinceNow s) = false →
      exec (.done h) s = ends none ∧ (k.toNat ≤ 2 → wait = none → exec (.suspend h k) s = ends (some record))) ∧
    (s.fw = false → workOut s.cur (sinceNow s) = true → exec (.done h) s = .next { s with mark := .stall }) ∧
    (s.fw = false → k.toNat ≤ 2 → wait = none → postShard s (s.rs a) = (u, .ok cl) → recordCount u q < postLimit →
      (olderEnts u).any (·.st) = false → u.curPart = s.curPart → u.cur = s.cur → u.src = s.src → u.core = s.core →
      let ids := if cl = clusterOf s.core then [] else edgeHops u (clusterOf s.core) cl
      (allOpen u q ids = true → exec (.post h d a k) s = .next (insertRec
        (modLaunch (useAll u q ids) q s.cur.ctl.launchid fun z => { z with outstanding := z.outstanding + 1 }) cl posted)) ∧
      (allOpen u q ids = false → exec (.post h d a k) s = .next { u with mark := .stall })) ∧
    recOf r (recBytes r) = { r with ready := r.wkind == 0, stage := .waiting, spot := none } ∧
    (s.fw = true ∨ 2 < k.toNat → exec (.suspend h k) s = raise s .illegalOp ∧ exec (.post h d a k) s = raise s .illegalOp) ∧
    (s.fw = true → exec (.done h) s = raise s .illegalOp) ∧
    (w.entries.find? (fun z => z.st == .running && !z.cancelled && decide (z.handed < z.units)) = some e → nextCore s p = some (j, c) →
      let t := modLaunch s p e.launch fun z => { z with handed := e.handed + 1, outstanding := z.outstanding + 1 };
      exec (.handUnit p) s = .next (startUnit (modWindow t p fun y => { y with pointer := (j + 1) % (placeCores t p).length }) c p e 0
        (e.indexOf e.handed) none (BitVec.ofNat 32 e.handed))) ∧
    (nextCore s p = none → exec (.handUnit p) s = .next s) ∧
    (s.partOf c = some p → readyRec s c p = some r → coreFree s c = true →
      (∀ b, b < c → clusterOf b = clusterOf c → coreFree s b = false) →
      let t := s.putCluster (clusterOf c) { s.clusters[clusterOf c] with shard := s.clusters[clusterOf c].shard.erase r };
      findLaunch t p r.launch = some e →
      exec (.resumeRecord c) s = .next (startUnit t c p e r.pkt r.index (some r.saved) (e.ordinal r.index))) ∧
    (s.partOf c = some p → readyRec s c p = none → exec (.resumeRecord c) s = .next s) ∧
    (s.clusters[cl].overflow = r :: ov → s.clusters[cl].shard.length < 1024 → exec (.overflowRefill cl) s =
      .next (s.putCluster cl { s.clusters[cl] with shard := s.clusters[cl].shard ++ [readRec s r], overflow := ov })) ∧
    (s.clusters[cl].overflow = [] → exec (.overflowRefill cl) s = .next s) ∧
    (s.clusters[cl].shard[i.val]? = some r → r.ready = false → readWaitWord s cl r = (u, .ok v) →
      exec (.shardWatch cl i) s = .next (putRec u cl i.val { r with
        ready := (if r.wkind = 1 then v != r.saved[2] else v == r.saved[2]), stage := .waiting })) ∧
    (s.clusters[cl].shard[i.val]? = some r → r.ready = true → exec (.shardWatch cl i) s = .next s) ∧
    (∀ q, s.clusters[cl].shard[i.val]? = some r → r.ready = false → readWaitWord s cl r = (u, .fail q) →
      exec (.shardWatch cl i) s = .next (failRec u cl i.val r q)) ∧
    (s.clusters[cl].shard[i.val]? = none → exec (.shardWatch cl i) s = .next s) ∧
    (askedOps w = [] → exec (.leaseGrant p) s = .next s) ∧
    (askedOps w = [(e.serial, j, o)] → (w.entries.any fun z => z.serial == e.serial && z.st == .waiting && !z.cancelled) = true →
      exec (.leaseGrant p) s = .next (let g := decideLease s p e.serial o; noteLease g.1 p e.serial j o g.2)) ∧
    (m.entries.find? (fun z => z.st == .ready && !z.cancelled && decide (z.readyAt < s.clk)) = some e →
      exec (.issueLaunch p) s = .next (if (m.entries.filter fun z => z.st == .running).length < 8 then issueEntry marked p e else marked)) ∧
    (m.entries.find? (fun z => z.st == .ready && !z.cancelled && decide (z.readyAt < s.clk)) = none → exec (.issueLaunch p) s = .next marked) ∧
    (sw.entries = e :: rest → e.st = .complete → e.cancelled = false → exec (.retire p) s =
      .next ((modWindow (removeEntry (modWindow settled p fun y => commitVersions y e.serial) p e) p tidy).count (some p) 11 1)) ∧
    (sw.entries = e :: rest → e.st ≠ .complete → exec (.retire p) s = .next settled) ∧
    (w.stop = none → w.entries = e :: rest → e.st = .faulted → e.cancelled = false → s.parts[p].heldWindow = none →
      exec (.faultReport p) s = .next (reportFault s p e)) ∧
    (w.stop = some x → w.entries = [] → exec (.faultReport p) s = .next (stopAtFault s p x)) ∧
    (w.stop = none → w.entries = [] → exec (.faultReport p) s = .next s) ∧
    (leaving w = [e] →
      let t := dropSaved (dropRecords ((launchCores s p e.launch).foldl discardUnit s) p e.launch) p e.launch;
      let gone := removeEntry (modWindow t p fun y => dropVersions y e.serial) p e;
      (launchCores t p e.launch = [] → exec (.cancel p) s = .next (if t.aux[p].window.stop = none then modWindow gone p tidy else gone)) ∧
      (launchCores t p e.launch ≠ [] → exec (.cancel p) s = .next t)) ∧
    (leaving w = [] → exec (.cancel p) s = .next s) ∧
    (∀ es, (w.stop = none ∨ w.entries.length ≠ 1) → w.entries.filter (·.cancelled) = es → leaving w = es) ∧
    (∀ y, w.stop = some y → w.entries = [e] → leaving w = [e]) ∧
    (s.clk < s.cores[c].ramp.due → exec (.rampWindow c) s = .next s) ∧
    (s.cores[c].ramp.due ≤ s.clk → ∃ t, exec (.rampWindow c) s = .next t ∧ SameMemory s t ∧ t.cores[c].ramp =
      ⟨nextAllow s s.cores[c], 0, false, s.clk + 1024 - (s.clk - s.cores[c].ramp.due) % 1024, s.cores[c].ctl.rampstep⟩)

/-- R376, R307: the well-formed command at the head of a die's ring is finished with its STATUS, and a malformed one with 3: INVAL and INVAL.ALL drop the
cached entries and finish once no translated access is left; EVICT, after the grants that are due, makes a page that no lease, transfer or resident
line pins absent, or marks a pinned one evict-pending and answers 1, and runs later when the last pin has gone; MIGRATE notes its target or is refused
with 2, and the page moves once no transfer and no translated access is left; PRESENT lets an evicted page be reported again; REFUSE fails the lease
requests that touch the page. R335, R331: the sweep takes the next region to the new key,
and a RETIRING key that nothing is under becomes DRAINED, one for transport once nothing sealed under it is undelivered. R341: a write-back of a changed
node counts it up, and changes its parent up to level 3; no other node has one. R342, R408: an error of a data block
poisons the block, one of a node its region or stack, and a correctable error counts in its class.
The model's own readings in it: assumption logs 21, 25. -/
def Obligations.SliceCommandsAndMemoryEvents : Prop :=
  ∀ (s : State) (d : Fin 4) (r : List Byte) (e : PinEnt) (to_ : Word) (pa slot : Nat) (lv : Fin 9) (node : BitVec 25) (k : Fin 64) (p : Fin 16)
    (z : KeySlot) (addr : BitVec 40) (cls : Fin 8) (q : Fin 4) (reg : Nat) (more : List (Fin 4 × Nat)),
    let g := slPage r
    let die := s.dies[d]
    let head (n : Nat) : Prop := headRecord s (sliceRing d) = some r ∧ slBad s d r = false ∧ slCmd r = n
    let done (t : State) (n : Nat) : Out := .next (ringDone t (sliceRing d) n)
    let pin := pinOf die g
    let put (x : Die) : State := s.putDie d x
    let dropped := put (dropPage die g)
    let granted := grantLeases s g.part
    let held := pinOf granted.dies[d] g
    let gone := evictNow granted d g
    let old := (tenantRegions s p).filter fun x => regionOld s x.1 x.2 z.epoch
    let left (t : State) (m : Nat) : State := { t with hub := { t.hub with keys := t.hub.keys.map fun w =>
      if w.st == .retiring && w.cls == 0 && w.part == p then { w with left := m } else w } }
    (headRecord s (sliceRing d) = none → ∀ i ∈ [Instr.inval d, .invalAll d, .evict d, .migrate d, .migrateMove d, .present d, .refuse d],
      exec i s = .next s) ∧
    (headRecord s (sliceRing d) = some r → slBad s d r = true → exec (.inval d) s = done s 3) ∧
    (head 1 → (xlatedIn dropped d g = false → exec (.inval d) s = done dropped 0) ∧
      (xlatedIn dropped d g = true → exec (.inval d) s = .next dropped)) ∧
    (head 2 → (∀ hit, xlatedAny s (ix 16 (slPart r)) hit = false) → ∃ t, exec (.invalAll d) s = done t 0 ∧
      ∀ i : Fin 4, ∀ x ∈ t.dies[d].slices[i].l1 ++ t.dies[d].slices[i].l2, x.part ≠ ix 16 (slPart r)) ∧
    (head 3 → (held.lcnt ≠ 0 ∨ tcnt granted d g ≠ 0 → pinRoom granted.dies[d] g = true →
        exec (.evict d) s = done (granted.putDie d (putPin granted.dies[d] { held with ep := true })) 1) ∧
      (held.lcnt = 0 → tcnt granted d g = 0 → (xlatedIn gone d g = false → exec (.evict d) s = done gone 0) ∧
        (xlatedIn gone d g = true → exec (.evict d) s = .next gone))) ∧
    (∀ x, duePage s d = some x → x.ep = true ∧ x.lcnt = 0 ∧ tcnt s d ⟨x.part, x.base, x.size⟩ = 0) ∧
    (duePage s d = none → exec (.evictComplete d) s = .next s) ∧
    (duePage s d = some e → let h : Page := ⟨e.part, e.base, e.size⟩; let t := evictNow s d h; xlatedIn t d h = false →
      let u := t.putDie d (putPin t.dies[d] { e with ep := false });
      exec (.evictComplete d) s = .next (tell u e.part 0x08 (pageVa u d h) (xlateArg 2 d e.size))) ∧
    (head 4 → pin.mv = none → (pin.ep = true ∨ slArg r % g.bytes ≠ 0 → exec (.migrate d) s = done s 2) ∧
      (pin.ep = false → slArg r % g.bytes = 0 → slArg r + g.bytes ≤ 2 ^ 37 → (pageAt s d g).isSome = true → pinRoom die g = true →
        exec (.migrate d) s = .next (put (putPin die { pin with mv := some (BitVec.ofNat 64 (slArg r)) })))) ∧
    (head 4 → pin.mv = some to_ → pageAt s d g = some pa → leafSlot s d g.part g.base = some slot →
      (xlatedIn s d g = true ∨ transfersOn s d g ≠ 0 → exec (.migrateMove d) s = .next s) ∧ (xlatedIn s d g = false → transfersOn s d g = 0 →
      let t := dropLines s d pa g.bytes;
      let u := readdress (if pa = to_.toNat then t else copyPage t d pa to_.toNat g.bytes) d slot to_.toNat;
      exec (.migrateMove d) s = done (u.putDie d (putPin (dropPage u.dies[d] g) { pin with mv := none })) 0)) ∧
    (head 4 → pin.mv = none → exec (.migrateMove d) s = .next s) ∧
    (head 5 → exec (.present d) s = done (put { forgetPage die g with
      evicted := die.evicted.filter fun x => !(x.1 == g.part && x.2 == g.base) }) 0) ∧
    (head 6 → askedOps s.aux[g.part].window = [] → ∃ t, exec (.refuse d) s = done t 0 ∧ t.dies[d] = forgetPage die g ∧ SameMemory s t ∧
      t.parts = s.parts) ∧
    (activeSlot s p 0 = some z → (s.hub.keys.toList.any fun w => w.st == .retiring && w.cls == 0 && w.part == p) = true →
      (old = (q, reg) :: more → exec (.memSweep p) s = .next (left (sweepRegion s q reg p z) more.length)) ∧
      (old = [] → ∃ t, exec (.memSweep p) s = .next t ∧ t.dies = s.dies)) ∧
    (activeSlot s p 0 = none → exec (.memSweep p) s = .next s) ∧
    (let key := s.hub.keys[k];
      (key.st ≠ .retiring → exec (.keyDrained k) s = .next s) ∧
      (key.st = .retiring → key.cls ≠ 0 →
        (sealedOut s key.part key.epoch = true → exec (.keyDrained k) s = .next s) ∧
        (sealedOut s key.part key.epoch = false → exec (.keyDrained k) s = .next (putKey s k { key with st := .drained }))) ∧
      (key.st = .retiring → key.cls = 0 → activeSlot s key.part 0 = some z →
        ((tenantRegions s key.part).any (fun x => regionOld s x.1 x.2 z.epoch) = false →
          exec (.keyDrained k) s = .next (putKey s k { key with st := .drained, left := 0 })) ∧
        ((tenantRegions s key.part).any (fun x => regionOld s x.1 x.2 z.epoch) = true → exec (.keyDrained k) s = .next s))) ∧
    (die.changed.contains (lv.val, node.toNat) = true → ∃ t, exec (.nodeWriteback d lv node) s = .next t ∧
      t.dies[d].nodes.lookup (lv.val, node.toNat) = some (((die.nodes.lookup (lv.val, node.toNat)).getD 0 + 1) % 2 ^ 56) ∧ SameMemory s t ∧
      t.dies[d].changed.contains (lv.val, node.toNat) = false ∧
      (lv.val < 3 → t.dies[d].changed.contains (lv.val + 1, node.toNat / 8) = true)) ∧
    (die.changed.contains (lv.val, node.toNat) = false → exec (.nodeWriteback d lv node) s = .next s) ∧
    (∃ t, exec (.uncorrectableError d addr .dataBlock) s = .next t ∧ (addr.toNat % 2 ^ 37 / 64) ∈ t.dies[d].badBlocks) ∧
    exec (.uncorrectableError d addr (.node false)) s = .next (poisonRegion s d (addr.toNat % 2 ^ 37)) ∧
    exec (.uncorrectableError d addr (.node true)) s = .next (poisonStack s d (addr.toNat % 2 ^ 37)) ∧
    (∃ t, exec (.correctableError cls) s = .next t ∧ t.pf.sercnt[cls] = (if s.pf.sercnt[cls] = BitVec.allOnes 64 then BitVec.allOnes 64
      else s.pf.sercnt[cls] + 1) ∧ SameMemory s t ∧ t.cores = s.cores)

/-- The records at the decode position of the acting partition. A record that has acted moves the position past its own units and leaves the window's
entries to its own rule; a record that its rule calls illegal leaves the fault STREAM_ILLEGAL waiting at its own position (R216). R220, R221: WBUF
declares a buffer, WFREE undeclares one. R222, R241: WTASK puts an entry in the window, or decode waits. R226: WCALL opens a level, WRET ends one. R227:
WPRED skips where its condition fails. R228: WLOOP opens a loop, or skips it at COUNT 0; WEND goes back or leaves the loop. R230: WFENCE waits for
an empty window and drops the held blocks; WFENCE.T also loads its table, or faults with FORMAT where
the image is not one or lies at no multiple of 16. R231: WWAIT waits, and a read that meets the condition
lets decode go on; the limit makes it WATCHDOG. R232: WSIGNAL is noted, and takes effect once every older entry has left. R233: WGRAPH starts the run
of a graph that passes its checks. R234: WPHASE opens a phase, and a job on request. R235: WCANCEL marks the entries chosen and their
dependents, after the retires that are due. R236: WHALT waits for the window and halts the stream with its code. R297: a due block is fetched. When an event is not due it changes nothing.
The model's own readings in it: assumption logs 26, 29, 30. -/
def Obligations.StreamRecords : Prop :=
  ∀ (s t : State) (p : Fin 16) (u : BitVec 2) (fixed bf add_ irq pre job : Bool) (depth : BitVec 3) (buf : BitVec 12) (size off v m target : Word)
    (base : BitVec 128) (r : WTaskRec) (len n limit : BitVec 32) (c : WCond) (vec : BitVec 8) (bs hdr : List Byte) (b : Buf) (ps : Vector Word 16)
    (a : Word) (l2 : Level) (ls : List Level) (e : WLoopEnt) (es : List WLoopEnt) (x : Signal) (xs : List Signal) (code id : BitVec 16) (k : Cause)
    (wop : BitVec 8) (host : Bool) (lim : Option Nat) (kept : List Block) (y z : State),
    let f := s.front
    let l := f.level
    let go (t : State) (units : Nat) : Out := nextRec t units
    let bad (wop : BitVec 8) : Out := .next (modFront s s.part fun f => { f with wait := .fault .streamIllegal f.level.pos wop false })
    let waits : Out := .next { s with mark := .stall }
    let g := s.aux[p].front
    let w := s.aux[p].window
    let word (xs : List Byte) : Word := BitVec.ofNat 64 (leNat xs) &&& m
    let reread := dropAsks y p askDecode
    let ended := modFront reread p fun f => Front.goto { f with wait := .none } (f.level.pos + 32)
    (f.levels ≠ [] → ∃ t, exec (.wnop u) s = .next t ∧ t.recPos = s.recPos + BitVec.ofNat 64 (32 * (u.toNat + 1)) ∧ t.window = s.window ∧
      SameMemory s t ∧ t.cores = s.cores) ∧
    (bufFieldsOk s.window s.parts[s.part].prot fixed depth buf size base = false → exec (.wbuf fixed depth buf size base) s = bad 0x01) ∧
    (bufFieldsOk s.window s.parts[s.part].prot false depth buf size base = true →
      exec (.wbuf false depth buf size base) s = go (addBuf s s.part buf false (depth.toNat + 1) size.toNat 0 false) 1) ∧
    (bufFieldsOk s.window s.parts[s.part].prot true depth buf size 0 = true → arenaPlace s s.part s.window size.toNat = some a →
      exec (.wbuf true depth buf size 0) s = go { addBuf s s.part buf true 1 size.toNat a true with free := s.free + 1 } 1) ∧
    (findBuf s.window buf = none → exec (.wfree buf) s = bad 0x02) ∧
    (findBuf s.window buf = some b → exec (.wfree buf) s = go (modWindow s s.part fun w => freeBuf w b.uid) 1) ∧
    (let ok := taskLegal s.window l.pos l.lo.toNat l.hi r;
      let task : NewTask := ⟨r, r.pre, withLoop f r ps, l.pos, f.levels, f.current.getD 0, none, none, []⟩;
      (ok = false → exec (.wtask r) s = bad 0x08) ∧
      (ok = true → taskParams s r = (y, .ok ps) → (enterTask y y.part task = some t → exec (.wtask r) s = go t (r.units.toNat + 1)) ∧
        (enterTask y y.part task = none → exec (.wtask r) s = .next { y with mark := .stall }))) ∧
    (len.toNat % 32 = 0 → len ≠ 0 → target.toNat % 32 = 0 → f.levels.length < 5 →
      (bufPlace s.window buf target.toNat len.toNat = some a → exec (.wcall true buf len target) s = pushLevel s a len.toNat) ∧
      ((l.lo.toNat : Int) ≤ l.pos.toNat + target.toInt → (l.pos.toNat : Int) + target.toInt < l.hi →
        exec (.wcall false buf len target) s = pushLevel s (l.pos + target) len.toNat)) ∧
    (5 ≤ f.levels.length → exec (.wcall bf buf len target) s = bad 0x10) ∧
    (f.levels = l :: l2 :: ls → l.loops = [] → exec .wret s = .next (modFront s s.part fun f => { f.dropLevel with levels := l2 :: ls })) ∧
    (f.levels.length < 2 → exec .wret s = bad 0x11) ∧
    (off.toNat % 8 = 0 → n.toNat % 32 = 0 → 32 ≤ n.toNat → l.pos.toNat + n.toNat ≤ l.hi → bufRead s buf off.toNat 8 = (y, .ok bs) →
      exec (.wpred c buf n off v m) s =
        .next (streamGoto y (if holdsCond c (word bs) v then l.pos + 32 else l.pos + n.setWidth 64))) ∧
    (n.toNat % 32 = 0 → 32 ≤ n.toNat →
      (len ≠ 0 → l.loops.length < 4 → exec (.wloop len n) s = go (setLoops s (⟨l.pos + 32, l.pos + n.setWidth 64, len, len⟩ :: l.loops)) 1) ∧
      (l.pos.toNat + n.toNat + 32 ≤ l.hi → exec (.wloop 0 n) s = .next (streamGoto s (l.pos + n.setWidth 64 + 32)))) ∧
    (l.loops = [] → exec .wend s = bad 0x14) ∧
    (l.loops = e :: es → e.last ≠ l.pos → exec .wend s = bad 0x14) ∧
    (l.loops = e :: es → e.last = l.pos → (e.left = 1 → exec .wend s = go (setLoops s es) 1) ∧
      (e.left ≠ 1 → exec .wend s = .next (streamGoto (setLoops s ({ e with left := e.left - 1 } :: es)) e.start))) ∧
    (s.window.entries = [] → exec .wfence s = go (dropBlocks s s.part) 1 ∧
      (off.toNat % 16 = 0 → bufPlace s.window buf off.toNat 144 = some a → bufRead s buf off.toNat 144 = (y, .ok bs) →
        let good := a.toNat % 16 == 0
        (loadTable y y.part good bs = (true, t) → exec (.wfenceT buf off) s = go (dropBlocks t t.part) 1) ∧
        (loadTable y y.part good bs = (false, t) → exec (.wfenceT buf off) s = streamErr t .format 0x18) ∧
        (good = false → (loadTable y y.part good bs).1 = false))) ∧
    (off.toNat % 16 ≠ 0 ∨ bufPlace s.window buf off.toNat 144 = none → exec (.wfenceT buf off) s = bad 0x18) ∧
    (s.window.entries ≠ [] → exec .wfence s = waits) ∧
    (fixedWord s.window buf off.toNat = some a →
      exec (.wwait c buf limit off v m) s = .next (modFront s s.part fun f =>
        { f with wait := .wwait c a v m (if limit = 0 then none else some (s.clk + limit.toNat)) }) ∧
      (let sig := fun (ad : Bool) => go (modFront s s.part fun f =>
          { f with signals := f.signals ++ [⟨f.current.getD 0, s.window.nextSerial, ad, irq, vec, a, v, s.recPos⟩] }) 1;
        exec (.wsignalSt irq buf vec off v) s = sig false ∧ exec (.wsignalAdd irq buf vec off v) s = sig true)) ∧
    (fixedWord s.window buf off.toNat = none →
      exec (.wwait c buf limit off v m) s = bad 0x19 ∧ exec (.wsignalSt irq buf vec off v) s = bad 0x1A ∧
        exec (.wsignalAdd irq buf vec off v) s = bad 0x1A) ∧
    (g.st = .running → g.wait = .wwait c a v m lim → streamRead s p a 8 none = (y, .ok bs) →
      (holdsCond c (word bs) v = true → exec (.wwaitReread p) s = .next ended) ∧
      (holdsCond c (word bs) v = false → exec (.wwaitReread p) s = .next reread ∧
        (∀ at_, lim = some at_ → at_ ≤ s.clk → exec (.wwaitLimit p) s =
          .next (modFront reread p fun f => { f with wait := .fault .watchdog f.level.pos 0x19 false })))) ∧
    (g.signals = x :: xs → (∀ e ∈ w.entries, x.after ≤ e.serial) → signalWrite s p x = (t, .ok ()) →
      exec (.wsignalEffect p) s = .next (signalVector (modFront t p fun f => { f with signals := xs }) p x)) ∧
    (g.signals = [] → exec (.wsignalEffect p) s = .next s) ∧
    (off.toNat % 64 = 0 → bufPlace s.window buf off.toNat 64 = some a → bufRead s buf off.toNat 64 = (y, .ok hdr) → graphHeaderOk hdr = true →
      bufRead y buf off.toNat (graphTotal hdr) = (z, .ok bs) → (∃ u, buildGraph z pre a bs = (u, .ok t)) →
      exec (.wgraph pre buf off) s = .next t) ∧
    (off.toNat % 64 ≠ 0 → exec (.wgraph pre buf off) s = bad 0x20) ∧
    (f.levels ≠ [] → ∃ t, exec (.wphase job id) s = .next t ∧ t.window.phaseId = id ∧ t.window.jobId = (if job then id else s.window.jobId) ∧
      t.recPos = s.recPos + 32 ∧ t.window.entries = s.window.entries) ∧
    (let cancel (h : Window → WinEnt → Bool) := go (cancelWhere s s.part h) 1;
      exec (.wcancelLaunch id) s = cancel (fun _ e => e.tag == id) ∧ exec (.wcancelGraph id) s = cancel (fun w e => inLevel w 1 id e) ∧
        exec (.wcancelPhase id) s = cancel (fun w e => inLevel w 2 id e) ∧ exec (.wcancelJob id) s = cancel (fun w e => inLevel w 3 id e)) ∧
    (∀ h : Window → WinEnt → Bool, let due := retireDue 512 s s.part; ∀ e ∈ due.aux[s.part].window.entries, h due.aux[s.part].window e = true →
      e.serial ∈ cancelClosure due s.part due.aux[s.part].window.entries (h due.aux[s.part].window)) ∧
    exec (.whalt code) s = .next (modFront s s.part fun f => { f with wait := .halt code }) ∧
    (g.st = .running → g.wait = .halt code → w.entries = [] → w.stop = none → ∃ t, exec (.haltEffect p) s = .next t ∧
      t.aux[p].front.st = .halted ∧ t.aux[p].front.halt = code ∧ t.aux[p].front.pos = g.level.pos + 32 ∧ t.aux[p].front.current = none) ∧
    (g.st = .running → g.wait = .fault k a wop host → w.entries = [] → w.stop = none → s.parts[p].heldFront = none →
      exec (.streamFault p) s = .next (vfRaise (modFront (frontRecord s p (streamFaultRec k a wop)) p fun f =>
        { f with st := .stopped, cause := k.code, pos := a, restart := g.levels, blocks := [], wait := .none }) p 0)) ∧
    (g.st = .running → g.fetchDue = some (a, kept) → streamReadFor askBlock s p (a + BitVec.ofNat 64 (levelPart g.level a).1)
        (levelPart g.level a).2 (some g.fetchCause) = (t, .ok bs) →
      ∃ blk : Block, exec (.fetchBlock p) s = .next (modFront (dropAsks t p askBlock) p fun f => { f with blocks := kept ++ [blk] }) ∧ blk.addr = a ∧
        blk.level = g.depth ∧ blk.data = Machine.padTo 256 (List.replicate (levelPart g.level a).1 0 ++ bs) ∧ blk.bad = none) ∧
    (g.st ≠ .running → ∀ i ∈ [Instr.fetchBlock p, .wwaitReread p, .wwaitLimit p, .haltEffect p, .streamFault p], exec i s = .next s)

/-- R291, R377: between entries the entry unwound from the earliest pick is taken up again from there, or the next queue in rotation after the last pick, or, where a policy stands, PICK is
raised; PICKQ or the time limit answers it. R378: an entry whose slice is over is parked when a pick follows. R292, R410: an ended entry of which nothing is left (and before the point where a window fault restarts)
counts in DONE. R376: a command of the partition's ring ends with its STATUS: ABANDON of a Stopped unit faults its launch and frees the core; SAVE
marks the core and clears SAVED, and its slot is written once nothing of the unit is out; RESTORE loads a slot onto a free core; a command that its state does not list
is refused with 2, a malformed one with 3. R285: ENABLE, RESTART, SKIP, DROP and STOP act in the states that list them and are refused in the others;
R284: CLRERR clears the two sticky bits. R288: a legal QTAIL write is taken. R295: JOBCAN cancels a job. R281: register writes, aligned and served, act
on their register. R296: a function level reset leaves the stream Off, and no unit of the window uncancelled. R294: BAR2 reaches the memory through the
aperture, counted on the streams that seal it, and reads all ones outside it. R281, R283: a read of the register window that is aligned
and of 4 or 8 bytes answers the register, another all ones; VFID names the partition.
The model's own readings in it: assumption logs 23, 27, 30, 31, 33. -/
def Obligations.FrontEndEvents : Prop :=
  ∀ (s t sealed : State) (p : Fin 16) (e : Entry) (r bs : List Byte) (c : Fin 512) (q : Fin 4) (n m : Nat) (tail : BitVec 32) (v a : Word) (o : BitVec 16)
    (wide : Bool) (off : BitVec 34) (size : MemSize) (k : Cause) (sv : SaveReq) (kept : SavedUnit) (le : WinEnt) (ents : List Entry),
    let f := s.aux[p].front
    let w := s.aux[p].window
    let held := frontHeld s p
    let core := s.cores[c]
    let head (cmd : Nat) : Prop := headRecord s (partRing p) = some r ∧ cmdOf r = cmd
    let done (t : State) (n : Nat) : Out := .next (ringDone t (partRing p) n)
    let fr (g : Front → Front) : State := modFront s p g
    let slot := BitVec.ofNat 64 (cmdArg1 r)
    let refused := vfRefuse s p
    let cur := f.current.bind f.entry
    let none_ (i : Instr) : Prop := exec i s = .next s
    (held = false → f.between = true →
      (f.nextUnwound = none →
        (s.aux[p].policy = [] ∨ defaultQueue f = none → exec (.pick p) s = .next (defaultPick s p)) ∧
        (s.aux[p].policy ≠ [] → (defaultQueue f).isSome = true → exec (.pick p) s = .next (raisePick s p false))) ∧
      (f.nextUnwound = some (e, m, a) → exec (.pick p) s = .next (fr fun f => f.begin e m a 0 s.clk))) ∧
    (held = true ∨ f.between = false → none_ (.pick p)) ∧
    (defaultQueue f = some q → defaultPick s p = takeQueue s p q 0 ∧ f.queues[q].ready = true) ∧
    (f.queues[q].parked = none → ∃ x, (takeQueue s p q n).aux[p].front.current = some x ∧
      (takeQueue s p q n).aux[p].front.queues[q].head = f.queues[q].head + 1 ∧ (takeQueue s p q n).aux[p].front.lastPick = q ∧
      (takeQueue s p q n).aux[p].front.st = .running ∧ (takeQueue s p q n).aux[p].front.sliceLen = n) ∧
    (f.pick = some n → n + 65536 ≤ s.clk → held = false → exec (.pickTimeout p) s = .next (defaultPick s p)) ∧
    (f.pick = none → none_ (.pickTimeout p)) ∧
    (cur = some e → f.st = .running → held = false → parkDue s p = true →
      ∃ u, exec (.sliceExpire p) s = .next (makePick u p true) ∧ u.aux[p].front.current = none ∧ u.aux[p].front.levels = [] ∧
        u.aux[p].front.queues[e.queue].parked = some e.num) ∧
    (parkDue s p = false → none_ (.sliceExpire p)) ∧
    (f.entries = e :: ents → e.ended = true → e.unwound = none → (∀ x ∈ w.entries, x.entry ≠ e.num) → (∀ x ∈ f.signals, x.entry ≠ e.num) →
      (∀ x ∈ ents, x.queue = e.queue → e.num ≤ x.num) → (∀ x, w.stop = some x → e.num ≠ x.entry ∧ ∀ k ∈ e.picks, k.1 ≤ x.order) → ∃ t, exec (.entryComplete p) s = .next t ∧
        t.aux[p].front.queues[e.queue].done = f.queues[e.queue].done + 1 ∧ t.aux[p].front.entries = f.entries.filter fun x => x.num != e.num) ∧
    (f.entries = [] → none_ (.entryComplete p)) ∧
    (headRecord s (partRing p) = none → ∀ i ∈ [Instr.pickq p, .abandon p, .save p, .restore p], none_ i) ∧
    (head n → (n = 0 ∨ 4 < n → exec (.pickq p) s = done s 3) ∧
      (n = 1 → cmdClean r = true → cmdPart r = 0 → cmdArg1 r = 0 → cmdArg0 r / 2 ^ 8 % 2 ^ 24 = 0 →
        (f.pick = none → exec (.pickq p) s = done s 2) ∧
        (f.pick = some m → held = false → exec (.pickq p) s = done (answerPick s p (cmdArg0 r % 256) (cmdArg0 r / 2 ^ 32)) 1)) ∧
      (n = 2 → cmdCore s p r = none → exec (.abandon p) s = done s 3) ∧
      (n = 2 → cmdCore s p r = some c → cmdArg1 r = 0 → (core.st ≠ .stopped → exec (.abandon p) s = done s 2) ∧
        (core.st = .stopped → let u := faultLaunch s p core.ctl.launchid ((causeOf core.ctl.tcause).getD .trapInsn) core.ctl.unitid;
          exec (.abandon p) s = done (workDone (discardUnit u c) p core.ctl.launchid) 1)) ∧
      (n = 3 → cmdCore s p r = some c → cmdArg1 r < 2 ^ 64 → core.save = none →
        (core.st = .none → exec (.save p) s = done s 2) ∧
        (core.st ≠ .none → core.ending = none → unitPre s p c = true → isSlot s p slot = true →
          s.parts[p].usedSlots.contains (devAddr slot) = false →
          exec (.save p) s = .next (devWrite (s.putCore c { core with
            save := some ⟨slot, none⟩
            pend := if core.st = .running then { core.pend with preempt := true } else core.pend }) (devAddr slot + 31) [0]))) ∧
      (n = 4 → cmdCore s p r = some c → cmdArg1 r < 2 ^ 64 → let img := devRead s (devAddr slot) (2 ^ 20);
        s.parts[p].saved.find? (·.slot == devAddr slot) = some kept → findLaunch s p (BitVec.ofNat 32 (fieldAt img 0 4)) = some le →
        (coreFree s c = false → exec (.restore p) s = done s 2) ∧
        (128 ≤ byteAt img 31 → byteAt img 8 % 64 = c.val / 128 + 4 * (c.val / 8 % 16) → coreFree s c = true →
          exec (.restore p) s = done (loadSlot (freeSlot s p (devAddr slot)) c p le img kept) 1))) ∧
    (core.save = none → none_ (.saveWrite c)) ∧
    (core.save = some sv → s.partOf c = some p → core.st = .stopped → core.heldRec = none →
      (sv.expired = none → exec (.saveWrite c) s =
        .next (s.putCore c { core with save := some { sv with expired := some (expiredTokens core) } })) ∧
      (sv.expired = some n → n < expiredTokens core → exec (.saveWrite c) s = .next (failSave s c p)) ∧
      (sv.expired = some n → expiredTokens core ≤ n → core.unit.mq.any QEnt.live = false → tokensOut core = false →
        exec (.saveWrite c) s = done (writeSlot s c p sv.slot) 1)) ∧
    (vfServed s p = true →
      (f.st = .off → s.parts[p].st = .live → exec (.enable p) s = .next (enableStream s p)) ∧
      (f.st ≠ .off → exec (.enable p) s = .next refused) ∧
      (f.st = .stopped → exec (.restart p) s = .next (restartStream s p) ∧ exec (.skip p) s = .next (skipRecord s p) ∧
        exec (.drop p) s = .next (dropEntry s p) ∧ exec (.stop p) s = .next refused) ∧
      (f.st = .halted → exec (.restart p) s = .next (restartStream s p) ∧ exec (.skip p) s = .next refused ∧
        exec (.drop p) s = .next (dropEntry s p)) ∧
      (f.st = .running ∨ f.st = .idle → exec (.stop p) s = .next (stopStream s p) ∧ exec (.restart p) s = .next refused) ∧
      exec (.clrerr p) s = .next (fr fun f => { f with regerr := false, veclost := false }) ∧
      (let h := f.queues[q]; let u := modFront s p fun f => { f with queues := vput f.queues q { h with tail := tail, tails := h.tails ++ [(tail, s.clk)] } };
        let ok : Prop := h.on = true ∧ (tail - h.head).toNat ≤ 2 ^ (h.cfg.toNat / 2 ^ 32 % 16) ∧ (tail - h.tail).toNat ≤ (tail - h.head).toNat;
        (ok → s.aux[p].policy = [] → exec (.qtailWrite p q tail) s = .next u) ∧ (¬ ok → exec (.qtailWrite p q tail) s = .next refused)) ∧
      (v.toNat < 2 ^ 16 → exec (.jobcan p v) s = .next (cancelWhere s p fun w => inLevel w 3 (v.setWidth 16))) ∧
      (2 ^ 16 ≤ v.toNat → exec (.jobcan p v) s = .next refused) ∧
      (v.toNat / 2 ^ 16 % 2 ^ 46 = 0 → exec (.regWrite (some p) 0x20 true v) s = .next (fr fun f => { f with cntsel := v })) ∧
      exec (.regWrite (some p) 0x38 true 0) s = .next (fr fun f => { f with aperbase := 0 })) ∧
    (o.toNat % (if wide then 8 else 4) ≠ 0 → exec (.regWrite (some p) o wide v) s = .next refused ∧
      exec (.regWrite none o wide v) s = .next (pfRefuse s)) ∧
    exec (.regWrite none 0x18 true v) s = .next (modPf s fun f => { f with walltime := v }) ∧
    (vfServed s p = false → ∀ i ∈ [Instr.enable p, .restart p, .skip p, .drop p, .stop p, .clrerr p, .qtailWrite p q tail, .jobcan p v],
      exec i s = .next refused) ∧
    (∃ t, exec (.vfFlr p) s = .next t ∧ t.aux[p].front.st = .off ∧ t.aux[p].front.queues = Front.zero.queues ∧
      ∀ x ∈ t.aux[p].window.entries, x.cancelled = true) ∧
    (let ones := List.replicate (memBytes size) (BitVec.allOnes 8); let bytes := memBytes size;
      (aperture s p off bytes false = none → exec (.bar2Read p off size) s = .next (answerHost s ones)) ∧
      (aperture s p off bytes true = none → exec (.bar2Write p off size v) s = .next s) ∧
      (aperture s p off bytes false = some a → pkgOf a = ownPkg s →
        (sealHost s p a = none → exec (.bar2Read p off size) s = .next { s with mark := .stall }) ∧
        (sealHost s p a = some sealed → globRead sealed false (some p) a bytes = (t, .ok bs) →
          exec (.bar2Read p off size) s = .next ((answerHost (dropAsks t p askBar2) bs).count (some p) 9 bytes)) ∧
        (sealHost s p a = some sealed → globRead sealed false (some p) a bytes = (t, .fail k) →
          exec (.bar2Read p off size) s = .next (answerHost (bar2Fault t p (hubCause k) a) ones))) ∧
      (aperture s p off bytes true = some a → pkgOf a = ownPkg s → sealHost s p a = some sealed →
        (globWrite sealed false (some p) a (leBytes bytes v.toNat) = (t, .ok ()) →
          exec (.bar2Write p off size v) s = .next (t.count (some p) 9 bytes)) ∧
        (globWrite sealed false (some p) a (leBytes bytes v.toNat) = (t, .fail k) →
          exec (.bar2Write p off size v) s = .next (bar2Fault t p (hubCause k) a)))) ∧
    (barAccepts o.toNat n = true → vfRead s p o.toNat n = answerHost s (barBytes (vfReg s p (o.toNat / 8 * 8)) o.toNat n)) ∧
    (barAccepts o.toNat n = false → vfRead s p o.toNat n = answerHost refused (List.replicate n (BitVec.allOnes 8))) ∧
    ((vfReg s p 0).toNat % 2 ^ 7 = p.val ∧ (vfReg s p 0).getLsbD 7 = s.parts[p].prot ∧ (vfReg s p 0).toNat / 2 ^ 24 = 2 ∧
      (vfReg s p 0).toNat / 2 ^ 16 % 2 ^ 8 = groupCount s p)

/-- R357: a message of an unknown kind is discarded and counted on a link. R358: one for another package joins the send queue as it is. R356: one whose FDID
names no partition here is answered with ERR REMOTE. R336: one of a protected partition that does not open is discarded, with ERR INTEGRITY for a request and
INTEGRITY for the access that waits. R365: a request enters its home, and once its parts are performed RD and TILE answer with the bytes read, WR, VAMO and
RED with an acknowledgement, AMO with the old value, and a QST lands. R364: a QST that arrives is performed, held, or answered with HOLDFULL; LAND frees its
token, REL clears carries, HOLDFULL makes the sender keep its store, and a held store that passes its limit is marked and recorded. An answer goes to the
first access of its core and address that waits for its kind; one that nothing waits for changes no access. R337: an answer waits while its stream from
the hub can send no more. R358: an adaptive message that has waited takes the ordered route in the torus. R360: a flit takes a slot of its pool, or is
discarded and counted, as is one whose CRC or tag fails. R361: STOP holds while at most K slots are free; a link trains up to its longest round trip.
R355: a link that goes down empties. R356: the fabric registers take a write, without its reserved bits, while every link is down. The model's choices (assumption logs 36, 37, 46):
answers are matched by core and address, and the link that an unknown kind counts on. -/
def Obligations.MessagesAndLinks : Prop :=
  ∀ (s t : State) (m : Msg) (p : Fin 16) (k : Cause) (e : HoldEnt) (o : OutMsg) (link : Fin 6) (flit : Flit) (pool pl : Fin 33)
    (rt : BitVec 8) (reg : BitVec 13) (x : Word) (h : Fin 1024) (i : Fin 256) (y : Inward),
    let c := msgCore m
    let as_ (q : BitVec 5) : Msg := { m with kind := q }
    let hop := hubHop s (ix 4 m.ddie.toNat) true
    let owner := partOfFdid s m.fdid
    let here : Prop := knownKind m.kind = true ∧ m.dpkg = ownPkg s
    let opens : Prop := here ∧ owner = some p ∧ badSeal s p m = false
    let mine : Prop := opens ∧ ivOpen s p hop = true
    let counted (t : State) : State := t.count (some p) 8 m.payload.length
    let u (q : BitVec 5) : State := counted (useIv (noteAnswer s p (as_ q)) p hop)
    let requests : List (Instr × BitVec 5) := [(.rd m, kRd), (.wr m, kWr), (.amoMessage m, kAmo), (.vamoMessage m, kVamo), (.red m, kRed),
      (.tile m, kTile)]
    let answers : List (Instr × BitVec 5) := [(.rdrsp m, kRdrsp), (.wrack m, kWrack), (.land m, kLand), (.amorsp m, kAmorsp), (.tilersp m, kTilersp),
      (.holdfull m, kHoldfull), (.err m, kErr)]
    let all := (.qstMessage m, kQst) :: (.rel m, kRel) :: requests ++ answers
    let got : Stage := .returned m.payload
    let f := s.fabric
    let l := f.links[link]
    let fab (g : Fabric) : State := { s with fabric := g }
    let wait : Out := .next { s with mark := .stall }
    let away := y.msg.spkg ≠ ownPkg s
    let ends (q : BitVec 5) (t : State) : Prop := away → y.msg.kind = q → endInward s y = t
    (knownKind m.kind = false → ∀ a ∈ all, ∃ t, exec a.1 s = .next t ∧
      t.fabric.links[cameOn s m].errors = f.links[cameOn s m].errors + 1 ∧ SameMemory s t ∧ t.cores = s.cores) ∧
    (knownKind m.kind = true → m.dpkg ≠ ownPkg s → ∀ a ∈ all,
      exec a.1 s = .next (fab { f with out := f.out ++ [⟨as_ a.2, owner, none, s.clk, false, true⟩] })) ∧
    (here → owner = none → (∀ a ∈ all, a.2 ≠ kErr →
      exec a.1 s = .next (sendFor s none none { answerMsg s m kErr [] with opx := Cause.remote.code, addr := m.addr })) ∧
      exec (.err m) s = .next s) ∧
    (here → owner = some p → badSeal s p m = true → (∀ a ∈ requests, exec a.1 s = .next (errAnswer s p (as_ a.2) .integrity)) ∧
      exec (.land m) s = .next (noteAnswer s p (as_ kLand)) ∧
      exec (.rdrsp m) s = .next (failRequest (noteAnswer s p (as_ kRdrsp)) (some p) c m.addr .integrity)) ∧
    (opens → ∀ a ∈ requests, (enterInward (counted s) p (as_ a.2) = some t → exec a.1 s = .next t) ∧
      (enterInward (counted s) p (as_ a.2) = none → exec a.1 s = wait)) ∧
    (opens → (arriveQst (counted s) p (as_ kQst) = some t → exec (.qstMessage m) s = .next t) ∧
      (arriveQst (counted s) p (as_ kQst) = none → exec (.qstMessage m) s = wait) ∧
      exec (.rel m) s = .next (arriveRel (counted (noteAnswer s p (as_ kRel))) m.spkg c m.token)) ∧
    (ends kRd (answer s y.part y.msg kRdrsp y.data) ∧ ends kTile (answer s y.part y.msg kTilersp y.data) ∧
      ends kAmo (answer s y.part y.msg kAmorsp y.data) ∧ ends kWr (answer s y.part y.msg kWrack []) ∧
      ends kVamo (answer s y.part y.msg kWrack []) ∧ ends kRed (answer s y.part y.msg kWrack []) ∧ ends kQst (landed s y.part y.msg)) ∧
    (opens → ivOpen s p hop = false → ∀ a ∈ answers, exec a.1 s = wait) ∧
    (mine → exec (.land m) s = .next (landToken (u kLand) c m.token) ∧
      exec (.holdfull m) s = .next (Machine.holdFull (u kHoldfull) c m.addr) ∧
      (causeOf m.opx = some k → exec (.err m) s = .next (failRequest (u kErr) (some p) c m.addr k)) ∧
      (causeOf m.opx = none → exec (.err m) s = .next (u kErr))) ∧
    (mine → let v := u kRdrsp; let rd := toEnt v c m.addr QEnt.reads got; let wt := toMwait v c m.addr got; let cp := copyGot v c m.addr m.payload;
      let rec_ := toRecord v c m.addr got; let hub := toHub v p (some true) m.addr got;
      (rd = some t → exec (.rdrsp m) s = .next t) ∧ (rd = none → wt = some t → exec (.rdrsp m) s = .next t) ∧
      (rd = none → wt = none → cp = some t → exec (.rdrsp m) s = .next t) ∧
      (rd = none → wt = none → cp = none → rec_ = some t → exec (.rdrsp m) s = .next t) ∧
      (rd = none → wt = none → cp = none → rec_ = none → exec (.rdrsp m) s = .next (hub.getD v))) ∧
    (mine → let v := u kWrack; let st := toEnt v c m.addr (fun e => !e.reads && !e.isAmo) (.returned []); let cp := copyAck v c m.addr;
      (st = some t → exec (.wrack m) s = .next t) ∧ (st = none → cp = some t → exec (.wrack m) s = .next t) ∧
      (st = none → cp = none → exec (.wrack m) s = .next ((toHub v p (some false) m.addr (.returned [])).getD v))) ∧
    (mine → let v := u kAmorsp; let amo := toEnt v c m.addr QEnt.isAmo got;
      (amo = some t → exec (.amorsp m) s = .next t) ∧
      (amo = none → exec (.amorsp m) s = .next ((toHub v p (some false) m.addr got).getD v))) ∧
    (mine → let v := u kTilersp; exec (.tilersp m) s = .next ((toMma v c m.addr got).getD v)) ∧
    (f.hold[h] = none → exec (.holdExpire h) s = .next s) ∧
    (f.hold[h] = some e →
      (e.carry0 = 0 → e.carry1 = 0 → exec (.holdExpire h) s = .next (releaseHolds 1024 s)) ∧
      (e.carry0 ≠ 0 ∨ e.carry1 ≠ 0 → (e.expired = true ∨ s.clk < e.due → exec (.holdExpire h) s = .next s) ∧
        (e.expired = false → e.due ≤ s.clk → exec (.holdExpire h) s =
          .next (releaseHolds 1024
          (hubRecord (fab { f with hold := vput f.hold h (some { e with expired := true }) }) e.part (hubRec .holdExpire e.msg.addr)))))) ∧
    (f.out[i.val]? = some o →
      (o.msg.cls = false → o.escape = false → o.since + 256 ≤ s.clk → switched s = false →
        exec (.escapeRoute i) s = .next (fab { f with out := f.out.set i.val { o with escape := true } })) ∧
      (o.msg.cls = true ∨ o.escape = true ∨ s.clk < o.since + 256 ∨ switched s = true → exec (.escapeRoute i) s = .next s)) ∧
    (f.out[i.val]? = none → exec (.escapeRoute i) s = .next s) ∧
    (l.up = false → ∀ a ∈ [Instr.flitReceive link flit, .poolStopGo link pool, .linkDown link], exec a s = .next s) ∧
    (l.up = true →
      (flit.crcOk = false → ∃ t, exec (.flitReceive link flit) s = .next t ∧ t.fabric.links[link] = { l with errors := l.errors + 1 }) ∧
      (let bad := !flit.tagOk || (partOfFdid s flit.fdid).any (fun q => s.parts[q].prot && !acceptsEpoch s q flit.epoch);
      (flit.crcOk = true → bad = true → exec (.flitReceive link flit) s = .next (modLink s link fun l => { l with errors := l.errors + 1 })) ∧
      (flit.crcOk = true → bad = false → flitPool l flit = some pl → exec (.flitReceive link flit) s =
        .next (modLink s link fun l => { l with used := vput l.used pl (l.used[pl] + 1) })) ∧
      (flit.crcOk = true → bad = false → flitPool l flit = none →
        exec (.flitReceive link flit) s = .next (reportLink (modLink s link fun l => { l with errors := l.errors + 1 })))) ∧
      (∃ t, exec (.poolStopGo link pool) s = .next t ∧ t.fabric.links[link].used[pool] ≤ l.used[pool] ∧
        (t.fabric.links[link].stop[pool] = true ↔ poolSlots pool - t.fabric.links[link].used[pool] ≤ l.k)) ∧
      (∃ t, exec (.linkDown link) s = .next t ∧ t.fabric.links[link].up = false ∧ ∀ j : Fin 33, t.fabric.links[link].used[j] = 0)) ∧
    (f.hfcfg.getLsbD 63 = false → exec (.linkTrain link rt) s = .next s) ∧
    (f.hfcfg.getLsbD 63 = true → ∃ t, exec (.linkTrain link rt) s = .next t ∧
      t.fabric.links[link].up = decide (rt.toNat ≤ if switched s then 3 else 2)) ∧
    (hfRefused s reg x = true → exec (.hfcfgWrite reg x) s = .next s) ∧
    (hfRefused s reg x = false → (reg = 0 → exec (.hfcfgWrite reg x) s = .next (fab { f with hfcfg := x &&& 0xC0FFF000FFF00000 })) ∧
      (reg = BitVec.ofNat 13 (1 + p.val) → exec (.hfcfgWrite reg x) s = .next (fab { f with fdmap := vput f.fdmap p (x &&& 0x800000000000FFFF) })) ∧
      (4096 ≤ reg.toNat → ∃ t, exec (.hfcfgWrite reg x) s = .next t ∧
        t.fabric.swport.lookup (reg.toNat - 4096) = (if x.extractLsb' 0 16 &&& 0x80FF = 0 then none else some (x.extractLsb' 0 16 &&& 0x80FF))))

/-- R351: a request to the interface of an unprotected partition is answered with an error and changes nothing. For a protected one LOCK moves CONFIG_UNLOCKED to
CONFIG_LOCKED when the memory is wiped and both keys stand, binds the TDI to the session
with the host, START moves CONFIG_LOCKED to RUN, STOP leads to CONFIG_UNLOCKED and takes the keys and the
seal secret, SET_SEAL_SECRET stores its secret in CONFIG_LOCKED within that session, and any of them in another state is answered with an error; a TDI that is
locked or runs goes to ERROR. R353: GET_MEASUREMENTS answers with the block of a listed index and a signature over it and the nonce, and with an error for
another index. R352: CHALLENGE is signed under the device identity key, which R400 makes usable in the first two life-cycle states only; GET_CERTIFICATE
gives the same bytes at every time. NEGOTIATE_ALGORITHMS answers the algorithms of R352. R366, R367: KEY_EXCHANGE begins a session with the
secret that both shares give, FINISH puts one that was begun in place, END_SESSION ends it. The other bytes
of every answer are free values (assumption log 38); the codes and layouts of TDISP and SPDM are presumed (log 48). -/
def Obligations.InterfaceAndSessionRequests : Prop :=
  ∀ (s : State) (p : Fin 16) (secret : BitVec 512) (off len : BitVec 16) (nonce : BitVec 256) (idx : BitVec 8) (peer : Option (BitVec 12))
    (share : BitVec 768) (id : BitVec 16) (e : Session) (r : Request) (bs own : List Byte) (shared : BitVec 384),
    let part := s.parts[p]
    let err : Out := .next (reply s .error [])
    let keyed := (activeSlot s p 0).isSome && (activeSlot s p 1).isSome
    let i := idx.toNat
    let ends (a : Instr) (bs : List Byte) : Prop := ∃ t x, exec a s = .next t ∧ t.hub.answers = s.hub.answers ++ [x ++ bs] ∧ SameMemory s t ∧
      t.parts = s.parts ∧ t.cores = s.cores
    let sessions (t : State) : List Session := t.fabric.sessions
    let requests : List Instr := [.getTdispVersion p, .getTdispCapabilities p, .lockInterfaceRequest p, .getDeviceInterfaceReport p,
      .getDeviceInterfaceState p, .startInterfaceRequest p, .stopInterfaceRequest p, .setSealSecret p secret]
    (∃ x, (reply s r bs).hub.answers = s.hub.answers ++ [x ++ bs]) ∧
    (part.prot = false → (∀ a ∈ requests, exec a s = err) ∧ exec (.tdiError p) s = .next s) ∧
    (part.prot = true →
      (∀ a ∈ [Instr.getTdispVersion p, .getTdispCapabilities p], ends a []) ∧ ends (.getDeviceInterfaceReport p) teeRanges ∧
      ends (.getDeviceInterfaceState p) (leBytes 1 (tdiCode part.tdi)) ∧
      (part.tdi = .unlocked → part.wiped = true → keyed = true →
        exec (.lockInterfaceRequest p) s = .next (reply (s.putPart p { part with tdi := .locked, bound := hostSession s }) .lock [])) ∧
      (part.tdi ≠ .unlocked ∨ part.wiped = false ∨ keyed = false → exec (.lockInterfaceRequest p) s = err) ∧
      (part.tdi = .locked → exec (.startInterfaceRequest p) s = .next (reply (s.putPart p { part with tdi := .run }) .start [])) ∧
      (part.tdi ≠ .locked → exec (.startInterfaceRequest p) s = err) ∧
      (∃ t, exec (.stopInterfaceRequest p) s = .next t ∧ t.parts[p].tdi = .unlocked ∧
        (part.tdi ≠ .unlocked → t.parts[p].secret = none ∧ t.parts[p].wiped = false ∧ activeSlot t p 0 = none ∧ activeSlot t p 1 = none ∧
          t.aux[p].front.st = .off ∧ ∀ x ∈ t.aux[p].window.entries, x.cancelled = true)) ∧
      (part.tdi = .locked → boundSession s p = true →
        exec (.setSealSecret p secret) s = .next (reply (s.putPart p { part with secret := some secret }) .sealSecret [])) ∧
      (part.tdi ≠ .locked ∨ boundSession s p = false → exec (.setSealSecret p secret) s = err) ∧
      (∃ t, exec (.tdiError p) s = .next t ∧ t.parts[p].tdi = (if part.tdi = .locked ∨ part.tdi = .run then .error else part.tdi) ∧
        (part.tdi = .run → ∀ x ∈ t.aux[p].window.entries, x.cancelled = true))) ∧
    (boundSession s p = true ↔ ∃ e ∈ sessions s, e.live = true ∧ e.peer = none ∧ part.bound = some e.id) ∧
    (∀ a ∈ [Instr.getVersion, .getCapabilities, .getDigests], ends a []) ∧ ends .negotiateAlgorithms algorithms ∧
    (∃ chain : List Byte, chain.length = len.toNat ∧ ∀ t : State, ∃ u x, exec (.getCertificate off len) t = .next u ∧
      u.hub.answers = t.hub.answers ++ [x ++ chain]) ∧
    (identityUsable = false → ∀ a ∈ [Instr.challenge nonce, .getMeasurements idx nonce, .keyExchange peer share], exec a s = err) ∧
    (identityUsable = true →
      ends (.challenge nonce) (leBytes 512 (Config.sign (sha512 (leBytes 32 nonce.toNat))).toNat) ∧
      (let block := dmtfBlock i (if i = 0xFD then manifest s else (measurement s i).bytes);
        (i ∈ measured ∨ i = 0xFD →
          ends (.getMeasurements idx nonce) (block ++ leBytes 512 (Config.sign (sha512 (block ++ leBytes 32 nonce.toNat))).toNat)) ∧
        (i ∉ measured → i ≠ 0xFD → exec (.getMeasurements idx nonce) s = err)) ∧
      (ecdhe (privateKey s.hub.drawn) (leBytes 96 share.toNat) = none → exec (.keyExchange peer share) s = err) ∧
      (ecdhe (privateKey s.hub.drawn) (leBytes 96 share.toNat) = some (own, shared) → let n := s.fabric.nextSession;
        ends (.keyExchange peer share) (leBytes 2 n.toNat ++ own ++ leBytes 512 (Config.sign (sha512 (leBytes 96 share.toNat ++ own))).toNat) ∧
        ∃ t, exec (.keyExchange peer share) s = .next t ∧ sessions t = ⟨n, peer, false, shared⟩ :: (sessions s).filter (fun e => e.id != n))) ∧
    ((sessions s).find? (fun e => e.id == id && !e.live) = none → exec (.finish id) s = err) ∧
    ((sessions s).find? (fun e => e.id == id && !e.live) = some e → ends (.finish id) [] ∧
      ∃ t, exec (.finish id) s = .next t ∧ sessions t = (sessions s).map fun x => if x.id = id then { x with live := true } else x) ∧
    ((sessions s).any (fun e => e.id == id) = true → ends (.endSession id) [] ∧
      ∃ t, exec (.endSession id) s = .next t ∧ sessions t = (sessions s).filter fun e => e.id != id) ∧
    ((sessions s).any (fun e => e.id == id) = false → exec (.endSession id) s = err)

/-- R394: a legal ADMTAIL write copies the new records to the firmware, and an illegal one is refused; a malformed command, and one of no listed kind, ends with
STATUS 3. R396: CREATE is refused with 2 in a life-cycle state or a partition state that does not allow it, and with 3 for a malformed descriptor; one that
passes every step makes the partition LIVE with 1. R398: DESTROY frees a LIVE partition once its last usage record is out; WIPE and METER need a LIVE
partition. R401 to R403: at a boundary the regions held are metered; a due interval is cut, and a cut with the ring full is pending. R404, R406: a power command
sets the level, which TRIP1 caps at L1; THERMCLR clears TRIP1 below its limit; a trip acts at its temperature. R392: UPDREQ reaches the package duty
core; a BAR2 write of the PF writes an image slot and clears its VERIFIED, unless the slot is ACTIVE or a trial runs. R393: reading PFID clears REGERR. R399: RESET
keeps the image slots, measures the ACTIVE one and starts the firmware of every core at its first packet.
The model's own readings in it: assumption logs 40, 42. -/
def Obligations.PartitionsAndFleet : Prop :=
  ∀ (s t : State) (p : Fin 16) (tail : BitVec 32) (r : List Byte) (n : Nat) (x : Word) (c : BitVec 8) (off : BitVec 21) (size : MemSize) (a : Nat)
    (core : Fin 512),
    let f := s.pf
    let part := s.parts[p]
    let aux := s.aux[p]
    let head (cmd : Nat) (arg : Bool) : Prop := headRecord s adminRing = some r ∧ cmdOf r = cmd ∧ cmdClean r = true ∧ cmdArg1 r = 0 ∧
      cmdPart r = p.val ∧ (arg = false → cmdArg0 r = 0)
    let done (t : State) (n : Nat) : Out := adminDone t n
    let d := s.load (hostAddr (cmdArg0 r)) 128
    let cut := cutUse (clearPart s p) p 3
    let wiped := buildTables (cutUse (clearPart s p) p 4) p
    let set (g : Pf) : State := { s with pf := g }
    let images := s.hub.images
    let bytes := memBytes size
    let lo := decide (2 ^ 20 ≤ off.toNat)
    let hi := decide (2 ^ 20 ≤ off.toNat + bytes - 1)
    ((tail - f.admhead).toNat ≤ 256 → (tail - f.admtail).toNat ≤ (tail - f.admhead).toNat →
      exec (.admtailWrite tail) s = .next (copyAdmin (tail - f.admtail).toNat s)) ∧
    (256 < (tail - f.admhead).toNat ∨ (tail - f.admhead).toNat < (tail - f.admtail).toNat →
      exec (.admtailWrite tail) s = .next (set { f with regerr := true })) ∧
    (headRecord s adminRing = none → ∀ i ∈ [Instr.create, .destroy, .wipe, .meter], exec i s = .next s) ∧
    (headRecord s adminRing = some r → (cmdOf r < 0x10 ∨ 0x13 < cmdOf r → exec .meter s = done s 3) ∧
      (16 ≤ cmdPart r ∨ cmdArg1 r ≠ 0 → (cmdOf r = 0x10 → exec .create s = done s 3) ∧ (cmdOf r = 0x11 → exec .destroy s = done s 3) ∧
        (cmdOf r = 0x12 → exec .wipe s = done s 3) ∧ (cmdOf r = 0x13 → exec .meter s = done s 3))) ∧
    (head 0x10 true →
      (part.st ≠ .free ∨ cycleRefuses (cdProt d) = true → exec .create s = done s 2) ∧
      (part.st = .free → cycleRefuses (cdProt d) = false → (cdOk (cmdArg0 r) d = false → exec .create s = done s 3) ∧
        (cdOk (cmdArg0 r) d = true → (createPart (markFree s) p d = .error n → exec .create s = done (markFree s) n) ∧
          (createPart (markFree s) p d = .ok t → ∃ u, exec .create s = done u 1 ∧ u.parts = t.parts ∧ u.hub = t.hub ∧ u.aux = t.aux)))) ∧
    (createPart s p d = .ok t → t.parts[p].st = .live ∧ t.parts[p].groups = cdGroups d ∧ t.parts[p].prot = cdProt d) ∧
    (head 0x11 false →
      (part.st = .live → (cut.aux[p].usePend = none → exec .destroy s = done (freePart cut p) 1) ∧
        (cut.aux[p].usePend ≠ none → exec .destroy s =
          .next (setScrubbing (cut.putPart p { cut.parts[p] with st := .destroying }) cut.parts[p].groups true))) ∧
      (part.st = .destroying → (aux.usePend = none → exec .destroy s = done (freePart s p) 1) ∧
        (aux.usePend ≠ none → exec .destroy s = .next s)) ∧
      (part.st ≠ .live → part.st ≠ .destroying → exec .destroy s = done s 2)) ∧
    (freePart s p).parts[p] = Part.zero ∧
    (head 0x12 false → (part.st ≠ .live → exec .wipe s = done s 2) ∧
      (part.st = .live → exec .wipe s = done (if wiped.parts[p].prot then (installPair wiped p).getD wiped else wiped) 1)) ∧
    (head 0x13 false → (part.st ≠ .live → exec .meter s = done s 2) ∧
      (part.st = .live → aux.meterInt = 0 → exec .meter s = done (cutUse s p 2) 1)) ∧
    (part.st = .live → aux.meterInt ≠ 0 → aux.meterDue ≤ s.clk → exec (.intervalCut p) s = .next (nextInterval (cutUse s p 1) p)) ∧
    (part.st ≠ .live ∨ aux.meterInt = 0 ∨ s.clk < aux.meterDue → exec (.intervalCut p) s = .next s) ∧
    (useFull s = true → aux.usePend = none → (cutUse s p 1).aux[p].usePend = some 1 ∧ SameMemory s (cutUse s p 1)) ∧
    (s.clk / 2 ^ 24 ≤ f.regint → exec .regintBoundary s = .next s) ∧
    (f.regint < s.clk / 2 ^ 24 → ∃ t, exec .regintBoundary s = .next t ∧ t.pf.regint = f.regint + 1 ∧ SameMemory s t) ∧
    (x.toNat < 8 → ∃ t, exec (.pwrcmdWrite x) s = .next t ∧ t.pf.command = x.setWidth 3 ∧
      t.pf.effect = if f.trip1 ∧ 1 < x.toNat then 1 else x.setWidth 3) ∧
    (8 ≤ x.toNat → exec (.pwrcmdWrite x) s = .next (set { f with regerr := true })) ∧
    (x.getLsbD 0 = true → hottest s < 95 → exec (.thermclr x) s = .next (set { f with trip1 := false, effect := f.command })) ∧
    (x.getLsbD 0 = false ∨ 95 ≤ hottest s → exec (.thermclr x) s = .next s) ∧
    (c.toNat < 105 → exec (.thermalTrip1 c) s = .next s) ∧ (c.toNat < 115 → exec (.thermalTrip2 c) s = .next s) ∧
    (105 ≤ c.toNat → ∃ t, exec (.thermalTrip1 c) s = .next t ∧ t.pf.trip1 = true ∧ (f.trip1 = false → t.pf.effect.toNat ≤ 1)) ∧
    (115 ≤ c.toNat → f.trip2 = false → ∃ t, exec (.thermalTrip2 c) s = .next t ∧ t.pf.trip1 = true ∧ t.pf.trip2 = true) ∧
    (x.toNat < 2 → exec (.updreqWrite x) s = .next (deliver s 0 ⟨0x06, 0, x, 0⟩)) ∧
    (2 ≤ x.toNat → exec (.updreqWrite x) s = .next (set { f with regerr := true })) ∧
    (∃ t, exec .pfidRead s = .next t ∧ t.pf = { f with regerr := false } ∧ t.hub.answers = s.hub.answers ++ [leBytes 8 (pfid s).toNat]) ∧
    (off.toNat + bytes ≤ 2 ^ 21 → images.trial = false → lo = hi → lo ≠ images.active →
      ∃ t, exec (.pfBar2Write off size x) s = .next t ∧
        (s.memWf → t.load (imageAddr false off.toNat) bytes = leBytes bytes x.toNat) ∧
        (if lo then t.hub.images.verified1 else t.hub.images.verified0) = false ∧ SameOutside s t (imageAddr false off.toNat) bytes) ∧
    (images.trial = true ∨ lo = images.active ∨ hi = images.active → exec (.pfBar2Write off size x) s = .next s) ∧
    (∃ t, exec .reset s = .next t ∧ (2 ^ 44 ≤ a → readByte t.mem a = readByte s.mem a) ∧
      t.hub.images.active = images.active ∧ t.hub.images.csvn = images.csvn ∧ t.parts = State.reset.parts ∧ t.hub.measures.image = imageDigest s images.active ∧
      t.cores[core].st = .none ∧ t.cores[core].fw.pc = BitVec.ofNat 32 (imageEntry s))
end

