-- ==== Sys2Proof/Laws/Dispatch.lean ====
section
/-! SUPPORT. exec, constructor by constructor: what each instruction calls. -/

namespace Sys2Proof.Machine

@[simp] theorem exec_add h d a b s : exec (.add h d a b) s = execAdd h d a b s := rfl
@[simp] theorem exec_sub h d a b s : exec (.sub h d a b) s = execSub h d a b s := rfl
@[simp] theorem exec_and h d a b s : exec (.and h d a b) s = execAnd h d a b s := rfl
@[simp] theorem exec_or h d a b s : exec (.or h d a b) s = execOr h d a b s := rfl
@[simp] theorem exec_xor h d a b s : exec (.xor h d a b) s = execXor h d a b s := rfl
@[simp] theorem exec_sll h d a b s : exec (.sll h d a b) s = execSll h d a b s := rfl
@[simp] theorem exec_srl h d a b s : exec (.srl h d a b) s = execSrl h d a b s := rfl
@[simp] theorem exec_sra h d a b s : exec (.sra h d a b) s = execSra h d a b s := rfl
@[simp] theorem exec_min h d a b s : exec (.min h d a b) s = execMin h d a b s := rfl
@[simp] theorem exec_max h d a b s : exec (.max h d a b) s = execMax h d a b s := rfl
@[simp] theorem exec_minu h d a b s : exec (.minu h d a b) s = execMinu h d a b s := rfl
@[simp] theorem exec_maxu h d a b s : exec (.maxu h d a b) s = execMaxu h d a b s := rfl
@[simp] theorem exec_mul h d a b s : exec (.mul h d a b) s = execMul h d a b s := rfl
@[simp] theorem exec_mulh h d a b s : exec (.mulh h d a b) s = execMulh h d a b s := rfl
@[simp] theorem exec_mulhu h d a b s : exec (.mulhu h d a b) s = execMulhu h d a b s := rfl
@[simp] theorem exec_div h d a b s : exec (.div h d a b) s = execDiv h d a b s := rfl
@[simp] theorem exec_divu h d a b s : exec (.divu h d a b) s = execDivu h d a b s := rfl
@[simp] theorem exec_rem h d a b s : exec (.rem h d a b) s = execRem h d a b s := rfl
@[simp] theorem exec_remu h d a b s : exec (.remu h d a b) s = execRemu h d a b s := rfl
@[simp] theorem exec_clz h d a s : exec (.clz h d a) s = execClz h d a s := rfl
@[simp] theorem exec_ctz h d a s : exec (.ctz h d a) s = execCtz h d a s := rfl
@[simp] theorem exec_popc h d a s : exec (.popc h d a) s = execPopc h d a s := rfl
@[simp] theorem exec_andn h d a b s : exec (.andn h d a b) s = execAndn h d a b s := rfl
@[simp] theorem exec_orn h d a b s : exec (.orn h d a b) s = execOrn h d a b s := rfl
@[simp] theorem exec_addi h d a imm s : exec (.addi h d a imm) s = execAddi h d a imm s := rfl
@[simp] theorem exec_andi h d a imm s : exec (.andi h d a imm) s = execAndi h d a imm s := rfl
@[simp] theorem exec_ori h d a imm s : exec (.ori h d a imm) s = execOri h d a imm s := rfl
@[simp] theorem exec_xori h d a imm s : exec (.xori h d a imm) s = execXori h d a imm s := rfl
@[simp] theorem exec_slli h d a n s : exec (.slli h d a n) s = execSlli h d a n s := rfl
@[simp] theorem exec_srli h d a n s : exec (.srli h d a n) s = execSrli h d a n s := rfl
@[simp] theorem exec_srai h d a n s : exec (.srai h d a n) s = execSrai h d a n s := rfl
@[simp] theorem exec_li h d u s : exec (.li h d u) s = execLi h d u s := rfl
@[simp] theorem exec_li16 h d u s : exec (.li16 h d u) s = execLi16 h d u s := rfl
@[simp] theorem exec_li32 h d u s : exec (.li32 h d u) s = execLi32 h d u s := rfl
@[simp] theorem exec_li48 h d u s : exec (.li48 h d u) s = execLi48 h d u s := rfl
@[simp] theorem exec_cmpEq h d a b s : exec (.cmpEq h d a b) s = execCmpEq h d a b s := rfl
@[simp] theorem exec_cmpNe h d a b s : exec (.cmpNe h d a b) s = execCmpNe h d a b s := rfl
@[simp] theorem exec_cmpLt h d a b s : exec (.cmpLt h d a b) s = execCmpLt h d a b s := rfl
@[simp] theorem exec_cmpLe h d a b s : exec (.cmpLe h d a b) s = execCmpLe h d a b s := rfl
@[simp] theorem exec_cmpLtu h d a b s : exec (.cmpLtu h d a b) s = execCmpLtu h d a b s := rfl
@[simp] theorem exec_cmpLeu h d a b s : exec (.cmpLeu h d a b) s = execCmpLeu h d a b s := rfl
@[simp] theorem exec_pand h d a b s : exec (.pand h d a b) s = execPand h d a b s := rfl
@[simp] theorem exec_por h d a b s : exec (.por h d a b) s = execPor h d a b s := rfl
@[simp] theorem exec_pxor h d a b s : exec (.pxor h d a b) s = execPxor h d a b s := rfl
@[simp] theorem exec_pandn h d a b s : exec (.pandn h d a b) s = execPandn h d a b s := rfl
@[simp] theorem exec_cmpiEq h d a imm s : exec (.cmpiEq h d a imm) s = execCmpiEq h d a imm s := rfl
@[simp] theorem exec_cmpiNe h d a imm s : exec (.cmpiNe h d a imm) s = execCmpiNe h d a imm s := rfl
@[simp] theorem exec_cmpiLt h d a imm s : exec (.cmpiLt h d a imm) s = execCmpiLt h d a imm s := rfl
@[simp] theorem exec_cmpiGe h d a imm s : exec (.cmpiGe h d a imm) s = execCmpiGe h d a imm s := rfl
@[simp] theorem exec_cmpiLtu h d a imm s : exec (.cmpiLtu h d a imm) s = execCmpiLtu h d a imm s := rfl
@[simp] theorem exec_cmpiGeu h d a imm s : exec (.cmpiGeu h d a imm) s = execCmpiGeu h d a imm s := rfl
@[simp] theorem exec_sel h d a b p s : exec (.sel h d a b p) s = execSel h d a b p s := rfl
@[simp] theorem exec_addsh h d a b n s : exec (.addsh h d a b n) s = execAddsh h d a b n s := rfl
@[simp] theorem exec_br h o s : exec (.br h o) s = execBr h o s := rfl
@[simp] theorem exec_call h a o s : exec (.call h a o) s = execCall h a o s := rfl
@[simp] theorem exec_jr h a s : exec (.jr h a) s = execJr h a s := rfl
@[simp] theorem exec_loop h a o s : exec (.loop h a o) s = execLoop h a o s := rfl
@[simp] theorem exec_crd h d n s : exec (.crd h d n) s = execCrd h d n s := rfl
@[simp] theorem exec_cwr h a n s : exec (.cwr h a n) s = execCwr h a n s := rfl
@[simp] theorem exec_fenceCore h s : exec (.fenceCore h) s = execFenceCore h s := rfl
@[simp] theorem exec_fenceCluster h s : exec (.fenceCluster h) s = execFenceCluster h s := rfl
@[simp] theorem exec_fenceDie h s : exec (.fenceDie h) s = execFenceDie h s := rfl
@[simp] theorem exec_fencePkg h s : exec (.fencePkg h) s = execFencePkg h s := rfl
@[simp] theorem exec_fenceSys h s : exec (.fenceSys h) s = execFenceSys h s := rfl
@[simp] theorem exec_done h s : exec (.done h) s = execDone h s := rfl
@[simp] theorem exec_suspend h k s : exec (.suspend h k) s = execSuspend h k s := rfl
@[simp] theorem exec_post h d a k s : exec (.post h d a k) s = execPost h d a k s := rfl
@[simp] theorem exec_trap h k s : exec (.trap h k) s = execTrap h k s := rfl
@[simp] theorem exec_tret h s : exec (.tret h) s = execTret h s := rfl
@[simp] theorem exec_ld h d a f o s : exec (.ld h d a f o) s = execLd h d a f o s := rfl
@[simp] theorem exec_ldAcq h d a f o s : exec (.ldAcq h d a f o) s = execLdAcq h d a f o s := rfl
@[simp] theorem exec_st h d a f o s : exec (.st h d a f o) s = execSt h d a f o s := rfl
@[simp] theorem exec_stRel h d a f o s : exec (.stRel h d a f o) s = execStRel h d a f o s := rfl
@[simp] theorem exec_lsaln h s : exec (.lsaln h) s = execLsaln h s := rfl
@[simp] theorem exec_amoAdd h d a b z s : exec (.amoAdd h d a b z) s = execAmoAdd h d a b z s := rfl
@[simp] theorem exec_amoAnd h d a b z s : exec (.amoAnd h d a b z) s = execAmoAnd h d a b z s := rfl
@[simp] theorem exec_amoOr h d a b z s : exec (.amoOr h d a b z) s = execAmoOr h d a b z s := rfl
@[simp] theorem exec_amoXor h d a b z s : exec (.amoXor h d a b z) s = execAmoXor h d a b z s := rfl
@[simp] theorem exec_amoMin h d a b z s : exec (.amoMin h d a b z) s = execAmoMin h d a b z s := rfl
@[simp] theorem exec_amoMax h d a b z s : exec (.amoMax h d a b z) s = execAmoMax h d a b z s := rfl
@[simp] theorem exec_amoMinu h d a b z s : exec (.amoMinu h d a b z) s = execAmoMinu h d a b z s := rfl
@[simp] theorem exec_amoMaxu h d a b z s : exec (.amoMaxu h d a b z) s = execAmoMaxu h d a b z s := rfl
@[simp] theorem exec_amoSwap h d a b z s : exec (.amoSwap h d a b z) s = execAmoSwap h d a b z s := rfl
@[simp] theorem exec_amoCas h d a b z s : exec (.amoCas h d a b z) s = execAmoCas h d a b z s := rfl
@[simp] theorem exec_qst h d a b t o z s : exec (.qst h d a b t o z) s = execQst h d a b t o z s := rfl
@[simp] theorem exec_mwaitNe h d a b s : exec (.mwaitNe h d a b) s = execMwaitNe h d a b s := rfl
@[simp] theorem exec_mwaitEq h d a b s : exec (.mwaitEq h d a b) s = execMwaitEq h d a b s := rfl
@[simp] theorem exec_mwaitReread core fw s : exec (.mwaitReread core fw) s = execMwaitReread core fw s := rfl
@[simp] theorem exec_vadd h m d a b t s : exec (.vadd h m d a b t) s = execVadd h m d a b t s := rfl
@[simp] theorem exec_vsub h m d a b t s : exec (.vsub h m d a b t) s = execVsub h m d a b t s := rfl
@[simp] theorem exec_vmul h m d a b t s : exec (.vmul h m d a b t) s = execVmul h m d a b t s := rfl
@[simp] theorem exec_vfma h m d a b t s : exec (.vfma h m d a b t) s = execVfma h m d a b t s := rfl
@[simp] theorem exec_vmin h m d a b t s : exec (.vmin h m d a b t) s = execVmin h m d a b t s := rfl
@[simp] theorem exec_vmax h m d a b t s : exec (.vmax h m d a b t) s = execVmax h m d a b t s := rfl
@[simp] theorem exec_vdiv h m d a b s : exec (.vdiv h m d a b) s = execVdiv h m d a b s := rfl
@[simp] theorem exec_vsqrt h m d a s : exec (.vsqrt h m d a) s = execVsqrt h m d a s := rfl
@[simp] theorem exec_vexp2 h m d a s : exec (.vexp2 h m d a) s = execVexp2 h m d a s := rfl
@[simp] theorem exec_vabs h m d a t s : exec (.vabs h m d a t) s = execVabs h m d a t s := rfl
@[simp] theorem exec_vneg h m d a t s : exec (.vneg h m d a t) s = execVneg h m d a t s := rfl
@[simp] theorem exec_vadds h m d a b t s : exec (.vadds h m d a b t) s = execVadds h m d a b t s := rfl
@[simp] theorem exec_vsubs h m d a b t s : exec (.vsubs h m d a b t) s = execVsubs h m d a b t s := rfl
@[simp] theorem exec_vand h m d a b s : exec (.vand h m d a b) s = execVand h m d a b s := rfl
@[simp] theorem exec_vor h m d a b s : exec (.vor h m d a b) s = execVor h m d a b s := rfl
@[simp] theorem exec_vxor h m d a b s : exec (.vxor h m d a b) s = execVxor h m d a b s := rfl
@[simp] theorem exec_vandn h m d a b s : exec (.vandn h m d a b) s = execVandn h m d a b s := rfl
@[simp] theorem exec_vsll h m d a b s : exec (.vsll h m d a b) s = execVsll h m d a b s := rfl
@[simp] theorem exec_vsrl h m d a b s : exec (.vsrl h m d a b) s = execVsrl h m d a b s := rfl
@[simp] theorem exec_vsra h m d a b s : exec (.vsra h m d a b) s = execVsra h m d a b s := rfl
@[simp] theorem exec_vslli h m d a n s : exec (.vslli h m d a n) s = execVslli h m d a n s := rfl
@[simp] theorem exec_vsrli h m d a n s : exec (.vsrli h m d a n) s = execVsrli h m d a n s := rfl
@[simp] theorem exec_vsrai h m d a n s : exec (.vsrai h m d a n) s = execVsrai h m d a n s := rfl
@[simp] theorem exec_vclmulLo h m d a b s : exec (.vclmulLo h m d a b) s = execVclmulLo h m d a b s := rfl
@[simp] theorem exec_vclmulHi h m d a b s : exec (.vclmulHi h m d a b) s = execVclmulHi h m d a b s := rfl
@[simp] theorem exec_vpopc32 h m d a b s : exec (.vpopc32 h m d a b) s = execVpopc32 h m d a b s := rfl
@[simp] theorem exec_vpopc64 h m d a b s : exec (.vpopc64 h m d a b) s = execVpopc64 h m d a b s := rfl
@[simp] theorem exec_vcmpEq h m d a b t s : exec (.vcmpEq h m d a b t) s = execVcmpEq h m d a b t s := rfl
@[simp] theorem exec_vcmpLt h m d a b t s : exec (.vcmpLt h m d a b t) s = execVcmpLt h m d a b t s := rfl
@[simp] theorem exec_vcmpLe h m d a b t s : exec (.vcmpLe h m d a b t) s = execVcmpLe h m d a b t s := rfl
@[simp] theorem exec_vcmpLtu h m d a b t s : exec (.vcmpLtu h m d a b t) s = execVcmpLtu h m d a b t s := rfl
@[simp] theorem exec_mand h m d a b s : exec (.mand h m d a b) s = execMand h m d a b s := rfl
@[simp] theorem exec_mor h m d a b s : exec (.mor h m d a b) s = execMor h m d a b s := rfl
@[simp] theorem exec_mxor h m d a b s : exec (.mxor h m d a b) s = execMxor h m d a b s := rfl
@[simp] theorem exec_mandn h m d a b s : exec (.mandn h m d a b) s = execMandn h m d a b s := rfl
@[simp] theorem exec_mnot h m d a s : exec (.mnot h m d a) s = execMnot h m d a s := rfl
@[simp] theorem exec_mcnt h m d a s : exec (.mcnt h m d a) s = execMcnt h m d a s := rfl
@[simp] theorem exec_mfirst h m d a s : exec (.mfirst h m d a) s = execMfirst h m d a s := rfl
@[simp] theorem exec_vperm32 h m d a b s : exec (.vperm32 h m d a b) s = execVperm32 h m d a b s := rfl
@[simp] theorem exec_vslideup32 h m d a b s : exec (.vslideup32 h m d a b) s = execVslideup32 h m d a b s := rfl
@[simp] theorem exec_vslidedn32 h m d a b s : exec (.vslidedn32 h m d a b) s = execVslidedn32 h m d a b s := rfl
@[simp] theorem exec_vbcast32 h m d a s : exec (.vbcast32 h m d a) s = execVbcast32 h m d a s := rfl
@[simp] theorem exec_vcompress32 h m d a s : exec (.vcompress32 h m d a) s = execVcompress32 h m d a s := rfl
@[simp] theorem exec_vexpand32 h m d a s : exec (.vexpand32 h m d a) s = execVexpand32 h m d a s := rfl
@[simp] theorem exec_vmov32 h m d a s : exec (.vmov32 h m d a) s = execVmov32 h m d a s := rfl
@[simp] theorem exec_vperm8 h m d a b s : exec (.vperm8 h m d a b) s = execVperm8 h m d a b s := rfl
@[simp] theorem exec_vslideup8 h m d a b s : exec (.vslideup8 h m d a b) s = execVslideup8 h m d a b s := rfl
@[simp] theorem exec_vslidedn8 h m d a b s : exec (.vslidedn8 h m d a b) s = execVslidedn8 h m d a b s := rfl
@[simp] theorem exec_vbcast8 h m d a s : exec (.vbcast8 h m d a) s = execVbcast8 h m d a s := rfl
@[simp] theorem exec_vcompress8 h m d a s : exec (.vcompress8 h m d a) s = execVcompress8 h m d a s := rfl
@[simp] theorem exec_vexpand8 h m d a s : exec (.vexpand8 h m d a) s = execVexpand8 h m d a s := rfl
@[simp] theorem exec_vmov8 h m d a s : exec (.vmov8 h m d a) s = execVmov8 h m d a s := rfl
@[simp] theorem exec_vrsum h m d a t s : exec (.vrsum h m d a t) s = execVrsum h m d a t s := rfl
@[simp] theorem exec_vrmax h m d a t s : exec (.vrmax h m d a t) s = execVrmax h m d a t s := rfl
@[simp] theorem exec_vrmin h m d a t s : exec (.vrmin h m d a t) s = execVrmin h m d a t s := rfl
@[simp] theorem exec_vscan h m d a t s : exec (.vscan h m d a t) s = execVscan h m d a t s := rfl
@[simp] theorem exec_vcvt h m d a cv r s : exec (.vcvt h m d a cv r) s = execVcvt h m d a cv r s := rfl
@[simp] theorem exec_vqrec h t a b f s : exec (.vqrec h t a b f) s = execVqrec h t a b f s := rfl
@[simp] theorem exec_vld h m d a b s : exec (.vld h m d a b) s = execVld h m d a b s := rfl
@[simp] theorem exec_vlds h m d a b s : exec (.vlds h m d a b) s = execVlds h m d a b s := rfl
@[simp] theorem exec_vgather h m d a b s : exec (.vgather h m d a b) s = execVgather h m d a b s := rfl
@[simp] theorem exec_vldq h m d q s : exec (.vldq h m d q) s = execVldq h m d q s := rfl
@[simp] theorem exec_vst h m d a b s : exec (.vst h m d a b) s = execVst h m d a b s := rfl
@[simp] theorem exec_vsts h m d a b s : exec (.vsts h m d a b) s = execVsts h m d a b s := rfl
@[simp] theorem exec_vscatter h m d a b s : exec (.vscatter h m d a b) s = execVscatter h m d a b s := rfl
@[simp] theorem exec_vstq h m d q s : exec (.vstq h m d q) s = execVstq h m d q s := rfl
@[simp] theorem exec_vbind h d a s : exec (.vbind h d a) s = execVbind h d a s := rfl
@[simp] theorem exec_vunbind h d s : exec (.vunbind h d) s = execVunbind h d s := rfl
@[simp] theorem exec_streamRead core fw s : exec (.streamRead core fw) s = execStreamRead core fw s := rfl
@[simp] theorem exec_vamoAddF32 h m d a s : exec (.vamoAddF32 h m d a) s = execVamoAddF32 h m d a s := rfl
@[simp] theorem exec_vamoAddBf16 h m d a s : exec (.vamoAddBf16 h m d a) s = execVamoAddBf16 h m d a s := rfl
@[simp] theorem exec_vqst h m d a b t o s : exec (.vqst h m d a b t o) s = execVqst h m d a b t o s := rfl
@[simp] theorem exec_mmaDesc h d a b k s : exec (.mmaDesc h d a b k) s = execMmaDesc h d a b k s := rfl
@[simp] theorem exec_mmaReg h d a b k s : exec (.mmaReg h d a b k) s = execMmaReg h d a b k s := rfl
@[simp] theorem exec_mmaRmt h d a b k s : exec (.mmaRmt h d a b k) s = execMmaRmt h d a b k s := rfl
@[simp] theorem exec_mmaTileFetch core fw s : exec (.mmaTileFetch core fw) s = execMmaTileFetch core fw s := rfl
@[simp] theorem exec_mmaAccumulate core fw s : exec (.mmaAccumulate core fw) s = execMmaAccumulate core fw s := rfl
@[simp] theorem exec_mldF32 h d a s : exec (.mldF32 h d a) s = execMldF32 h d a s := rfl
@[simp] theorem exec_mldRaw h d a s : exec (.mldRaw h d a) s = execMldRaw h d a s := rfl
@[simp] theorem exec_mstF32 h d a s : exec (.mstF32 h d a) s = execMstF32 h d a s := rfl
@[simp] theorem exec_mstRaw h d a s : exec (.mstRaw h d a) s = execMstRaw h d a s := rfl
@[simp] theorem exec_mzero h d s : exec (.mzero h d) s = execMzero h d s := rfl
@[simp] theorem exec_msmax h d s : exec (.msmax h d) s = execMsmax h d s := rfl
@[simp] theorem exec_mread h d a b s : exec (.mread h d a b) s = execMread h d a b s := rfl
@[simp] theorem exec_mwrite h d a b s : exec (.mwrite h d a b) s = execMwrite h d a b s := rfl
@[simp] theorem exec_mqnt h d a k t s : exec (.mqnt h d a k t) s = execMqnt h d a k t s := rfl
@[simp] theorem exec_cpy2d h d a b s : exec (.cpy2d h d a b) s = execCpy2d h d a b s := rfl
@[simp] theorem exec_cpy2dCvtRelay h d a b s : exec (.cpy2dCvtRelay h d a b) s = execCpy2dCvtRelay h d a b s := rfl
@[simp] theorem exec_cpy2dCvtQnt h d a b s : exec (.cpy2dCvtQnt h d a b) s = execCpy2dCvtQnt h d a b s := rfl
@[simp] theorem exec_cpy2dCvtZexp h d a b s : exec (.cpy2dCvtZexp h d a b) s = execCpy2dCvtZexp h d a b s := rfl
@[simp] theorem exec_cpy2dRedAddF32 h d a b s : exec (.cpy2dRedAddF32 h d a b) s = execCpy2dRedAddF32 h d a b s := rfl
@[simp] theorem exec_cpy2dRedAddBf16 h d a b s : exec (.cpy2dRedAddBf16 h d a b) s = execCpy2dRedAddBf16 h d a b s := rfl
@[simp] theorem exec_cpy2dRedMaxF32 h d a b s : exec (.cpy2dRedMaxF32 h d a b) s = execCpy2dRedMaxF32 h d a b s := rfl
@[simp] theorem exec_cpy2dRedMinF32 h d a b s : exec (.cpy2dRedMinF32 h d a b) s = execCpy2dRedMinF32 h d a b s := rfl
@[simp] theorem exec_cpy2dStamp h d a b s : exec (.cpy2dStamp h d a b) s = execCpy2dStamp h d a b s := rfl
@[simp] theorem exec_copyBox core slot s : exec (.copyBox core slot) s = execCopyBox core slot s := rfl
@[simp] theorem exec_copyStamp core slot s : exec (.copyStamp core slot) s = execCopyStamp core slot s := rfl
@[simp] theorem exec_cpycan h a s : exec (.cpycan h a) s = execCpycan h a s := rfl
@[simp] theorem exec_nestLd h a s : exec (.nestLd h a) s = execNestLd h a s := rfl
@[simp] theorem exec_nestGo h s : exec (.nestGo h) s = execNestGo h s := rfl
@[simp] theorem exec_nestWait h s : exec (.nestWait h) s = execNestWait h s := rfl
@[simp] theorem exec_nestEmit core fw s : exec (.nestEmit core fw) s = execNestEmit core fw s := rfl
@[simp] theorem exec_binit h a b s : exec (.binit h a b) s = execBinit h a b s := rfl
@[simp] theorem exec_bexp h a b s : exec (.bexp h a b) s = execBexp h a b s := rfl
@[simp] theorem exec_barrv h a b s : exec (.barrv h a b) s = execBarrv h a b s := rfl
@[simp] theorem exec_bwait h a b s : exec (.bwait h a b) s = execBwait h a b s := rfl
@[simp] theorem exec_btest h d a b s : exec (.btest h d a b) s = execBtest h d a b s := rfl
@[simp] theorem exec_krotInstall h d a b s : exec (.krotInstall h d a b) s = execKrotInstall h d a b s := rfl
@[simp] theorem exec_krotQuery h d a b s : exec (.krotQuery h d a b) s = execKrotQuery h d a b s := rfl
@[simp] theorem exec_krotRetire h d a b s : exec (.krotRetire h d a b) s = execKrotRetire h d a b s := rfl
@[simp] theorem exec_krotDestroy h d a b s : exec (.krotDestroy h d a b) s = execKrotDestroy h d a b s := rfl
@[simp] theorem exec_sealChunks h d a b s : exec (.sealChunks h d a b) s = execSealChunks h d a b s := rfl
@[simp] theorem exec_unsealChunks h d a b s : exec (.unsealChunks h d a b) s = execUnsealChunks h d a b s := rfl
@[simp] theorem exec_scrubRegions h d a b s : exec (.scrubRegions h d a b) s = execScrubRegions h d a b s := rfl
@[simp] theorem exec_scrubCluster h d a b s : exec (.scrubCluster h d a b) s = execScrubCluster h d a b s := rfl
@[simp] theorem exec_scrubCore h d a b s : exec (.scrubCore h d a b) s = execScrubCore h d a b s := rfl
@[simp] theorem exec_capdrv h d a b s : exec (.capdrv h d a b) s = execCapdrv h d a b s := rfl
@[simp] theorem exec_capchk h d a b s : exec (.capchk h d a b) s = execCapchk h d a b s := rfl
@[simp] theorem exec_capld h d a n s : exec (.capld h d a n) s = execCapld h d a n s := rfl
@[simp] theorem exec_capst h d a s : exec (.capst h d a) s = execCapst h d a s := rfl
@[simp] theorem exec_sigchk h d a s : exec (.sigchk h d a) s = execSigchk h d a s := rfl
@[simp] theorem exec_mext h d a b s : exec (.mext h d a b) s = execMext h d a b s := rfl
@[simp] theorem exec_slotswQuery h d a b s : exec (.slotswQuery h d a b) s = execSlotswQuery h d a b s := rfl
@[simp] theorem exec_slotswQuiesce h d a b s : exec (.slotswQuiesce h d a b) s = execSlotswQuiesce h d a b s := rfl
@[simp] theorem exec_slotswSwitch h d a b s : exec (.slotswSwitch h d a b) s = execSlotswSwitch h d a b s := rfl
@[simp] theorem exec_slotswBeat h d a b s : exec (.slotswBeat h d a b) s = execSlotswBeat h d a b s := rfl
@[simp] theorem exec_slotswResume h d a b s : exec (.slotswResume h d a b) s = execSlotswResume h d a b s := rfl
@[simp] theorem exec_heartbeatMissed s : exec .heartbeatMissed s = execHeartbeatMissed s := rfl
@[simp] theorem exec_fwFault core cause s : exec (.fwFault core cause) s = execFwFault core cause s := rfl
@[simp] theorem exec_handUnit part s : exec (.handUnit part) s = execHandUnit part s := rfl
@[simp] theorem exec_resumeRecord core s : exec (.resumeRecord core) s = execResumeRecord core s := rfl
@[simp] theorem exec_shardWatch cluster idx s : exec (.shardWatch cluster idx) s = execShardWatch cluster idx s := rfl
@[simp] theorem exec_overflowRefill cluster s : exec (.overflowRefill cluster) s = execOverflowRefill cluster s := rfl
@[simp] theorem exec_takeTrap core s : exec (.takeTrap core) s = execTakeTrap core s := rfl
@[simp] theorem exec_deferredFault core fw s : exec (.deferredFault core fw) s = execDeferredFault core fw s := rfl
@[simp] theorem exec_tokenExpire core s : exec (.tokenExpire core) s = execTokenExpire core s := rfl
@[simp] theorem exec_watchdog core s : exec (.watchdog core) s = execWatchdog core s := rfl
@[simp] theorem exec_loadReturn core fw s : exec (.loadReturn core fw) s = execLoadReturn core fw s := rfl
@[simp] theorem exec_storePerform core fw s : exec (.storePerform core fw) s = execStorePerform core fw s := rfl
@[simp] theorem exec_bankRequest cluster bank s : exec (.bankRequest cluster bank) s = execBankRequest cluster bank s := rfl
@[simp] theorem exec_atomicEngineRequest cluster s : exec (.atomicEngineRequest cluster) s = execAtomicEngineRequest cluster s := rfl
@[simp] theorem exec_leaseLookup core fw s : exec (.leaseLookup core fw) s = execLeaseLookup core fw s := rfl
@[simp] theorem exec_translate core fw s : exec (.translate core fw) s = execTranslate core fw s := rfl
@[simp] theorem exec_counterWrite core fw s : exec (.counterWrite core fw) s = execCounterWrite core fw s := rfl
@[simp] theorem exec_nodeWriteback die level node s : exec (.nodeWriteback die level node) s = execNodeWriteback die level node s := rfl
@[simp] theorem exec_memSweep part s : exec (.memSweep part) s = execMemSweep part s := rfl
@[simp] theorem exec_keyDrained slot s : exec (.keyDrained slot) s = execKeyDrained slot s := rfl
@[simp] theorem exec_rampWindow core s : exec (.rampWindow core) s = execRampWindow core s := rfl
@[simp] theorem exec_inval die s : exec (.inval die) s = execInval die s := rfl
@[simp] theorem exec_invalAll die s : exec (.invalAll die) s = execInvalAll die s := rfl
@[simp] theorem exec_evict die s : exec (.evict die) s = execEvict die s := rfl
@[simp] theorem exec_evictComplete die s : exec (.evictComplete die) s = execEvictComplete die s := rfl
@[simp] theorem exec_migrate die s : exec (.migrate die) s = execMigrate die s := rfl
@[simp] theorem exec_migrateMove die s : exec (.migrateMove die) s = execMigrateMove die s := rfl
@[simp] theorem exec_present die s : exec (.present die) s = execPresent die s := rfl
@[simp] theorem exec_refuse die s : exec (.refuse die) s = execRefuse die s := rfl
@[simp] theorem exec_wnop units s : exec (.wnop units) s = execWnop units s := rfl
@[simp] theorem exec_wbuf fixed depth buf size base s : exec (.wbuf fixed depth buf size base) s = execWbuf fixed depth buf size base s := rfl
@[simp] theorem exec_wfree buf s : exec (.wfree buf) s = execWfree buf s := rfl
@[simp] theorem exec_wtask r s : exec (.wtask r) s = execWtask r s := rfl
@[simp] theorem exec_wcall bufForm buf length target s : exec (.wcall bufForm buf length target) s = execWcall bufForm buf length target s := rfl
@[simp] theorem exec_wret s : exec .wret s = execWret s := rfl
@[simp] theorem exec_wpred cond buf skip offset value mask s : exec (.wpred cond buf skip offset value mask) s = execWpred cond buf skip offset value mask s := rfl
@[simp] theorem exec_wloop count endoff s : exec (.wloop count endoff) s = execWloop count endoff s := rfl
@[simp] theorem exec_wend s : exec .wend s = execWend s := rfl
@[simp] theorem exec_wfence s : exec .wfence s = execWfence s := rfl
@[simp] theorem exec_wfenceT buf offset s : exec (.wfenceT buf offset) s = execWfenceT buf offset s := rfl
@[simp] theorem exec_wwait cond buf limit offset value mask s : exec (.wwait cond buf limit offset value mask) s = execWwait cond buf limit offset value mask s := rfl
@[simp] theorem exec_wwaitReread part s : exec (.wwaitReread part) s = execWwaitReread part s := rfl
@[simp] theorem exec_wwaitLimit part s : exec (.wwaitLimit part) s = execWwaitLimit part s := rfl
@[simp] theorem exec_wsignalSt irq buf vector offset value s : exec (.wsignalSt irq buf vector offset value) s = execWsignalSt irq buf vector offset value s := rfl
@[simp] theorem exec_wsignalAdd irq buf vector offset value s : exec (.wsignalAdd irq buf vector offset value) s = execWsignalAdd irq buf vector offset value s := rfl
@[simp] theorem exec_wsignalEffect part s : exec (.wsignalEffect part) s = execWsignalEffect part s := rfl
@[simp] theorem exec_wgraph pre buf offset s : exec (.wgraph pre buf offset) s = execWgraph pre buf offset s := rfl
@[simp] theorem exec_wphase job id s : exec (.wphase job id) s = execWphase job id s := rfl
@[simp] theorem exec_wcancelLaunch tag s : exec (.wcancelLaunch tag) s = execWcancelLaunch tag s := rfl
@[simp] theorem exec_wcancelGraph id s : exec (.wcancelGraph id) s = execWcancelGraph id s := rfl
@[simp] theorem exec_wcancelPhase id s : exec (.wcancelPhase id) s = execWcancelPhase id s := rfl
@[simp] theorem exec_wcancelJob id s : exec (.wcancelJob id) s = execWcancelJob id s := rfl
@[simp] theorem exec_whalt code s : exec (.whalt code) s = execWhalt code s := rfl
@[simp] theorem exec_haltEffect part s : exec (.haltEffect part) s = execHaltEffect part s := rfl
@[simp] theorem exec_streamFault part s : exec (.streamFault part) s = execStreamFault part s := rfl
@[simp] theorem exec_fetchBlock part s : exec (.fetchBlock part) s = execFetchBlock part s := rfl
@[simp] theorem exec_leaseGrant part s : exec (.leaseGrant part) s = execLeaseGrant part s := rfl
@[simp] theorem exec_issueLaunch part s : exec (.issueLaunch part) s = execIssueLaunch part s := rfl
@[simp] theorem exec_retire part s : exec (.retire part) s = execRetire part s := rfl
@[simp] theorem exec_faultReport part s : exec (.faultReport part) s = execFaultReport part s := rfl
@[simp] theorem exec_cancel part s : exec (.cancel part) s = execCancel part s := rfl
@[simp] theorem exec_pick part s : exec (.pick part) s = execPick part s := rfl
@[simp] theorem exec_pickTimeout part s : exec (.pickTimeout part) s = execPickTimeout part s := rfl
@[simp] theorem exec_sliceExpire part s : exec (.sliceExpire part) s = execSliceExpire part s := rfl
@[simp] theorem exec_entryComplete part s : exec (.entryComplete part) s = execEntryComplete part s := rfl
@[simp] theorem exec_enable part s : exec (.enable part) s = execEnable part s := rfl
@[simp] theorem exec_restart part s : exec (.restart part) s = execRestart part s := rfl
@[simp] theorem exec_skip part s : exec (.skip part) s = execSkip part s := rfl
@[simp] theorem exec_drop part s : exec (.drop part) s = execDrop part s := rfl
@[simp] theorem exec_stop part s : exec (.stop part) s = execStop part s := rfl
@[simp] theorem exec_clrerr part s : exec (.clrerr part) s = execClrerr part s := rfl
@[simp] theorem exec_qtailWrite part queue tail s : exec (.qtailWrite part queue tail) s = execQtailWrite part queue tail s := rfl
@[simp] theorem exec_jobcan part value s : exec (.jobcan part value) s = execJobcan part value s := rfl
@[simp] theorem exec_regWrite vf offset wide value s : exec (.regWrite vf offset wide value) s = execRegWrite vf offset wide value s := rfl
@[simp] theorem exec_vfFlr part s : exec (.vfFlr part) s = execVfFlr part s := rfl
@[simp] theorem exec_bar2Read part offset size s : exec (.bar2Read part offset size) s = execBar2Read part offset size s := rfl
@[simp] theorem exec_bar2Write part offset size value s : exec (.bar2Write part offset size value) s = execBar2Write part offset size value s := rfl
@[simp] theorem exec_pickq part s : exec (.pickq part) s = execPickq part s := rfl
@[simp] theorem exec_abandon part s : exec (.abandon part) s = execAbandon part s := rfl
@[simp] theorem exec_save part s : exec (.save part) s = execSave part s := rfl
@[simp] theorem exec_saveWrite core s : exec (.saveWrite core) s = execSaveWrite core s := rfl
@[simp] theorem exec_restore part s : exec (.restore part) s = execRestore part s := rfl
@[simp] theorem exec_topiaryLit k s : exec (.topiaryLit k) s = execTopiaryLit k s := rfl
@[simp] theorem exec_topiaryDup s : exec .topiaryDup s = execTopiaryDup s := rfl
@[simp] theorem exec_topiaryDrop s : exec .topiaryDrop s = execTopiaryDrop s := rfl
@[simp] theorem exec_topiarySwap s : exec .topiarySwap s = execTopiarySwap s := rfl
@[simp] theorem exec_topiaryLdq f s : exec (.topiaryLdq f) s = execTopiaryLdq f s := rfl
@[simp] theorem exec_topiaryLdl n s : exec (.topiaryLdl n) s = execTopiaryLdl n s := rfl
@[simp] theorem exec_topiaryStl n s : exec (.topiaryStl n) s = execTopiaryStl n s := rfl
@[simp] theorem exec_topiaryAdd s : exec .topiaryAdd s = execTopiaryAdd s := rfl
@[simp] theorem exec_topiarySub s : exec .topiarySub s = execTopiarySub s := rfl
@[simp] theorem exec_topiaryMul s : exec .topiaryMul s = execTopiaryMul s := rfl
@[simp] theorem exec_topiaryMin s : exec .topiaryMin s = execTopiaryMin s := rfl
@[simp] theorem exec_topiaryMax s : exec .topiaryMax s = execTopiaryMax s := rfl
@[simp] theorem exec_topiaryAnd s : exec .topiaryAnd s = execTopiaryAnd s := rfl
@[simp] theorem exec_topiaryOr s : exec .topiaryOr s = execTopiaryOr s := rfl
@[simp] theorem exec_topiaryLt s : exec .topiaryLt s = execTopiaryLt s := rfl
@[simp] theorem exec_topiaryEq s : exec .topiaryEq s = execTopiaryEq s := rfl
@[simp] theorem exec_topiaryJz d s : exec (.topiaryJz d) s = execTopiaryJz d s := rfl
@[simp] theorem exec_topiaryJmp d s : exec (.topiaryJmp d) s = execTopiaryJmp d s := rfl
@[simp] theorem exec_topiaryForq n s : exec (.topiaryForq n) s = execTopiaryForq n s := rfl
@[simp] theorem exec_topiaryNextq s : exec .topiaryNextq s = execTopiaryNextq s := rfl
@[simp] theorem exec_topiaryPick s : exec .topiaryPick s = execTopiaryPick s := rfl
@[simp] theorem exec_topiarySlice s : exec .topiarySlice s = execTopiarySlice s := rfl
@[simp] theorem exec_topiaryRet s : exec .topiaryRet s = execTopiaryRet s := rfl
@[simp] theorem exec_rd m s : exec (.rd m) s = execRd m s := rfl
@[simp] theorem exec_rdrsp m s : exec (.rdrsp m) s = execRdrsp m s := rfl
@[simp] theorem exec_wr m s : exec (.wr m) s = execWr m s := rfl
@[simp] theorem exec_wrack m s : exec (.wrack m) s = execWrack m s := rfl
@[simp] theorem exec_qstMessage m s : exec (.qstMessage m) s = execQstMessage m s := rfl
@[simp] theorem exec_land m s : exec (.land m) s = execLand m s := rfl
@[simp] theorem exec_rel m s : exec (.rel m) s = execRel m s := rfl
@[simp] theorem exec_amoMessage m s : exec (.amoMessage m) s = execAmoMessage m s := rfl
@[simp] theorem exec_amorsp m s : exec (.amorsp m) s = execAmorsp m s := rfl
@[simp] theorem exec_vamoMessage m s : exec (.vamoMessage m) s = execVamoMessage m s := rfl
@[simp] theorem exec_red m s : exec (.red m) s = execRed m s := rfl
@[simp] theorem exec_tile m s : exec (.tile m) s = execTile m s := rfl
@[simp] theorem exec_tilersp m s : exec (.tilersp m) s = execTilersp m s := rfl
@[simp] theorem exec_holdfull m s : exec (.holdfull m) s = execHoldfull m s := rfl
@[simp] theorem exec_err m s : exec (.err m) s = execErr m s := rfl
@[simp] theorem exec_holdExpire entry s : exec (.holdExpire entry) s = execHoldExpire entry s := rfl
@[simp] theorem exec_escapeRoute idx s : exec (.escapeRoute idx) s = execEscapeRoute idx s := rfl
@[simp] theorem exec_flitReceive link flit s : exec (.flitReceive link flit) s = execFlitReceive link flit s := rfl
@[simp] theorem exec_poolStopGo link pool s : exec (.poolStopGo link pool) s = execPoolStopGo link pool s := rfl
@[simp] theorem exec_linkTrain link k s : exec (.linkTrain link k) s = execLinkTrain link k s := rfl
@[simp] theorem exec_hfcfgWrite reg value s : exec (.hfcfgWrite reg value) s = execHfcfgWrite reg value s := rfl
@[simp] theorem exec_getTdispVersion part s : exec (.getTdispVersion part) s = execGetTdispVersion part s := rfl
@[simp] theorem exec_getTdispCapabilities part s : exec (.getTdispCapabilities part) s = execGetTdispCapabilities part s := rfl
@[simp] theorem exec_lockInterfaceRequest part s : exec (.lockInterfaceRequest part) s = execLockInterfaceRequest part s := rfl
@[simp] theorem exec_getDeviceInterfaceReport part s : exec (.getDeviceInterfaceReport part) s = execGetDeviceInterfaceReport part s := rfl
@[simp] theorem exec_getDeviceInterfaceState part s : exec (.getDeviceInterfaceState part) s = execGetDeviceInterfaceState part s := rfl
@[simp] theorem exec_startInterfaceRequest part s : exec (.startInterfaceRequest part) s = execStartInterfaceRequest part s := rfl
@[simp] theorem exec_stopInterfaceRequest part s : exec (.stopInterfaceRequest part) s = execStopInterfaceRequest part s := rfl
@[simp] theorem exec_setSealSecret part secret s : exec (.setSealSecret part secret) s = execSetSealSecret part secret s := rfl
@[simp] theorem exec_tdiError part s : exec (.tdiError part) s = execTdiError part s := rfl
@[simp] theorem exec_getVersion s : exec .getVersion s = execGetVersion s := rfl
@[simp] theorem exec_getCapabilities s : exec .getCapabilities s = execGetCapabilities s := rfl
@[simp] theorem exec_negotiateAlgorithms s : exec .negotiateAlgorithms s = execNegotiateAlgorithms s := rfl
@[simp] theorem exec_getDigests s : exec .getDigests s = execGetDigests s := rfl
@[simp] theorem exec_getCertificate offset length s : exec (.getCertificate offset length) s = execGetCertificate offset length s := rfl
@[simp] theorem exec_challenge nonce s : exec (.challenge nonce) s = execChallenge nonce s := rfl
@[simp] theorem exec_getMeasurements index nonce s : exec (.getMeasurements index nonce) s = execGetMeasurements index nonce s := rfl
@[simp] theorem exec_keyExchange peer share s : exec (.keyExchange peer share) s = execKeyExchange peer share s := rfl
@[simp] theorem exec_finish session s : exec (.finish session) s = execFinish session s := rfl
@[simp] theorem exec_endSession session s : exec (.endSession session) s = execEndSession session s := rfl
@[simp] theorem exec_uncorrectableError die addr site s : exec (.uncorrectableError die addr site) s = execUncorrectableError die addr site s := rfl
@[simp] theorem exec_correctableError cls s : exec (.correctableError cls) s = execCorrectableError cls s := rfl
@[simp] theorem exec_admtailWrite tail s : exec (.admtailWrite tail) s = execAdmtailWrite tail s := rfl
@[simp] theorem exec_create s : exec .create s = execCreate s := rfl
@[simp] theorem exec_destroy s : exec .destroy s = execDestroy s := rfl
@[simp] theorem exec_wipe s : exec .wipe s = execWipe s := rfl
@[simp] theorem exec_meter s : exec .meter s = execMeter s := rfl
@[simp] theorem exec_intervalCut part s : exec (.intervalCut part) s = execIntervalCut part s := rfl
@[simp] theorem exec_pwrcmdWrite value s : exec (.pwrcmdWrite value) s = execPwrcmdWrite value s := rfl
@[simp] theorem exec_thermclr value s : exec (.thermclr value) s = execThermclr value s := rfl
@[simp] theorem exec_thermalTrip1 temp s : exec (.thermalTrip1 temp) s = execThermalTrip1 temp s := rfl
@[simp] theorem exec_thermalTrip2 temp s : exec (.thermalTrip2 temp) s = execThermalTrip2 temp s := rfl
@[simp] theorem exec_updreqWrite value s : exec (.updreqWrite value) s = execUpdreqWrite value s := rfl
@[simp] theorem exec_pfidRead s : exec .pfidRead s = execPfidRead s := rfl
@[simp] theorem exec_pfBar2Write offset size value s : exec (.pfBar2Write offset size value) s = execPfBar2Write offset size value s := rfl
@[simp] theorem exec_reset s : exec .reset s = execReset s := rfl
@[simp] theorem exec_linkDown link s : exec (.linkDown link) s = execLinkDown link s := rfl
@[simp] theorem exec_quantBlockWritten core fw s : exec (.quantBlockWritten core fw) s = execQuantBlockWritten core fw s := rfl
@[simp] theorem exec_regintBoundary s : exec .regintBoundary s = execRegintBoundary s := rfl

end Sys2Proof.Machine
end

