-- ==== Sys2Proof/Laws/Lanes.lean ====
section
/-! SUPPORT. What stands in each lane of a vector, and in each bit of a mask, that is built lane by lane (R97, R98, R124). -/

namespace Sys2Proof.Machine

/-- One bit of a number built from digits. -/
theorem testBit_lanesNat (w : Nat) (f : Nat → BitVec w) (n k : Nat) :
    (lanesNat w f n).testBit k = (decide (k < w * n) && (f (k / w)).getLsbD (k % w)) := by
  induction n with
  | zero => simp [lanesNat]
  | succ n ih =>
    simp only [lanesNat, Nat.testBit_or, ih, Nat.testBit_shiftLeft, Nat.mul_succ]
    by_cases h1 : k < w * n
    · have h2 : ¬ w * n ≤ k := by omega
      have h3 : k < w * n + w := by omega
      simp [h1, h2, h3]
    · have h2 : w * n ≤ k := by omega
      by_cases h3 : k < w * n + w
      · obtain ⟨r, rfl⟩ : ∃ r, k = w * n + r := ⟨k - w * n, by omega⟩
        have hr : r < w := by omega
        have hw : 0 < w := by omega
        simp [h1, h3, Nat.mul_add_div hw, Nat.div_eq_of_lt hr, Nat.mod_eq_of_lt hr,
          BitVec.testBit_toNat]
      · have h4 : w ≤ k - w * n := by omega
        simp [h1, h2, h3, BitVec.testBit_toNat, BitVec.getLsbD_of_ge _ _ h4]

/-- Lane i of a vector built from its lanes. -/
theorem lane_ofLanes (w n : Nat) (f : Nat → BitVec w) (i : Nat) (hi : i < n) (hn : w * n ≤ 2048) :
    lane w (ofLanes w n f) i = f i := by
  apply BitVec.eq_of_getLsbD_eq
  intro j hj
  have h1 : w * i + j < w * n := by
    have : w * i + w ≤ w * n := by rw [← Nat.mul_succ]; exact Nat.mul_le_mul_left _ hi
    omega
  have hw : 0 < w := by omega
  have h2 : w * i + j < 2048 := by omega
  have h3 : (lane w (ofLanes w n f) i).getLsbD j = (lanesNat w f n).testBit (w * i + j) := by
    simp [lane, ofLanes, BitVec.getLsbD_extractLsb', BitVec.getLsbD_ofNat, hj, h2, -BitVec.getLsbD_eq_getElem]
  rw [h3, testBit_lanesNat]
  simp [h1, Nat.mul_add_div hw, Nat.div_eq_of_lt hj, Nat.mod_eq_of_lt hj]

/-- R98: a lane of a masked result. -/
theorem lane_mapLanes {bytes : Nat} (m : Mask) (old : Vec) (f : Nat → BitVec (8 * bytes)) (i : Nat) (hi : i < 256 / bytes) :
    lane (8 * bytes) (mapLanes bytes m old f) i = if maskBit m bytes i then f i else lane (8 * bytes) old i := by
  unfold mapLanes
  rw [lane_ofLanes _ _ _ _ hi]
  have := Nat.mul_div_le 256 bytes
  rw [Nat.mul_assoc]
  omega

/-- R98: an element of a masked result. -/
theorem elem_mapElems (t : ElemTy) (m : Mask) (old : Vec) (f : Nat → BitVec t.bits) (i : Nat) (hi : i < t.lanes) :
    elem t (mapElems t m old f) i = if maskBit m t.bytes i then f i else elem t old i := by
  have h : i < 256 / t.bytes := by cases t <;> simpa [ElemTy.lanes, ElemTy.bytes] using hi
  exact lane_mapLanes m old f i h

/-- One bit of a mask built from its bits. -/
theorem getLsbD_ofBits (f : Nat → Bool) (j : Nat) (hj : j < 256) : (ofBits f).getLsbD j = f j := by
  have h : (ofBits f).getLsbD j = (lanesNat 1 (fun j => BitVec.ofBool (f j)) 256).testBit j := by
    simp [ofBits, BitVec.getLsbD_ofNat, hj, -BitVec.getLsbD_eq_getElem]
  rw [h, testBit_lanesNat]
  simp [hj, Nat.mod_one]

end Sys2Proof.Machine
end

