-- ==== Sys2Proof/Laws/Memory.lean ====
section
/-! SUPPORT. The laws of the byte store: what a read after a write gives, and that every operation over memory keeps the
canonical form. -/

namespace Sys2Proof.Machine

/-! ### The canonical form, in terms of the library's lists -/

/-- The canonical form says that addresses rise strictly and that no cell reads as an unlisted one. -/
theorem wf_iff (m : List Host.Cell) :
    Memory.wf m = true ↔ m.Pairwise (fun c d => c.1 < d.1) ∧ ∀ c ∈ m, c.2 ≠ unlisted := by
  induction m with
  | nil => simp [Memory.wf]
  | cons c m ih =>
    cases m with
    | nil => simp [Memory.wf]
    | cons d m =>
      have step : Memory.wf (c :: d :: m) = true ↔ c.2 ≠ unlisted ∧ c.1 < d.1 ∧ Memory.wf (d :: m) = true := by
        conv => lhs; unfold Memory.wf
        simp [and_assoc]
      rw [step, ih]
      constructor
      · rintro ⟨hb, hlt, hp, hz⟩
        refine ⟨List.pairwise_cons.2 ⟨fun e he => ?_, hp⟩, fun e he => ?_⟩
        · rcases List.mem_cons.1 he with rfl | he
          · exact hlt
          · exact hlt.trans ((List.pairwise_cons.1 hp).1 e he)
        · rcases List.mem_cons.1 he with rfl | he
          · exact hb
          · exact hz e he
      · rintro ⟨hp, hz⟩
        exact ⟨hz c (by simp), (List.pairwise_cons.1 hp).1 d (by simp), (List.pairwise_cons.1 hp).2,
          fun e he => hz e (List.mem_cons_of_mem _ he)⟩

/-- A part of a canonical list is canonical. -/
theorem wf_filter (m : List Host.Cell) (f : Host.Cell → Bool) (h : Memory.wf m = true) : Memory.wf (m.filter f) = true := by
  rw [wf_iff] at h ⊢
  exact ⟨h.1.filter _, fun c hc => h.2 c (List.mem_of_mem_filter hc)⟩

/-- Where the cells of a written list come from. -/
theorem mem_writeByte {m : List Host.Cell} {x : Nat} {v : Byte} {c : Host.Cell} (h : c ∈ writeByte m x v) :
    c ∈ m ∨ c = (x, v) ∧ v ≠ unlisted := by
  induction m with
  | nil =>
    unfold writeByte at h
    split at h <;> simp_all
  | cons d m ih =>
    unfold writeByte at h
    split at h
    · split at h <;> simp_all
      tauto
    · split at h
      · split at h <;> simp_all
        tauto
      · rcases List.mem_cons.1 h with rfl | h
        · simp
        · rcases ih h with h | h
          · simp [h]
          · exact .inr h

/-- Writing a byte keeps the canonical form. -/
theorem wf_writeByte (m : List Host.Cell) (x : Nat) (v : Byte) (h : Memory.wf m = true) :
    Memory.wf (writeByte m x v) = true := by
  induction m with
  | nil => unfold writeByte; split <;> simp_all [Memory.wf]
  | cons d m ih =>
    obtain ⟨a, b⟩ := d
    have hm := h
    rw [wf_iff] at hm
    obtain ⟨hp, hz⟩ := hm
    have ⟨hlt, hp'⟩ := List.pairwise_cons.1 hp
    have hz' : ∀ c ∈ m, c.2 ≠ unlisted := fun c hc => hz c (List.mem_cons_of_mem _ hc)
    have hwf : Memory.wf m = true := (wf_iff m).2 ⟨hp', hz'⟩
    unfold writeByte
    split
    · rename_i hx
      split
      · exact h
      · rename_i hv
        rw [wf_iff]
        refine ⟨List.pairwise_cons.2 ⟨fun e he => ?_, hp⟩, fun e he => ?_⟩
        · rcases List.mem_cons.1 he with rfl | he
          · exact hx
          · exact hx.trans (hlt e he)
        · rcases List.mem_cons.1 he with rfl | he
          · exact hv
          · exact hz e he
    · split
      · split
        · exact hwf
        · rename_i hv
          rw [wf_iff]
          exact ⟨List.pairwise_cons.2 ⟨hlt, hp'⟩, fun e he => by
            rcases List.mem_cons.1 he with rfl | he
            · exact hv
            · exact hz' e he⟩
      · rename_i hx hne
        rw [wf_iff]
        have hw := (wf_iff _).1 (ih hwf)
        refine ⟨List.pairwise_cons.2 ⟨fun e he => ?_, hw.1⟩, fun e he => ?_⟩
        · rcases mem_writeByte he with he | ⟨rfl, -⟩
          · exact hlt e he
          · simp only; omega
        · rcases List.mem_cons.1 he with rfl | he
          · exact hz _ (by simp)
          · exact hw.2 e he

/-- Writing bytes keeps the canonical form. -/
theorem wf_writeMem (m : List Host.Cell) (a : Nat) (bs : List Byte) (h : Memory.wf m = true) :
    Memory.wf (writeMem m a bs) = true := by
  induction bs generalizing m a with
  | nil => exact h
  | cons b bs ih => exact ih _ _ (wf_writeByte m a b h)

/-- Clearing a range keeps the canonical form. -/
theorem wf_clearMem (m : List Host.Cell) (a n : Nat) (h : Memory.wf m = true) : Memory.wf (clearMem m a n) = true :=
  wf_filter m _ h

/-- Copying a range keeps the canonical form. -/
theorem wf_copyCells (m : List Host.Cell) (a b n : Nat) (h : Memory.wf m = true) : Memory.wf (copyCells m a b n) = true := by
  unfold copyCells
  have gen : ∀ (l t : List Host.Cell), Memory.wf t = true →
      Memory.wf (l.foldl (fun t c => writeByte t (c.1 - a + b) c.2) t) = true := by
    intro l
    induction l with
    | nil => exact fun t h => h
    | cons c l ih => exact fun t h => ih _ (wf_writeByte t _ _ h)
  exact gen _ _ (wf_clearMem m b n h)

/-! ### Reads after writes -/

/-- An address below every cell reads as unlisted. -/
theorem readByte_below {m : List Host.Cell} {x : Nat} (h : ∀ c ∈ m, x < c.1) : readByte m x = unlisted := by
  induction m with
  | nil => rfl
  | cons c m ih =>
    have := h c (by simp)
    simp only [readByte]
    rw [if_neg (by omega)]
    exact ih fun d hd => h d (List.mem_cons_of_mem _ hd)

/-- A byte that was written reads as written, and the others as before. -/
theorem readByte_writeByte (m : List Host.Cell) (x y : Nat) (v : Byte) (h : Memory.wf m = true) :
    readByte (writeByte m x v) y = if y = x then v else readByte m y := by
  induction m with
  | nil =>
    unfold writeByte
    by_cases hv : v = unlisted <;> by_cases hy : y = x <;> simp [hv, hy, readByte, eq_comm]
    intro e; exact absurd e.symm hy
  | cons d m ih =>
    obtain ⟨a, b⟩ := d
    have hm := (wf_iff _).1 h
    have ⟨hlt, hp'⟩ := List.pairwise_cons.1 hm.1
    have hwf : Memory.wf m = true := (wf_iff m).2 ⟨hp', fun c hc => hm.2 c (List.mem_cons_of_mem _ hc)⟩
    unfold writeByte
    by_cases hx : x < a
    · rw [if_pos hx]
      by_cases hy : y = x
      · subst hy
        by_cases hv : v = unlisted
        · rw [if_pos hv, if_pos rfl, hv]
          refine readByte_below fun c hc => ?_
          rcases List.mem_cons.1 hc with rfl | hc
          · exact hx
          · exact hx.trans (hlt c hc)
        · rw [if_neg hv, if_pos rfl]; simp [readByte]
      · rw [if_neg hy]
        by_cases hv : v = unlisted
        · rw [if_pos hv]
        · rw [if_neg hv]
          simp only [readByte]
          rw [if_neg (fun e => hy e.symm)]
    · rw [if_neg hx]
      by_cases hxa : x = a
      · rw [if_pos hxa]
        subst hxa
        by_cases hy : y = x
        · subst hy
          rw [if_pos rfl]
          by_cases hv : v = unlisted
          · rw [if_pos hv, hv]; exact readByte_below hlt
          · rw [if_neg hv]; simp [readByte]
        · rw [if_neg hy]
          have hxy : ¬ x = y := fun e => hy e.symm
          by_cases hv : v = unlisted
          · rw [if_pos hv]; simp [readByte, hxy]
          · rw [if_neg hv]; simp [readByte, hxy]
      · rw [if_neg hxa]
        by_cases ha : a = y
        · subst ha
          simp only [readByte, if_pos]
          rw [if_neg (fun e : a = x => hxa e.symm)]
        · simp only [readByte, if_neg ha]
          exact ih hwf

/-- An address outside the bytes written reads as before. -/
theorem readByte_writeMem_other (m : List Host.Cell) (a y : Nat) (bs : List Byte) (h : Memory.wf m = true)
    (hy : y < a ∨ a + bs.length ≤ y) : readByte (writeMem m a bs) y = readByte m y := by
  induction bs generalizing m a with
  | nil => rfl
  | cons b bs ih =>
    simp only [List.length_cons] at hy
    simp only [writeMem]
    rw [ih _ _ (wf_writeByte m a b h) (by omega), readByte_writeByte m a y b h, if_neg (by omega)]

/-- An address among the bytes written reads as written. -/
theorem readByte_writeMem (m : List Host.Cell) (a i : Nat) (bs : List Byte) (h : Memory.wf m = true) (hi : i < bs.length) :
    readByte (writeMem m a bs) (a + i) = bs[i] := by
  induction bs generalizing m a i with
  | nil => simp at hi
  | cons b bs ih =>
    simp only [writeMem]
    cases i with
    | zero =>
      rw [readByte_writeMem_other _ _ _ _ (wf_writeByte m a b h) (by omega), readByte_writeByte m a _ b h]
      simp
    | succ i =>
      have := ih (writeByte m a b) (a + 1) i (wf_writeByte m a b h) (by simpa using hi)
      rw [show a + (i + 1) = a + 1 + i by omega, this]
      simp

/-- The bytes written are the bytes read back. -/
theorem readMem_writeMem (m : List Host.Cell) (a : Nat) (bs : List Byte) (h : Memory.wf m = true) :
    readMem (writeMem m a bs) a bs.length = bs := by
  apply List.ext_getElem
  · simp [readMem]
  · intro i h1 h2
    simp [readMem, readByte_writeMem m a i bs h h2]

/-! ### The operations of the state -/

/-- A store keeps the canonical form. -/
theorem store_memWf {s : State} (a : Nat) (bs : List Byte) (h : s.memWf) : (s.store a bs).memWf := wf_writeMem _ _ _ h

/-- A store of a number keeps the canonical form. -/
theorem storeNat_memWf {s : State} (a n x : Nat) (h : s.memWf) : (s.storeNat a n x).memWf := wf_writeMem _ _ _ h

/-- A capability write keeps the canonical form. -/
theorem storeCap_memWf {s : State} (a : Nat) (bs : List Byte) (h : s.memWf) : (s.storeCap a bs).memWf := wf_writeMem _ _ _ h

/-- Clearing keeps the canonical form. -/
theorem zero_memWf {s : State} (a n : Nat) (h : s.memWf) : (s.zero a n).memWf := wf_clearMem _ _ _ h

/-- The move of a page keeps the canonical form. -/
theorem copyPage_memWf {s : State} (d : Fin 4) (a b n : Nat) (h : s.memWf) : (copyPage s d a b n).memWf :=
  wf_copyCells _ _ _ _ h

/-- What was stored is what is loaded. -/
theorem load_store {s : State} (a : Nat) (bs : List Byte) (h : s.memWf) : (s.store a bs).load a bs.length = bs :=
  readMem_writeMem _ _ _ h

/-- A store leaves every other byte alone. -/
theorem readByte_store_other {s : State} (a y : Nat) (bs : List Byte) (h : s.memWf) (hy : y < a ∨ a + bs.length ≤ y) :
    readByte (s.store a bs).mem y = readByte s.mem y := readByte_writeMem_other _ _ _ _ h hy

/-- The memory of the machine after reset is in canonical form. -/
theorem reset_memWf : State.reset.memWf := by unfold State.memWf; decide +kernel

end Sys2Proof.Machine
end

