-- ==== Sys2Proof/Laws/State.lean ====
section
/-! SUPPORT. What each update of the state leaves alone, one lemma per field and update, and the laws of the registers. -/

namespace Sys2Proof.Machine

/-! ### One entry of a vector -/

/-- The entry that was set. -/
@[simp] theorem vput_same {α : Type} {n : Nat} (v : Vector α n) (i : Fin n) (x : α) : (vput v i x)[i.val] = x := by
  simp [vput]

/-- Any entry. -/
theorem vput_get {α : Type} {n : Nat} (v : Vector α n) (i j : Fin n) (x : α) :
    (vput v i x)[j] = if i = j then x else v[j] := by
  by_cases h : i = j
  · subst h; simp
  · have : i.val ≠ j.val := fun e => h (Fin.ext e)
    simp [vput, this, h]

/-- The other entries. -/
theorem vput_other {α : Type} {n : Nat} (v : Vector α n) (i j : Fin n) (x : α) (h : i ≠ j) : (vput v i x)[j] = v[j] := by
  rw [vput_get, if_neg h]

/-- Setting an entry to what it is changes nothing. -/
@[simp] theorem vput_self {α : Type} {n : Nat} (v : Vector α n) (i : Fin n) : vput v i v[i.val] = v := by
  simp [vput]

/-- Of two values set, the later stands. -/
@[simp] theorem vput_vput {α : Type} {n : Nat} (v : Vector α n) (i : Fin n) (x y : α) : vput (vput v i x) i y = vput v i y := by
  simp [vput]

/-! ### putCore -/

@[simp] theorem State.putCore_clusters (s : State) (i : Fin 512) (c : Core) : (s.putCore i c).clusters = s.clusters := rfl
@[simp] theorem State.putCore_dies (s : State) (i : Fin 512) (c : Core) : (s.putCore i c).dies = s.dies := rfl
@[simp] theorem State.putCore_parts (s : State) (i : Fin 512) (c : Core) : (s.putCore i c).parts = s.parts := rfl
@[simp] theorem State.putCore_aux (s : State) (i : Fin 512) (c : Core) : (s.putCore i c).aux = s.aux := rfl
@[simp] theorem State.putCore_hub (s : State) (i : Fin 512) (c : Core) : (s.putCore i c).hub = s.hub := rfl
@[simp] theorem State.putCore_fabric (s : State) (i : Fin 512) (c : Core) : (s.putCore i c).fabric = s.fabric := rfl
@[simp] theorem State.putCore_pf (s : State) (i : Fin 512) (c : Core) : (s.putCore i c).pf = s.pf := rfl
@[simp] theorem State.putCore_mem (s : State) (i : Fin 512) (c : Core) : (s.putCore i c).mem = s.mem := rfl
@[simp] theorem State.putCore_caps (s : State) (i : Fin 512) (c : Core) : (s.putCore i c).caps = s.caps := rfl
@[simp] theorem State.putCore_core (s : State) (i : Fin 512) (c : Core) : (s.putCore i c).core = s.core := rfl
@[simp] theorem State.putCore_fw (s : State) (i : Fin 512) (c : Core) : (s.putCore i c).fw = s.fw := rfl
@[simp] theorem State.putCore_part (s : State) (i : Fin 512) (c : Core) : (s.putCore i c).part = s.part := rfl
@[simp] theorem State.putCore_turn (s : State) (i : Fin 512) (c : Core) : (s.putCore i c).turn = s.turn := rfl
@[simp] theorem State.putCore_inbox (s : State) (i : Fin 512) (c : Core) : (s.putCore i c).inbox = s.inbox := rfl
@[simp] theorem State.putCore_snap (s : State) (i : Fin 512) (c : Core) : (s.putCore i c).snap = s.snap := rfl
@[simp] theorem State.putCore_mark (s : State) (i : Fin 512) (c : Core) : (s.putCore i c).mark = s.mark := rfl
@[simp] theorem State.putCore_since (s : State) (i : Fin 512) (c : Core) : (s.putCore i c).since = s.since := rfl
@[simp] theorem State.putCore_redirect (s : State) (i : Fin 512) (c : Core) : (s.putCore i c).redirect = s.redirect := rfl
@[simp] theorem State.putCore_word (s : State) (i : Fin 512) (c : Core) : (s.putCore i c).word = s.word := rfl
@[simp] theorem State.putCore_last (s : State) (i : Fin 512) (c : Core) : (s.putCore i c).last = s.last := rfl
@[simp] theorem State.putCore_iword (s : State) (i : Fin 512) (c : Core) : (s.putCore i c).iword = s.iword := rfl
@[simp] theorem State.putCore_serial (s : State) (i : Fin 512) (c : Core) : (s.putCore i c).serial = s.serial := rfl
@[simp] theorem State.putCore_tick (s : State) (i : Fin 512) (c : Core) : (s.putCore i c).tick = s.tick := rfl
@[simp] theorem State.putCore_clk (s : State) (i : Fin 512) (c : Core) : (s.putCore i c).clk = s.clk := rfl
@[simp] theorem State.putCore_free (s : State) (i : Fin 512) (c : Core) : (s.putCore i c).free = s.free := rfl

/-! ### putPart -/

@[simp] theorem State.putPart_cores (s : State) (i : Fin 16) (p : Part) : (s.putPart i p).cores = s.cores := rfl
@[simp] theorem State.putPart_clusters (s : State) (i : Fin 16) (p : Part) : (s.putPart i p).clusters = s.clusters := rfl
@[simp] theorem State.putPart_dies (s : State) (i : Fin 16) (p : Part) : (s.putPart i p).dies = s.dies := rfl
@[simp] theorem State.putPart_aux (s : State) (i : Fin 16) (p : Part) : (s.putPart i p).aux = s.aux := rfl
@[simp] theorem State.putPart_hub (s : State) (i : Fin 16) (p : Part) : (s.putPart i p).hub = s.hub := rfl
@[simp] theorem State.putPart_fabric (s : State) (i : Fin 16) (p : Part) : (s.putPart i p).fabric = s.fabric := rfl
@[simp] theorem State.putPart_pf (s : State) (i : Fin 16) (p : Part) : (s.putPart i p).pf = s.pf := rfl
@[simp] theorem State.putPart_mem (s : State) (i : Fin 16) (p : Part) : (s.putPart i p).mem = s.mem := rfl
@[simp] theorem State.putPart_caps (s : State) (i : Fin 16) (p : Part) : (s.putPart i p).caps = s.caps := rfl
@[simp] theorem State.putPart_core (s : State) (i : Fin 16) (p : Part) : (s.putPart i p).core = s.core := rfl
@[simp] theorem State.putPart_fw (s : State) (i : Fin 16) (p : Part) : (s.putPart i p).fw = s.fw := rfl
@[simp] theorem State.putPart_part (s : State) (i : Fin 16) (p : Part) : (s.putPart i p).part = s.part := rfl
@[simp] theorem State.putPart_turn (s : State) (i : Fin 16) (p : Part) : (s.putPart i p).turn = s.turn := rfl
@[simp] theorem State.putPart_inbox (s : State) (i : Fin 16) (p : Part) : (s.putPart i p).inbox = s.inbox := rfl
@[simp] theorem State.putPart_snap (s : State) (i : Fin 16) (p : Part) : (s.putPart i p).snap = s.snap := rfl
@[simp] theorem State.putPart_mark (s : State) (i : Fin 16) (p : Part) : (s.putPart i p).mark = s.mark := rfl
@[simp] theorem State.putPart_since (s : State) (i : Fin 16) (p : Part) : (s.putPart i p).since = s.since := rfl
@[simp] theorem State.putPart_redirect (s : State) (i : Fin 16) (p : Part) : (s.putPart i p).redirect = s.redirect := rfl
@[simp] theorem State.putPart_word (s : State) (i : Fin 16) (p : Part) : (s.putPart i p).word = s.word := rfl
@[simp] theorem State.putPart_last (s : State) (i : Fin 16) (p : Part) : (s.putPart i p).last = s.last := rfl
@[simp] theorem State.putPart_iword (s : State) (i : Fin 16) (p : Part) : (s.putPart i p).iword = s.iword := rfl
@[simp] theorem State.putPart_serial (s : State) (i : Fin 16) (p : Part) : (s.putPart i p).serial = s.serial := rfl
@[simp] theorem State.putPart_tick (s : State) (i : Fin 16) (p : Part) : (s.putPart i p).tick = s.tick := rfl
@[simp] theorem State.putPart_clk (s : State) (i : Fin 16) (p : Part) : (s.putPart i p).clk = s.clk := rfl
@[simp] theorem State.putPart_free (s : State) (i : Fin 16) (p : Part) : (s.putPart i p).free = s.free := rfl

/-! ### putAux -/

@[simp] theorem State.putAux_cores (s : State) (i : Fin 16) (p : PartAux) : (s.putAux i p).cores = s.cores := rfl
@[simp] theorem State.putAux_clusters (s : State) (i : Fin 16) (p : PartAux) : (s.putAux i p).clusters = s.clusters := rfl
@[simp] theorem State.putAux_dies (s : State) (i : Fin 16) (p : PartAux) : (s.putAux i p).dies = s.dies := rfl
@[simp] theorem State.putAux_parts (s : State) (i : Fin 16) (p : PartAux) : (s.putAux i p).parts = s.parts := rfl
@[simp] theorem State.putAux_hub (s : State) (i : Fin 16) (p : PartAux) : (s.putAux i p).hub = s.hub := rfl
@[simp] theorem State.putAux_fabric (s : State) (i : Fin 16) (p : PartAux) : (s.putAux i p).fabric = s.fabric := rfl
@[simp] theorem State.putAux_pf (s : State) (i : Fin 16) (p : PartAux) : (s.putAux i p).pf = s.pf := rfl
@[simp] theorem State.putAux_mem (s : State) (i : Fin 16) (p : PartAux) : (s.putAux i p).mem = s.mem := rfl
@[simp] theorem State.putAux_caps (s : State) (i : Fin 16) (p : PartAux) : (s.putAux i p).caps = s.caps := rfl
@[simp] theorem State.putAux_core (s : State) (i : Fin 16) (p : PartAux) : (s.putAux i p).core = s.core := rfl
@[simp] theorem State.putAux_fw (s : State) (i : Fin 16) (p : PartAux) : (s.putAux i p).fw = s.fw := rfl
@[simp] theorem State.putAux_part (s : State) (i : Fin 16) (p : PartAux) : (s.putAux i p).part = s.part := rfl
@[simp] theorem State.putAux_turn (s : State) (i : Fin 16) (p : PartAux) : (s.putAux i p).turn = s.turn := rfl
@[simp] theorem State.putAux_inbox (s : State) (i : Fin 16) (p : PartAux) : (s.putAux i p).inbox = s.inbox := rfl
@[simp] theorem State.putAux_snap (s : State) (i : Fin 16) (p : PartAux) : (s.putAux i p).snap = s.snap := rfl
@[simp] theorem State.putAux_mark (s : State) (i : Fin 16) (p : PartAux) : (s.putAux i p).mark = s.mark := rfl
@[simp] theorem State.putAux_since (s : State) (i : Fin 16) (p : PartAux) : (s.putAux i p).since = s.since := rfl
@[simp] theorem State.putAux_redirect (s : State) (i : Fin 16) (p : PartAux) : (s.putAux i p).redirect = s.redirect := rfl
@[simp] theorem State.putAux_word (s : State) (i : Fin 16) (p : PartAux) : (s.putAux i p).word = s.word := rfl
@[simp] theorem State.putAux_last (s : State) (i : Fin 16) (p : PartAux) : (s.putAux i p).last = s.last := rfl
@[simp] theorem State.putAux_iword (s : State) (i : Fin 16) (p : PartAux) : (s.putAux i p).iword = s.iword := rfl
@[simp] theorem State.putAux_serial (s : State) (i : Fin 16) (p : PartAux) : (s.putAux i p).serial = s.serial := rfl
@[simp] theorem State.putAux_tick (s : State) (i : Fin 16) (p : PartAux) : (s.putAux i p).tick = s.tick := rfl
@[simp] theorem State.putAux_clk (s : State) (i : Fin 16) (p : PartAux) : (s.putAux i p).clk = s.clk := rfl
@[simp] theorem State.putAux_free (s : State) (i : Fin 16) (p : PartAux) : (s.putAux i p).free = s.free := rfl

/-! ### putCluster -/

@[simp] theorem State.putCluster_cores (s : State) (i : Fin 64) (c : Cluster) : (s.putCluster i c).cores = s.cores := rfl
@[simp] theorem State.putCluster_dies (s : State) (i : Fin 64) (c : Cluster) : (s.putCluster i c).dies = s.dies := rfl
@[simp] theorem State.putCluster_parts (s : State) (i : Fin 64) (c : Cluster) : (s.putCluster i c).parts = s.parts := rfl
@[simp] theorem State.putCluster_aux (s : State) (i : Fin 64) (c : Cluster) : (s.putCluster i c).aux = s.aux := rfl
@[simp] theorem State.putCluster_hub (s : State) (i : Fin 64) (c : Cluster) : (s.putCluster i c).hub = s.hub := rfl
@[simp] theorem State.putCluster_fabric (s : State) (i : Fin 64) (c : Cluster) : (s.putCluster i c).fabric = s.fabric := rfl
@[simp] theorem State.putCluster_pf (s : State) (i : Fin 64) (c : Cluster) : (s.putCluster i c).pf = s.pf := rfl
@[simp] theorem State.putCluster_mem (s : State) (i : Fin 64) (c : Cluster) : (s.putCluster i c).mem = s.mem := rfl
@[simp] theorem State.putCluster_caps (s : State) (i : Fin 64) (c : Cluster) : (s.putCluster i c).caps = s.caps := rfl
@[simp] theorem State.putCluster_core (s : State) (i : Fin 64) (c : Cluster) : (s.putCluster i c).core = s.core := rfl
@[simp] theorem State.putCluster_fw (s : State) (i : Fin 64) (c : Cluster) : (s.putCluster i c).fw = s.fw := rfl
@[simp] theorem State.putCluster_part (s : State) (i : Fin 64) (c : Cluster) : (s.putCluster i c).part = s.part := rfl
@[simp] theorem State.putCluster_turn (s : State) (i : Fin 64) (c : Cluster) : (s.putCluster i c).turn = s.turn := rfl
@[simp] theorem State.putCluster_inbox (s : State) (i : Fin 64) (c : Cluster) : (s.putCluster i c).inbox = s.inbox := rfl
@[simp] theorem State.putCluster_snap (s : State) (i : Fin 64) (c : Cluster) : (s.putCluster i c).snap = s.snap := rfl
@[simp] theorem State.putCluster_mark (s : State) (i : Fin 64) (c : Cluster) : (s.putCluster i c).mark = s.mark := rfl
@[simp] theorem State.putCluster_since (s : State) (i : Fin 64) (c : Cluster) : (s.putCluster i c).since = s.since := rfl
@[simp] theorem State.putCluster_redirect (s : State) (i : Fin 64) (c : Cluster) : (s.putCluster i c).redirect = s.redirect := rfl
@[simp] theorem State.putCluster_word (s : State) (i : Fin 64) (c : Cluster) : (s.putCluster i c).word = s.word := rfl
@[simp] theorem State.putCluster_last (s : State) (i : Fin 64) (c : Cluster) : (s.putCluster i c).last = s.last := rfl
@[simp] theorem State.putCluster_iword (s : State) (i : Fin 64) (c : Cluster) : (s.putCluster i c).iword = s.iword := rfl
@[simp] theorem State.putCluster_serial (s : State) (i : Fin 64) (c : Cluster) : (s.putCluster i c).serial = s.serial := rfl
@[simp] theorem State.putCluster_tick (s : State) (i : Fin 64) (c : Cluster) : (s.putCluster i c).tick = s.tick := rfl
@[simp] theorem State.putCluster_clk (s : State) (i : Fin 64) (c : Cluster) : (s.putCluster i c).clk = s.clk := rfl
@[simp] theorem State.putCluster_free (s : State) (i : Fin 64) (c : Cluster) : (s.putCluster i c).free = s.free := rfl

/-! ### putDie -/

@[simp] theorem State.putDie_cores (s : State) (i : Fin 4) (d : Die) : (s.putDie i d).cores = s.cores := rfl
@[simp] theorem State.putDie_clusters (s : State) (i : Fin 4) (d : Die) : (s.putDie i d).clusters = s.clusters := rfl
@[simp] theorem State.putDie_parts (s : State) (i : Fin 4) (d : Die) : (s.putDie i d).parts = s.parts := rfl
@[simp] theorem State.putDie_aux (s : State) (i : Fin 4) (d : Die) : (s.putDie i d).aux = s.aux := rfl
@[simp] theorem State.putDie_hub (s : State) (i : Fin 4) (d : Die) : (s.putDie i d).hub = s.hub := rfl
@[simp] theorem State.putDie_fabric (s : State) (i : Fin 4) (d : Die) : (s.putDie i d).fabric = s.fabric := rfl
@[simp] theorem State.putDie_pf (s : State) (i : Fin 4) (d : Die) : (s.putDie i d).pf = s.pf := rfl
@[simp] theorem State.putDie_mem (s : State) (i : Fin 4) (d : Die) : (s.putDie i d).mem = s.mem := rfl
@[simp] theorem State.putDie_caps (s : State) (i : Fin 4) (d : Die) : (s.putDie i d).caps = s.caps := rfl
@[simp] theorem State.putDie_core (s : State) (i : Fin 4) (d : Die) : (s.putDie i d).core = s.core := rfl
@[simp] theorem State.putDie_fw (s : State) (i : Fin 4) (d : Die) : (s.putDie i d).fw = s.fw := rfl
@[simp] theorem State.putDie_part (s : State) (i : Fin 4) (d : Die) : (s.putDie i d).part = s.part := rfl
@[simp] theorem State.putDie_turn (s : State) (i : Fin 4) (d : Die) : (s.putDie i d).turn = s.turn := rfl
@[simp] theorem State.putDie_inbox (s : State) (i : Fin 4) (d : Die) : (s.putDie i d).inbox = s.inbox := rfl
@[simp] theorem State.putDie_snap (s : State) (i : Fin 4) (d : Die) : (s.putDie i d).snap = s.snap := rfl
@[simp] theorem State.putDie_mark (s : State) (i : Fin 4) (d : Die) : (s.putDie i d).mark = s.mark := rfl
@[simp] theorem State.putDie_since (s : State) (i : Fin 4) (d : Die) : (s.putDie i d).since = s.since := rfl
@[simp] theorem State.putDie_redirect (s : State) (i : Fin 4) (d : Die) : (s.putDie i d).redirect = s.redirect := rfl
@[simp] theorem State.putDie_word (s : State) (i : Fin 4) (d : Die) : (s.putDie i d).word = s.word := rfl
@[simp] theorem State.putDie_last (s : State) (i : Fin 4) (d : Die) : (s.putDie i d).last = s.last := rfl
@[simp] theorem State.putDie_iword (s : State) (i : Fin 4) (d : Die) : (s.putDie i d).iword = s.iword := rfl
@[simp] theorem State.putDie_serial (s : State) (i : Fin 4) (d : Die) : (s.putDie i d).serial = s.serial := rfl
@[simp] theorem State.putDie_tick (s : State) (i : Fin 4) (d : Die) : (s.putDie i d).tick = s.tick := rfl
@[simp] theorem State.putDie_clk (s : State) (i : Fin 4) (d : Die) : (s.putDie i d).clk = s.clk := rfl
@[simp] theorem State.putDie_free (s : State) (i : Fin 4) (d : Die) : (s.putDie i d).free = s.free := rfl

/-! ### setCur -/

@[simp] theorem State.setCur_clusters (s : State) (c : Core) : (s.setCur c).clusters = s.clusters := rfl
@[simp] theorem State.setCur_dies (s : State) (c : Core) : (s.setCur c).dies = s.dies := rfl
@[simp] theorem State.setCur_parts (s : State) (c : Core) : (s.setCur c).parts = s.parts := rfl
@[simp] theorem State.setCur_aux (s : State) (c : Core) : (s.setCur c).aux = s.aux := rfl
@[simp] theorem State.setCur_hub (s : State) (c : Core) : (s.setCur c).hub = s.hub := rfl
@[simp] theorem State.setCur_fabric (s : State) (c : Core) : (s.setCur c).fabric = s.fabric := rfl
@[simp] theorem State.setCur_pf (s : State) (c : Core) : (s.setCur c).pf = s.pf := rfl
@[simp] theorem State.setCur_mem (s : State) (c : Core) : (s.setCur c).mem = s.mem := rfl
@[simp] theorem State.setCur_caps (s : State) (c : Core) : (s.setCur c).caps = s.caps := rfl
@[simp] theorem State.setCur_core (s : State) (c : Core) : (s.setCur c).core = s.core := rfl
@[simp] theorem State.setCur_fw (s : State) (c : Core) : (s.setCur c).fw = s.fw := rfl
@[simp] theorem State.setCur_part (s : State) (c : Core) : (s.setCur c).part = s.part := rfl
@[simp] theorem State.setCur_turn (s : State) (c : Core) : (s.setCur c).turn = s.turn := rfl
@[simp] theorem State.setCur_inbox (s : State) (c : Core) : (s.setCur c).inbox = s.inbox := rfl
@[simp] theorem State.setCur_snap (s : State) (c : Core) : (s.setCur c).snap = s.snap := rfl
@[simp] theorem State.setCur_mark (s : State) (c : Core) : (s.setCur c).mark = s.mark := rfl
@[simp] theorem State.setCur_since (s : State) (c : Core) : (s.setCur c).since = s.since := rfl
@[simp] theorem State.setCur_redirect (s : State) (c : Core) : (s.setCur c).redirect = s.redirect := rfl
@[simp] theorem State.setCur_word (s : State) (c : Core) : (s.setCur c).word = s.word := rfl
@[simp] theorem State.setCur_last (s : State) (c : Core) : (s.setCur c).last = s.last := rfl
@[simp] theorem State.setCur_iword (s : State) (c : Core) : (s.setCur c).iword = s.iword := rfl
@[simp] theorem State.setCur_serial (s : State) (c : Core) : (s.setCur c).serial = s.serial := rfl
@[simp] theorem State.setCur_tick (s : State) (c : Core) : (s.setCur c).tick = s.tick := rfl
@[simp] theorem State.setCur_clk (s : State) (c : Core) : (s.setCur c).clk = s.clk := rfl
@[simp] theorem State.setCur_free (s : State) (c : Core) : (s.setCur c).free = s.free := rfl

/-! ### setCtx -/

@[simp] theorem State.setCtx_clusters (s : State) (x : Ctx) : (s.setCtx x).clusters = s.clusters := rfl
@[simp] theorem State.setCtx_dies (s : State) (x : Ctx) : (s.setCtx x).dies = s.dies := rfl
@[simp] theorem State.setCtx_parts (s : State) (x : Ctx) : (s.setCtx x).parts = s.parts := rfl
@[simp] theorem State.setCtx_aux (s : State) (x : Ctx) : (s.setCtx x).aux = s.aux := rfl
@[simp] theorem State.setCtx_hub (s : State) (x : Ctx) : (s.setCtx x).hub = s.hub := rfl
@[simp] theorem State.setCtx_fabric (s : State) (x : Ctx) : (s.setCtx x).fabric = s.fabric := rfl
@[simp] theorem State.setCtx_pf (s : State) (x : Ctx) : (s.setCtx x).pf = s.pf := rfl
@[simp] theorem State.setCtx_mem (s : State) (x : Ctx) : (s.setCtx x).mem = s.mem := rfl
@[simp] theorem State.setCtx_caps (s : State) (x : Ctx) : (s.setCtx x).caps = s.caps := rfl
@[simp] theorem State.setCtx_core (s : State) (x : Ctx) : (s.setCtx x).core = s.core := rfl
@[simp] theorem State.setCtx_fw (s : State) (x : Ctx) : (s.setCtx x).fw = s.fw := rfl
@[simp] theorem State.setCtx_part (s : State) (x : Ctx) : (s.setCtx x).part = s.part := rfl
@[simp] theorem State.setCtx_turn (s : State) (x : Ctx) : (s.setCtx x).turn = s.turn := rfl
@[simp] theorem State.setCtx_inbox (s : State) (x : Ctx) : (s.setCtx x).inbox = s.inbox := rfl
@[simp] theorem State.setCtx_snap (s : State) (x : Ctx) : (s.setCtx x).snap = s.snap := rfl
@[simp] theorem State.setCtx_mark (s : State) (x : Ctx) : (s.setCtx x).mark = s.mark := rfl
@[simp] theorem State.setCtx_since (s : State) (x : Ctx) : (s.setCtx x).since = s.since := rfl
@[simp] theorem State.setCtx_redirect (s : State) (x : Ctx) : (s.setCtx x).redirect = s.redirect := rfl
@[simp] theorem State.setCtx_word (s : State) (x : Ctx) : (s.setCtx x).word = s.word := rfl
@[simp] theorem State.setCtx_last (s : State) (x : Ctx) : (s.setCtx x).last = s.last := rfl
@[simp] theorem State.setCtx_iword (s : State) (x : Ctx) : (s.setCtx x).iword = s.iword := rfl
@[simp] theorem State.setCtx_serial (s : State) (x : Ctx) : (s.setCtx x).serial = s.serial := rfl
@[simp] theorem State.setCtx_tick (s : State) (x : Ctx) : (s.setCtx x).tick = s.tick := rfl
@[simp] theorem State.setCtx_clk (s : State) (x : Ctx) : (s.setCtx x).clk = s.clk := rfl
@[simp] theorem State.setCtx_free (s : State) (x : Ctx) : (s.setCtx x).free = s.free := rfl

/-! ### setRegs -/

@[simp] theorem State.setRegs_clusters (s : State) (r : Regs) : (s.setRegs r).clusters = s.clusters := rfl
@[simp] theorem State.setRegs_dies (s : State) (r : Regs) : (s.setRegs r).dies = s.dies := rfl
@[simp] theorem State.setRegs_parts (s : State) (r : Regs) : (s.setRegs r).parts = s.parts := rfl
@[simp] theorem State.setRegs_aux (s : State) (r : Regs) : (s.setRegs r).aux = s.aux := rfl
@[simp] theorem State.setRegs_hub (s : State) (r : Regs) : (s.setRegs r).hub = s.hub := rfl
@[simp] theorem State.setRegs_fabric (s : State) (r : Regs) : (s.setRegs r).fabric = s.fabric := rfl
@[simp] theorem State.setRegs_pf (s : State) (r : Regs) : (s.setRegs r).pf = s.pf := rfl
@[simp] theorem State.setRegs_mem (s : State) (r : Regs) : (s.setRegs r).mem = s.mem := rfl
@[simp] theorem State.setRegs_caps (s : State) (r : Regs) : (s.setRegs r).caps = s.caps := rfl
@[simp] theorem State.setRegs_core (s : State) (r : Regs) : (s.setRegs r).core = s.core := rfl
@[simp] theorem State.setRegs_fw (s : State) (r : Regs) : (s.setRegs r).fw = s.fw := rfl
@[simp] theorem State.setRegs_part (s : State) (r : Regs) : (s.setRegs r).part = s.part := rfl
@[simp] theorem State.setRegs_turn (s : State) (r : Regs) : (s.setRegs r).turn = s.turn := rfl
@[simp] theorem State.setRegs_inbox (s : State) (r : Regs) : (s.setRegs r).inbox = s.inbox := rfl
@[simp] theorem State.setRegs_snap (s : State) (r : Regs) : (s.setRegs r).snap = s.snap := rfl
@[simp] theorem State.setRegs_mark (s : State) (r : Regs) : (s.setRegs r).mark = s.mark := rfl
@[simp] theorem State.setRegs_since (s : State) (r : Regs) : (s.setRegs r).since = s.since := rfl
@[simp] theorem State.setRegs_redirect (s : State) (r : Regs) : (s.setRegs r).redirect = s.redirect := rfl
@[simp] theorem State.setRegs_word (s : State) (r : Regs) : (s.setRegs r).word = s.word := rfl
@[simp] theorem State.setRegs_last (s : State) (r : Regs) : (s.setRegs r).last = s.last := rfl
@[simp] theorem State.setRegs_iword (s : State) (r : Regs) : (s.setRegs r).iword = s.iword := rfl
@[simp] theorem State.setRegs_serial (s : State) (r : Regs) : (s.setRegs r).serial = s.serial := rfl
@[simp] theorem State.setRegs_tick (s : State) (r : Regs) : (s.setRegs r).tick = s.tick := rfl
@[simp] theorem State.setRegs_clk (s : State) (r : Regs) : (s.setRegs r).clk = s.clk := rfl
@[simp] theorem State.setRegs_free (s : State) (r : Regs) : (s.setRegs r).free = s.free := rfl

/-! ### wrS -/

@[simp] theorem State.wrS_clusters (s : State) (i : BitVec 5) (x : Word) : (s.wrS i x).clusters = s.clusters := rfl
@[simp] theorem State.wrS_dies (s : State) (i : BitVec 5) (x : Word) : (s.wrS i x).dies = s.dies := rfl
@[simp] theorem State.wrS_parts (s : State) (i : BitVec 5) (x : Word) : (s.wrS i x).parts = s.parts := rfl
@[simp] theorem State.wrS_aux (s : State) (i : BitVec 5) (x : Word) : (s.wrS i x).aux = s.aux := rfl
@[simp] theorem State.wrS_hub (s : State) (i : BitVec 5) (x : Word) : (s.wrS i x).hub = s.hub := rfl
@[simp] theorem State.wrS_fabric (s : State) (i : BitVec 5) (x : Word) : (s.wrS i x).fabric = s.fabric := rfl
@[simp] theorem State.wrS_pf (s : State) (i : BitVec 5) (x : Word) : (s.wrS i x).pf = s.pf := rfl
@[simp] theorem State.wrS_mem (s : State) (i : BitVec 5) (x : Word) : (s.wrS i x).mem = s.mem := rfl
@[simp] theorem State.wrS_caps (s : State) (i : BitVec 5) (x : Word) : (s.wrS i x).caps = s.caps := rfl
@[simp] theorem State.wrS_core (s : State) (i : BitVec 5) (x : Word) : (s.wrS i x).core = s.core := rfl
@[simp] theorem State.wrS_fw (s : State) (i : BitVec 5) (x : Word) : (s.wrS i x).fw = s.fw := rfl
@[simp] theorem State.wrS_part (s : State) (i : BitVec 5) (x : Word) : (s.wrS i x).part = s.part := rfl
@[simp] theorem State.wrS_turn (s : State) (i : BitVec 5) (x : Word) : (s.wrS i x).turn = s.turn := rfl
@[simp] theorem State.wrS_inbox (s : State) (i : BitVec 5) (x : Word) : (s.wrS i x).inbox = s.inbox := rfl
@[simp] theorem State.wrS_snap (s : State) (i : BitVec 5) (x : Word) : (s.wrS i x).snap = s.snap := rfl
@[simp] theorem State.wrS_mark (s : State) (i : BitVec 5) (x : Word) : (s.wrS i x).mark = s.mark := rfl
@[simp] theorem State.wrS_since (s : State) (i : BitVec 5) (x : Word) : (s.wrS i x).since = s.since := rfl
@[simp] theorem State.wrS_redirect (s : State) (i : BitVec 5) (x : Word) : (s.wrS i x).redirect = s.redirect := rfl
@[simp] theorem State.wrS_word (s : State) (i : BitVec 5) (x : Word) : (s.wrS i x).word = s.word := rfl
@[simp] theorem State.wrS_last (s : State) (i : BitVec 5) (x : Word) : (s.wrS i x).last = s.last := rfl
@[simp] theorem State.wrS_iword (s : State) (i : BitVec 5) (x : Word) : (s.wrS i x).iword = s.iword := rfl
@[simp] theorem State.wrS_serial (s : State) (i : BitVec 5) (x : Word) : (s.wrS i x).serial = s.serial := rfl
@[simp] theorem State.wrS_tick (s : State) (i : BitVec 5) (x : Word) : (s.wrS i x).tick = s.tick := rfl
@[simp] theorem State.wrS_clk (s : State) (i : BitVec 5) (x : Word) : (s.wrS i x).clk = s.clk := rfl
@[simp] theorem State.wrS_free (s : State) (i : BitVec 5) (x : Word) : (s.wrS i x).free = s.free := rfl

/-! ### wrP -/

@[simp] theorem State.wrP_clusters (s : State) (i : BitVec 3) (x : Bool) : (s.wrP i x).clusters = s.clusters := rfl
@[simp] theorem State.wrP_dies (s : State) (i : BitVec 3) (x : Bool) : (s.wrP i x).dies = s.dies := rfl
@[simp] theorem State.wrP_parts (s : State) (i : BitVec 3) (x : Bool) : (s.wrP i x).parts = s.parts := rfl
@[simp] theorem State.wrP_aux (s : State) (i : BitVec 3) (x : Bool) : (s.wrP i x).aux = s.aux := rfl
@[simp] theorem State.wrP_hub (s : State) (i : BitVec 3) (x : Bool) : (s.wrP i x).hub = s.hub := rfl
@[simp] theorem State.wrP_fabric (s : State) (i : BitVec 3) (x : Bool) : (s.wrP i x).fabric = s.fabric := rfl
@[simp] theorem State.wrP_pf (s : State) (i : BitVec 3) (x : Bool) : (s.wrP i x).pf = s.pf := rfl
@[simp] theorem State.wrP_mem (s : State) (i : BitVec 3) (x : Bool) : (s.wrP i x).mem = s.mem := rfl
@[simp] theorem State.wrP_caps (s : State) (i : BitVec 3) (x : Bool) : (s.wrP i x).caps = s.caps := rfl
@[simp] theorem State.wrP_core (s : State) (i : BitVec 3) (x : Bool) : (s.wrP i x).core = s.core := rfl
@[simp] theorem State.wrP_fw (s : State) (i : BitVec 3) (x : Bool) : (s.wrP i x).fw = s.fw := rfl
@[simp] theorem State.wrP_part (s : State) (i : BitVec 3) (x : Bool) : (s.wrP i x).part = s.part := rfl
@[simp] theorem State.wrP_turn (s : State) (i : BitVec 3) (x : Bool) : (s.wrP i x).turn = s.turn := rfl
@[simp] theorem State.wrP_inbox (s : State) (i : BitVec 3) (x : Bool) : (s.wrP i x).inbox = s.inbox := rfl
@[simp] theorem State.wrP_snap (s : State) (i : BitVec 3) (x : Bool) : (s.wrP i x).snap = s.snap := rfl
@[simp] theorem State.wrP_mark (s : State) (i : BitVec 3) (x : Bool) : (s.wrP i x).mark = s.mark := rfl
@[simp] theorem State.wrP_since (s : State) (i : BitVec 3) (x : Bool) : (s.wrP i x).since = s.since := rfl
@[simp] theorem State.wrP_redirect (s : State) (i : BitVec 3) (x : Bool) : (s.wrP i x).redirect = s.redirect := rfl
@[simp] theorem State.wrP_word (s : State) (i : BitVec 3) (x : Bool) : (s.wrP i x).word = s.word := rfl
@[simp] theorem State.wrP_last (s : State) (i : BitVec 3) (x : Bool) : (s.wrP i x).last = s.last := rfl
@[simp] theorem State.wrP_iword (s : State) (i : BitVec 3) (x : Bool) : (s.wrP i x).iword = s.iword := rfl
@[simp] theorem State.wrP_serial (s : State) (i : BitVec 3) (x : Bool) : (s.wrP i x).serial = s.serial := rfl
@[simp] theorem State.wrP_tick (s : State) (i : BitVec 3) (x : Bool) : (s.wrP i x).tick = s.tick := rfl
@[simp] theorem State.wrP_clk (s : State) (i : BitVec 3) (x : Bool) : (s.wrP i x).clk = s.clk := rfl
@[simp] theorem State.wrP_free (s : State) (i : BitVec 3) (x : Bool) : (s.wrP i x).free = s.free := rfl

/-! ### wrV -/

@[simp] theorem State.wrV_clusters (s : State) (i : BitVec 5) (x : Vec) : (s.wrV i x).clusters = s.clusters := rfl
@[simp] theorem State.wrV_dies (s : State) (i : BitVec 5) (x : Vec) : (s.wrV i x).dies = s.dies := rfl
@[simp] theorem State.wrV_parts (s : State) (i : BitVec 5) (x : Vec) : (s.wrV i x).parts = s.parts := rfl
@[simp] theorem State.wrV_aux (s : State) (i : BitVec 5) (x : Vec) : (s.wrV i x).aux = s.aux := rfl
@[simp] theorem State.wrV_hub (s : State) (i : BitVec 5) (x : Vec) : (s.wrV i x).hub = s.hub := rfl
@[simp] theorem State.wrV_fabric (s : State) (i : BitVec 5) (x : Vec) : (s.wrV i x).fabric = s.fabric := rfl
@[simp] theorem State.wrV_pf (s : State) (i : BitVec 5) (x : Vec) : (s.wrV i x).pf = s.pf := rfl
@[simp] theorem State.wrV_mem (s : State) (i : BitVec 5) (x : Vec) : (s.wrV i x).mem = s.mem := rfl
@[simp] theorem State.wrV_caps (s : State) (i : BitVec 5) (x : Vec) : (s.wrV i x).caps = s.caps := rfl
@[simp] theorem State.wrV_core (s : State) (i : BitVec 5) (x : Vec) : (s.wrV i x).core = s.core := rfl
@[simp] theorem State.wrV_fw (s : State) (i : BitVec 5) (x : Vec) : (s.wrV i x).fw = s.fw := rfl
@[simp] theorem State.wrV_part (s : State) (i : BitVec 5) (x : Vec) : (s.wrV i x).part = s.part := rfl
@[simp] theorem State.wrV_turn (s : State) (i : BitVec 5) (x : Vec) : (s.wrV i x).turn = s.turn := rfl
@[simp] theorem State.wrV_inbox (s : State) (i : BitVec 5) (x : Vec) : (s.wrV i x).inbox = s.inbox := rfl
@[simp] theorem State.wrV_snap (s : State) (i : BitVec 5) (x : Vec) : (s.wrV i x).snap = s.snap := rfl
@[simp] theorem State.wrV_mark (s : State) (i : BitVec 5) (x : Vec) : (s.wrV i x).mark = s.mark := rfl
@[simp] theorem State.wrV_since (s : State) (i : BitVec 5) (x : Vec) : (s.wrV i x).since = s.since := rfl
@[simp] theorem State.wrV_redirect (s : State) (i : BitVec 5) (x : Vec) : (s.wrV i x).redirect = s.redirect := rfl
@[simp] theorem State.wrV_word (s : State) (i : BitVec 5) (x : Vec) : (s.wrV i x).word = s.word := rfl
@[simp] theorem State.wrV_last (s : State) (i : BitVec 5) (x : Vec) : (s.wrV i x).last = s.last := rfl
@[simp] theorem State.wrV_iword (s : State) (i : BitVec 5) (x : Vec) : (s.wrV i x).iword = s.iword := rfl
@[simp] theorem State.wrV_serial (s : State) (i : BitVec 5) (x : Vec) : (s.wrV i x).serial = s.serial := rfl
@[simp] theorem State.wrV_tick (s : State) (i : BitVec 5) (x : Vec) : (s.wrV i x).tick = s.tick := rfl
@[simp] theorem State.wrV_clk (s : State) (i : BitVec 5) (x : Vec) : (s.wrV i x).clk = s.clk := rfl
@[simp] theorem State.wrV_free (s : State) (i : BitVec 5) (x : Vec) : (s.wrV i x).free = s.free := rfl

/-! ### wrM -/

@[simp] theorem State.wrM_clusters (s : State) (i : BitVec 3) (x : Mask) : (s.wrM i x).clusters = s.clusters := rfl
@[simp] theorem State.wrM_dies (s : State) (i : BitVec 3) (x : Mask) : (s.wrM i x).dies = s.dies := rfl
@[simp] theorem State.wrM_parts (s : State) (i : BitVec 3) (x : Mask) : (s.wrM i x).parts = s.parts := rfl
@[simp] theorem State.wrM_aux (s : State) (i : BitVec 3) (x : Mask) : (s.wrM i x).aux = s.aux := rfl
@[simp] theorem State.wrM_hub (s : State) (i : BitVec 3) (x : Mask) : (s.wrM i x).hub = s.hub := rfl
@[simp] theorem State.wrM_fabric (s : State) (i : BitVec 3) (x : Mask) : (s.wrM i x).fabric = s.fabric := rfl
@[simp] theorem State.wrM_pf (s : State) (i : BitVec 3) (x : Mask) : (s.wrM i x).pf = s.pf := rfl
@[simp] theorem State.wrM_mem (s : State) (i : BitVec 3) (x : Mask) : (s.wrM i x).mem = s.mem := rfl
@[simp] theorem State.wrM_caps (s : State) (i : BitVec 3) (x : Mask) : (s.wrM i x).caps = s.caps := rfl
@[simp] theorem State.wrM_core (s : State) (i : BitVec 3) (x : Mask) : (s.wrM i x).core = s.core := rfl
@[simp] theorem State.wrM_fw (s : State) (i : BitVec 3) (x : Mask) : (s.wrM i x).fw = s.fw := rfl
@[simp] theorem State.wrM_part (s : State) (i : BitVec 3) (x : Mask) : (s.wrM i x).part = s.part := rfl
@[simp] theorem State.wrM_turn (s : State) (i : BitVec 3) (x : Mask) : (s.wrM i x).turn = s.turn := rfl
@[simp] theorem State.wrM_inbox (s : State) (i : BitVec 3) (x : Mask) : (s.wrM i x).inbox = s.inbox := rfl
@[simp] theorem State.wrM_snap (s : State) (i : BitVec 3) (x : Mask) : (s.wrM i x).snap = s.snap := rfl
@[simp] theorem State.wrM_mark (s : State) (i : BitVec 3) (x : Mask) : (s.wrM i x).mark = s.mark := rfl
@[simp] theorem State.wrM_since (s : State) (i : BitVec 3) (x : Mask) : (s.wrM i x).since = s.since := rfl
@[simp] theorem State.wrM_redirect (s : State) (i : BitVec 3) (x : Mask) : (s.wrM i x).redirect = s.redirect := rfl
@[simp] theorem State.wrM_word (s : State) (i : BitVec 3) (x : Mask) : (s.wrM i x).word = s.word := rfl
@[simp] theorem State.wrM_last (s : State) (i : BitVec 3) (x : Mask) : (s.wrM i x).last = s.last := rfl
@[simp] theorem State.wrM_iword (s : State) (i : BitVec 3) (x : Mask) : (s.wrM i x).iword = s.iword := rfl
@[simp] theorem State.wrM_serial (s : State) (i : BitVec 3) (x : Mask) : (s.wrM i x).serial = s.serial := rfl
@[simp] theorem State.wrM_tick (s : State) (i : BitVec 3) (x : Mask) : (s.wrM i x).tick = s.tick := rfl
@[simp] theorem State.wrM_clk (s : State) (i : BitVec 3) (x : Mask) : (s.wrM i x).clk = s.clk := rfl
@[simp] theorem State.wrM_free (s : State) (i : BitVec 3) (x : Mask) : (s.wrM i x).free = s.free := rfl

/-! ### wrA -/

@[simp] theorem State.wrA_clusters (s : State) (i : BitVec 4) (x : Acc) : (s.wrA i x).clusters = s.clusters := rfl
@[simp] theorem State.wrA_dies (s : State) (i : BitVec 4) (x : Acc) : (s.wrA i x).dies = s.dies := rfl
@[simp] theorem State.wrA_parts (s : State) (i : BitVec 4) (x : Acc) : (s.wrA i x).parts = s.parts := rfl
@[simp] theorem State.wrA_aux (s : State) (i : BitVec 4) (x : Acc) : (s.wrA i x).aux = s.aux := rfl
@[simp] theorem State.wrA_hub (s : State) (i : BitVec 4) (x : Acc) : (s.wrA i x).hub = s.hub := rfl
@[simp] theorem State.wrA_fabric (s : State) (i : BitVec 4) (x : Acc) : (s.wrA i x).fabric = s.fabric := rfl
@[simp] theorem State.wrA_pf (s : State) (i : BitVec 4) (x : Acc) : (s.wrA i x).pf = s.pf := rfl
@[simp] theorem State.wrA_mem (s : State) (i : BitVec 4) (x : Acc) : (s.wrA i x).mem = s.mem := rfl
@[simp] theorem State.wrA_caps (s : State) (i : BitVec 4) (x : Acc) : (s.wrA i x).caps = s.caps := rfl
@[simp] theorem State.wrA_core (s : State) (i : BitVec 4) (x : Acc) : (s.wrA i x).core = s.core := rfl
@[simp] theorem State.wrA_fw (s : State) (i : BitVec 4) (x : Acc) : (s.wrA i x).fw = s.fw := rfl
@[simp] theorem State.wrA_part (s : State) (i : BitVec 4) (x : Acc) : (s.wrA i x).part = s.part := rfl
@[simp] theorem State.wrA_turn (s : State) (i : BitVec 4) (x : Acc) : (s.wrA i x).turn = s.turn := rfl
@[simp] theorem State.wrA_inbox (s : State) (i : BitVec 4) (x : Acc) : (s.wrA i x).inbox = s.inbox := rfl
@[simp] theorem State.wrA_snap (s : State) (i : BitVec 4) (x : Acc) : (s.wrA i x).snap = s.snap := rfl
@[simp] theorem State.wrA_mark (s : State) (i : BitVec 4) (x : Acc) : (s.wrA i x).mark = s.mark := rfl
@[simp] theorem State.wrA_since (s : State) (i : BitVec 4) (x : Acc) : (s.wrA i x).since = s.since := rfl
@[simp] theorem State.wrA_redirect (s : State) (i : BitVec 4) (x : Acc) : (s.wrA i x).redirect = s.redirect := rfl
@[simp] theorem State.wrA_word (s : State) (i : BitVec 4) (x : Acc) : (s.wrA i x).word = s.word := rfl
@[simp] theorem State.wrA_last (s : State) (i : BitVec 4) (x : Acc) : (s.wrA i x).last = s.last := rfl
@[simp] theorem State.wrA_iword (s : State) (i : BitVec 4) (x : Acc) : (s.wrA i x).iword = s.iword := rfl
@[simp] theorem State.wrA_serial (s : State) (i : BitVec 4) (x : Acc) : (s.wrA i x).serial = s.serial := rfl
@[simp] theorem State.wrA_tick (s : State) (i : BitVec 4) (x : Acc) : (s.wrA i x).tick = s.tick := rfl
@[simp] theorem State.wrA_clk (s : State) (i : BitVec 4) (x : Acc) : (s.wrA i x).clk = s.clk := rfl
@[simp] theorem State.wrA_free (s : State) (i : BitVec 4) (x : Acc) : (s.wrA i x).free = s.free := rfl

/-! ### store -/

@[simp] theorem State.store_cores (s : State) (a : Nat) (bs : List Byte) : (s.store a bs).cores = s.cores := rfl
@[simp] theorem State.store_clusters (s : State) (a : Nat) (bs : List Byte) : (s.store a bs).clusters = s.clusters := rfl
@[simp] theorem State.store_dies (s : State) (a : Nat) (bs : List Byte) : (s.store a bs).dies = s.dies := rfl
@[simp] theorem State.store_parts (s : State) (a : Nat) (bs : List Byte) : (s.store a bs).parts = s.parts := rfl
@[simp] theorem State.store_aux (s : State) (a : Nat) (bs : List Byte) : (s.store a bs).aux = s.aux := rfl
@[simp] theorem State.store_hub (s : State) (a : Nat) (bs : List Byte) : (s.store a bs).hub = s.hub := rfl
@[simp] theorem State.store_fabric (s : State) (a : Nat) (bs : List Byte) : (s.store a bs).fabric = s.fabric := rfl
@[simp] theorem State.store_pf (s : State) (a : Nat) (bs : List Byte) : (s.store a bs).pf = s.pf := rfl
@[simp] theorem State.store_core (s : State) (a : Nat) (bs : List Byte) : (s.store a bs).core = s.core := rfl
@[simp] theorem State.store_fw (s : State) (a : Nat) (bs : List Byte) : (s.store a bs).fw = s.fw := rfl
@[simp] theorem State.store_part (s : State) (a : Nat) (bs : List Byte) : (s.store a bs).part = s.part := rfl
@[simp] theorem State.store_turn (s : State) (a : Nat) (bs : List Byte) : (s.store a bs).turn = s.turn := rfl
@[simp] theorem State.store_inbox (s : State) (a : Nat) (bs : List Byte) : (s.store a bs).inbox = s.inbox := rfl
@[simp] theorem State.store_snap (s : State) (a : Nat) (bs : List Byte) : (s.store a bs).snap = s.snap := rfl
@[simp] theorem State.store_mark (s : State) (a : Nat) (bs : List Byte) : (s.store a bs).mark = s.mark := rfl
@[simp] theorem State.store_since (s : State) (a : Nat) (bs : List Byte) : (s.store a bs).since = s.since := rfl
@[simp] theorem State.store_redirect (s : State) (a : Nat) (bs : List Byte) : (s.store a bs).redirect = s.redirect := rfl
@[simp] theorem State.store_word (s : State) (a : Nat) (bs : List Byte) : (s.store a bs).word = s.word := rfl
@[simp] theorem State.store_last (s : State) (a : Nat) (bs : List Byte) : (s.store a bs).last = s.last := rfl
@[simp] theorem State.store_iword (s : State) (a : Nat) (bs : List Byte) : (s.store a bs).iword = s.iword := rfl
@[simp] theorem State.store_serial (s : State) (a : Nat) (bs : List Byte) : (s.store a bs).serial = s.serial := rfl
@[simp] theorem State.store_tick (s : State) (a : Nat) (bs : List Byte) : (s.store a bs).tick = s.tick := rfl
@[simp] theorem State.store_clk (s : State) (a : Nat) (bs : List Byte) : (s.store a bs).clk = s.clk := rfl
@[simp] theorem State.store_free (s : State) (a : Nat) (bs : List Byte) : (s.store a bs).free = s.free := rfl

/-! ### storeNat -/

@[simp] theorem State.storeNat_cores (s : State) (a n x : Nat) : (s.storeNat a n x).cores = s.cores := rfl
@[simp] theorem State.storeNat_clusters (s : State) (a n x : Nat) : (s.storeNat a n x).clusters = s.clusters := rfl
@[simp] theorem State.storeNat_dies (s : State) (a n x : Nat) : (s.storeNat a n x).dies = s.dies := rfl
@[simp] theorem State.storeNat_parts (s : State) (a n x : Nat) : (s.storeNat a n x).parts = s.parts := rfl
@[simp] theorem State.storeNat_aux (s : State) (a n x : Nat) : (s.storeNat a n x).aux = s.aux := rfl
@[simp] theorem State.storeNat_hub (s : State) (a n x : Nat) : (s.storeNat a n x).hub = s.hub := rfl
@[simp] theorem State.storeNat_fabric (s : State) (a n x : Nat) : (s.storeNat a n x).fabric = s.fabric := rfl
@[simp] theorem State.storeNat_pf (s : State) (a n x : Nat) : (s.storeNat a n x).pf = s.pf := rfl
@[simp] theorem State.storeNat_core (s : State) (a n x : Nat) : (s.storeNat a n x).core = s.core := rfl
@[simp] theorem State.storeNat_fw (s : State) (a n x : Nat) : (s.storeNat a n x).fw = s.fw := rfl
@[simp] theorem State.storeNat_part (s : State) (a n x : Nat) : (s.storeNat a n x).part = s.part := rfl
@[simp] theorem State.storeNat_turn (s : State) (a n x : Nat) : (s.storeNat a n x).turn = s.turn := rfl
@[simp] theorem State.storeNat_inbox (s : State) (a n x : Nat) : (s.storeNat a n x).inbox = s.inbox := rfl
@[simp] theorem State.storeNat_snap (s : State) (a n x : Nat) : (s.storeNat a n x).snap = s.snap := rfl
@[simp] theorem State.storeNat_mark (s : State) (a n x : Nat) : (s.storeNat a n x).mark = s.mark := rfl
@[simp] theorem State.storeNat_since (s : State) (a n x : Nat) : (s.storeNat a n x).since = s.since := rfl
@[simp] theorem State.storeNat_redirect (s : State) (a n x : Nat) : (s.storeNat a n x).redirect = s.redirect := rfl
@[simp] theorem State.storeNat_word (s : State) (a n x : Nat) : (s.storeNat a n x).word = s.word := rfl
@[simp] theorem State.storeNat_last (s : State) (a n x : Nat) : (s.storeNat a n x).last = s.last := rfl
@[simp] theorem State.storeNat_iword (s : State) (a n x : Nat) : (s.storeNat a n x).iword = s.iword := rfl
@[simp] theorem State.storeNat_serial (s : State) (a n x : Nat) : (s.storeNat a n x).serial = s.serial := rfl
@[simp] theorem State.storeNat_tick (s : State) (a n x : Nat) : (s.storeNat a n x).tick = s.tick := rfl
@[simp] theorem State.storeNat_clk (s : State) (a n x : Nat) : (s.storeNat a n x).clk = s.clk := rfl
@[simp] theorem State.storeNat_free (s : State) (a n x : Nat) : (s.storeNat a n x).free = s.free := rfl

/-! ### storeCap -/

@[simp] theorem State.storeCap_cores (s : State) (a : Nat) (bs : List Byte) : (s.storeCap a bs).cores = s.cores := rfl
@[simp] theorem State.storeCap_clusters (s : State) (a : Nat) (bs : List Byte) : (s.storeCap a bs).clusters = s.clusters := rfl
@[simp] theorem State.storeCap_dies (s : State) (a : Nat) (bs : List Byte) : (s.storeCap a bs).dies = s.dies := rfl
@[simp] theorem State.storeCap_parts (s : State) (a : Nat) (bs : List Byte) : (s.storeCap a bs).parts = s.parts := rfl
@[simp] theorem State.storeCap_aux (s : State) (a : Nat) (bs : List Byte) : (s.storeCap a bs).aux = s.aux := rfl
@[simp] theorem State.storeCap_hub (s : State) (a : Nat) (bs : List Byte) : (s.storeCap a bs).hub = s.hub := rfl
@[simp] theorem State.storeCap_fabric (s : State) (a : Nat) (bs : List Byte) : (s.storeCap a bs).fabric = s.fabric := rfl
@[simp] theorem State.storeCap_pf (s : State) (a : Nat) (bs : List Byte) : (s.storeCap a bs).pf = s.pf := rfl
@[simp] theorem State.storeCap_core (s : State) (a : Nat) (bs : List Byte) : (s.storeCap a bs).core = s.core := rfl
@[simp] theorem State.storeCap_fw (s : State) (a : Nat) (bs : List Byte) : (s.storeCap a bs).fw = s.fw := rfl
@[simp] theorem State.storeCap_part (s : State) (a : Nat) (bs : List Byte) : (s.storeCap a bs).part = s.part := rfl
@[simp] theorem State.storeCap_turn (s : State) (a : Nat) (bs : List Byte) : (s.storeCap a bs).turn = s.turn := rfl
@[simp] theorem State.storeCap_inbox (s : State) (a : Nat) (bs : List Byte) : (s.storeCap a bs).inbox = s.inbox := rfl
@[simp] theorem State.storeCap_snap (s : State) (a : Nat) (bs : List Byte) : (s.storeCap a bs).snap = s.snap := rfl
@[simp] theorem State.storeCap_mark (s : State) (a : Nat) (bs : List Byte) : (s.storeCap a bs).mark = s.mark := rfl
@[simp] theorem State.storeCap_since (s : State) (a : Nat) (bs : List Byte) : (s.storeCap a bs).since = s.since := rfl
@[simp] theorem State.storeCap_redirect (s : State) (a : Nat) (bs : List Byte) : (s.storeCap a bs).redirect = s.redirect := rfl
@[simp] theorem State.storeCap_word (s : State) (a : Nat) (bs : List Byte) : (s.storeCap a bs).word = s.word := rfl
@[simp] theorem State.storeCap_last (s : State) (a : Nat) (bs : List Byte) : (s.storeCap a bs).last = s.last := rfl
@[simp] theorem State.storeCap_iword (s : State) (a : Nat) (bs : List Byte) : (s.storeCap a bs).iword = s.iword := rfl
@[simp] theorem State.storeCap_serial (s : State) (a : Nat) (bs : List Byte) : (s.storeCap a bs).serial = s.serial := rfl
@[simp] theorem State.storeCap_tick (s : State) (a : Nat) (bs : List Byte) : (s.storeCap a bs).tick = s.tick := rfl
@[simp] theorem State.storeCap_clk (s : State) (a : Nat) (bs : List Byte) : (s.storeCap a bs).clk = s.clk := rfl
@[simp] theorem State.storeCap_free (s : State) (a : Nat) (bs : List Byte) : (s.storeCap a bs).free = s.free := rfl

/-! ### zero -/

@[simp] theorem State.zero_cores (s : State) (a n : Nat) : (s.zero a n).cores = s.cores := rfl
@[simp] theorem State.zero_clusters (s : State) (a n : Nat) : (s.zero a n).clusters = s.clusters := rfl
@[simp] theorem State.zero_dies (s : State) (a n : Nat) : (s.zero a n).dies = s.dies := rfl
@[simp] theorem State.zero_parts (s : State) (a n : Nat) : (s.zero a n).parts = s.parts := rfl
@[simp] theorem State.zero_aux (s : State) (a n : Nat) : (s.zero a n).aux = s.aux := rfl
@[simp] theorem State.zero_hub (s : State) (a n : Nat) : (s.zero a n).hub = s.hub := rfl
@[simp] theorem State.zero_fabric (s : State) (a n : Nat) : (s.zero a n).fabric = s.fabric := rfl
@[simp] theorem State.zero_pf (s : State) (a n : Nat) : (s.zero a n).pf = s.pf := rfl
@[simp] theorem State.zero_core (s : State) (a n : Nat) : (s.zero a n).core = s.core := rfl
@[simp] theorem State.zero_fw (s : State) (a n : Nat) : (s.zero a n).fw = s.fw := rfl
@[simp] theorem State.zero_part (s : State) (a n : Nat) : (s.zero a n).part = s.part := rfl
@[simp] theorem State.zero_turn (s : State) (a n : Nat) : (s.zero a n).turn = s.turn := rfl
@[simp] theorem State.zero_inbox (s : State) (a n : Nat) : (s.zero a n).inbox = s.inbox := rfl
@[simp] theorem State.zero_snap (s : State) (a n : Nat) : (s.zero a n).snap = s.snap := rfl
@[simp] theorem State.zero_mark (s : State) (a n : Nat) : (s.zero a n).mark = s.mark := rfl
@[simp] theorem State.zero_since (s : State) (a n : Nat) : (s.zero a n).since = s.since := rfl
@[simp] theorem State.zero_redirect (s : State) (a n : Nat) : (s.zero a n).redirect = s.redirect := rfl
@[simp] theorem State.zero_word (s : State) (a n : Nat) : (s.zero a n).word = s.word := rfl
@[simp] theorem State.zero_last (s : State) (a n : Nat) : (s.zero a n).last = s.last := rfl
@[simp] theorem State.zero_iword (s : State) (a n : Nat) : (s.zero a n).iword = s.iword := rfl
@[simp] theorem State.zero_serial (s : State) (a n : Nat) : (s.zero a n).serial = s.serial := rfl
@[simp] theorem State.zero_tick (s : State) (a n : Nat) : (s.zero a n).tick = s.tick := rfl
@[simp] theorem State.zero_clk (s : State) (a n : Nat) : (s.zero a n).clk = s.clk := rfl
@[simp] theorem State.zero_free (s : State) (a n : Nat) : (s.zero a n).free = s.free := rfl

/-! ### The acting context -/

/-- The core that was put. -/
@[simp] theorem putCore_same (s : State) (i : Fin 512) (c : Core) : (s.putCore i c).cores[i.val] = c := by simp [State.putCore]

/-- The acting core after it is replaced. -/
@[simp] theorem setCur_cur (s : State) (c : Core) : (s.setCur c).cur = c := by simp [State.cur, State.setCur, State.putCore]

/-- Of two replacements of the acting core, the later stands. -/
@[simp] theorem setCur_setCur (s : State) (c d : Core) : (s.setCur c).setCur d = s.setCur d := by
  simp [State.setCur, State.putCore]

/-- Replacing the acting core by itself changes nothing. -/
@[simp] theorem setCur_self (s : State) : s.setCur s.cur = s := by
  simp [State.setCur, State.putCore, State.cur]

/-- A core's context after it is replaced. -/
@[simp] theorem core_setCtx_ctx (c : Core) (fw : Bool) (x : Ctx) : (c.setCtx fw x).ctx fw = x := by
  cases fw <;> rfl

/-- A core's other context stays. -/
@[simp] theorem core_setCtx_other (c : Core) (fw : Bool) (x : Ctx) : (c.setCtx fw x).ctx (!fw) = c.ctx (!fw) := by
  cases fw <;> rfl

/-- Of two replacements of a context, the later stands. -/
@[simp] theorem core_setCtx_setCtx (c : Core) (fw : Bool) (x y : Ctx) : (c.setCtx fw x).setCtx fw y = c.setCtx fw y := by
  cases fw <;> rfl

/-- Replacing a context by itself changes nothing. -/
@[simp] theorem core_setCtx_self (c : Core) (fw : Bool) : c.setCtx fw (c.ctx fw) = c := by cases fw <;> rfl

/-- The acting context after it is replaced. -/
@[simp] theorem setCtx_ctx (s : State) (x : Ctx) : (s.setCtx x).ctx = x := by
  simp [State.ctx, State.setCtx]

/-- Replacing the acting context by itself changes nothing. -/
@[simp] theorem setCtx_self (s : State) : s.setCtx s.ctx = s := by simp [State.ctx, State.setCtx]

/-- Of two replacements of the acting context, the later stands. -/
@[simp] theorem setCtx_setCtx (s : State) (x y : Ctx) : (s.setCtx x).setCtx y = s.setCtx y := by
  simp [State.setCtx]

/-- The acting context after its registers change: nothing else of it does. -/
@[simp] theorem setRegs_ctx (s : State) (r : Regs) : (s.setRegs r).ctx = { s.ctx with regs := r } := by
  simp [State.setRegs]

/-- A core other than the acting one stays as it is. -/
theorem setCur_other (s : State) (c : Core) (j : Fin 512) (h : s.core ≠ j) : (s.setCur c).cores[j] = s.cores[j] := by
  simpa [State.setCur, State.putCore] using vput_other s.cores s.core j c h

/-! ### Registers (R17) -/

/-- s0 reads zero. -/
@[simp] theorem getS_zero (r : Regs) : r.getS (0#5) = 0 := rfl

/-- A write to s0 is discarded. -/
@[simp] theorem setS_zero (r : Regs) (x : Word) : r.setS (0#5) x = r := rfl

/-- A register that was written, and the others. -/
theorem getS_setS (r : Regs) (i j : BitVec 5) (x : Word) :
    (r.setS i x).getS j = if j = i ∧ i ≠ 0 then x else r.getS j := by
  by_cases hi : i = 0
  · subst hi; rw [if_neg (fun h => h.2 rfl)]; rfl
  · by_cases hj : j = i
    · subst hj
      rw [if_pos ⟨rfl, hi⟩]; unfold Regs.getS Regs.setS; rw [if_neg hi, if_neg hi]; simp
    · have hne : i.toNat ≠ j.toNat := fun e => hj (BitVec.eq_of_toNat_eq e.symm)
      rw [if_neg (fun h => hj h.1)]; unfold Regs.getS Regs.setS; rw [if_neg hi]; split
      · rfl
      · simp [hne]

/-- p0 reads true. -/
@[simp] theorem getP_zero (r : Regs) : r.getP (0#3) = true := rfl

/-- A write to p0 is discarded. -/
@[simp] theorem setP_zero (r : Regs) (x : Bool) : r.setP (0#3) x = r := rfl

/-- A register that was written, and the others. -/
theorem getP_setP (r : Regs) (i j : BitVec 3) (x : Bool) :
    (r.setP i x).getP j = if j = i ∧ i ≠ 0 then x else r.getP j := by
  by_cases hi : i = 0
  · subst hi; rw [if_neg (fun h => h.2 rfl)]; rfl
  · by_cases hj : j = i
    · subst hj
      rw [if_pos ⟨rfl, hi⟩]; unfold Regs.getP Regs.setP; rw [if_neg hi, if_neg hi]; simp
    · have hne : i.toNat ≠ j.toNat := fun e => hj (BitVec.eq_of_toNat_eq e.symm)
      rw [if_neg (fun h => hj h.1)]; unfold Regs.getP Regs.setP; rw [if_neg hi]; split
      · rfl
      · simp [hne]

/-- m0 reads all ones. -/
@[simp] theorem getM_zero (r : Regs) : r.getM (0#3) = BitVec.allOnes 256 := rfl

/-- A write to m0 is discarded. -/
@[simp] theorem setM_zero (r : Regs) (x : Mask) : r.setM (0#3) x = r := rfl

/-- A register that was written, and the others. -/
theorem getM_setM (r : Regs) (i j : BitVec 3) (x : Mask) :
    (r.setM i x).getM j = if j = i ∧ i ≠ 0 then x else r.getM j := by
  by_cases hi : i = 0
  · subst hi; rw [if_neg (fun h => h.2 rfl)]; rfl
  · by_cases hj : j = i
    · subst hj
      rw [if_pos ⟨rfl, hi⟩]; unfold Regs.getM Regs.setM; rw [if_neg hi, if_neg hi]; simp
    · have hne : i.toNat ≠ j.toNat := fun e => hj (BitVec.eq_of_toNat_eq e.symm)
      rw [if_neg (fun h => hj h.1)]; unfold Regs.getM Regs.setM; rw [if_neg hi]; split
      · rfl
      · simp [hne]

/-- A register that was written, and the others. -/
theorem getV_setV (r : Regs) (i j : BitVec 5) (x : Vec) : (r.setV i x).getV j = if j = i then x else r.getV j := by
  by_cases hj : j = i
  · subst hj; simp [Regs.getV, Regs.setV]
  · have hne : i.toNat ≠ j.toNat := fun e => hj (BitVec.eq_of_toNat_eq e.symm)
    simp [Regs.getV, Regs.setV, hj, hne]

/-- A register that was written, and the others. -/
theorem getA_setA (r : Regs) (i j : BitVec 4) (x : Acc) : (r.setA i x).getA j = if j = i then x else r.getA j := by
  by_cases hj : j = i
  · subst hj; simp [Regs.getA, Regs.setA]
  · have hne : i.toNat ≠ j.toNat := fun e => hj (BitVec.eq_of_toNat_eq e.symm)
    simp [Regs.getA, Regs.setA, hj, hne]

end Sys2Proof.Machine
end

