-- ==== Sys2Proof/Laws/Ops.lean ====
section
/-! SUPPORT. What the shared operations of the words can do: the guard, a wait, a fault, a write of one register. -/

namespace Sys2Proof.Machine

/-! ### The guard (R56) -/

/-- A word whose guard is true acts. -/
theorem guarded_true {h : Head} {s : State} (f : State → Out) (g : s.rp h.g = true) : guarded h s f = f s := by
  simp [guarded, g]

/-- A word whose guard is false does nothing. -/
theorem guarded_false {h : Head} {s : State} (f : State → Out) (g : s.rp h.g = false) : guarded h s f = .next s := by
  simp [guarded, g]

/-- p0 as a guard is always true. -/
@[simp] theorem rp_zero (s : State) : s.rp 0 = true := by simp [State.rp, Regs.getP]

/-! ### Waits and faults -/

/-- A wait changes nothing but its mark. -/
theorem stall_eq (s : State) : stall s = .next { s with mark := .stall } := rfl

/-- A fault found at issue always goes on: a trap, or the firmware context's restart. -/
theorem raiseAt_next (s : State) (k : Cause) (a : Word) : ∃ t, raiseAt s k a = .next t := by
  unfold raiseAt; split <;> exact ⟨_, rfl⟩

/-- What a fault of the unit context at issue does: it starts its trap. -/
theorem raiseAt_unit {s : State} (k : Cause) (a : Word) (hf : s.fw = false) :
    raiseAt s k a = .next (startTrap s s.core none (.at k s.ctx.pc (BitVec.ofNat 2 s.word) a)) := by
  simp [raiseAt, hf]

/-- A trap for which everything that must finish first has finished is taken at once. -/
theorem startTrap_ready {s : State} {c : Fin 512} (id : Option Nat) (t : TrapInfo) (h : trapReady s c = true) :
    startTrap s c id t = takeTrap s c id t := by
  simp [startTrap, h]

/-- A trap that must wait changes nothing but what it is and that it waits. -/
theorem startTrap_waits {s : State} {c : Fin 512} (id : Option Nat) (t : TrapInfo) (h : trapReady s c = false) :
    startTrap s c id t = { s.putCore c { s.cores[c] with trap := some (t, id) } with mark := .trap } := by
  simp [startTrap, h]

/-- After a trap has started the mark says so. -/
@[simp] theorem startTrap_mark (s : State) (c : Fin 512) (id : Option Nat) (t : TrapInfo) : (startTrap s c id t).mark = .trap := by
  unfold startTrap; split <;> rfl

/-- What a fault of the firmware context at issue does. -/
theorem raiseAt_fw {s : State} (k : Cause) (a : Word) (hf : s.fw = true) :
    raiseAt s k a = .next (fwFault s s.core k) := by
  simp [raiseAt, hf]

/-- A check that passes. -/
@[simp] theorem onRes_ok {α : Type} (a : α) (s : State) (ea : Word) (f : α → Out) : onRes (.ok a) s ea f = f a := rfl

/-- A check that fails. -/
@[simp] theorem onRes_fail {α : Type} (k : Cause) (s : State) (ea : Word) (f : α → Out) :
    onRes (.fail k) s ea f = raiseAt s k ea := rfl

/-- After a trap or a restart of firmware the mark says so. -/
@[simp] theorem takeTrap_mark (s : State) (c : Fin 512) (id : Option Nat) (t : TrapInfo) : (takeTrap s c id t).mark = .trap := rfl
@[simp] theorem fwFault_mark (s : State) (c : Fin 512) (k : Cause) : (fwFault s c k).mark = .trap := rfl

/-! ### A write of one register leaves the rest alone -/

@[simp] theorem getP_setS (r : Regs) (i : BitVec 5) (j : BitVec 3) (x : Word) : (r.setS i x).getP j = r.getP j := by
  unfold Regs.setS; split <;> rfl
@[simp] theorem getV_setS (r : Regs) (i : BitVec 5) (j : BitVec 5) (x : Word) : (r.setS i x).getV j = r.getV j := by
  unfold Regs.setS; split <;> rfl
@[simp] theorem getM_setS (r : Regs) (i : BitVec 5) (j : BitVec 3) (x : Word) : (r.setS i x).getM j = r.getM j := by
  unfold Regs.setS; split <;> rfl
@[simp] theorem getA_setS (r : Regs) (i : BitVec 5) (j : BitVec 4) (x : Word) : (r.setS i x).getA j = r.getA j := by
  unfold Regs.setS; split <;> rfl
@[simp] theorem getS_setP (r : Regs) (i : BitVec 3) (j : BitVec 5) (x : Bool) : (r.setP i x).getS j = r.getS j := by
  unfold Regs.setP; split <;> rfl
@[simp] theorem getV_setP (r : Regs) (i : BitVec 3) (j : BitVec 5) (x : Bool) : (r.setP i x).getV j = r.getV j := by
  unfold Regs.setP; split <;> rfl
@[simp] theorem getM_setP (r : Regs) (i : BitVec 3) (j : BitVec 3) (x : Bool) : (r.setP i x).getM j = r.getM j := by
  unfold Regs.setP; split <;> rfl
@[simp] theorem getA_setP (r : Regs) (i : BitVec 3) (j : BitVec 4) (x : Bool) : (r.setP i x).getA j = r.getA j := by
  unfold Regs.setP; split <;> rfl
@[simp] theorem getS_setV (r : Regs) (i : BitVec 5) (j : BitVec 5) (x : Vec) : (r.setV i x).getS j = r.getS j := rfl
@[simp] theorem getP_setV (r : Regs) (i : BitVec 5) (j : BitVec 3) (x : Vec) : (r.setV i x).getP j = r.getP j := rfl
@[simp] theorem getM_setV (r : Regs) (i : BitVec 5) (j : BitVec 3) (x : Vec) : (r.setV i x).getM j = r.getM j := rfl
@[simp] theorem getA_setV (r : Regs) (i : BitVec 5) (j : BitVec 4) (x : Vec) : (r.setV i x).getA j = r.getA j := rfl
@[simp] theorem getS_setM (r : Regs) (i : BitVec 3) (j : BitVec 5) (x : Mask) : (r.setM i x).getS j = r.getS j := by
  unfold Regs.setM; split <;> rfl
@[simp] theorem getP_setM (r : Regs) (i : BitVec 3) (j : BitVec 3) (x : Mask) : (r.setM i x).getP j = r.getP j := by
  unfold Regs.setM; split <;> rfl
@[simp] theorem getV_setM (r : Regs) (i : BitVec 3) (j : BitVec 5) (x : Mask) : (r.setM i x).getV j = r.getV j := by
  unfold Regs.setM; split <;> rfl
@[simp] theorem getA_setM (r : Regs) (i : BitVec 3) (j : BitVec 4) (x : Mask) : (r.setM i x).getA j = r.getA j := by
  unfold Regs.setM; split <;> rfl
@[simp] theorem getS_setA (r : Regs) (i : BitVec 4) (j : BitVec 5) (x : Acc) : (r.setA i x).getS j = r.getS j := rfl
@[simp] theorem getP_setA (r : Regs) (i : BitVec 4) (j : BitVec 3) (x : Acc) : (r.setA i x).getP j = r.getP j := rfl
@[simp] theorem getV_setA (r : Regs) (i : BitVec 4) (j : BitVec 5) (x : Acc) : (r.setA i x).getV j = r.getV j := rfl
@[simp] theorem getM_setA (r : Regs) (i : BitVec 4) (j : BitVec 3) (x : Acc) : (r.setA i x).getM j = r.getM j := rfl

/-- The acting core after its acting context is replaced. -/
@[simp] theorem setCtx_cur (s : State) (x : Ctx) : (s.setCtx x).cur = s.cur.setCtx s.fw x := by simp [State.setCtx]

/-- Writing the registers that stand changes nothing. -/
@[simp] theorem setRegs_self (s : State) : s.setRegs s.ctx.regs = s := setCtx_self s

/-- A write to s0, p0 or m0 changes nothing at all. -/
@[simp] theorem wrS_zero (s : State) (x : Word) : s.wrS (0#5) x = s := setRegs_self s
@[simp] theorem wrP_zero (s : State) (x : Bool) : s.wrP (0#3) x = s := setRegs_self s
@[simp] theorem wrM_zero (s : State) (x : Mask) : s.wrM (0#3) x = s := setRegs_self s

/-- Any change of the acting context's registers is a change of registers only. -/
theorem onlyRegs_setRegs (s : State) (r : Regs) : OnlyRegs s (s.setRegs r) := by
  refine ⟨⟨fun _ => rfl, rfl⟩, ⟨rfl, rfl, rfl, rfl, rfl, rfl, rfl⟩, ?_, ?_, ?_, rfl, rfl, rfl, rfl⟩
  · intro c hc
    exact vput_other _ _ _ _ (Ne.symm hc)
  · simp [SameShared, State.setRegs]
  · simp [SameButRegs]

/-- No register changes but the one written. -/
theorem otherRegs_wrS (s : State) (i : BitVec 5) (x : Word) : OtherRegs s (s.wrS i x) (.s i) :=
  ⟨fun r hr => by
      have h : r ≠ i := fun e => hr (e ▸ rfl)
      simp [State.wrS, getS_setS, h],
    fun r _ => by simp [State.wrS],
    fun r _ => by simp [State.wrS],
    fun r _ => by simp [State.wrS],
    fun r _ => by simp [State.wrS]⟩

/-- No register changes but the one written. -/
theorem otherRegs_wrP (s : State) (i : BitVec 3) (x : Bool) : OtherRegs s (s.wrP i x) (.p i) :=
  ⟨fun r _ => by simp [State.wrP],
    fun r hr => by
      have h : r ≠ i := fun e => hr (e ▸ rfl)
      simp [State.wrP, getP_setP, h],
    fun r _ => by simp [State.wrP],
    fun r _ => by simp [State.wrP],
    fun r _ => by simp [State.wrP]⟩

/-- No register changes but the one written. -/
theorem otherRegs_wrV (s : State) (i : BitVec 5) (x : Vec) : OtherRegs s (s.wrV i x) (.v i) :=
  ⟨fun r _ => by simp [State.wrV],
    fun r _ => by simp [State.wrV],
    fun r hr => by
      have h : r ≠ i := fun e => hr (e ▸ rfl)
      simp [State.wrV, getV_setV, h],
    fun r _ => by simp [State.wrV],
    fun r _ => by simp [State.wrV]⟩

/-- No register changes but the one written. -/
theorem otherRegs_wrM (s : State) (i : BitVec 3) (x : Mask) : OtherRegs s (s.wrM i x) (.m i) :=
  ⟨fun r _ => by simp [State.wrM],
    fun r _ => by simp [State.wrM],
    fun r _ => by simp [State.wrM],
    fun r hr => by
      have h : r ≠ i := fun e => hr (e ▸ rfl)
      simp [State.wrM, getM_setM, h],
    fun r _ => by simp [State.wrM]⟩

/-- No register changes but the one written. -/
theorem otherRegs_wrA (s : State) (i : BitVec 4) (x : Acc) : OtherRegs s (s.wrA i x) (.a i) :=
  ⟨fun r _ => by simp [State.wrA],
    fun r _ => by simp [State.wrA],
    fun r _ => by simp [State.wrA],
    fun r _ => by simp [State.wrA],
    fun r hr => by
      have h : r ≠ i := fun e => hr (e ▸ rfl)
      simp [State.wrA, getA_setA, h]⟩

end Sys2Proof.Machine
end

