-- ==== Sys2Proof/Machine/Cipher.lean ====
section
/-! DEFINITION. What the keys make of the state: the ciphertext and TAG of a block, tag words, leaves and nodes with their tags (R334,
R339, R340), and messages and flits as they are sealed (R336, R357, R366). Memory and messages are held as their owners read them; these
are the bits that lie in HBM and on the links. -/

namespace Sys2Proof.Machine

/-! ### Memory format (R334) -/

/-- The round keys of the key of a serial number. -/
def serialKeys (serial : Nat) : List (List Nat) := keysOf (Config.keyBits serial)

/-- R334: CB(j) of a block. -/
def counterBlock (va : Word) (major : BitVec 61) (minor : BitVec 7) (j : BitVec 3) : BitVec 128 := va.extractLsb' 6 57 ++ major ++ minor ++ j

/-- R334: the ciphertext of a block's 64 bytes. The same operation opens it. -/
def blockCrypt (keys : List (List Nat)) (va : Word) (major : BitVec 61) (minor : BitVec 7) (bs : List Nat) : List Nat :=
  (List.range 4).flatMap fun j =>
    xorBytes ((bs.drop (16 * j)).take 16) (msbBytes 16 (aes keys (counterBlock va major minor (BitVec.ofNat 3 j)).toNat))

/-- R334: the TAG of a block's ciphertext, which binds its address and its capability tags. -/
def blockTagBits (keys : List (List Nat)) (va : Word) (major : BitVec 61) (minor : BitVec 7) (ctag : BitVec 4) (cipher : List Nat) : BitVec 56 :=
  let a : BitVec 128 := va ++ (0 : BitVec 60) ++ ctag
  BitVec.ofNat 56 ((ghash (aes keys 0) (msbBytes 16 a.toNat) cipher ^^^ aes keys (counterBlock va major minor 4).toNat) / 2 ^ 72)

/-- R339, R344: CTAG of a block of a die. -/
def ctagOf (s : State) (d : Fin 4) (block : Nat) : BitVec 4 :=
  BitVec.ofNat 4 ((List.range 4).foldl (fun n g => n + 2 ^ g * (s.tagged (hbmAddr d (64 * block + 16 * g))).toNat) 0)

/-- R334: the ciphertext of a written block of a die. None for one that has never been written. (PRESUMED: log 6.) -/
def cipherOf (s : State) (d : Fin 4) (block : Nat) : Option (List Byte) :=
  (tagOf s.dies[d] block).map fun t =>
    toBytes (blockCrypt (serialKeys t.key) t.va t.major t.minor (ofBytes (s.load (hbmAddr d (64 * block)) 64)))

/-! ### Leaves, nodes and tag words (R338 to R340) -/

/-- R339: the 64 bytes of a leaf, as a number. -/
def leafImage (l : Leaf) : BitVec 512 :=
  BitVec.ofNat 512 ((List.finRange 64).foldl (fun n k => n + (l.minors[k]).toNat * 2 ^ (64 + 7 * k.val))
    (l.ksel.toNat * 2 ^ 63 + l.z.toNat * 2 ^ 62 + l.major.toNat))

/-- R340: the counter that a parent holds for a node of levels 0 to 3. -/
def parentCount (d : Die) (level node : Nat) : BitVec 56 := BitVec.ofNat 56 ((d.nodes.lookup (level, node)).getD 0)

/-- R338: the stack of a node: it holds 2^24 leaves. -/
def nodeStack (level node : Nat) : Nat := node / 2 ^ (24 - 3 * level)

/-- R340: the tag of a node in HBM: the leading 64 bits of a GMAC under its stack's tree key. Where the metadata area holds a node is
free. (DEDUCED: log 49.) -/
def nodeMac (s : State) (d : Fin 4) (level node : Nat) (counters : List Nat) : BitVec 64 :=
  let stack := nodeStack level node
  let keys := serialKeys s.hub.treeKeys[ix 8 (2 * d.val + stack)]
  let nonce : BitVec 96 := Config.metaAddr stack level node ++ parentCount s.dies[d] level node
  BitVec.ofNat 64 (gcmTag keys nonce counters [] / 2 ^ 64)

/-- R339, R340: the tag of a leaf, which LT of the first sixteen tag words of its page holds. (DEDUCED: log 49.) -/
def leafMac (s : State) (d : Fin 4) (page : Nat) : BitVec 64 :=
  nodeMac s d 0 page (ofBytes (leBytes 64 (leafImage (leafOf s.dies[d] page)).toNat))

/-- R340: the eight counters of an upper node. -/
def nodeCounters (d : Die) (level node : Nat) : BitVec 448 :=
  BitVec.ofNat 448 ((List.range 8).foldl (fun n k => n + (parentCount d (level - 1) (8 * node + k)).toNat * 2 ^ (56 * k)) 0)

/-- R338, R340: the 64 bytes of an upper node: its counters, and a tag where it lies in HBM. -/
def nodeImage (s : State) (d : Fin 4) (level node : Nat) : BitVec 512 :=
  let counters := nodeCounters s.dies[d] level node
  let mac : BitVec 64 := if level ≤ 3 then nodeMac s d level node (ofBytes (leBytes 56 counters.toNat)) else 0
  mac ++ counters

/-- R339: the tag word of a block: TAG, CTAG and LT. (PRESUMED: log 6.) -/
def tagWord (s : State) (d : Fin 4) (block : Nat) : Option Word :=
  (tagOf s.dies[d] block).map fun t =>
    let ctag := ctagOf s d block
    let keys := serialKeys t.key
    let cipher := blockCrypt keys t.va t.major t.minor (ofBytes (s.load (hbmAddr d (64 * block)) 64))
    let k := block % 64
    let lt : BitVec 4 := if k < 16 then (leafMac s d (block / 64)).extractLsb' (4 * k) 4 else 0
    blockTagBits keys t.va t.major t.minor ctag cipher ++ ctag ++ lt

/-! ### Messages and flits (R336, R357, R366) -/

/-- R357: the 32-byte header of a message. (DEDUCED: log 49.) -/
def msgHeader (m : Msg) : BitVec 256 :=
  m.carry1 ++ m.carry0 ++ m.token ++ m.fdid ++ m.addr ++ m.dpkg ++ m.ddie ++ (0 : BitVec 6) ++ m.spkg ++ m.sdie ++ m.sclu ++ m.score ++
    (0 : BitVec 7) ++ m.len ++ (0 : BitVec 48) ++ m.opx ++ BitVec.ofBool m.cls ++ (0 : BitVec 2) ++ m.kind

/-- R336: the nonce of both layers. -/
def streamNonce (epoch : Bool) (sid : BitVec 40) (iv : BitVec 48) : BitVec 96 := (0 : BitVec 7) ++ BitVec.ofBool epoch ++ sid ++ iv

/-- R336: bytes sealed under a key: the ciphertext and a tag of 128 bits, with more bytes bound into it. -/
def gcmSeal (key : BitVec 256) (nonce : BitVec 96) (aad bs : List Byte) : List Byte :=
  let keys := keysOf key
  let cipher := gcmCrypt keys nonce (ofBytes bs)
  toBytes (cipher ++ msbBytes 16 (gcmTag keys nonce (ofBytes aad) cipher))

/-- R331, R336: the bits of a partition's XPORT key of an epoch. (DEDUCED: log 49.) -/
def xportKey (s : State) (p : Fin 16) (epoch : Bool) : Option (BitVec 256) :=
  (s.hub.keys.toList.find? fun k => k.st != .free && k.cls == 1 && k.part == p && k.epoch == epoch).map fun k => Config.keyBits k.serial

/-- R336: the link-layer key of a UCIe link group and direction. (DEDUCED: log 49.) -/
def ucieKey (xport : BitVec 256) (group dir : Nat) : BitVec 256 := hkdf256 (msbBytes 32 xport.toNat) [group, dir]

/-- R366: the keys of a session: of a link of the requester in a direction, and of the pair of packages. (DEDUCED: log 49.) -/
def linkKey (session : Session) (link dir : Nat) (fdid : BitVec 16) (epoch : Bool) : BitVec 256 :=
  hkdf256 (msbBytes 64 (Config.masterSecret session.id session.shared).toNat) ([0x6C, 0x69, 0x6E, 0x6B, link, dir] ++ msbBytes 2 fdid.toNat ++ [epoch.toNat])
def pairKey (session : Session) (fdid : BitVec 16) (epoch : Bool) : BitVec 256 :=
  hkdf256 (msbBytes 64 (Config.masterSecret session.id session.shared).toNat) ([0x70, 0x61, 0x69, 0x72] ++ msbBytes 2 fdid.toNat ++ [epoch.toNat])

/-- R366: the session with a package. -/
def sessionWith (s : State) (p : Pkg) : Option Session := s.fabric.sessions.find? fun e => e.live && e.peer == some p

/-- R333, R336: a message to another package as an edge of a protected partition seals it: the header in clear, then the payload under the
pair transport key with the header bound into its tag. -/
def sealedMsg (s : State) (edge : Fin 64) (m : Msg) : Option (List Byte) :=
  (sessionWith s m.dpkg).map fun ses =>
    let hdr := leBytes 32 (msgHeader m).toNat
    hdr ++ gcmSeal (pairKey ses m.fdid m.epoch) (streamNonce m.epoch (edgeSid s edge) m.iv) hdr m.payload

/-- R366: the requester's link and the direction of what this package sends to another over its link k, 0 away from the requester. The package
with the lower number is the requester. (DEDUCED: log 49.) -/
def linkOf (s : State) (k : Fin 6) (far : Pkg) : Nat × Nat :=
  if (ownPkg s).toNat < far.toNat then (k.val, 0) else (if switched s then k.val else k.val ^^^ 1, 1)

/-- R333: the same over a link: all of it under the link key of the package at the far end. -/
def sealedOnLink (s : State) (k : Fin 6) (far : Pkg) (m : Msg) (epoch : Bool) (iv : BitVec 48) (bs : List Byte) : Option (List Byte) :=
  (sessionWith s far).map fun ses => gcmSeal (linkKey ses (linkOf s k far).1 (linkOf s k far).2 m.fdid epoch) (streamNonce epoch (linkSid s k) iv) [] bs

end Sys2Proof.Machine
end

