-- ==== Sys2Proof/Tests/Slice0.lean ====
section
/-! SUPPORT. The session's own tests: the checks of well-formedness, the encodings of the spec written out, single steps,
and a witness for the hypotheses of each statement. -/

namespace Sys2Proof.Tests

open Sys2Proof Sys2Proof.Machine

set_option Elab.async false

/-! ### Well-formedness -/

/-- R76: a shift of ADDSH above 6. -/
theorem test_ill_addsh : WellFormed (.addsh ⟨false, 0⟩ 1 2 3 7) = false := by decide

/-- R60: a guard of TRET. -/
theorem test_ill_tret : WellFormed (.tret ⟨false, 1⟩) = false ∧ decodeWord 0x1D200000 = none := by decide

/-- R87: a LOOP offset that is not positive. -/
theorem test_ill_loop : WellFormed (.loop ⟨false, 0⟩ 1 0xFFFF) = false := by decide

/-- R17: a control register that R17 does not list. -/
theorem test_ill_ctl : (WellFormed (.crd ⟨false, 0⟩ 1 0x004) || WellFormed (.cwr ⟨false, 0⟩ 1 0x140)) = false := by decide

/-- R92, R93: a wait kind above 2. -/
theorem test_ill_wait : (WellFormed (.suspend ⟨false, 0⟩ 3) || WellFormed (.post ⟨false, 0⟩ 1 2 3)) = false := by decide

/-- R102: saturating words are for integers; R106: unsigned comparisons too. -/
theorem test_ill_int : (WellFormed (.vadds ⟨false, 0⟩ 0 1 2 3 .f32) || WellFormed (.vsubs ⟨false, 0⟩ 0 1 2 3 .bf16) ||
    WellFormed (.vcmpLtu ⟨false, 0⟩ 0 1 2 3 .f16)) = false := by decide

/-- R112: an exact conversion takes no rounding mode. -/
theorem test_ill_vcvt : WellFormed (.vcvt ⟨false, 0⟩ 0 1 2 .bf16F32 .rtz) = false := by decide

/-- R113: a companding table above 4, or one for BF16. -/
theorem test_ill_table : (WellFormed (.vqrec ⟨false, 0⟩ 5 1 2 .e4m3) || WellFormed (.mqnt ⟨false, 0⟩ 1 2 .bf16 1)) = false := by
  decide

/-- R180: an MMA with no descriptor, and a register MMA of record type. -/
theorem test_ill_mma : (WellFormed (.mmaDesc ⟨false, 0⟩ 1 0 2 .bf16) || WellFormed (.mmaRmt ⟨false, 0⟩ 1 2 0 .bf16) ||
    WellFormed (.mmaReg ⟨false, 0⟩ 1 2 3 .recd)) = false := by decide

/-- R344: a capability pair of number 0. -/
theorem test_ill_cap : (WellFormed (.capdrv ⟨false, 0⟩ 1 2 0) || WellFormed (.capchk ⟨false, 0⟩ 1 2 0) ||
    WellFormed (.capld ⟨false, 0⟩ 0 2 3)) = false := by decide

/-- R379: a jump to itself. -/
theorem test_ill_jump : (WellFormed (.topiaryJz 0) || WellFormed (.topiaryJmp 0)) = false := by decide

/-- R222: a slot that the record's length does not hold. -/
theorem test_ill_wtask : WellFormed (.wtask ⟨1, false, false, 0, #v[1, 1, 1, 1, 1, 1], 0, 0, 0, 0,
    #v[WSlot.zero, WSlot.zero, WSlot.zero, ⟨1, 0, 0, 0⟩, WSlot.zero, WSlot.zero, WSlot.zero, WSlot.zero]⟩) = false := by
  decide

/-- R224, R232: an operand that its flag says is absent. -/
theorem test_ill_flag : (WellFormed (.wcall false 1 0 0) || WellFormed (.wsignalSt false 0 1 0 0) ||
    WellFormed (.wsignalAdd false 0 1 0 0)) = false := by decide

/-! ### Tile words and Topiary operations -/

/-- Words written from the fields of the opcode table (R58 to R66, R381). -/
theorem test_decode_scalar_1 :
    ([(0x804DA880, .add ⟨true, 2⟩ 13 21 2),
      (0x002C9881, .sub ⟨false, 1⟩ 12 19 2),
      (0x00037382, .and ⟨false, 0⟩ 3 14 14),
      (0x00639383, .or ⟨false, 3⟩ 3 18 14),
      (0x003F4544, .xor ⟨false, 1⟩ 31 8 21),
      (0x00C24085, .sll ⟨false, 6⟩ 2 8 2),
      (0x008E2C86, .srl ⟨false, 4⟩ 14 5 18),
      (0x0092DD87, .sra ⟨false, 4⟩ 18 27 22),
      (0x00339D48, .min ⟨false, 1⟩ 19 19 21),
      (0x00A495C9, .max ⟨false, 5⟩ 4 18 23),
      (0x00143C0A, .minu ⟨false, 0⟩ 20 7 16),
      (0x80AF9F8B, .maxu ⟨true, 5⟩ 15 19 30)] : List (BitVec 32 × Instr)).all
      (fun x => decodeWord x.1 == some x.2) = true := by decide +kernel

/-- Words written from the fields of the opcode table (R58 to R66, R381). -/
theorem test_decode_scalar_2 :
    ([(0x80AA468C, .mul ⟨true, 5⟩ 10 8 26),
      (0x00639A8D, .mulh ⟨false, 3⟩ 3 19 10),
      (0x80B87A8E, .mulhu ⟨true, 5⟩ 24 15 10),
      (0x0031718F, .div ⟨false, 1⟩ 17 14 6),
      (0x805E8390, .divu ⟨true, 2⟩ 30 16 14),
      (0x003994D1, .rem ⟨false, 1⟩ 25 18 19),
      (0x80B76512, .remu ⟨true, 5⟩ 23 12 20),
      (0x80E3D813, .clz ⟨true, 7⟩ 3 27),
      (0x0090B814, .ctz ⟨false, 4⟩ 16 23),
      (0x0018B815, .popc ⟨false, 0⟩ 24 23),
      (0x80EABB56, .andn ⟨true, 7⟩ 10 23 13),
      (0x801F7B17, .orn ⟨true, 0⟩ 31 15 12)] : List (BitVec 32 × Instr)).all
      (fun x => decodeWord x.1 == some x.2) = true := by decide +kernel

/-- Words written from the fields of the opcode table (R58 to R66, R381). -/
theorem test_decode_scalar_3 :
    ([(0x013011BF, .addi ⟨false, 1⟩ 16 2 447),
      (0x8258432F, .andi ⟨true, 2⟩ 24 8 815),
      (0x83E33398, .ori ⟨true, 7⟩ 3 6 920),
      (0x849D2E8E, .xori ⟨true, 4⟩ 29 5 1678),
      (0x85977017, .slli ⟨true, 4⟩ 23 14 23),
      (0x85651A0C, .srli ⟨true, 3⟩ 5 3 12),
      (0x05764401, .srai ⟨false, 3⟩ 22 8 1),
      (0x8649482D, .li ⟨true, 2⟩ 9 18477),
      (0x074E88DB, .li16 ⟨false, 2⟩ 14 35035),
      (0x88BF2021, .li32 ⟨true, 5⟩ 31 8225),
      (0x09FDDEF9, .li48 ⟨false, 7⟩ 29 57081),
      (0x8AC46900, .cmpEq ⟨true, 6⟩ 4 13 4)] : List (BitVec 32 × Instr)).all
      (fun x => decodeWord x.1 == some x.2) = true := by decide +kernel

/-- Words written from the fields of the opcode table (R58 to R66, R381). -/
theorem test_decode_scalar_4 :
    ([(0x8AC138C1, .cmpNe ⟨true, 6⟩ 1 7 3),
      (0x0AE222C2, .cmpLt ⟨false, 7⟩ 2 4 11),
      (0x0A219943, .cmpLe ⟨false, 1⟩ 1 19 5),
      (0x0AA508C4, .cmpLtu ⟨false, 5⟩ 5 1 3),
      (0x0AC2AA45, .cmpLeu ⟨false, 6⟩ 2 21 9),
      (0x8AA40846, .pand ⟨true, 5⟩ 4 1 1),
      (0x8AE420C7, .por ⟨true, 7⟩ 4 4 3),
      (0x0A4130C8, .pxor ⟨false, 2⟩ 1 6 3),
      (0x8AE73089, .pandn ⟨true, 7⟩ 7 6 2),
      (0x0B656026, .cmpiEq ⟨false, 3⟩ 5 12 38),
      (0x0B86E118, .cmpiNe ⟨false, 4⟩ 6 28 24),
      (0x8BA262C6, .cmpiLt ⟨true, 5⟩ 2 12 198)] : List (BitVec 32 × Instr)).all
      (fun x => decodeWord x.1 == some x.2) = true := by decide +kernel

/-- Words written from the fields of the opcode table (R58 to R66, R381). -/
theorem test_decode_scalar_5 :
    ([(0x0BA6439D, .cmpiGe ⟨false, 5⟩ 6 8 157),
      (0x0B676CBE, .cmpiLtu ⟨false, 3⟩ 7 13 190),
      (0x0B65855C, .cmpiGeu ⟨false, 3⟩ 5 16 92),
      (0x0C1A4C03, .sel ⟨false, 0⟩ 26 9 16 3),
      (0x0DAFD785, .addsh ⟨false, 5⟩ 15 26 30 5)] : List (BitVec 32 × Instr)).all
      (fun x => decodeWord x.1 == some x.2) = true := by decide +kernel

/-- Words written from the fields of the opcode table (R58 to R66, R381). -/
theorem test_decode_control_1 :
    ([(0x90A0149F, .br ⟨true, 5⟩ 5279),
      (0x11287858, .call ⟨false, 1⟩ 8 30808),
      (0x12A03800, .jr ⟨false, 5⟩ 7),
      (0x93100123, .loop ⟨true, 0⟩ 16 291),
      (0x983B0051, .crd ⟨true, 1⟩ 27 81),
      (0x19C0D051, .cwr ⟨false, 6⟩ 26 81),
      (0x1AE00000, .fenceCore ⟨false, 7⟩),
      (0x1AC00001, .fenceCluster ⟨false, 6⟩),
      (0x9A200002, .fenceDie ⟨true, 1⟩),
      (0x9AE00003, .fencePkg ⟨true, 7⟩),
      (0x9A200004, .fenceSys ⟨true, 1⟩),
      (0x1B400000, .done ⟨false, 2⟩)] : List (BitVec 32 × Instr)).all
      (fun x => decodeWord x.1 == some x.2) = true := by decide +kernel

/-- Words written from the fields of the opcode table (R58 to R66, R381). -/
theorem test_decode_control_2 :
    ([(0x1B000081, .suspend ⟨false, 0⟩ 2),
      (0x9B54D882, .post ⟨true, 2⟩ 20 27 2),
      (0x9CA00140, .trap ⟨true, 5⟩ 320),
      (0x1D000000, .tret ⟨false, 0⟩)] : List (BitVec 32 × Instr)).all
      (fun x => decodeWord x.1 == some x.2) = true := by decide +kernel

/-- Words written from the fields of the opcode table (R58 to R66, R381). -/
theorem test_decode_memory_1 :
    ([(0x3031C170, .ld ⟨false, 1⟩ 17 24 .u16 112),
      (0x3161494B, .ldAcq ⟨false, 3⟩ 1 9 .b16 75),
      (0x32A993D6, .st ⟨false, 5⟩ 9 18 .b64 214),
      (0x331EC2E6, .stRel ⟨false, 0⟩ 30 24 .b32 230),
      (0xB4C00000, .lsaln ⟨true, 6⟩),
      (0x35518843, .amoAdd ⟨false, 2⟩ 17 17 1 .w64),
      (0x3519D146, .amoAnd ⟨false, 0⟩ 25 26 5 .w32),
      (0x35F4C10A, .amoOr ⟨false, 7⟩ 20 24 4 .w32),
      (0xB5FAC90E, .amoXor ⟨true, 7⟩ 26 25 4 .w32),
      (0x35691652, .amoMin ⟨false, 3⟩ 9 2 25 .w32),
      (0xB519EF96, .amoMax ⟨true, 0⟩ 25 29 30 .w32),
      (0xB5B48D1A, .amoMinu ⟨true, 5⟩ 20 17 20 .w32)] : List (BitVec 32 × Instr)).all
      (fun x => decodeWord x.1 == some x.2) = true := by decide +kernel

/-- Words written from the fields of the opcode table (R58 to R66, R381). -/
theorem test_decode_memory_2 :
    ([(0xB5F1969F, .amoMaxu ⟨true, 7⟩ 17 18 26 .w64),
      (0x359E9762, .amoSwap ⟨false, 4⟩ 30 18 29 .w32),
      (0xB54E2367, .amoCas ⟨true, 2⟩ 14 4 13 .w64),
      (0xB6364382, .qst ⟨true, 1⟩ 22 8 14 false false .b32),
      (0x375FBD40, .mwaitNe ⟨false, 2⟩ 31 23 21),
      (0xB749E941, .mwaitEq ⟨true, 2⟩ 9 29 5)] : List (BitVec 32 × Instr)).all
      (fun x => decodeWord x.1 == some x.2) = true := by decide +kernel

/-- Words written from the fields of the opcode table (R58 to R66, R381). -/
theorem test_decode_vector_1 :
    ([(0xC07BE46B, .vadd ⟨true, 3⟩ 6 31 4 13 .i32),
      (0x416AEE8B, .vsub ⟨false, 3⟩ 2 23 14 17 .i32),
      (0xC2C98B1D, .vmul ⟨true, 6⟩ 2 12 11 3 .i8),
      (0xC30E4F7D, .vfma ⟨true, 0⟩ 3 18 15 15 .i8),
      (0x44CE3454, .vmin ⟨false, 6⟩ 3 17 20 10 .i16),
      (0x453D1D20, .vmax ⟨false, 1⟩ 7 8 29 4 .f32),
      (0xC687B930, .vdiv ⟨true, 4⟩ 1 29 25 6),
      (0xC75DDC00, .vsqrt ⟨true, 2⟩ 7 14 28),
      (0xC7CA5E08, .vexp2 ⟨true, 6⟩ 2 18 30),
      (0xC7A52215, .vabs ⟨true, 5⟩ 1 9 2 .i8),
      (0x47C53F18, .vneg ⟨false, 6⟩ 1 9 31 .f32),
      (0x48869C44, .vadds ⟨false, 4⟩ 1 20 28 8 .i16)] : List (BitVec 32 × Instr)).all
      (fun x => decodeWord x.1 == some x.2) = true := by decide +kernel

/-- Words written from the fields of the opcode table (R58 to R66, R381). -/
theorem test_decode_vector_2 :
    ([(0xC9302B94, .vsubs ⟨true, 1⟩ 4 1 11 18 .i16),
      (0xCA463740, .vand ⟨true, 2⟩ 1 17 23 8),
      (0x4A4C4639, .vor ⟨false, 2⟩ 3 2 6 7),
      (0xCA972752, .vxor ⟨true, 4⟩ 5 25 7 10),
      (0xCA4D9A0B, .vandn ⟨true, 2⟩ 3 12 26 1),
      (0xCB043888, .vsll ⟨true, 0⟩ 1 1 24 17),
      (0x4BEBCF21, .vsrl ⟨false, 7⟩ 2 30 15 4),
      (0xCBF77D6A, .vsra ⟨true, 7⟩ 5 27 29 13),
      (0xCB6967DB, .vslli ⟨true, 3⟩ 2 11 7 27),
      (0x4BCC5B2C, .vsrli ⟨false, 6⟩ 3 2 27 5),
      (0x4B3B1D4D, .vsrai ⟨false, 1⟩ 6 24 29 9),
      (0xCC4476D8, .vclmulLo ⟨true, 2⟩ 1 3 22 27)] : List (BitVec 32 × Instr)).all
      (fun x => decodeWord x.1 == some x.2) = true := by decide +kernel

/-- Words written from the fields of the opcode table (R58 to R66, R381). -/
theorem test_decode_vector_3 :
    ([(0xCC951751, .vclmulHi ⟨true, 4⟩ 5 8 23 10),
      (0x4DE8C978, .vpopc32 ⟨false, 7⟩ 2 6 9 15),
      (0x4D8FEB91, .vpopc64 ⟨false, 4⟩ 3 31 11 18),
      (0xCE646761, .vcmpEq ⟨true, 3⟩ 1 3 7 12 .bf16),
      (0x4FB0304C, .vcmpLt ⟨false, 5⟩ 4 1 16 9 .i16)] : List (BitVec 32 × Instr)).all
      (fun x => decodeWord x.1 == some x.2) = true := by decide +kernel

/-- Words written from the fields of the opcode table (R58 to R66, R381). -/
theorem test_decode_vector_memory_1 :
    ([(0x5074E11A, .vcmpLe ⟨false, 3⟩ 5 7 1 3 .f16),
      (0x5150A26C, .vcmpLtu ⟨false, 2⟩ 4 5 2 13 .i16),
      (0xD2984128, .mand ⟨true, 4⟩ 6 2 1 5),
      (0x52DC6621, .mor ⟨false, 6⟩ 7 3 6 4),
      (0x5298A612, .mxor ⟨false, 4⟩ 6 5 6 2),
      (0x52D8C72B, .mandn ⟨false, 6⟩ 6 6 7 5),
      (0x521CC504, .mnot ⟨false, 0⟩ 7 6 5),
      (0x52244205, .mcnt ⟨false, 1⟩ 1 2 2),
      (0xD2336406, .mfirst ⟨true, 1⟩ 4 27 4),
      (0x531A5640, .vperm32 ⟨false, 0⟩ 6 18 22 8),
      (0xD385FA19, .vslideup32 ⟨true, 4⟩ 1 15 26 3),
      (0x533B104A, .vslidedn32 ⟨false, 1⟩ 6 24 16 9)] : List (BitVec 32 × Instr)).all
      (fun x => decodeWord x.1 == some x.2) = true := by decide +kernel

/-- Words written from the fields of the opcode table (R58 to R66, R381). -/
theorem test_decode_vector_memory_2 :
    ([(0x538B1903, .vbcast32 ⟨false, 4⟩ 2 24 25),
      (0x537AAF04, .vcompress32 ⟨false, 3⟩ 6 21 15),
      (0xD3C61E05, .vexpand32 ⟨true, 6⟩ 1 16 30),
      (0xD316B506, .vmov32 ⟨true, 0⟩ 5 21 21),
      (0x5434AB48, .vperm8 ⟨false, 1⟩ 5 5 11 9),
      (0xD4460281, .vslideup8 ⟨true, 2⟩ 1 16 2 16),
      (0xD438F682, .vslidedn8 ⟨true, 1⟩ 6 7 22 16),
      (0xD491EF03, .vbcast8 ⟨true, 4⟩ 4 15 15),
      (0x546C7E04, .vcompress8 ⟨false, 3⟩ 3 3 30),
      (0xD40DE305, .vexpand8 ⟨true, 0⟩ 3 15 3),
      (0xD490FE06, .vmov8 ⟨true, 4⟩ 4 7 30),
      (0x55346528, .vrsum ⟨false, 1⟩ 5 3 5 .i8)] : List (BitVec 32 × Instr)).all
      (fun x => decodeWord x.1 == some x.2) = true := by decide +kernel

/-- Words written from the fields of the opcode table (R58 to R66, R381). -/
theorem test_decode_vector_memory_3 :
    ([(0xD5AA9B29, .vrmax ⟨true, 5⟩ 2 20 27 .i8),
      (0xD539881A, .vrmin ⟨true, 1⟩ 6 12 8 .i32),
      (0xD5C4C11B, .vscan ⟨true, 6⟩ 1 6 1 .i32),
      (0xD6CF0530, .vcvt ⟨true, 6⟩ 3 24 5 .f32E4m3 .rne),
      (0xD7A07C5A, .vqrec ⟨true, 5⟩ 3 7 11 .cb4),
      (0xD8BDA4F8, .vld ⟨true, 5⟩ 7 13 4 31),
      (0x58194961, .vlds ⟨false, 0⟩ 6 10 9 12),
      (0x58D3931A, .vgather ⟨false, 6⟩ 4 28 19 3),
      (0xD8DD200B, .vldq ⟨true, 6⟩ 7 9 1),
      (0xD9277650, .vst ⟨true, 1⟩ 1 27 22 10),
      (0x596DD159, .vsts ⟨false, 3⟩ 3 14 17 11),
      (0x59BFEEEA, .vscatter ⟨false, 5⟩ 7 31 14 29)] : List (BitVec 32 × Instr)).all
      (fun x => decodeWord x.1 == some x.2) = true := by decide +kernel

/-- Words written from the fields of the opcode table (R58 to R66, R381). -/
theorem test_decode_vector_memory_4 :
    ([(0x59D6400B, .vstq ⟨false, 6⟩ 5 18 1),
      (0x5A006E00, .vbind ⟨false, 0⟩ 3 14),
      (0xDA406001, .vunbind ⟨true, 2⟩ 3),
      (0xDBE7DE00, .vamoAddF32 ⟨true, 7⟩ 1 30 30),
      (0x5B51CB01, .vamoAddBf16 ⟨false, 2⟩ 4 14 11),
      (0xDC8F18AB, .vqst ⟨true, 4⟩ 3 24 24 21 true true)] : List (BitVec 32 × Instr)).all
      (fun x => decodeWord x.1 == some x.2) = true := by decide +kernel

/-- Words written from the fields of the opcode table (R58 to R66, R381). -/
theorem test_decode_matrix_1 :
    ([(0x60889598, .mmaDesc ⟨false, 4⟩ 8 9 11 .e4m3),
      (0x604B4129, .mmaReg ⟨false, 2⟩ 11 2 1 .int8),
      (0xE068F332, .mmaRmt ⟨true, 3⟩ 8 15 6 .cb4),
      (0xE1C39000, .mldF32 ⟨true, 6⟩ 3 18),
      (0x61623001, .mldRaw ⟨false, 3⟩ 2 6),
      (0xE22B2000, .mstF32 ⟨true, 1⟩ 11 4),
      (0xE29A5001, .mstRaw ⟨true, 4⟩ 26 10),
      (0x630C0000, .mzero ⟨false, 0⟩ 12),
      (0xE4C80000, .msmax ⟨true, 6⟩ 4),
      (0x65C93040, .mread ⟨false, 6⟩ 9 6 1),
      (0xE68AF880, .mwrite ⟨true, 4⟩ 10 31 2),
      (0x67624813, .mqnt ⟨false, 3⟩ 2 9 .cb4 3)] : List (BitVec 32 × Instr)).all
      (fun x => decodeWord x.1 == some x.2) = true := by decide +kernel

/-- Words written from the fields of the opcode table (R58 to R66, R381). -/
theorem test_decode_system_1 :
    ([(0xF0EEFA80, .cpy2d ⟨true, 7⟩ 14 31 10),
      (0x704275C1, .cpy2dCvtRelay ⟨false, 2⟩ 2 14 23),
      (0xF0E11B49, .cpy2dCvtQnt ⟨true, 7⟩ 1 3 13),
      (0xF0E8D111, .cpy2dCvtZexp ⟨true, 7⟩ 8 26 4),
      (0x70458D82, .cpy2dRedAddF32 ⟨false, 2⟩ 5 17 22),
      (0x70E3964A, .cpy2dRedAddBf16 ⟨false, 7⟩ 3 18 25),
      (0x701A2A12, .cpy2dRedMaxF32 ⟨false, 0⟩ 26 5 8),
      (0x709F2D5A, .cpy2dRedMinF32 ⟨false, 4⟩ 31 5 21),
      (0xF0D7C903, .cpy2dStamp ⟨true, 6⟩ 23 25 4),
      (0x71205000, .cpycan ⟨false, 1⟩ 10),
      (0x72C04800, .nestLd ⟨false, 6⟩ 9),
      (0x72000001, .nestGo ⟨false, 0⟩)] : List (BitVec 32 × Instr)).all
      (fun x => decodeWord x.1 == some x.2) = true := by decide +kernel

/-- Words written from the fields of the opcode table (R58 to R66, R381). -/
theorem test_decode_system_2 :
    ([(0x72800002, .nestWait ⟨false, 4⟩),
      (0xF380FAC0, .binit ⟨true, 4⟩ 31 11),
      (0x73E08A01, .bexp ⟨false, 7⟩ 17 8),
      (0x7300FB82, .barrv ⟨false, 0⟩ 31 14),
      (0xF30009C3, .bwait ⟨true, 0⟩ 1 7),
      (0xF3C14A04, .btest ⟨true, 6⟩ 1 9 8),
      (0xF8A88080, .krotInstall ⟨true, 5⟩ 8 16 2),
      (0xF9CCB340, .sealChunks ⟨true, 6⟩ 12 22 13),
      (0x791A5601, .unsealChunks ⟨false, 0⟩ 26 10 24),
      (0x79703A82, .scrubRegions ⟨false, 3⟩ 16 7 10),
      (0x7A6F4280, .capdrv ⟨false, 3⟩ 15 8 5),
      (0xFA258501, .capchk ⟨true, 1⟩ 5 16 10)] : List (BitVec 32 × Instr)).all
      (fun x => decodeWord x.1 == some x.2) = true := by decide +kernel

/-- Words written from the fields of the opcode table (R58 to R66, R381). -/
theorem test_decode_system_3 :
    ([(0x7A707782, .capld ⟨false, 3⟩ 8 14 30),
      (0x7A5E6803, .capst ⟨false, 2⟩ 30 13),
      (0x7B61A000, .sigchk ⟨false, 3⟩ 1 20),
      (0x7CC2B880, .mext ⟨false, 6⟩ 2 23 2),
      (0x7DCFEDC0, .slotswQuery ⟨false, 6⟩ 15 29 23)] : List (BitVec 32 × Instr)).all
      (fun x => decodeWord x.1 == some x.2) = true := by decide +kernel

/-- Words written from the fields of the opcode table (R58 to R66, R381). -/
theorem test_decode_topiary_1 :
    ([(0x01E3, .topiaryLit 227),
      (0x0200, .topiaryDup),
      (0x0300, .topiaryDrop),
      (0x0400, .topiarySwap),
      (0x1051, .topiaryLdq 81),
      (0x11BC, .topiaryLdl 188),
      (0x121D, .topiaryStl 29),
      (0x2000, .topiaryAdd),
      (0x2100, .topiarySub),
      (0x2200, .topiaryMul),
      (0x2300, .topiaryMin),
      (0x2400, .topiaryMax)] : List (BitVec 16 × Instr)).all
      (fun x => decodeTopiary x.1 == some x.2) = true := by decide +kernel

/-- Words written from the fields of the opcode table (R58 to R66, R381). -/
theorem test_decode_topiary_2 :
    ([(0x2500, .topiaryAnd),
      (0x2600, .topiaryOr),
      (0x2700, .topiaryLt),
      (0x2800, .topiaryEq),
      (0x3015, .topiaryJz 21),
      (0x31EF, .topiaryJmp 239),
      (0x402B, .topiaryForq 43),
      (0x4100, .topiaryNextq),
      (0x5000, .topiaryPick),
      (0x5100, .topiarySlice),
      (0x5200, .topiaryRet)] : List (BitVec 16 × Instr)).all
      (fun x => decodeTopiary x.1 == some x.2) = true := by decide +kernel

/-! ### Stream records (R213 to R236) -/

/-- R213 to R236: records written from the layouts of the rules, as numbers whose lowest byte stands first. -/
theorem test_decode_records_1 :
    ([(0x00100000, .wnop 1),
      (0x00001000_00000000_01010002, .wbuf false 1 2 0x1000 0),
      (0x0000000000001200_0000000000000100_00000000_01080003, .wbuf true 0 3 0x100 0x1200),
      (0x02000002, .wfree 2),
      (0x0000000000000080_00000040_10080005, .wcall true 5 0x40 0x80),
      (0xFFFFFFFFFFFFFFE0_00000040_10000000, .wcall false 0 0x40 0xFFFFFFFFFFFFFFE0),
      (0x11000000, .wret),
      (0x00000000000000FF_0000000000000007_0000000000000010_00000040_12040003, .wpred .lt 3 0x40 0x10 7 0xFF),
      (0x00000060_00000003_13000000, .wloop 3 0x60),
      (0x14000000, .wend),
      (0x18000000, .wfence),
      (0x0000000000000200_00000000_18080004, .wfenceT 4 0x200)] : List (Nat × Instr)).all
      (fun x => decodeStream (leBytes 64 x.1) == some x.2) = true := by decide +kernel

/-- R231 to R236: further records. -/
theorem test_decode_records_2 :
    ([(0x000000000000FFFF_0000000000000001_0000000000000018_00000064_19030006, .wwait .geu 6 0x64 0x18 1 0xFFFF),
      (0x0000000000000005_0000000000000008_00000009_1A080007, .wsignalSt true 7 9 8 5),
      (0x0000000000000005_0000000000000008_00000000_1A010007, .wsignalAdd false 7 0 8 5),
      (0x0000000000000040_00000000_20080008, .wgraph true 8 0x40),
      (0x21080123, .wphase true 0x123),
      (0x22000007, .wcancelLaunch 7),
      (0x22010007, .wcancelGraph 7),
      (0x22020007, .wcancelPhase 7),
      (0x22030007, .wcancelJob 7),
      (0x3F00002A, .whalt 0x2A)] : List (Nat × Instr)).all
      (fun x => decodeStream (leBytes 64 x.1) == some x.2) = true := by decide +kernel

/-- R224: the example record of the rule. -/
theorem test_decode_wtask :
    decodeStream (leBytes 32 0x00000000_00400001_00000100_00000000_00010001_00010001_00020004_08180007 ++
      leBytes 32 0x00000000_00000000_00000000_00000000_00000000_20030000_00000000_00001002) =
    some (.wtask ⟨1, true, false, 7, #v[4, 2, 1, 1, 1, 1], 0, 0x100, 1, 0x40,
      #v[⟨1, 2, 0, 0⟩, ⟨2, 3, 0, 0⟩, WSlot.zero, WSlot.zero, WSlot.zero, WSlot.zero, WSlot.zero, WSlot.zero]⟩) := by
  decide +kernel

/-- R214: erased memory, a condition code of 6, and a level of 4 have no meaning. -/
theorem test_decode_records_refused :
    [0xFFFFFFFF, 0x12060003, 0x22040001, 0x00400000, 0x03000000, 0x11000001].all
      (fun x => decodeStream (leBytes 64 x) == none) = true := by decide +kernel

/-- A message with every field zero. -/
def blank0 : Msg :=
  { kind := 0, cls := false, opx := 0, len := 0, spkg := 0, sdie := 0, sclu := 0, score := 0, dpkg := 0, ddie := 0, addr := 0, fdid := 0,
    token := 0, carry0 := 0, carry1 := 0, payload := [] }

/-- R357: a message whose type is not the row's. -/
theorem test_ill_message :
    (let m := blank0;
     [.rd m, .rdrsp m, .wr m, .wrack m, .qstMessage m, .land m, .rel m, .amoMessage m, .amorsp m, .vamoMessage m, .red m,
      .tile m, .tilersp m, .holdfull m, .err m].all fun i => !WellFormed i) = true := by decide

/-! ### Small states -/

/-- Partition 0 owns group 0, and core 0 runs a unit of it. -/
def unit0 : State :=
  let s := State.reset
  let p : Part := { Part.zero with
    st := .live, groups := 1, places := Vector.ofFn fun k : Fin 64 => if k.val < 4 then BitVec.ofNat 64 (2 ^ 63 + k.val) else 0 }
  let c : Core := { s.cores[(0 : Fin 512)] with st := .running, unit := Ctx.zero, heldAt := some 0 }
  { (s.putPart 0 p).putCore 0 c with hub := { s.hub with owner := vput s.hub.owner 0 (some 0) }, fw := false }

/-- The same with core 0's firmware context acting. -/
def fw0 : State := { unit0 with fw := true }

/-- Two operands in s1 and s2. -/
def args (s : State) (x y : Word) : State := (s.wrS 1 x).wrS 2 y

/-- Head of an unguarded word, and of one guarded by p1. -/
def h0 : Head := ⟨false, 0⟩
def h1 : Head := ⟨false, 1⟩

/-- A loop entry. -/
def loopOf (o : BitVec 32) : LoopEnt := ⟨o, o + 1, o + 5, 3⟩

/-- The acting context with loops. -/
def looping (l : List LoopEnt) : State := let s := args unit0 2 0; s.setCtx { s.ctx with loops := l }

/-! ### Witnesses for the hypotheses of the statements -/

theorem witness_TileEncodeThenDecode : (let i : Instr := .sub h0 7 8 9;
    WellFormed i = true ∧ sharesWord i = false ∧ encodeTile i = some 0x00074241) := by decide +kernel

theorem witness_TileDecodeThenEncode : decodeWord 0x00074241 = some (.sub h0 7 8 9) := by decide +kernel

theorem witness_TopiaryEncodeAndDecode : WellFormed (.topiaryLit 255) = true ∧ encodeTopiary (.topiaryLit 255) = some 0x01FF ∧
    decodeTopiary 0x01FF = some (.topiaryLit 255) := by decide +kernel

theorem witness_RecordEncodeThenDecode : WellFormed .wfence = true ∧ encodeStream .wfence = some ([0, 0, 0, 0x18] ++ List.replicate 28 0) := by
  decide +kernel

/-- Each request of the shared words. -/
theorem witness_SharedWordsResolve :
    ([0, 0x100, 0x200, 0x300] : List Word).map (fun x => ((args fw0 x 0).rs 1).extractLsb' 8 2) = [0, 1, 2, 3] ∧
    ([0, 1, 2] : List Word).map (fun x => ((args fw0 x 0).rs 1).extractLsb' 0 2) = [0, 1, 2] ∧
    ([0, 1, 2, 3, 4] : List Word).map (fun x => ((args fw0 x 0).rs 1).extractLsb' 0 4) = [0, 1, 2, 3, 4] := by decide +kernel

theorem witness_FalseGuardDoesNothing : headOf (.add h1 1 2 3) = some h1 ∧ unit0.rp h1.g = false := by decide +kernel

theorem witness_ScalarArithmetic : (let s := args unit0 0x8000000000000000 0xFFFFFFFFFFFFFFFF;
    s.rp h0.g = true ∧ -(2 : Int) ^ 63 = (s.rs 1).toInt ∧ s.rs 2 = -1) := by decide +kernel

theorem witness_ScalarImmediates : (args unit0 7 0).rp h0.g = true ∧ (args unit0 7 0).rs 1 = 7 := by decide +kernel

theorem witness_ScalarConstants : unit0.rp h0.g = true ∧ unit0.rs 1 = 0 ∧ (args unit0 0x5000000 0).rs 1 = 0x5000000 := by decide +kernel

theorem witness_PredicateWords : unit0.rp h0.g = true ∧ (args unit0 0xFFFFFFFFFFFFFFFE 0).rs 1 ≠ BitVec.allOnes 64 := by decide +kernel

theorem witness_SelectAndScaledAdd : unit0.rp h0.g = true ∧ unit0.rp 0 = true ∧ unit0.rp 1 = false := by decide +kernel

theorem witness_RegisterWordsFrame : onlyDest (.add h0 0 1 2) = some (.s 0) ∧ onlyDest (.vadd h0 0 31 1 2 .f32) = some (.v 31) := by
  decide +kernel

theorem witness_BranchesAndTheirTargets : (let s := unit0.setCtx { unit0.ctx with viaJr := some 0x100000000 };
    s.rp h0.g = true ∧ s.ctx.viaJr = some 0x100000000 ∧ (0x100000000 : Word).extractLsb' 32 32 ≠ 0) := by decide +kernel

/-- A zero count; a new entry above three; an own entry with none below and with three below; a full stack. -/
theorem witness_LoopWord : unit0.rs 1 = 0 ∧
    (let s := looping [loopOf 9, loopOf 8, loopOf 7];
      s.rp h0.g = true ∧ s.rs 1 ≠ 0 ∧ (∀ e ∈ s.ctx.loops, e.origin ≠ s.ctx.pc) ∧ s.ctx.loops.length < 4) ∧
    (let s := looping [loopOf 9, loopOf 0];
      s.ctx.loops = [loopOf 9] ++ loopOf 0 :: [] ∧ (∀ e ∈ [loopOf 9], e.origin ≠ s.ctx.pc) ∧ (loopOf 0).origin = s.ctx.pc) ∧
    (let s := looping [loopOf 0, loopOf 9, loopOf 8, loopOf 7];
      s.ctx.loops = [] ++ loopOf 0 :: [loopOf 9, loopOf 8, loopOf 7] ∧ [loopOf 9, loopOf 8, loopOf 7].length < 4) ∧
    (let s := looping [loopOf 9, loopOf 8, loopOf 7, loopOf 6];
      s.rs 1 ≠ 0 ∧ (∀ e ∈ s.ctx.loops, e.origin ≠ s.ctx.pc) ∧ s.ctx.loops.length = 4 ∧ s.fw = false) := by
  decide +kernel

/-- A body that goes on, one that ends, and packets with no body. -/
theorem witness_LoopBodyEnd : (let x : Ctx := { Ctx.zero with loops := [loopOf 3], pc := 8 };
    x.loops = [loopOf 3] ∧ (loopOf 3).last = x.pc ∧ x.regs.getS 3 - 1 ≠ 0 ∧
      ({ x with regs := x.regs.setS 3 1 } : Ctx).regs.getS 3 - 1 = 0 ∧ (loopOf 4).last ≠ x.pc ∧ Ctx.zero.loops = []) := by decide +kernel

/-- A load captured in the replay queue of core 0, with a fault that TCAUSE names. -/
def replay0 : Replay := .mem (newEnt fw0 (.ld 3 .u64) true false 0x100 [⟨.tm 0x100, 0, 8, none⟩]) (some .misalign)
def replayed0 : State :=
  let c := fw0.cores[(0 : Fin 512)]
  fw0.putCore 0 { c with replay := [replay0], ctl := { c.ctl with tcause := Cause.misalign.code } }

theorem witness_ControlRegisterReads : fw0.rp h0.g = true ∧ fw0.curPart = some 0 ∧ fw0.fw = true ∧ unit0.fw = false ∧
    ((0x000 : BitVec 11) ≠ 0x003 ∧ (0xFF : BitVec 11).toNat < 0x100) ∧ (0x140 : BitVec 11).toNat > 0x13F := by decide +kernel

theorem witness_ControlRegisterWrites : fw0.rp h0.g = true ∧ fw0.curPart = some 0 ∧ fw0.fw = true ∧ unit0.fw = false ∧ State.reset.curPart = none ∧
    (fw0.cur.replay.find? fun z => z.cause.any fun y => y.code == fw0.cur.ctl.tcause) = none ∧
    (replayed0.cur.replay.find? fun z => z.cause.any fun y => y.code == replayed0.cur.ctl.tcause) = some replay0 ∧
    (let s := args fw0 0x10000 0;
      ((s.rs 1).extractLsb' 16 13 - s.parts[(0 : Fin 16)].head).toNat > (s.parts[(0 : Fin 16)].tail - s.parts[(0 : Fin 16)].head).toNat ∧
        ((fw0.rs 1).extractLsb' 16 13 - fw0.parts[(0 : Fin 16)].head).toNat ≤ (fw0.parts[(0 : Fin 16)].tail - fw0.parts[(0 : Fin 16)].head).toNat) ∧
    (fw0.partOf 0 = some 0 ∧ fw0.cores[(0 : Fin 512)].st ≠ .none) ∧
    ((args fw0 0x8000000000000004 0).rs 1).getLsbD 63 = true ∧ fw0.partOfCluster 4 ≠ some 0 ∧ fw0.partOfCluster 3 = some 0 := by decide +kernel

/-- The acting context with an entry of an earlier bundle. -/
def older0 : State := let s := { unit0 with serial := 5 }; s.setCtx { s.ctx with mq := [newEnt unit0 .lsaln true true 0 []] }

/-- A token of an earlier store that has still to land. -/
def busy0 : State :=
  let s := { unit0 with serial := 5 }
  let k : TokEnt := ⟨1, false, 0, 0, 0, 8, false, 9, [], false, false, none, false⟩
  s.putCore 0 { s.cores[(0 : Fin 512)] with tokens := vput s.cores[(0 : Fin 512)].tokens 0 (some k) }

/-- No access and no token; an access; a token whose store lies in this package and die. -/
theorem witness_FenceCompletes : (unit0.rp h0.g = true ∧ unit0.ctx.mq = [] ∧ ∀ i : Fin 256, unit0.cur.tokens[i] = none) ∧ older0.ctx.mq ≠ [] ∧
    (busy0.cur.tokens[(0 : Fin 256)]).any (fun e => e.fw == busy0.fw && !e.notify && decide (e.serial < busy0.serial) &&
      e.pkg == ownPkg busy0 && decide (e.die.toNat = busy0.core.val / 128)) = true := by decide +kernel

/-- R19: the first and the last access of each row, by its answer. -/
theorem witness_SequencerAddressMap :
    (let at_ (a : Nat) (i : Intent) := localCheck unit0 0 false a 8 i;
      at_ 0 .write = .ok (.tm 0) ∧ at_ 0x77FF8 .write = .ok (.tm 0x77FF8) ∧ at_ 0x78000 .read = .ok (.tm 0x78000) ∧
      at_ 0x7BFF8 .write = .error .barrierRange ∧ at_ 0x7C000 .read = .error .priv ∧ at_ 0x7DFF8 .read = .error .priv ∧
      at_ 0x7E000 .read = .error .priv ∧ at_ 0x7FEF8 .read = .error .priv ∧ at_ 0x7FF00 .read = .ok (.tm 0x7FF00) ∧
      at_ 0x7FFF8 .write = .error .priv ∧ at_ 0x80000 .read = .error .unmapped ∧ at_ 0xFFFFF8 .read = .error .unmapped ∧
      at_ 0x1000000 .read = .ok (.cm 0 0) ∧ at_ 0x17FFFF8 .read = .ok (.cm 0 0x7FFFF8) ∧ at_ 0x100000000 .read = .ok (.cm 0 0) ∧
      at_ 0x1037FFFF8 .read = .ok (.cm 3 0x7FFFF8) ∧ at_ 0x104000000 .read = .error .unmapped ∧ at_ 0x140000000 .read = .error .unmapped ∧
      at_ 0x77FFC .read = .error .straddle ∧ at_ 0x17FFFFC .read = .error .straddle ∧
      localCheck unit0 0 false 0x80000 0x1780001 .read = .error .straddle ∧ localCheck unit0 0 false 0x2000000 0x100000000 .read = .error .straddle) ∧
    placeCluster unit0 0 3 = some 3 ∧ placeCluster unit0 0 4 = none := by decide +kernel

/-- An aligned address in TM and one in the own cluster's CM. -/
theorem witness_ScalarMemoryWordsIssue : (let s := args unit0 0x100 7;
    s.rp h0.g = true ∧ checkAddr s (s.rs 1 + BitVec.ofInt 64 ((0xFF : BitVec 8).toInt * 8)) 8 .read = .ok (.tm 0xF8) ∧ captureFull s = false ∧
      recordMeets s (.tm 0xF8) 8 = false ∧ 8 ∣ (0xF8 : Nat) ∧ checkAddr s 0xF8 8 .write = .ok (.tm 0xF8) ∧ guardStalls s (.tm 0xF8) 8 = false ∧
      checkAddr s 0x1000000 8 .write = .ok (.cm 0 0) ∧ guardStalls s (.cm 0 0) 8 = false) := by decide +kernel

/-- An AMO; a VAMO of BF16 whose elements 1 and 2 are active, one of FP32 whose elements 0 to 31 are, and one with none. -/
theorem witness_AtomicWordsIssue : (let s := args unit0 0x100 7;
    s.rp h0.g = true ∧ captureFull s = false ∧ amoBytes .w64 ∣ (s.rs 1).toNat ∧ checkAddr s (s.rs 1) 8 .write = .ok (.tm 0x100) ∧
      guardStalls s (.tm 0x100) 8 = false ∧ recordMeets s (.tm 0x100) 8 = false ∧ 128 ∣ (s.rs 1).toNat) ∧
    (let s := args unit0 0x100 7;
      let s := s.setCtx { s.ctx with regs := { s.ctx.regs with m := vput s.ctx.regs.m 1 0x3C } };
      let active (k : Nat) : Prop := k < 128 / 2 ∧ (s.rm 1).getLsbD (2 * k) = true;
      active 1 ∧ active 2 ∧ (∀ k < 64, (s.rm 1).getLsbD (2 * k) = true → 1 ≤ k ∧ k ≤ 2) ∧
        checkAddr s (s.rs 1 + BitVec.ofNat 64 (2 * 1)) (2 * (2 + 1 - 1)) .write = .ok (.tm 0x102) ∧ guardStalls s (.tm 0x102) 4 = false ∧
        recordMeets s (.tm 0x102) 4 = false ∧ relocate s s.core (s.rs 1) = some (.tm 0x100)) ∧
    (let s := args unit0 0x100 7;
      ((s.rm 0).getLsbD (4 * 0) = true ∧ (s.rm 0).getLsbD (4 * 31) = true) ∧ checkAddr s (s.rs 1 + BitVec.ofNat 64 (4 * 0)) (4 * (31 + 1 - 0)) .write =
        .ok (.tm 0x100)) ∧ (∀ k < 32, (unit0.rm 1).getLsbD (4 * k) = false) := by decide +kernel

theorem witness_VectorMemoryWordsIssue : (let s := args unit0 0x100 8;
    s.rm 1 = 0 ∧ maskSpan (s.rm 0) = some (0, 256) ∧ 4 ∣ (s.rs 1).toNat ∧ checkAddr s (s.rs 1 + 0) 256 .read = .ok (.tm 0x100) ∧
      captureFull s = false ∧ recordMeets s (.tm 0x100) 256 = false ∧ checkAddr s (s.rs 1 + 0) 256 .write = .ok (.tm 0x100) ∧
      guardStalls s (.tm 0x100) 256 = false ∧
      anyElem s { newEnt s (.vldElems 3) true false (s.rs 1) [] with opb := s.rs 2, mask := s.rm 0 } false (fun l => recordMeets s l 4) = false ∧
      anyElem s { newEnt s .vstElems false true (s.rs 1) [] with opa := 1, mask := s.rm 0 } true
        (fun l => guardStalls s l 4 || recordMeets s l 4) = false) := by
  decide +kernel

/-- A unit whose partition leases the first MiB of die 0, which its edge knows and slice 0 maps, on a die that it has a window on. -/
def glob0 : State :=
  let s := unit0
  let page : TlbEnt := ⟨0, 0, 1, BitVec.ofNat 64 (2 ^ 63 + 2 ^ 62 + 2 ^ 61 + 2 ^ 60 + 2 ^ 59)⟩
  let s := s.putPart 0 { s.parts[(0 : Fin 16)] with leases := [⟨0, 0x8000000000000000, 0x100000, true, none⟩], nextLease := 1, toklim := 9 }
  let s := s.putCluster 0 { s.clusters[(0 : Fin 64)] with leaseCache := [0] }
  let s := fillSlice s 0 0 true page
  s.putDie 0 { s.dies[(0 : Fin 4)] with roots := vput s.dies[(0 : Fin 4)].roots 0 1 }

/-- The same with a token in entry 0 of a store to this package, ordered or not, and sD naming it. -/
def tokened (ordered : Bool) (pkg : Pkg) (waiters : List Pkg) : State :=
  let s := args glob0 0x8000000000000040 0x100
  let k : TokEnt := ⟨0, false, pkg, 0, 0, 8, ordered, 9, waiters, false, false, none, false⟩
  let c := s.cores[(0 : Fin 512)]
  s.putCore 0 { c with tokens := vput c.tokens 0 (some k), gens := vput c.gens 0 1 }

/-- Without a carried token, and with one that is ordered behind, waited on, or waited for. -/
theorem witness_QuicksetStoreTakesAToken : (let s := args glob0 0x8000000000000040 7;
    s.rp h0.g = true ∧ captureFull s = false ∧ freeTok s.cur = some 0 ∧ s.curPart = some 0 ∧ (s.rs 1).getLsbD 63 = true ∧
      memBytes .b64 ∣ (s.rs 1).toNat ∧ holeWindow s (s.rs 1) = false ∧ checkAddr s (s.rs 1) 8 .write = .ok (.glob 0x8000000000000040) ∧
      64 ∣ (s.rs 1).toNat ∧ maskSpan (s.rm 0) = some (0, 256) ∧
      checkAddr s (s.rs 1 + BitVec.ofNat 64 0) 256 .write = .ok (.glob 0x8000000000000040) ∧ liveTok s.cur 0 = none ∧ s.rm 1 = 0) ∧
    (let at_ (s : State) : Carry := carryCase s ((s.rs 2).extractLsb' 0 16) (pkgOf (s.rs 1));
      freeTok (tokened true 0 []).cur = some 1 ∧ at_ (tokened true 0 []) = .ordered ∧ at_ (tokened true 5 []) = .waiter ∧
        at_ (tokened false 0 []) = .wait ∧ at_ (tokened true 5 [1, 2, 3, 4]) = .wait ∧ at_ glob0 = .nothing) := by
  decide +kernel

/-- A wait of core 0's unit on the word at an address. -/
def waits0 (cmp : Word) (part : Option Piece) (found : Option Word) : State :=
  let s := args unit0 0x100 cmp
  s.setCtx { s.ctx with mwait := some ⟨0x100, cmp, false, 0, .waiting, part, 0, found⟩ }

theorem witness_MonitorWaitCompletes : (let s := args unit0 0x100 0;
    s.rp h0.g = true ∧ 8 ∣ (s.rs 1).toNat ∧ checkAddr s (s.rs 1) 8 .watch = .ok (.tm 0x100) ∧ olderEnts s = [] ∧ recordMeets s (.tm 0x100) 8 = false ∧
      s.ctx.mwait = none) ∧
    olderEnts older0 ≠ [] ∧
    (let s := waits0 5 none (some 6);
      s.ctx.mwait = some { (⟨0, 0, false, 0, .waiting, none, 0, none⟩ : MWait) with ea := s.rs 1, cmp := s.rs 2, eq := false, stage := .waiting, found := some 6 }) ∧
    (let q : Piece := ⟨.tm 0x100, 0, 8, none⟩;
      let w (cmp : Word) : MWait := ⟨0x100, cmp, false, 0, .waiting, some q, 0, none⟩;
      ((waits0 5 none none).cores[(0 : Fin 512)].ctx false).mwait = some { w 5 with part := none } ∧ (w 5).ea.toNat < 0x78000 ∧
        (⟨.watch 0 false (w 5), q⟩ : Req) ∈ tmRequests (waits0 5 (some q) none) 0 ∧ (⟨.watch 0 false (w 0), q⟩ : Req) ∈ tmRequests (waits0 0 (some q) none) 0 ∧
        ((BitVec.ofNat 64 ((waits0 5 none none).loadNat (tmAddr 0 0x100) 8) : Word) = 5 ↔ false = true) ∧
        ¬((BitVec.ofNat 64 ((waits0 0 none none).loadNat (tmAddr 0 0x100) 8) : Word) = 0 ↔ false = true)) := by decide +kernel

theorem witness_MisalignedWordsTrap : (let s := args unit0 0x101 0;
    s.rp h0.g = true ∧ s.fw = false ∧ (s.rs 1 + BitVec.ofInt 64 ((1 : BitVec 8).toInt * memBytes .b64)).toNat % 8 ≠ 0 ∧
      (s.rs 1).toNat % amoBytes .w32 ≠ 0 ∧ (s.rs 1).toNat % memBytes .b16 ≠ 0 ∧ (s.rs 1).toNat % 64 ≠ 0 ∧ (s.rs 1).toNat % 128 ≠ 0) := by
  decide +kernel

/-- Core 0's unit with one queue entry. -/
def queued (s : State) (e : QEnt) : State := s.putCore 0 { s.cores[(0 : Fin 512)] with unit := { s.cores[(0 : Fin 512)].unit with mq := [e] } }

/-- An entry of core 0's unit for one part of TM. -/
def tmEnt (k : QKind) (ld st : Bool) (n : Nat) : QEnt :=
  { newEnt unit0 k ld st 0x100 [⟨.tm 0x100, 0, n, none⟩] with data := if ld then [] else List.replicate n 1 }

theorem witness_TileMemoryAccessesPerform : (let ok (e : QEnt) (n : Nat) (f : QEnt → Bool) : Prop := (e.stage = .waiting ∧ e.todo = [⟨.tm 0x100, 0, n, none⟩] ∧
      (⟨.ent 0 false e, ⟨.tm 0x100, 0, n, none⟩⟩ : Req) ∈ tmRequests (queued unit0 e) 0 ∧ Machine.headOf (queued unit0 e) 0 false f = some e);
    ok (tmEnt (.ld 3 .u64) true false 8) 8 (·.ld) ∧ ok (tmEnt (.ldAcq 3 .b32) true false 4) 4 (·.ld) ∧ ok (tmEnt (.st false) false true 8) 8 (·.st) ∧
      (tmEnt (.st false) false true 8).mask = 0 ∧ (tmEnt (.st false) false true 8).data.length = 8 ∧ ok (tmEnt (.amo 3 0 .w64) true true 8) 8 (·.ld)) ∧
    unit0.memWf := by
  unfold State.memWf; decide +kernel

/-- A core as it boots asks for nothing. -/
theorem boot_asks (s : State) (c : Fin 512) (h : s.cores[c] = Core.boot c.val) : coreReqs s c = [] := by
  have hc (fw : Bool) : ((Core.boot c.val).ctx fw).mq = [] ∧ ((Core.boot c.val).ctx fw).mmas = [] ∧ ((Core.boot c.val).ctx fw).mwait = none := by
    cases fw <;> exact ⟨rfl, rfl, rfl⟩
  have hx (fw : Bool) : ctxReqs s c fw = [] := by
    have h1 : readyHeads s c fw = [] := by simp only [readyHeads, h, (hc fw).1, List.find?_nil]; rfl
    have h2 : tileReqs s c fw = [] := by simp only [tileReqs, h, fetchingMma, (hc fw).2.1, List.find?_nil]
    have h3 : watchReqs s c fw = [] := by simp only [watchReqs, h, (hc fw).2.2]
    simp only [ctxReqs, h1, h2, h3, List.flatMap_nil, List.append_nil]
  have hk (i : Fin 256) : copyReqs s c i = [] := by
    have : (Core.boot c.val).copies[i] = none := by
      have : (Core.boot c.val).copies = Vector.replicate 256 none := rfl
      rw [this]; exact Vector.getElem_replicate _
    simp only [copyReqs, h, this]
  have hl : (List.finRange 256).flatMap (fun i => copyReqs s c i) = [] := List.flatMap_eq_nil_iff.mpr fun i _ => hk i
  simp only [coreReqs, hx, hl, List.append_nil]

/-- Where only core 0 does more than boot, its requests are all there are. -/
theorem only_core0 (s : State) (h : ∀ c : Fin 512, c ≠ 0 → s.cores[c] = Core.boot c.val) :
    (List.finRange 512).flatMap (fun c => coreReqs s c) = coreReqs s 0 := by
  rw [List.finRange_succ, List.flatMap_cons]
  have : (List.map Fin.succ (List.finRange 511)).flatMap (fun c => coreReqs s c) = [] := by
    refine List.flatMap_eq_nil_iff.mpr fun c hc => ?_
    obtain ⟨d, -, rfl⟩ := List.mem_map.mp hc
    exact boot_asks s _ (h _ (Fin.succ_ne_zero d))
  rw [this, List.append_nil]

theorem boot_cores (c : Fin 512) (hc : c ≠ 0) : unit0.cores[c] = Core.boot c.val := by
  have h : (State.reset.cores[c]) = Core.boot c.val := by simp [State.reset]
  rw [← h]; simp only [unit0, State.putCore, State.putPart, vput, Fin.getElem_fin]
  exact Vector.getElem_set_ne _ _ (fun k => hc (Fin.ext k.symm))

theorem queued_cores (s : State) (e : QEnt) (h : ∀ c : Fin 512, c ≠ 0 → s.cores[c] = Core.boot c.val) (c : Fin 512) (hc : c ≠ 0) :
    (queued s e).cores[c] = Core.boot c.val := by
  rw [← h c hc]; simp only [queued, State.putCore, vput, Fin.getElem_fin]
  exact Vector.getElem_set_ne _ _ (fun k => hc (Fin.ext k.symm))

/-- With the unit gone, the firmware of a partition that nothing runs on. -/
def idle0 : State := fw0.putCore 0 { fw0.cores[(0 : Fin 512)] with st := .none }

theorem witness_PlacesFree : idle0.curPart = some 0 ∧ idle0.fw = true ∧ idle0.partOfCluster 3 = some 0 ∧
    ¬∃ z : Fin 512, idle0.partOf z = some 0 ∧ idle0.cores[z].st ≠ .none := by
  refine ⟨by decide +kernel, by decide +kernel, by decide +kernel, ?_⟩
  rintro ⟨z, -, h⟩
  by_cases hz : z = 0
  · subst hz; exact h (by decide +kernel)
  · have : idle0.cores[z] = Core.boot z.val := by
      rw [← boot_cores z hz]; simp only [idle0, fw0, State.putCore, vput, Fin.getElem_fin]
      exact Vector.getElem_set_ne _ _ (fun k => hz (Fin.ext k.symm))
    rw [this] at h; exact h rfl

/-- A request at bank 8 of cluster 0, and it alone. -/
def bank0 : State := queued unit0 (newEnt unit0 (.ld 3 .u64) true false 0x1000100 [⟨.cm 0 0x100, 0, 8, none⟩])
def bankReq0 : Req := ⟨.ent 0 false (newEnt unit0 (.ld 3 .u64) true false 0x1000100 [⟨.cm 0 0x100, 0, 8, none⟩]), ⟨.cm 0 0x100, 0, 8, none⟩⟩

theorem witness_BanksPerformInOrder : (let cores := (List.finRange 512).flatMap fun c => coreReqs bank0 c;
    bankReq0 ∈ cores ∧ bankReq0.inBank 0 8 = true ∧
      ∀ r ∈ cores, r.inBank 0 8 = true → r = bankReq0 ∨ keyLt (bankReq0.bankKey 0) (r.bankKey 0) = true) := by
  have h : (List.finRange 512).flatMap (fun c => coreReqs bank0 c) = [bankReq0] := by
    rw [only_core0 bank0 (queued_cores _ _ boot_cores)]; decide +kernel
  simp only [h]
  exact ⟨List.mem_singleton_self _, by decide +kernel, fun r hr _ => .inl (List.mem_singleton.mp hr)⟩

/-- An AMO of core 0's unit at a line of the HBM, translated. -/
def amo0 : QEnt := { newEnt glob0 (.amo 3 0 .w64) true true 0x8000000000000040 [⟨.glob 0x8000000000000040, 0, 8, some 0x40⟩] with stage := .xlated }
def amoReq0 : Req := ⟨.ent 0 false amo0, ⟨.glob 0x8000000000000040, 0, 8, some 0x40⟩⟩

/-- A request at the engine of its line's home cluster, and it alone; it is performed once its line is resident. -/
theorem witness_EnginesPerformInOrder : amoReq0 ∈ engineRequests (queued glob0 amo0) (homeCluster 0 0x40) ∧
    (∀ r ∈ engineRequests (queued glob0 amo0) (homeCluster 0 0x40), r = amoReq0) ∧
    (runAtEngine (queued glob0 amo0) (homeCluster 0 0x40) amoReq0).isSome = true := by
  have h : allReqs (queued glob0 amo0) = [amoReq0] := by
    have hg : glob0.cores = unit0.cores := rfl
    have hi : inwardReqs (queued glob0 amo0) = [] := by decide +kernel
    rw [allReqs, only_core0 _ (queued_cores _ _ fun c hc => by rw [hg]; exact boot_cores c hc), hi, List.append_nil]; decide +kernel
  have he : engineRequests (queued glob0 amo0) (homeCluster 0 0x40) = [amoReq0] := by
    simp only [engineRequests, h]; decide +kernel
  exact ⟨he ▸ List.mem_singleton_self _, fun r hr => List.mem_singleton.mp (he ▸ hr), by simp only [runAtEngine, h]; decide +kernel⟩

/-- A load or a store of core 0's unit at a global address, before its translation or after it. -/
def globEnt (st : Bool) (va : Word) (pa : Option Nat) : QEnt :=
  { newEnt glob0 (if st then .st false else .ld 3 .u64) (!st) st va [⟨.glob va, 0, 8, pa⟩] with
    data := if st then List.replicate 8 1 else [], stage := if pa.isSome then .xlated else .waiting }

theorem witness_GlobalAccessPath : (let s := glob0.putCore 0 { glob0.cores[(0 : Fin 512)] with leaseAsk := some (0x8000000000000040, false) };
    s.cores[(0 : Fin 512)].leaseAsk = some (0x8000000000000040, false) ∧ (leasesOf s (s.partOf 0)).length ≤ 64 ∧
      (leasesOf s (s.partOf 0)).any (fun l => l.covers 0x8000000000000040 1) = true) ∧
    (let va : Word := 0x8000000000000040;
      let e := globEnt false va none;
      let s := queued glob0 e;
      e.byElem = false ∧ e.inTurn = false ∧ readyHeads s 0 false = e :: [] ∧ e.stage = .waiting ∧ throughHub s 0 e = false ∧ pkgOf va = ownPkg s ∧
        (translate s false (s.partOf 0) va e.writes).2 = .ok 0x40 ∧
        (crossParts (translate s false (s.partOf 0) va e.writes).1 0 false [⟨.glob va, 0, 8, some 0x40⟩]).isSome = true ∧
        (translate (queued unit0 e) false (unit0.partOf 0) va e.writes).2 = .fail .unmapped) ∧
    (let va : Word := 0x8008000000000040;
      let e := globEnt false va none;
      let s := queued (glob0.putPart 0 { glob0.parts[(0 : Fin 16)] with leases := [⟨0, va, 0x100, true, none⟩] }) e;
      readyHeads s 0 false = e :: [] ∧ pkgOf va ≠ ownPkg s ∧ (entMsg s 0 false e va 0 8).isSome = true) ∧
    (let va : Word := 0x8000000000000040;
      let e (st : Bool) := globEnt st va (some 0x40);
      (e true).inTurn = false ∧ (e true).stage = .xlated ∧ (⟨.ent 0 false (e true), ⟨.glob va, 0, 8, some 0x40⟩⟩ : Req).atEngine (queued glob0 (e true)) = false ∧
        Machine.headOf (queued glob0 (e true)) 0 false (·.st) = some (e true) ∧ (e true).ld = false ∧
        Machine.headOf (queued glob0 (e false)) 0 false (·.ld) = some (e false)) := by
  decide +kernel

theorem witness_VectorElements : unit0.rp h0.g = true ∧ ElemTy.i8.isInt = true ∧ elemFmt .bf16 = some .bf16 ∧ ElemTy.i32.isInt = true ∧
    elemFmt .f32 = some .f32 := by decide +kernel

/-- A store of core 0's unit that has not performed, and a trap that waits for it. -/
def draining0 (trap : Option (TrapInfo × Option Nat)) : State :=
  let s := queued unit0 (tmEnt (.st false) false true 8)
  s.putCore 0 { s.cores[(0 : Fin 512)] with trap := trap }

/-- A core with nothing to finish; one with a store that drains, then with its trap waiting; and the trap of a core that has nothing left. -/
theorem witness_TrapEntry : unit0.fw = false ∧ fw0.fw = true ∧ trapReady unit0 0 = true ∧ trapReady (draining0 none) 0 = false ∧
    (let t : TrapInfo × Option Nat := (.at .watchdog 0 0 0, none);
      let s := unit0.putCore 0 { unit0.cores[(0 : Fin 512)] with trap := some t };
      ((draining0 (some t)).cores[(0 : Fin 512)].trap = some t ∧ cancelDue (draining0 (some t)) 0 = false ∧ trapReady (draining0 (some t)) 0 = false) ∧
        s.cores[(0 : Fin 512)].trap = some t ∧ cancelDue s 0 = false ∧ trapReady s 0 = true) ∧
    (∃ e ∈ (draining0 none).cores[(0 : Fin 512)].unit.mq, e.drains = true ∧ e.failed = false) := by decide +kernel

/-- A unit with three loops, the first byte before its core's trap area and the first byte after it. -/
theorem witness_TrapFrameHoldsTheUnit : (let s := looping [loopOf 9, loopOf 8, loopOf 7, loopOf 6];
    s.cores[(0 : Fin 512)].unit.loops.length ≤ 4) ∧ unit0.memWf ∧ tmAddr 0 0x7BFFF < tmAddr 0 0x7C000 := by
  unfold State.memWf; decide +kernel

/-- A core whose unit is Stopped, under its firmware context. -/
def stopped0 : State := fw0.putCore 0 { fw0.cores[(0 : Fin 512)] with st := .stopped }

/-- The last word of a packet whose loop's count a load of an earlier bundle writes. -/
def counting0 : State :=
  let s := { unit0 with serial := 5, last := 2 }
  s.setCtx { s.ctx with pc := 5, loops := [loopOf 0], mq := [newEnt unit0 (.ld 3 .u64) true false 0x100 [⟨.tm 0x100, 0, 8, none⟩]] }

theorem witness_TrapWordAndReturn : unit0.rp h0.g = true ∧ unit0.last < 2 ∧ countPending { unit0.ctx with loops := [loopOf 3] } (olderEnts unit0) = false ∧
    trapReady (atBoundary (advance unit0) 0) 0 = true ∧ counting0.redirect.isSome = false ∧ ¬counting0.last < 2 ∧
    countPending counting0.ctx (olderEnts counting0) = true ∧
    stopped0.fw = true ∧ stopped0.cur.st = .stopped ∧ stopped0.cur.heldRec = none ∧ fw0.cur.st ≠ .stopped ∧
    (let r : FaultRec := ⟨0, 0, 0, 0, 0, 0, 0, 0, 0, 0, 0⟩;
    (stopped0.putCore 0 { stopped0.cores[(0 : Fin 512)] with heldRec := some r }).cur.heldRec.isSome = true) := by decide +kernel

/-- Causes pending for core 0's unit. -/
def pending0 (p : Pend) : State := unit0.putCore 0 { unit0.cores[(0 : Fin 512)] with pend := p }

/-- A failed load of core 0's unit. -/
def failed0 : State := queued unit0 { newEnt unit0 (.ld 3 .u64) true false 0x104 [⟨.tm 0x104, 0, 8, none⟩] with stage := .failed .straddle }

/-- The same in its firmware context. -/
def fwFailed0 : State := fw0.setCtx { fw0.ctx with mq := [{ newEnt fw0 (.ld 3 .u64) true false 0x104 [⟨.tm 0x104, 0, 8, none⟩] with stage := .failed .straddle }] }

/-- A unit whose packet is three NOPs, with a breakpoint on it. -/
def breakpoint0 : State :=
  let s := withUnitWord unit0 0
  s.putCore 0 { s.cores[(0 : Fin 512)] with ctl := { s.cores[(0 : Fin 512)].ctl with brk := vput s.cores[(0 : Fin 512)].ctl.brk 2 0x8000000000000000 } }

/-- A window entry of partition 0, one unit of it handed. -/
def ent0 (st : WinSt) : WinEnt :=
  ⟨1, 7, st, 0, false, Vector.replicate 6 1, 0, Vector.replicate 16 0, [⟨0, 1, 1, none, 0x8000000000000000, 64, false⟩], [.granted], 0, 0, 1, none, [], [], 0, 0, [], none, 0, 0,
    none, 0, false, 0, 0⟩

/-- A core whose unit runs, with no trap begun, no cancel and no DONE due. -/
def goes0 (s : State) : Bool :=
  s.cores[(0 : Fin 512)].st == .running && s.cores[(0 : Fin 512)].trap.isNone && !cancelDue s 0 && !cancelling s 0 && !doneDue s 0

/-- Each cause alone at the boundary, and none. -/
theorem witness_BoundaryFaults : (goes0 failed0 = true ∧ oldestFault failed0 0 false = some ⟨0, .straddle, 0x104, 0, none⟩) ∧
    oldestFault fwFailed0 0 true = some ⟨0, .straddle, 0x104, 0, none⟩ ∧ oldestFault fw0 0 true = none ∧ oldestFault unit0 0 false = none ∧
    (State.reset.cores[(0 : Fin 512)].st ≠ .running ∧ cancelDue State.reset 0 = false ∧ State.reset.cores[(0 : Fin 512)].trap = none) := by
  decide +kernel

theorem witness_BoundaryTraps : (let s := pending0 ⟨[4], true, true⟩;
      goes0 s = true ∧ oldestFault s 0 false = none ∧ s.cores[(0 : Fin 512)].pend.tokens = 4 :: []) ∧
    (let s := pending0 ⟨[], true, true⟩;
      goes0 s = true ∧ oldestFault s 0 false = none ∧ s.cores[(0 : Fin 512)].pend.tokens = [] ∧ s.cores[(0 : Fin 512)].pend.watchdog = true) ∧
    (let s := unit0.putCore 0 { unit0.cores[(0 : Fin 512)] with ending := some none };
      goes0 s = true ∧ s.cores[(0 : Fin 512)].ending.isSome = true ∧ s.cores[(0 : Fin 512)].pend = ⟨[], false, false⟩) ∧
    goes0 unit0 = true ∧ unit0.cores[(0 : Fin 512)].ending.isSome = false ∧ breakHit (atBoundary unit0 0) 0 = none ∧
    unit0.cores[(0 : Fin 512)].pend = ⟨[], false, false⟩ := by decide +kernel

/-- A breakpoint and a preemption, each alone; and a DONE that is due at the next bundle. -/
theorem witness_BoundaryBreak : goes0 breakpoint0 = true ∧ breakHit (atBoundary breakpoint0 0) 0 = some 2 ∧
    breakpoint0.cores[(0 : Fin 512)].pend = ⟨[], false, false⟩ ∧
    (let s := pending0 ⟨[], false, true⟩;
      goes0 s = true ∧ breakHit (atBoundary s 0) 0 = none ∧ s.cores[(0 : Fin 512)].pend.preempt = true) ∧
    (let s := withUnitWord unit0 0x1B000000;
      s.cores[(0 : Fin 512)].st = .running ∧ s.cores[(0 : Fin 512)].trap = none ∧ cancelDue s 0 = false ∧ doneDue s 0 = true) ∧
    (let s := unit0.putAux 0 { unit0.aux[(0 : Fin 16)] with window := { unit0.aux[(0 : Fin 16)].window with entries := [{ ent0 .running with
        launch := 0, cancelled := true }] } };
      cancelDue s 0 = true) := by decide +kernel

/-- Packets whose second word does not decode, whose last word is chained, whose bundle has two scalar words, and whose last word is for the firmware. -/
theorem witness_PacketChecks : packetFault false [0, 0x7F00003F, 0x80000000] = some (1, .illegalOp) ∧
    packetFault false [0x80000000, 0, 0x80000000] = some (2, .illegalChain) ∧ packetFault false [0x80000000, 0, 0x00000040] = some (1, .pipeClash) ∧
    wordPriv false 0x1D000000 = true ∧ packetFault false [0, 0, 0x1D000000] = some (2, .priv) ∧ packetFault true [0, 0, 0x1D000000] = none := by
  decide +kernel

/-- Core 0's token 7 in use by its unit or its firmware, its limit 1. -/
def token7 (fw : Bool) : State :=
  let c := unit0.cores[(0 : Fin 512)]
  { unit0.putCore 0 { c with tokens := vput c.tokens 7 (some ⟨0, fw, 0, 0, 0, 8, false, 1, [], false, false, none, false⟩) } with clk := 1 }

theorem witness_TokenLimitsAndWatchdog : (let s := { unit0 with clk := 2 ^ 31 };
      s.cores[(0 : Fin 512)].st = .running ∧ 2 ^ 31 ≤ s.clk - s.cores[(0 : Fin 512)].issued ∧
      2 ^ 31 - 1 - s.cores[(0 : Fin 512)].issued < 2 ^ 31) ∧
    State.reset.cores[(0 : Fin 512)].st ≠ .running ∧
    ((∀ fw, ((token7 fw).cores[(0 : Fin 512)].tokens[(7 : Fin 256)]).any (fun k => k.fw == fw && !k.notify && !k.expired && decide (k.limit ≤ (token7 fw).clk)) = true ∧
        (token7 fw).cores[(0 : Fin 512)].st = .running ∧
        (∀ i : Fin 256, ((token7 fw).cores[(0 : Fin 512)].tokens[i]).all (fun k => !k.resend) = true) ∧
        (∀ j : Fin 256, j < 7 → (token7 fw).cores[(0 : Fin 512)].tokens[j] = none)) ∧
      (∀ j : Fin 256, unit0.cores[(0 : Fin 512)].tokens[j] = none)) := by decide +kernel

/-- A SUB in a firmware context, and one in a unit whose boundary has nothing to take. -/
theorem witness_StepRunsTheDecodedWord : (let w : Slot := ⟨0, 0x00074241, .sub h0 7 8 9⟩;
    let ok (s : State) : Bool := (let u := shareWindow s;
      s.turn == .issue && !s.pf.trip2 && present? s && !shareSpent exec u && decide (u.ctx.word < 3) && (streamsReady u).2 &&
        (streamsReady u).1.ctx.viaJr.isNone &&
        (let v := (fetchPacket (streamsReady u).1 (streamsReady u).1.core (streamsReady u).1.fw (streamsReady u).1.ctx.pc);
          (match v.2 with
            | .ok ws => ws == [0x00074241, 0, 0]
            | _ => false) && (packetFault v.1.fw [0x00074241, 0, 0]).isNone && bundleFirst [0x00074241, 0, 0] v.1.ctx.word == 0 &&
            resolve v.1 (.sub h0 7 8 9) == .sub h0 7 8 9 && !mustWait v.1.ctx w));
    let s := State.reset.withFetchWord 32 0x00074241;
    let u := withUnitWord { unit0 with turn := .issue } 0x00074241;
    ok s = true ∧ (shareWindow s).fw = true ∧ oldestFault (shareWindow s) (shareWindow s).core true = none ∧
      bundleLast [0x00074241, 0, 0] 0 = 0 ∧ decodeWord 0x00074241 = some (.sub h0 7 8 9) ∧
      ok u = true ∧ (shareWindow u).fw = false ∧ cancelDue (shareWindow u) (shareWindow u).core = false ∧
      (boundaryTrap (shareWindow u) (shareWindow u).core).isNone = true) := by
  decide +kernel

/-- Partition 0's stream at a record of 32 bytes of zeros but for its opcode, which the front end holds. -/
def streamAt (w : BitVec 8) (extra : List Byte) : State :=
  let s := glob0
  let bs := [0, 0, 0, w] ++ extra
  let a := s.aux[(0 : Fin 16)]
  let l : Level := ⟨0x8000000000000000, 0x8000000000000100, 0x8000000000000000, []⟩
  let k (i : Nat) : Block := ⟨0, 0x8000000000000000 + BitVec.ofNat 64 (64 * i), List.ofFn fun j : Fin 64 => (bs[64 * i + j.val]?).getD 0, List.replicate 4 false, none⟩
  let e : Entry := ⟨0, 0, 0, false, false, false, 0x8000000000000000, 0x100, 0, false, 0, [(0, 0x8000000000000000)], none, false, none⟩
  let f := { a.front with st := .running, levels := [l], blocks := [k 0, k 1, k 2, k 3], entries := [e], current := some 0, nextEntry := 1 }
  { s.putAux 0 { a with front := f } with turn := .stream, part := 0 }

theorem witness_StepRunsTheTurn : (let s := streamAt 0x18 [];
      s.turn = .stream ∧ canDecode s s.part = true ∧ s.front.skip = false ∧ s.front.graph = none ∧ s.front.level.ended = false ∧ entryFence s.front = false ∧
      s.front.fetchDue = none ∧ (recordBytesAt s).2 = .ok ([0, 0, 0, 0x18] ++ List.replicate 28 0) ∧
      decodeStream ([0, 0, 0, 0x18] ++ List.replicate 28 0) = some .wfence) ∧
    (let s := State.reset.withFetchWord 16 0x0105;
      s.turn = .topiary ∧ s.front.pick.isSome = true ∧ s.aux[s.part].run.isSome = true ∧ frontHeld s s.part = false ∧
      decodeTopiary 0x0105 = some (.topiaryLit 5)) ∧
    isInput (.linkDown 5) = true := by decide +kernel

theorem witness_MemoryKeepsItsForm : (State.reset.store (hbmAddr 0 0x100) [1, 0, 2]).memWf := by unfold State.memWf; decide +kernel

/-- A run of a policy of four operations, at its first. -/
def running0 (stack : List (BitVec 32)) (loop : Option Nat) (visit passes : Nat) : TopRun :=
  { startRun State.reset.aux[(0 : Fin 16)].front 0 with pc := 1, stack := stack, loopPc := loop, visit := visit, passes := passes }

def topiary0 (r : TopRun) : State :=
  let a := unit0.aux[(0 : Fin 16)]
  { unit0.putAux 0 { a with policy := [0x4002, 0x0100, 0x4100, 0xFF00], run := some r } with part := 0 }

theorem witness_TopiaryOperations : (let s := topiary0 (running0 [1, 2, 3] (some 1) 0 1);
      s.aux[s.part].run = some (running0 [1, 2, 3] (some 1) 0 1) ∧ 1 + 1 < s.aux[s.part].policy.length ∧ 1 < s.aux[s.part].policy.length ∧
      0 + 1 < 4 * 1 ∧ ¬(3 + 1 < 4 * 1) ∧ 1 + (2 : BitVec 8).toNat < s.aux[s.part].policy.length) ∧
    (List.replicate 16 (0 : BitVec 32)).length = 16 ∧ (running0 [] none 0 0).loopPc = none := by decide +kernel

/-- Bytes stored at TM offset 0x100 of core 0, whose address s1 holds. -/
def tm0 (bs : List Byte) : State := (args unit0 0x100 0xFFFFFFFFFFFFFFFF).store (tmAddr 0 0x100) bs

/-- A descriptor of one copy of 64 bytes from CM offset 0 to CM offset 0x1000. -/
def copyDesc : List Byte :=
  leBytes 8 0x1000000 ++ leBytes 8 0x1001000 ++ leBytes 8 0 ++ leBytes 4 64 ++ leBytes 4 1 ++ leBytes 4 0x10040 ++ List.replicate 28 0

/-- A nest of one such copy that names no barrier. -/
def nestDesc (kind bar : Nat) (w : Nat) (t : List Byte) : List Byte :=
  leBytes 1 kind ++ leBytes 1 0 ++ leBytes 2 bar ++ leBytes 4 w ++ List.replicate 56 0 ++
    (List.range 6).flatMap (fun _ => leBytes 2 1 ++ List.replicate 14 0) ++ t ++ List.replicate (96 - t.length) 0

/-- Core 0's unit with a nest run. -/
def nested (d : List Byte) : State := unit0.setCtx { unit0.ctx with nest := { Nest.zero with shadow := d, shadowValid := true, active := d, activeValid := true, go := true } }

/-- A stream register of four positions, at position 0 with its bytes read, or of stores. -/
def streamOf (n store : Nat) : List Byte :=
  leBytes 8 0x200 ++ leBytes 2 store ++ leBytes 2 n ++ leBytes 2 1 ++ leBytes 2 1 ++ leBytes 4 256 ++ List.replicate 12 0
def streamDesc (store : Nat) : List Byte := streamOf 4 store
def bound (d : List Byte) (got : List (Nat × (List Byte ⊕ Cause))) : State := unit0.setStream 2 (some ⟨d, 0, got⟩)

theorem witness_BarrierWords : (let s := args unit0 0 4095;
      (s.rs 1).toNat < barrierMax s.fw ∧ acqWaits s = false ∧ (s.rs 2).toNat ≤ 4095 ∧ barrierBusy s 0 = false ∧
        (getBar s 0 false 0).v = false ∧ (getBar (putBar s 0 false 0 ⟨true, false, false, 1, 0, 0⟩) 0 false 0).arrive = 0 ∧ 4095 < (args unit0 0 4096).rs 2) ∧
    (let o : Bar := ⟨true, false, false, 1, 1, 0⟩;
      let s := putBar (args unit0 0 0x7FFFFFFF) 0 false 0 o;
      getBar s 0 false 0 = o ∧ o.pend.toInt + (s.rs 2).toNat < 2 ^ 31 ∧ 2 ^ 31 ≤ o.pend.toInt + ((args unit0 0 0x80000000).rs 2).toNat ∧
        o.arrive ≠ 0 ∧ o.phase ≠ (s.rs 2).getLsbD 0 ∧ o.phase = ((args unit0 0 2).rs 2).getLsbD 0) ∧
    barrierMax false ≤ (args unit0 (BitVec.ofNat 64 (barrierMax false)) 0).rs 1 ∧ unit0.memWf := by
  unfold State.memWf; decide +kernel

theorem witness_NestAndStreamWords : (let d := nestDesc 0 0xFFFF 0x70000000 copyDesc;
      let s := tm0 d;
      (s.rs 1).toNat % 64 = 0 ∧ (s.rs 1).toNat + 256 ≤ 0x78000 ∧ engineReads s 0x100 256 = false ∧ s.load (tmAddr 0 0x100) 256 = d ∧
        nestShapeOk d = true ∧ nestFormatOk s d = true ∧ nestBarrierOk false d = true ∧ nestBarrier d = none) ∧
    (let s := unit0.setCtx { unit0.ctx with nest := { Nest.zero with shadow := nestDesc 0 0xFFFF 0x70000000 copyDesc, shadowValid := true } };
      s.ctx.nest.go = false ∧ acqWaits s = false ∧ s.ctx.mmas.any (·.nest) = false ∧ s.ctx.nest.shadowValid = true ∧ nestBarrier s.ctx.nest.shadow = none ∧ unit0.ctx.nest.shadowValid = false) ∧
    (let s := nested (nestDesc 0 0xFFFF 0x70000000 copyDesc);
      (s.cores[(0 : Fin 512)].ctx false).nest.go = true ∧ (s.cores[(0 : Fin 512)].ctx false).nest.fault = none ∧ trapFree s 0 = true ∧
        s.cores[(0 : Fin 512)].cpyAt ≠ some s.clk ∧
        nestVariant (nWord (s.cores[(0 : Fin 512)].ctx false).nest.active) = some .plain) ∧
    nestVariant (nWord (nestDesc 1 0 0x60000008 [])) = none ∧ nestMma (nWord (nestDesc 1 0 0x60000008 [])) = some (.bf16, false) ∧
    (let s := tm0 (streamDesc 0);
      storesMeet s 0x100 32 = false ∧ recordMeets s (.tm 0x100) 32 = false ∧ bindFault s (streamDesc 0) = none ∧ s.load (tmAddr 0 0x100) 32 = streamDesc 0 ∧
        (firstReads ((releaseStream s s.core s.fw 2).setStream 2 (some ⟨streamDesc 0, 0, []⟩)) 2 (streamDesc 0)).isSome = true) ∧
    unit0.stream 2 = none ∧
    (let bs : List Byte := List.replicate 256 1;
      let s := bound (streamDesc 0) [(0, .inl bs)];
      s.stream 2 = some ⟨streamDesc 0, 0, [(0, .inl bs)]⟩ ∧ qStore (streamDesc 0) = false ∧
        ([(0, .inl bs)] : List (Nat × (List Byte ⊕ Cause))).lookup 0 = some (.inl bs) ∧ qTotal (streamDesc 0) ≤ 0 + 4 ∧
        0 + 4 < qTotal (streamOf 5 0) ∧ readFits s s.core s.fw (streamOf 5 0) 4 = true ∧
        ([(0, .inr .unmapped)] : List (Nat × (List Byte ⊕ Cause))).lookup 0 = some (.inr .unmapped)) ∧
    (let s := bound (streamDesc 1) [];
      qStore (streamDesc 1) = true ∧ maskSpan (s.rm 1) = none ∧ maskSpan (s.rm 0) = some (0, 256) ∧ (qAddr (streamDesc 1) 0).toNat % 4 = 0 ∧
        checkAddr s (qAddr (streamDesc 1) 0 + BitVec.ofNat 64 0) 256 .write = .ok (.tm 0x200) ∧ guardStalls s (.tm 0x200) 256 = false ∧ recordMeets s (.tm 0x200) 256 = false) ∧
    (let e := newEnt unit0 (.streamRead 2 0) true false 0x200 [⟨.tm 0x200, 0, 256, none⟩];
      Machine.headOf (queued unit0 e) 0 false (·.ld) = some e ∧ Machine.headOf unit0 0 false (·.ld) = none) := by
  decide +kernel

/-- An MMA of one step of BF16 tiles at CM offsets 0 and 0x1000, alone in core 0's matrix unit, with room in its ramp or without. -/
def mma0 (pix : Nat) : MmaRun :=
  ⟨0, 2, false, false, .bf16, 0x1000000, 0x2000000020, 0x1001000, 0x2000000020, pix, [], [], .waiting, none, [], [], 0, false, 0, 0, 0⟩
def matrixOf (r : MmaRun) (allow : Nat) : State :=
  let s := unit0.setCtx { unit0.ctx with mmas := [r] }
  s.putCore 0 { s.cores[(0 : Fin 512)] with ramp := { s.cores[(0 : Fin 512)].ramp with allow := allow } }
def matrix0 (pix : Nat) : State := matrixOf (mma0 pix) 1024
def tile0 : List Byte := List.replicate 512 1

theorem witness_MatrixWords : (let s := args unit0 0x100 0;
      s.rp h0.g = true ∧ writeWaits s.olderCtx 2 = false ∧ readWaits s.olderCtx 2 = false ∧ (s.rs 1).toNat % 64 = 0 ∧ (s.rs 1).toNat + 2176 ≤ 0x78000 ∧
        recordMeets s (.tm 0x100) 2176 = false ∧ captureFull s = false ∧ guardStalls s (.tm 0x100) 2176 = false ∧ tableValid s s.core 0 = true ∧
        acqWaits s = false ∧ guardOk s.cur [(tmAddr s.core 0x100, (qRecFmt .e4m3).size, true)] = true ∧ matrixRun s.olderCtx = false ∧
        rampAllows s.cur [0] = true ∧ rampAllows s.cur [1025] = false) ∧
    (let q : Quant := ⟨1, 0, .e4m3, 0, [], some 2, 0x100, false, 0, 0, 0, 0⟩;
      let s := unit0.setCtx { unit0.ctx with quants := [q] };
      (s.cores[(0 : Fin 512)].ctx false).quants = q :: [] ∧ olderStores s 0 false q.id q.addr (qRecFmt q.fmt).size = false ∧
        loadsMeet s 0 false q.id (2 ^ 80 + tmAddr 0 q.addr) (qRecFmt q.fmt).size = false ∧ (unit0.cores[(0 : Fin 512)].ctx false).quants = [] ∧
        q.headed = false ∧ ({ q with headed := true } : Quant).pix < 8 ∧ 8 ≤ ({ q with headed := true, pix := 8 } : Quant).pix) ∧
    (let m : MmaArgs := ⟨2, false, .bf16, 0x1000000, 0x2000000020, 0x1001000, 0x2000000020⟩;
      mmaFault unit0 0 false m = none ∧ mmaWaits unit0 0 false m = false ∧
        mmaFault glob0 0 false { m with remote := true, bBase := 0x8000000000000000 } = none ∧
        mmaWaits glob0 0 false { m with remote := true, bBase := 0x8000000000000000 } = false) := by
  decide +kernel

/-- A step at its start, with a part of its A tile to read, with the A tile read, and with the B tile read as well, locally or from another package. -/
theorem witness_MatrixTurns : (let s := matrix0 0;
      let r := mma0 0;
      fetchingMma (s.cores[(0 : Fin 512)].ctx false) = some r ∧ r.parts = [] ∧ r.got = [] ∧ r.bStage = .waiting ∧ r.tile = none ∧
        (∀ z ∈ (s.cores[(0 : Fin 512)].ctx false).mmas, z.id = r.id → z.pix = r.pix) ∧
        ((fetchingMma ((mmaStart s 0 false r).cores[(0 : Fin 512)].ctx false)).any fun z => !z.parts.isEmpty) = true ∧
        fetchingMma (unit0.cores[(0 : Fin 512)].ctx false) = none) ∧
    (let r : MmaRun := { mma0 0 with got := tile0 };
      fetchingMma ((matrixOf r 1024).cores[(0 : Fin 512)].ctx false) = some r ∧ r.bStage = .waiting ∧ r.got ≠ [] ∧ r.operand.2.2 = false ∧ r.ty ≠ .recd ∧
        r.parts = [] ∧ r.tile = none) ∧
    (let r : MmaRun := { mma0 0 with got := tile0, tile := some tile0 };
      fetchingMma ((matrixOf r 1024).cores[(0 : Fin 512)].ctx false) = some r ∧ r.parts = [] ∧ r.tile = some tile0 ∧ r.operand.2.2 = false ∧
        rampAllows (matrixOf r 1024).cores[(0 : Fin 512)] [stepWeight r.ty tile0 tile0] = true ∧
        rampAllows (matrixOf r 0).cores[(0 : Fin 512)] [stepWeight r.ty tile0 tile0] = false) ∧
    (let r : MmaRun := { mma0 0 with tile := some tile0, remote := true, bStage := .returned tile0 };
      r.operand.2.2 = true ∧ ∃ tb, remoteTile (matrixOf r 1024) 0 r.ty r.operand.2.1 tile0 = .ok tb) ∧
    readyMma ((matrix0 1).cores[(0 : Fin 512)].ctx false) = some (mma0 1) ∧ readyMma ((matrix0 0).cores[(0 : Fin 512)].ctx false) = none := by
  refine ⟨by decide +kernel, by decide +kernel, by decide +kernel, ⟨by decide +kernel, _, rfl⟩, by decide +kernel, by decide +kernel⟩

/-- Core 0 with a copy of one box in slot 5, credited or not, and with parts of it in progress. -/
def copy0 (f k : BitVec 3) (credited : List Nat) (runs : List BoxRun) : Copy :=
  ⟨0, 1, .cpy f k, copyDesc, none, .cm 0 0, .cm 0 0x1000, if f = 3 then some (.cm 0 0x2000) else none, 1, credited, 0, [], runs, 0, false, false, false,
    false, false, none, 0, 0⟩
def copying (f k : BitVec 3) (credited : List Nat) (runs : List BoxRun) : State :=
  let c := copy0 f k credited runs
  let core := unit0.cores[(0 : Fin 512)]
  unit0.putCore 0 { core with copies := vput core.copies 5 (some c), copyGens := vput core.copyGens 5 1 }

/-- An LD.ACQ of an earlier bundle that has not read. -/
def acquiring0 : State := let s := { unit0 with serial := 5 }; s.setCtx { s.ctx with mq := [tmEnt (.ldAcq 3 .b32) true false 4] }

theorem witness_CopyWords : (let s := tm0 copyDesc;
      let v : Variant := .plain;
      let d := s.load (tmAddr 0 0x100) 64;
      (s.rs 1).toNat % 64 = 0 ∧ (s.rs 1).toNat + 64 ≤ 0x78000 ∧ engineReads s 0x100 64 = false ∧ copyBarrier s s.core s.fw (s.rs 2) = some none ∧
        descFault s s.core v d = none ∧ overlapFault s s.core s.fw v d = false ∧
        firstFail ((spanChecks s s.core s.fw (issueGlob s) (issueGlob s) (copySrc v d) (copyDst v d) (stampOf v d)).map (·.1)) = .ok () ∧
        (startCopy s s.core s.fw false (.cpy 0 0) d none (copySrc v d) (copyDst v d) (dSrc d) (dDst d) (stampOf v d) (boxCount v d) 0).map (·.2) = some 0x100 ∧
        freeCopy s.cores[(0 : Fin 512)] = some 0 ∧ guardOk s.cores[(0 : Fin 512)] (copyNeeds s 0 (copySrc v d) (copyDst v d)) = true) ∧
    (let run (n : Nat) (w : Bool) : BoxRun := ⟨n, w, [], [], [], 0, false⟩;
      let s := (copying 0 0 [] []).wrS 1 0x105;
      let k := copy0 0 0 [] [];
      acqWaits s = false ∧ handleCopy s ((s.rs 1).setWidth 16) = some (5, k) ∧ handleCopy s 0 = none ∧ k.runs = [] ∧ creditFree s s.core 5 k = true ∧
        (copy0 0 0 [] [run 0 true]).runs ≠ [] ∧ (run 0 true).dead = false ∧ (run 0 true).writing = true ∧
        s.cores[(0 : Fin 512)].copies[(5 : Fin 256)] = some k ∧ k.held = false ∧ k.abandoned = false ∧
        (boxTurns s 0 5 k).isEmpty = false ∧ boxToStart s.cores[(0 : Fin 512)] k = some 0 ∧ stampDue s.cores[(0 : Fin 512)] k = false ∧
        (boxTurns (copying 0 0 [0] []) 0 5 (copy0 0 0 [0] [])).isEmpty = true ∧
        phaseDue (copying 0 0 [] [run 0 true]) 0 5 (copy0 0 0 [] [run 0 true]) (run 0 true) = true ∧
        stampDue (copying 3 0 [0] []).cores[(0 : Fin 512)] (copy0 3 0 [0] []) = true ∧
        (let z := copy0 3 0 [0] [run (copy0 3 0 [0] []).stampBox true];
          stampDue (copying 3 0 [0] z.runs).cores[(0 : Fin 512)] z = false ∧
            (runTurns (copying 3 0 [0] z.runs) 0 5 z fun r => r.num == z.stampBox).isEmpty = false) ∧
        s.cores[(0 : Fin 512)].copies[(6 : Fin 256)] = none) ∧
    acqWaits acquiring0 = true := by decide +kernel

/-- A protected partition with a seal secret and an export window, and a seal descriptor for 64 bytes of CM. -/
def sealing0 (to_ : Bool) : State :=
  let s := glob0
  let s := s.putPart 0 { s.parts[(0 : Fin 16)] with prot := true, secret := some 1, exportLo := 0x8000000000001000, exportLen := 0x1000 }
  ((s.wrS 1 0x100).wrS 2 0xFFFFFFFFFFFFFFFF).store (tmAddr 0 0x100)
    ((if to_ then leBytes 8 0x1000000 ++ leBytes 8 0x8000000000001000 else leBytes 8 0x8000000000001000 ++ leBytes 8 0x1000000) ++ leBytes 4 64 ++ List.replicate 44 0)

theorem witness_SealWords : (let s := sealing0 true;
    let d := s.load (tmAddr 0 0x100) 64;
    let a := Span.bytes (sSrc d) 64;
    let b := Span.bytes (sDst d) (imageLen 64);
    s.curPart = some 0 ∧ s.parts[(0 : Fin 16)].prot = true ∧ sealShapeOk d = true ∧ sSrc d % 64 = 0 ∧ sDst d % 64 = 0 ∧ sealPermOk s 0 b a = true ∧
      a.meets s s.core b = false ∧
      firstFail ((spanChecks s s.core s.fw (issueGlob s) (windowGlob s s.core s.fw) a b none).map (·.1)) = .ok () ∧
      (startCopy s s.core s.fw false .sealing d none a b (sSrc d) (sDst d) none (sealChunks 64) 1).isSome = true) ∧
    (let s := sealing0 false;
    let d := s.load (tmAddr 0 0x100) 64;
    let a := Span.bytes (sSrc d) (imageLen 64);
    let b := Span.bytes (sDst d) 64;
    sealPermOk s 0 a b = true ∧ a.meets s s.core b = false ∧
      firstFail ((spanChecks s s.core s.fw (windowGlob s s.core s.fw) (issueGlob s) a b none).map (·.1)) = .ok () ∧
      (startCopy s s.core s.fw false .unsealing d none a b (sSrc d) (sDst d) none (sealChunks 64) 0).isSome = true) := by decide +kernel

/-- A capability of partition 0 for the first 0x1000 bytes of die 0 with every right, stored with its tag at TM offset 0x100. -/
def cap0 : Nat := 0xF * 2 ^ 104 + 0x1000 * 2 ^ 64 + 2 ^ 63
def capped (fw : Bool) : State :=
  let s := glob0
  let s := { s.putPart 0 { s.parts[(0 : Fin 16)] with prot := true } with fw := fw }
  let s := ((s.storeCap (tmAddr 0 0x100) (leBytes 16 cap0)).wrS 1 0x100).wrS 2 0x110
  (s.wrS 4 0x8000000000000000).wrS 5 0xF0000000100

theorem witness_CapabilityWords : (let s := capped false;
      s.curPart = some 0 ∧ s.parts[(0 : Fin 16)].prot = true ∧ capAddr s (s.rs 1 + BitVec.ofNat 64 (16 * 0)) .read = .ok (.tm 0x100) ∧
        captureFull s = false ∧ recordMeets s (.tm 0x100) 16 = false ∧ capPending s (.tm 0x100) = false ∧ capNow s (.tm 0x100) (heldCheck 0) = none ∧
        capAddr s (s.rs 2) .write = .ok (.tm 0x110) ∧ guardStalls s (.tm 0x110) 16 = false ∧
        capNow s (.tm 0x100) (fun t q => deriveCheck 0 t q (capReq s 2)) = none) ∧
    (capped true).fw = true ∧ standing (capped true) (capReq (capped true) 2) = true ∧ unit0.curPart = some 0 ∧ unit0.parts[(0 : Fin 16)].prot = false := by
  decide +kernel

/-- A firmware context with a request in s1 and s2. -/
def asks (x y : Word) : State := args fw0 x y

/-- A trial of image slot 1, whose ACTIVE is slot 0. -/
def trialOf (beats : BitVec 8) : State :=
  let i := unit0.hub.images
  { asks 3 0 with hub := { unit0.hub with images := { i with trial := true, nbeat := 2, beats := beats, hblog := 20, due := 100 } } }

/-- Key slot 7 in a state. -/
def keyed (st : KeySt) : State := putKey (asks 0 7) 7 { KeySlot.zero with st := st }

/-- A switch that is not refused: slot 1 verified, the streams quiesced, and a handover of no record. -/
def switching : State :=
  let s := asks (BitVec.ofNat 64 (2 + 2 ^ 4 + 20 * 2 ^ 8 + 2 * 2 ^ 20)) 0x8000000000000000
  let s := devWrite s (devAddr 0x8000000000000000) (leBytes 4 0x4F564844 ++ leBytes 4 0 ++ leBytes 4 64)
  { s with hub := { s.hub with images := { s.hub.images with verified1 := true, quiesced := true } } }

/-- Signatures and life-cycle states are the device's own, so that the conditions on them are met on one device or on another. -/
theorem witness_FirmwareWords : (krotBad 0 64 false = true ∧ krotBad 0 63 false = false ∧ krotBad 0 64 true = true ∧ krotBad 0 63 true = false ∧
      (keyed .active).hub.keys[(7 : Fin 64)].st ≠ .free ∧ (asks 0 7).hub.keys[(7 : Fin 64)].st = .free ∧
      ((asks 0 7).hub.keys.toList.any fun z => (z.st == .retiring || z.st == .drained) && z.cls == krotClass 0 && z.part == krotPart 0) = false ∧
      ((keyed .retiring).hub.keys.toList.any fun z => (z.st == .retiring || z.st == .drained) && z.cls == krotClass 0 && z.part == krotPart 0) = true ∧
      (keyed .drained).hub.keys[(7 : Fin 64)].st = .drained ∧ (keyed .drained).hub.keys[(7 : Fin 64)].part = krotPart 0) ∧
    (let x : Word := BitVec.ofNat 64 (32 * 28671);
      (x.extractLsb' 0 2 = 0 ∧ x.extractLsb' 20 44 = 0 ∧ x.toNat / 2 ^ 5 % 2 ^ 15 = 28671 ∧ 28671 + 1 ≤ 28672 ∧ 28672 < 28671 + 2) ∧
        regionInUse unit0 0 0 = false ∧ regionInUse glob0 0 0 = true) ∧
    ((asks 2 0).rs 1 = 2 ∧ State.reset.cur.st = .none ∧ (asks 2 0).cur.st ≠ .none) ∧
    ((asks 1 0).hub.images.active = false ∧ imgHeaderOk (asks 1 0) true = false ∧
      imgHeaderOk ((asks 1 0).store (imageAddr true 0) (leBytes 4 0x49575A44 ++ leBytes 8 0 ++ leBytes 4 0 ++ leBytes 4 1)) true = true) ∧
    ((asks 0x1F 0x100).rs 1 = 0x1F ∧ engineReads (asks 0x1F 0x100) 0x100 64 = false) ∧
    (let s := asks 0 0;
      olderEnts s = [] ∧ tokenOut s.cur s.fw (sinceNow s) (fun _ => true) = false ∧ swReserved 0x10000 = true ∧ swReserved 5 = false ∧ swPlain 0 = true ∧
        swPlain 0x100000 = false ∧ (s.hub.images.trial = false) ∧ (trialOf 0).hub.images.trial = true ∧
        ((trialOf 0).hub.images.beats + 1).toNat ≠ (trialOf 0).hub.images.nbeat.toNat ∧
        ((trialOf 1).hub.images.beats + 1).toNat = (trialOf 1).hub.images.nbeat.toNat ∧ switchRefusal s 2 0 = some 5 ∧
        switchRefusal switching (switching.rs 1) (switching.rs 2) = none) ∧
    (let e := newEnt fw0 (.ld 3 .u64) true false 0x100 [⟨.tm 0x100, 0, 8, none⟩];
      let s := { fw0 with serial := 5 };
      olderEnts (s.setCtx { s.ctx with mq := [e] }) ≠ []) ∧
    (trialOf 0).hub.images.due ≤ { trialOf 0 with clk := 100 }.clk ∧ { trialOf 0 with clk := 99 }.clk < (trialOf 0).hub.images.due := by
  decide +kernel

/-- Partition 0's window with these entries. -/
def windowed (es : List WinEnt) : State :=
  let s := { unit0 with part := 0 }
  s.putAux 0 { s.aux[(0 : Fin 16)] with window := { s.aux[(0 : Fin 16)].window with entries := es, nextSerial := 9 } }

/-- A record of launch 7 in cluster 0's shard that waits for a word of CM. -/
def rec0 (ready : Bool) : CRec := ⟨0, 3, 7, Vector.replicate 6 0, true, false, 1, Vector.ofFn fun i : Fin 5 => if i.val = 1 then 0x1000000 else 0,
  ready, .waiting, none⟩
def sharded (shard over_ : List CRec) : State :=
  let s := windowed [ent0 .running]
  s.putCluster 0 { s.clusters[(0 : Fin 64)] with shard := shard, overflow := over_ }

/-- A POST to the own cluster's shard; one to the shard of cluster 1, over an edge whose stream is open or exhausted. -/
theorem witness_UnitsAndLaunches : (let s := args unit0 0x1000000 0;
      let u := (postShard s (s.rs 1)).1;
      s.fw = false ∧ workOut s.cur (sinceNow s) = false ∧ waitFault 0 (s.rs 8) = none ∧ waitFault 2 ((s.wrS 8 0x1000000).rs 8) = none ∧
        (postShard s (s.rs 1)).2 = .ok 0 ∧ clusterOf s.core = 0 ∧ recordCount u 0 < postLimit ∧ (olderEnts u).any (·.st) = false ∧
        u.curPart = s.curPart ∧ u.core = s.core ∧ workOut busy0.cur (sinceNow busy0) = true ∧ 2 < (3 : BitVec 5).toNat) ∧
    (let s := args unit0 0x101000000 0;
      let used := (let u := s.putPart 0 { s.parts[(0 : Fin 16)] with prot := true };
        { u with hub := { u.hub with streams := [⟨edgeSid s 0, 0, none, false, 0, true⟩] } });
      (postShard s (s.rs 1)).2 = .ok 1 ∧ allOpen s 0 (edgeHops s 0 1) = true ∧ allOpen used 0 (edgeHops used 0 1) = false) := by
  decide +kernel

theorem witness_UnitsHanded : (let s := windowed [ent0 .running];
      s.aux[(0 : Fin 16)].window.entries.find? (fun z => z.st == .running && !z.cancelled && decide (z.handed < z.units)) = some (ent0 .running) ∧
        nextCore s 0 = some (1, 1) ∧ nextCore State.reset 0 = none) := by decide +kernel

theorem witness_RecordsResumed : (let s := sharded [rec0 true] [];
      s.partOf 1 = some 0 ∧ readyRec s 1 0 = some (rec0 true) ∧ coreFree s 1 = true ∧ coreFree s 0 = false ∧
        findLaunch (sharded [] []) 0 (rec0 true).launch = some (ent0 .running) ∧ readyRec (sharded [] []) 1 0 = none) := by decide +kernel

theorem witness_RecordsWatched : (let s := sharded [rec0 false] [rec0 false];
      s.clusters[(0 : Fin 64)].overflow = rec0 false :: [] ∧ s.clusters[(0 : Fin 64)].shard.length < 1024 ∧
        s.clusters[(0 : Fin 64)].shard[0]? = some (rec0 false) ∧ (rec0 false).ready = false ∧ (rec0 true).ready = true ∧
        (readWaitWord s 0 { rec0 false with saved := Vector.replicate 5 0 }).2 = .fail .unmapped ∧ (readWaitWord s 0 (rec0 false)).2 = .ok 0 ∧
        s.clusters[(0 : Fin 64)].shard[1023]? = none) ∧
    (let e := { ent0 .waiting with leases := [.asked] };
      let s := windowed [e];
      askedOps s.aux[(0 : Fin 16)].window = [(1, 0, ⟨0, 1, 1, none, 0x8000000000000000, 64, false⟩)] ∧
        (s.aux[(0 : Fin 16)].window.entries.any fun z => z.serial == 1 && z.st == .waiting && !z.cancelled) = true ∧
        askedOps (windowed []).aux[(0 : Fin 16)].window = []) := by decide +kernel

theorem witness_WindowEvents : (let at_ (es : List WinEnt) : State := { windowed es with clk := 5 };
      let sw (es : List WinEnt) : Window := (modWindow (at_ es) 0 settleWindow).aux[(0 : Fin 16)].window;
      let mk (es : List WinEnt) : Window := (markReady (at_ es) 0).aux[(0 : Fin 16)].window;
      ((mk [ent0 .ready]).entries.find? fun z => z.st == .ready && !z.cancelled && decide (z.readyAt < 5)) = some (ent0 .ready) ∧
        ((mk [ent0 .ready]).entries.filter fun z => z.st == .running).length < 8 ∧
        ((mk [ent0 .waiting]).entries.find? fun z => z.st == .ready && !z.cancelled && decide (z.readyAt < 5)) = none ∧
        ((mk [ent0 .waiting]).entries.map fun z => z.st) = [.ready] ∧
        (sw [ent0 .complete]).entries = [ent0 .complete] ∧ (ent0 .complete).cancelled = false ∧ (sw [ent0 .ready]).entries = [ent0 .ready]) ∧
    (let s := windowed [ent0 .faulted];
      s.aux[(0 : Fin 16)].window.stop = none ∧ s.aux[(0 : Fin 16)].window.entries = [ent0 .faulted] ∧ s.parts[(0 : Fin 16)].heldWindow = none) ∧
    (let e := { ent0 .running with cancelled := true };
      let s := windowed [e];
      let u := s.putCore 0 { s.cores[(0 : Fin 512)] with ctl := { s.cores[(0 : Fin 512)].ctl with launchid := 7 } };
      leaving s.aux[(0 : Fin 16)].window = [e] ∧ launchCores s 0 7 = [] ∧ leaving u.aux[(0 : Fin 16)].window = [e] ∧ launchCores u 0 7 ≠ [] ∧
        leaving (windowed []).aux[(0 : Fin 16)].window = []) ∧
    (let w := (windowed [ent0 .faulted]).aux[(0 : Fin 16)].window;
      let x : WinStop := ⟨2, 0, [], none, 0, 0⟩;
      leaving { w with stop := some x } = [ent0 .faulted] ∧ { w with stop := some x, entries := [] }.stop = some x) ∧
    unit0.clk < unit0.cores[(0 : Fin 512)].ramp.due ∧ unit0.cores[(0 : Fin 512)].ramp.due ≤ { unit0 with clk := 1024 }.clk := by decide +kernel

/-- A command at the head of a ring. -/
def ringed (s : State) (ring : Nat) (r : List Byte) : State := devWrite (devWrite s ring (leBytes 8 1)) (ringSlot ring 0) r

/-- A slice command of die 0 for the first 2 MiB of partition 0, which its tables map at 0. -/
def sliceCmd (cmd arg : Nat) : List Byte := leBytes 2 0 ++ leBytes 1 4 ++ leBytes 1 cmd ++ List.replicate 12 0 ++ leBytes 8 (2 ^ 63) ++ leBytes 8 arg
def mapped0 : State :=
  let s := unit0
  let table (at_ e : Nat) (s : State) : State := devWrite s (hbmAddr 0 at_) (leBytes 8 e)
  let s := table 0x404000 (0xF800000000000000) (table 0x402000 (0xB800000000404000) (table 0x400000 (0xB800000000402000) s))
  s.putDie 0 { s.dies[(0 : Fin 4)] with roots := vput s.dies[(0 : Fin 4)].roots 0 0x400001 }
def sliced (cmd arg : Nat) : State := ringed mapped0 (sliceRing 0) (sliceCmd cmd arg)
def page0 : Page := ⟨0, 0, 1⟩

theorem witness_SliceCommands : headRecord mapped0 (sliceRing 0) = none ∧ slBad mapped0 0 (sliceCmd 7 0) = true ∧
    (headRecord (sliced 1 0) (sliceRing 0) = some (sliceCmd 1 0) ∧ slBad (sliced 1 0) 0 (sliceCmd 1 0) = false ∧ slCmd (sliceCmd 1 0) = 1 ∧
      slPage (sliceCmd 1 0) = page0 ∧ xlatedIn (sliced 1 0) 0 page0 = false) ∧
    xlatedIn (queued (sliced 1 0) amo0) 0 page0 = true := by decide +kernel

theorem witness_SliceInvalAll : (headRecord (sliced 2 0) (sliceRing 0) = some (sliceCmd 2 0) ∧ (∀ c : Fin 512, (sliced 2 0).cores[c].unit.mq = [])) := by decide +kernel

/-- A page free of pins; one with a lease; and an evict-pending one whose last pin has gone. -/
theorem witness_SliceEvictions : (let s := sliced 3 0;
      let u := grantLeases s 0;
      slBad s 0 (sliceCmd 3 0) = false ∧ headRecord s (sliceRing 0) = some (sliceCmd 3 0) ∧ (pinOf u.dies[(0 : Fin 4)] page0).lcnt = 0 ∧ tcnt u 0 page0 = 0 ∧
        xlatedIn (evictNow u 0 page0) 0 page0 = false ∧ duePage s 0 = none) ∧
    (let e : PinEnt := ⟨0, 0, 1, 1, false, none⟩;
      let s := (sliced 3 0).putDie 0 (putPin (sliced 3 0).dies[(0 : Fin 4)] e);
      let u := grantLeases s 0;
      (pinOf u.dies[(0 : Fin 4)] page0).lcnt ≠ 0 ∧ pinRoom u.dies[(0 : Fin 4)] page0 = true) ∧
    (let e : PinEnt := ⟨0, 0, 1, 0, true, none⟩;
      let s := mapped0.putDie 0 (putPin mapped0.dies[(0 : Fin 4)] e);
      duePage s 0 = some e ∧ xlatedIn (evictNow s 0 page0) 0 page0 = false) := by decide +kernel

theorem witness_SliceMigrations : (let s := sliced 4 0x200000;
      slBad s 0 (sliceCmd 4 0x200000) = false ∧ (pinOf s.dies[(0 : Fin 4)] page0).mv = none ∧ (pinOf s.dies[(0 : Fin 4)] page0).ep = false ∧
        slArg (sliceCmd 4 0x200000) % page0.bytes = 0 ∧ slArg (sliceCmd 4 1) % page0.bytes ≠ 0 ∧ slArg (sliceCmd 4 0x200000) + page0.bytes ≤ 2 ^ 37 ∧
        pageAt s 0 page0 = some 0 ∧ pinRoom s.dies[(0 : Fin 4)] page0 = true) ∧
    (let s := (sliced 4 0x200000);
      let t := s.putDie 0 (putPin s.dies[(0 : Fin 4)] ⟨0, 0, 1, 0, false, some 0x200000⟩);
      (pinOf t.dies[(0 : Fin 4)] page0).mv = some 0x200000 ∧ leafSlot t 0 0 0 = some 0x404000 ∧ xlatedIn t 0 page0 = false ∧ pageAt t 0 page0 = some 0 ∧
        transfersOn t 0 page0 = 0) ∧
    slBad (sliced 5 0) 0 (sliceCmd 5 0) = false ∧ slBad (sliced 6 0) 0 (sliceCmd 6 0) = false ∧ askedOps (sliced 6 0).aux[(0 : Fin 16)].window = [] := by
  decide +kernel

/-- Partition 0 with an ACTIVE memory key of epoch 1 and a RETIRING one, and one tenant region of die 0. -/
def sweeping : State :=
  let s := putKey (putKey unit0 1 { KeySlot.zero with st := .active, epoch := true, serial := 2 }) 2 { KeySlot.zero with st := .retiring, serial := 1, left := 1 }
  s.putDie 0 { s.dies[(0 : Fin 4)] with regions := [⟨3, 0, .tenant⟩] }

theorem witness_MemoryEvents : (let s := sweeping;
      activeSlot s 0 0 = some { KeySlot.zero with st := .active, epoch := true, serial := 2 } ∧
        (s.hub.keys.toList.any fun w => w.st == .retiring && w.cls == 0 && w.part == 0) = true ∧
        (tenantRegions s 0).filter (fun x => regionOld s x.1 x.2 true) = [(0, 3)] ∧ activeSlot unit0 0 0 = none ∧
        (tenantRegions s 0).any (fun x => regionOld s x.1 x.2 true) = true ∧ (tenantRegions s 0).filter (fun x => regionOld s x.1 x.2 false) = []) ∧
    (let s := putKey unit0 2 { KeySlot.zero with st := .retiring, cls := 2 };
      s.hub.keys[(2 : Fin 64)].cls ≠ 0 ∧ sealedOut s 0 false = false ∧
        sealedOut { s with fabric := { s.fabric with flying := [(0, blank0)] } } 0 false = true) ∧
    (let u := unit0.putDie 0 { unit0.dies[(0 : Fin 4)] with changed := [(2, 9)] };
      u.dies[(0 : Fin 4)].changed.contains (2, 9) = true ∧ u.dies[(0 : Fin 4)].changed.contains (3, 1) = false) ∧
    sweeping.hub.keys[(2 : Fin 64)].st = .retiring ∧ sweeping.hub.keys[(2 : Fin 64)].cls = 0 ∧ sweeping.hub.keys[(3 : Fin 64)].st ≠ .retiring := by
  decide +kernel

/-- Partition 0's tables over a state: they map the first 2 MiB of die 0. -/
def tablesOn (s : State) : State :=
  let table (at_ e : Nat) (s : State) : State := devWrite s (hbmAddr 0 at_) (leBytes 8 e)
  let s := table 0x404000 (0xF800000000000000) (table 0x402000 (0xB800000000404000) (table 0x400000 (0xB800000000402000) s))
  s.putDie 0 { s.dies[(0 : Fin 4)] with roots := vput s.dies[(0 : Fin 4)].roots 0 0x400001 }

/-- A fixed buffer 5 of partition 0, with a task and a graph of that task. -/
def buf5 : Buf := ⟨5, 1, true, true, 1, 0x1000, 0x8000000000000200, false, []⟩
def task5 (units : BitVec 2) : WTaskRec := ⟨units, false, false, 1, Vector.replicate 6 1, 0, 0, 5, 0, Vector.replicate 8 WSlot.zero⟩
def graph5 : List Byte :=
  let node := (encodeStream (.wtask (task5 3))).getD []
  let hash : List Byte := leBytes 4 0 ++ leBytes 6 0 ++ leBytes 2 5 ++ leBytes 4 0 ++ leBytes 64 (sha512 []).toNat
  leBytes 4 0x52475A44 ++ leBytes 2 1 ++ leBytes 2 9 ++ leBytes 2 1 ++ leBytes 2 0 ++ leBytes 2 0 ++ leBytes 2 0 ++ leBytes 2 1 ++ leBytes 2 0 ++
    leBytes 4 64 ++ leBytes 4 0 ++ leBytes 4 0 ++ leBytes 4 0 ++ leBytes 4 192 ++ leBytes 4 272 ++ List.replicate 20 0 ++
    (node ++ List.replicate (128 - node.length) 0) ++ hash

/-- Decode at a record of partition 0, with the buffer declared, one level or two, and some loops. -/
def decoding (levels : Nat) (loops : List WLoopEnt) : State :=
  let s := tablesOn (streamAt 0 [])
  let a := s.aux[(0 : Fin 16)]
  let l : Level := ⟨0x8000000000000000, 0x8000000000000100, 0x8000000000000000, loops⟩
  { s.putAux 0 { a with front := { a.front with levels := List.replicate levels l }, window := { a.window with bufs := [buf5], nextSerial := 9 } } with part := 0 }

theorem witness_StreamRecords : (let s := decoding 1 [];
      let w := s.window;
      s.front.levels ≠ [] ∧ bufFieldsOk w false true 0 5 256 0 = false ∧ bufFieldsOk w s.parts[s.part].prot false 7 6 (2 ^ 40) 0 = true ∧
        bufFieldsOk w s.parts[s.part].prot true 0 6 256 0 = true ∧ findBuf w 6 = none ∧ findBuf w 5 = some buf5 ∧
        taskLegal w s.front.level.pos s.front.level.lo.toNat s.front.level.hi (task5 0) = true ∧
        taskLegal w s.front.level.pos s.front.level.lo.toNat s.front.level.hi { task5 0 with kbuf := 6 } = false ∧
        (taskParams s (task5 0)).2 = .ok (Vector.replicate 16 0) ∧
        (enterTask s s.part ⟨task5 0, false, Vector.replicate 16 0, s.front.level.pos, s.front.levels, 0, none, none, []⟩).isSome = true ∧
        bufPlace w 5 0x40 32 = some 0x8000000000000240 ∧ s.front.levels.length < 2 ∧ s.front.level.loops = [] ∧ w.entries = [] ∧
        (s.front.level.lo.toNat : Int) ≤ s.front.level.pos.toNat + (0xE0 : Word).toInt ∧
        (s.front.level.pos.toNat : Int) + (0xE0 : Word).toInt < s.front.level.hi ∧
        s.front.level.pos.toNat + 0x100 ≤ s.front.level.hi ∧ s.front.level.pos.toNat + 0xE0 + 32 ≤ s.front.level.hi ∧
        (bufRead s 5 0xFF8 8).2 = .ok (List.replicate 8 0) ∧ fixedWord w 5 0xFF8 = some 0x80000000000011F8 ∧ fixedWord w 5 0x1000 = none) ∧
    5 ≤ (decoding 5 []).front.levels.length ∧ (decoding 2 []).front.levels = (decoding 2 []).front.level :: (decoding 2 []).front.level :: [] ∧
    (let e (n : BitVec 32) : WLoopEnt := ⟨0x8000000000000000, 0x8000000000000000, n, 2⟩;
      (decoding 1 [e 1]).front.level.loops = e 1 :: [] ∧ (e 1).last = (decoding 1 [e 1]).front.level.pos ∧ (e 2).left ≠ 1) ∧
    (let w := windowed [ent0 .waiting];
      w.window.entries ≠ []) := by decide +kernel

/-- A companding table whose y values rise by a step of their codes. -/
def table4 (step : Nat) : List Byte := leBytes 1 4 ++ List.replicate 7 0 ++
  (List.range 17).flatMap fun k => leBytes 4 (0x3F800000 + 0x800000 * k) ++ leBytes 4 (0x3F800000 + step * k)

/-- A table that rises and one that does not; a graph whose checks are met up to its hash, whose value is the device's own. -/
theorem witness_StreamTables : (loadTable unit0 0 true (table4 0x800000)).1 = true ∧ (loadTable unit0 0 true (table4 0)).1 = false ∧
    (loadTable unit0 0 false (table4 0x800000)).1 = false ∧ (0x400 : Nat) % 16 = 0 ∧ bufPlace (decoding 1 []).window 5 0x400 144 = some 0x8000000000000600 ∧
    (bufRead (decoding 1 []) 5 0x400 144).2 = .ok (List.replicate 144 0) ∧ bufPlace (decoding 1 []).window 5 0x1000 144 = none ∧
    (let s := (decoding 1 []).store (hbmAddr 0 0x600) (graph5.take 208);
    s.front.levels ≠ [] ∧ bufPlace s.window 5 0x400 64 = some 0x8000000000000600 ∧ (bufRead s 5 0x400 64).2 = .ok (graph5.take 64) ∧
      graphHeaderOk (graph5.take 64) = true ∧ graphTotal (graph5.take 64) = 272 ∧
      sectionsOk (graphSections graph5) 272 = true ∧ (checkNode s 0x8000000000000600 graph5 ⟨64, 1, 128, 32⟩ ⟨192, 1, 80, 16⟩ 0 ((graph5.drop 64).take 128)).isSome = true) := by decide +kernel

/-- What decode waits for, with the window empty. -/
def waiting (x : DecWait) (sig : List Signal) (blocks : List Block) : State :=
  let s := decoding 1 []
  let a := s.aux[(0 : Fin 16)]
  { s.putAux 0 { a with front := { a.front with wait := x, signals := sig, blocks := blocks } } with clk := 7 }

theorem witness_StreamEvents : (let s := waiting (.wwait .eq 0x8000000000000200 0 (BitVec.allOnes 64) (some 7)) [] [];
      s.aux[(0 : Fin 16)].front.st = .running ∧ (streamRead s 0 0x8000000000000200 8 none).2 = .ok (List.replicate 8 0) ∧
        holdsCond .eq (BitVec.ofNat 64 (leNat (List.replicate 8 0)) &&& BitVec.allOnes 64) 0 = true ∧
        holdsCond .ne (BitVec.ofNat 64 (leNat (List.replicate 8 0)) &&& BitVec.allOnes 64) 0 = false ∧ 7 ≤ s.clk) ∧
    (let x : Signal := ⟨0, 9, true, false, 0, 0x8000000000000200, 1, 0x8000000000000000⟩;
      let s := waiting .none [x] [];
      s.aux[(0 : Fin 16)].front.signals = x :: [] ∧ s.aux[(0 : Fin 16)].window.entries = [] ∧ (signalWrite (putAsk s 0 ⟨askSignal, x.addr, 0, [], .returned []⟩) 0 x).2 = .ok () ∧
        (signalWrite s 0 x).2 = .wait ∧
        s.aux[(0 : Fin 16)].front.fetchDue = some (0x8000000000000000, []) ∧
        (∀ e ∈ s.aux[(0 : Fin 16)].window.entries, x.after ≤ e.serial) ∧
        (streamReadFor askBlock s 0 (0x8000000000000000 + BitVec.ofNat 64 (levelPart s.aux[(0 : Fin 16)].front.level 0x8000000000000000).1)
          (levelPart s.aux[(0 : Fin 16)].front.level 0x8000000000000000).2 (some s.aux[(0 : Fin 16)].front.fetchCause)).2 = .ok (List.replicate 256 0)) ∧
    (let s := waiting (.halt 3) [] [];
      s.aux[(0 : Fin 16)].front.wait = .halt 3 ∧ s.aux[(0 : Fin 16)].window.stop = none ∧ s.aux[(0 : Fin 16)].front.signals = []) ∧
    (let s := waiting (.fault .streamIllegal 0x8000000000000000 0x13 false) [] [];
      s.aux[(0 : Fin 16)].front.wait = .fault .streamIllegal 0x8000000000000000 0x13 false ∧ s.parts[(0 : Fin 16)].heldFront = none) ∧
    State.reset.aux[(0 : Fin 16)].front.st ≠ .running := by decide +kernel

/-- Partition 0's front end changed, with queue 2 holding two entries. -/
def fronted (g : Front → Front) : State :=
  let s := { tablesOn glob0 with part := 0 }
  let a := s.aux[(0 : Fin 16)]
  let q : HostQueue := { a.front.queues[(2 : Fin 4)] with cfg := 0x8000000000000000 + 4 * 2 ^ 32, tail := 2 }
  s.putAux 0 { a with front := g { a.front with st := .running, queues := vput a.front.queues 2 q } }
def entry0 : Entry := ⟨0, 1, 0, false, false, false, 0x8000000000000000, 0x100, 0, false, 0, [(0, 0x8000000000000000)], none, false, none⟩

theorem witness_Picks : (let s := fronted id;
      let f := s.aux[(0 : Fin 16)].front;
      frontHeld s 0 = false ∧ f.between = true ∧ f.nextUnwound = none ∧ s.aux[(0 : Fin 16)].policy = [] ∧ defaultQueue f = some 2 ∧
        f.queues[(2 : Fin 4)].parked = none ∧ f.pick = none ∧ parkDue s 0 = false ∧ f.entries = []) ∧
    (let x : Nat × Word := (3, 0x8000000000000040);
      let f := (fronted fun f => { f with entries := [{ entry0 with unwound := some x }] }).aux[(0 : Fin 16)].front;
      f.nextUnwound = some ({ entry0 with unwound := some x }, x) ∧ f.between = true) ∧
    (let s := fronted id;
      let s := s.putAux 0 { s.aux[(0 : Fin 16)] with policy := [0xFF00] };
      s.aux[(0 : Fin 16)].policy ≠ [] ∧ (defaultQueue s.aux[(0 : Fin 16)].front).isSome = true) ∧
    (fronted fun f => { f with st := .stopped }).aux[(0 : Fin 16)].front.between = false ∧
    (let s := { fronted (fun f => { f with pick := some 0 }) with clk := 65536 };
      s.aux[(0 : Fin 16)].front.pick = some 0 ∧ 0 + 65536 ≤ s.clk ∧ frontHeld s 0 = false) ∧
    (let l : Level := ⟨0x8000000000000000, 0x8000000000000100, 0x8000000000000020, []⟩;
      let s := { fronted (fun f => { f with entries := [entry0], current := some 0, levels := [l], sliceLen := 1 }) with clk := 1024 };
      let f := s.aux[(0 : Fin 16)].front;
      f.current.bind f.entry = some entry0 ∧ f.st = .running ∧ frontHeld s 0 = false ∧ parkDue s 0 = true) ∧
    (let s := fronted fun f => { f with entries := [{ entry0 with ended := true }] };
      s.aux[(0 : Fin 16)].front.entries = { entry0 with ended := true } :: [] ∧ ({ entry0 with ended := true } : Entry).unwound = none ∧ s.aux[(0 : Fin 16)].window.stop = none ∧
        s.aux[(0 : Fin 16)].window.entries = [] ∧ s.aux[(0 : Fin 16)].front.signals = []) := by
  decide +kernel

/-- A command at the head of partition 0's ring for core 0, and the core's state. -/
def partCmd (cmd arg0 arg1 : Nat) : List Byte := leBytes 1 cmd ++ leBytes 7 0 ++ leBytes 8 arg0 ++ leBytes 16 arg1
def partRinged (s : State) (cmd arg0 arg1 : Nat) : State := ringed s (partRing 0) (partCmd cmd arg0 arg1)
def slotVa : Word := 0x8000000000300000
def savable (pre : Bool) (st : UnitSt) : State :=
  let s := windowed [{ ent0 .running with pre := pre }]
  let c := s.cores[(0 : Fin 512)]
  let s := s.putCore 0 { c with st := st, ctl := { c.ctl with launchid := 7 } }
  s.putPart 0 { s.parts[(0 : Fin 16)] with saves := [devAddr slotVa] }

theorem witness_PartitionCommands : headRecord unit0 (partRing 0) = none ∧
    (let s := partRinged unit0 5 0 0;
      headRecord s (partRing 0) = some (partCmd 5 0 0) ∧ cmdOf (partCmd 5 0 0) = 5) ∧
    (let s := partRinged (fronted fun f => { f with pick := some 0 }) 1 2 0;
      headRecord s (partRing 0) = some (partCmd 1 2 0) ∧ cmdClean (partCmd 1 2 0) = true ∧ cmdPart (partCmd 1 2 0) = 0 ∧
        cmdArg0 (partCmd 1 2 0) / 2 ^ 8 % 2 ^ 24 = 0 ∧ s.aux[(0 : Fin 16)].front.pick = some 0 ∧ frontHeld s 0 = false) ∧
    (let s := partRinged (savable true .stopped) 2 0 0;
      cmdCore s 0 (partCmd 2 0 0) = some 0 ∧ cmdCore s 0 (partCmd 2 512 0) = none ∧ s.cores[(0 : Fin 512)].st = .stopped ∧
        (savable true .running).cores[(0 : Fin 512)].st ≠ .stopped) ∧
    (let s := partRinged (savable true .running) 3 0 slotVa.toNat;
      cmdCore s 0 (partCmd 3 0 slotVa.toNat) = some 0 ∧ cmdArg1 (partCmd 3 0 slotVa.toNat) < 2 ^ 64 ∧ s.cores[(0 : Fin 512)].save = none ∧
        s.cores[(0 : Fin 512)].st ≠ .none ∧ s.cores[(0 : Fin 512)].ending = none ∧ unitPre s 0 0 = true ∧ isSlot s 0 slotVa = true ∧
        s.parts[(0 : Fin 16)].usedSlots.contains (devAddr slotVa) = false) := by decide +kernel

/-- Core 0 with its unit Stopped and a save asked of it, and the slot so written. -/
def saving (n : Option Nat) : State :=
  let s := partRinged (savable true .stopped) 3 0 slotVa.toNat
  s.putCore 0 { s.cores[(0 : Fin 512)] with save := some ⟨slotVa, n⟩ }
def saved0 : State :=
  let s := savable true .none
  let s := s.putPart 0 { s.parts[(0 : Fin 16)] with saved := [⟨devAddr slotVa, 7, Vector.replicate 6 0, false⟩] }
  partRinged (devWrite s (devAddr slotVa) (leBytes 4 7 ++ List.replicate 27 0 ++ [0x80])) 4 0 slotVa.toNat

theorem witness_SaveAndRestore : (let s := saving none;
      s.cores[(0 : Fin 512)].save = some ⟨slotVa, none⟩ ∧ s.partOf 0 = some 0 ∧ s.cores[(0 : Fin 512)].st = .stopped ∧
        s.cores[(0 : Fin 512)].heldRec = none ∧ expiredTokens s.cores[(0 : Fin 512)] = 0 ∧ s.cores[(0 : Fin 512)].unit.mq = [] ∧
        s.cores[(0 : Fin 512)].unit.mq.any QEnt.live = false ∧ tokensOut s.cores[(0 : Fin 512)] = false) ∧
    (let c := (token7 false).cores[(0 : Fin 512)];
      0 < expiredTokens { c with tokens := vput c.tokens 7 (some ⟨0, false, 0, 0, 0, 8, false, 1, [], false, true, none, false⟩) }) ∧
    (let img := devRead saved0 (devAddr slotVa) (2 ^ 5);
      (saved0.parts[(0 : Fin 16)].saved.find? (·.slot == devAddr slotVa)).isSome = true ∧
        (findLaunch saved0 0 (BitVec.ofNat 32 (fieldAt img 0 4))).isSome = true ∧ 128 ≤ byteAt img 31 ∧ byteAt img 8 % 64 = 0 ∧
        coreFree saved0 0 = true ∧ coreFree unit0 0 = false) := by decide +kernel

theorem witness_HostAccesses : vfServed unit0 0 = true ∧ unit0.aux[(0 : Fin 16)].front.st = .off ∧ unit0.parts[(0 : Fin 16)].st = .live ∧
    (let f := (fronted fun f => { f with st := .stopped }).aux[(0 : Fin 16)].front;
      f.st = .stopped ∧ f.st ≠ .off ∧ f.queues[(2 : Fin 4)].on = true ∧ ((16 : BitVec 32) - f.queues[(2 : Fin 4)].head).toNat ≤ 2 ^ (f.queues[(2 : Fin 4)].cfg.toNat / 2 ^ 32 % 16) ∧
        ((16 : BitVec 32) - f.queues[(2 : Fin 4)].tail).toNat ≤ ((16 : BitVec 32) - f.queues[(2 : Fin 4)].head).toNat ∧
        ¬((17 : BitVec 32) - f.queues[(2 : Fin 4)].head).toNat ≤ 2 ^ (f.queues[(2 : Fin 4)].cfg.toNat / 2 ^ 32 % 16)) ∧
    (0xFFFF : Word).toNat < 2 ^ 16 ∧ (0xFFFF : Word).toNat / 2 ^ 16 % 2 ^ 46 = 0 ∧ (4 : BitVec 16).toNat % 8 ≠ 0 ∧
    (let p := unit0.parts[(0 : Fin 16)];
      vfServed (unit0.putPart 0 { p with prot := true, tdi := .locked }) 0 = false) ∧
    aperture unit0 0 0 8 false = none ∧
    (let s := fronted fun f => { f with aperbase := 0x8000000000000000 };
      aperture s 0 0x200 8 true = some 0x8000000000000200 ∧ pkgOf 0x8000000000000200 = ownPkg s ∧
        (globRead s false (some 0) 0x8000000000000200 8).2 = .ok (List.replicate 8 0) ∧
        (globWrite s false (some 0) 0x8000000000000200 (leBytes 8 1)).2 = .ok () ∧ (sealHost s 0 0x8000000000000200).isSome = true ∧
        (globRead s false (some 0) 0x8000000000400000 8).2 = .fail .unmapped) ∧
    barAccepts 0x18 8 = true ∧ barAccepts 0x1C 4 = true ∧ barAccepts 0x1C 8 = false ∧ barAccepts 0x18 2 = false := by decide +kernel

/-- A message of core 0 of a package to die 0 of a package, for partition 0's domain 0x21. -/
def msg0 (src dst : Pkg) (addr : Word) (carry : BitVec 16) (bytes : List Byte) : Msg :=
  { blank0 with kind := 1, len := 8, spkg := src, dpkg := dst, addr := addr, fdid := 0x21, carry0 := carry, payload := bytes }

/-- Partition 0 in domain 0x21 of the fabric, with one link up. -/
def joined0 : State :=
  let s := glob0
  let f := s.fabric
  { s with fabric := { f with hfcfg := 0x8000000000000000, fdmap := vput f.fdmap 0 0x8000000000000021, links := vput f.links 2 { f.links[(2 : Fin 6)] with up := true, k := 2 } } }

/-- A message for partition 0 that opens; one for another package; one of an unknown kind; and ones that do not open or name no partition. -/
theorem witness_Requests : (let s := joined0;
      let m := msg0 0x100 0 0x8000000000000040 0 (List.replicate 8 1);
      knownKind m.kind = true ∧ m.dpkg = ownPkg s ∧ partOfFdid s m.fdid = some 0 ∧ badSeal s 0 m = false ∧ ivOpen s 0 (hubHop s 0 true) = true ∧
        knownKind 31 = false ∧ (0x100 : Pkg) ≠ ownPkg s ∧ partOfFdid s 0x22 = none ∧
        (enterInward s 0 { m with kind := kWr, len := 8 }).isSome = true ∧ (enterInward s 0 { m with kind := kRd, len := 8 }).isSome = true ∧
        (arriveQst s 0 { m with kind := kQst }).isSome = true ∧ (arriveQst s 0 { m with kind := kQst, carry0 := 0x8001 }).isSome = true ∧
        causeOf Cause.remote.code = some .remote ∧ causeOf 0xFF = none) ∧
    (let s := putKey (joined0.putPart 0 { joined0.parts[(0 : Fin 16)] with prot := true }) 2 { KeySlot.zero with st := .active, cls := 1 };
      let hop := hubHop s 0 true;
      let used := { s with hub := { s.hub with streams := [⟨hop.1, 0, hop.2, false, 0, true⟩] } };
      badSeal s 0 { msg0 0x100 0 0x8000000000000040 0 [] with tagOk := false } = true ∧ badSeal s 0 (msg0 0x100 0 0x8000000000000040 0 []) = false ∧
        badSeal used 0 (msg0 0x100 0 0x8000000000000040 0 []) = false ∧ ivOpen used 0 hop = false) ∧
    (let y : Inward := ⟨msg0 0x100 0 0x8000000000000040 0 [], 0, [], [], 0, true⟩;
      y.msg.spkg ≠ ownPkg joined0) := by
  decide +kernel

/-- A hold queue with no room for partition 0, and one with an entry. -/
def holding (n : Nat) (c : BitVec 16) (expired : Bool) : State :=
  let e : HoldEnt := ⟨msg0 0x100 0 0x8000000000000040 c [1], 0, false, c, 0, 10, expired, 0⟩
  { joined0 with fabric := { joined0.fabric with hold := Vector.ofFn fun i => if i.val < n then some e else none } }

/-- Core 0's unit with an access that has been sent. -/
def sent0 (k : QKind) (ld st : Bool) : State := queued joined0 { newEnt joined0 k ld st 0x8008000000000040 [⟨.glob 0x8008000000000040, 0, 8, none⟩] with stage := .sent }

theorem witness_AnswersAndLinks : (let a : Word := 0x8008000000000040;
      (toEnt (sent0 (.ld 3 .u64) true false) 0 a QEnt.reads (.returned [])).isSome = true ∧ toEnt joined0 0 a QEnt.reads (.returned []) = none ∧
        toMwait joined0 0 a (.returned []) = none ∧ copyGot joined0 0 a [] = none ∧ toRecord joined0 0 a (.returned []) = none ∧
        (toEnt (sent0 (.st false) false true) 0 a (fun e => !e.reads && !e.isAmo) (.returned [])).isSome = true ∧ copyAck joined0 0 a = none ∧
        (toEnt (sent0 (.amo 3 0 .w64) true true) 0 a QEnt.isAmo (.returned [])).isSome = true ∧ toMma joined0 0 a (.returned []) = none) ∧
    (toMwait (joined0.setCtx { joined0.ctx with mwait := some ⟨0x8008000000000040, 0, false, 0, .sent, none, 0, none⟩ }) 0 0x8008000000000040 (.returned [])).isSome = true ∧
    joined0.fabric.hold[(1023 : Fin 1024)] = none ∧
    ((holding 1 0x8001 false).fabric.hold[(0 : Fin 1024)]).any (fun e => e.carry0 != 0 && !e.expired && decide (9 < e.due) && decide (e.due ≤ 10)) = true ∧
    ((holding 1 0 false).fabric.hold[(0 : Fin 1024)]).any (fun e => e.carry0 == 0 && e.carry1 == 0) = true ∧
    ((holding 1 0x8001 true).fabric.hold[(0 : Fin 1024)]).any (·.expired) = true ∧
    (let l := joined0.fabric.links[(2 : Fin 6)];
      let x : Flit := { fdid := 0x21, ordered := true, crossed := false, crcOk := true };
      let g := putKey (joined0.putPart 0 { joined0.parts[(0 : Fin 16)] with prot := true }) 2 { KeySlot.zero with st := .active, cls := 1 };
      let bad (s : State) (x : Flit) : Bool := !x.tagOk || (partOfFdid s x.fdid).any (fun q => s.parts[q].prot && !acceptsEpoch s q x.epoch);
      bad joined0 x = false ∧ bad joined0 { x with tagOk := false } = true ∧ bad g { x with epoch := true } = true ∧ bad g x = false ∧
      l.up = true ∧ joined0.fabric.links[(3 : Fin 6)].up = false ∧ flitPool l x = some 2 ∧
        flitPool { l with used := Vector.replicate 33 128 } x = none ∧ poolSlots 2 - l.used[(2 : Fin 33)] = 4) ∧
    (let o : OutMsg := ⟨msg0 0 0x100 0 0 [], some 0, none, 0, false, false⟩;
      let s := { joined0 with fabric := { joined0.fabric with out := [o] }, clk := 256 };
      s.fabric.out[0]? = some o ∧ o.msg.cls = false ∧ o.escape = false ∧ o.since + 256 ≤ s.clk ∧ switched s = false ∧ s.fabric.out[255]? = none) ∧
    unit0.fabric.hfcfg.getLsbD 63 = false ∧ joined0.fabric.hfcfg.getLsbD 63 = true ∧ hfRefused joined0 0 0 = true ∧ hfRefused unit0 0 0x8000000000000000 = false ∧
    hfRefused unit0 16 0x8000000000000021 = false ∧ hfRefused unit0 4096 0x8001 = false := by decide +kernel

/-- A hold queue in which partition 0 has its own 32 entries and all the shared ones. -/
def fullHold : State :=
  let e (shared : Bool) : HoldEnt := ⟨msg0 0x100 0 0x8000000000000040 0x8001 [1], 0, shared, 0x8001, 0, 10, false, 0⟩
  let l := List.replicate 32 (some (e false)) ++ List.replicate 992 (some (e true))
  { joined0 with fabric := { joined0.fabric with hold := ⟨l.toArray, by simp only [l, List.size_toArray, List.length_append, List.length_replicate]⟩ } }

theorem witness_FullHold : holdEnter fullHold 0 (msg0 0x100 0 0x8000000000000040 0x8001 [1]) = none := by decide +kernel

/-- A page of partition 0 that moves: a request for it waits outside. -/
def moving0 : State := joined0.putDie 0 (putPin joined0.dies[(0 : Fin 4)] ⟨0, 0, 1, 0, false, some 0x200000⟩)
theorem witness_MovingPage : enterInward moving0 0 { msg0 0x100 0 0x8000000000000040 0 [] with kind := kRd } = none ∧
    arriveQst moving0 0 { msg0 0x100 0 0x8000000000000040 0 [1] with kind := kQst } = none := by decide +kernel

/-- Partition 0 protected, its interface in a state, with both its keys. -/
def interface0 (t : TdiSt) : State :=
  let s := putKey (putKey unit0 1 { KeySlot.zero with st := .active }) 2 { KeySlot.zero with st := .active, cls := 1 }
  s.putPart 0 { s.parts[(0 : Fin 16)] with prot := true, tdi := t, wiped := true }
def sessions0 (live : Bool) : State :=
  let s := { interface0 .locked with fabric := { unit0.fabric with sessions := [⟨3, none, live, 0⟩] } }
  s.putPart 0 { s.parts[(0 : Fin 16)] with bound := some 3 }

/-- Whether the device identity key is usable is the device's life-cycle state, which the model leaves open. -/
theorem witness_InterfaceAndSessionRequests : unit0.parts[(0 : Fin 16)].prot = false ∧
    (let s := interface0 .unlocked;
      s.parts[(0 : Fin 16)].prot = true ∧ s.parts[(0 : Fin 16)].tdi = .unlocked ∧ s.parts[(0 : Fin 16)].wiped = true ∧
        ((activeSlot s 0 0).isSome && (activeSlot s 0 1).isSome) = true ∧ ((activeSlot unit0 0 0).isSome && (activeSlot unit0 0 1).isSome) = false) ∧
    (interface0 .locked).parts[(0 : Fin 16)].tdi = .locked ∧ (interface0 .run).parts[(0 : Fin 16)].tdi = .run ∧ boundSession (sessions0 true) 0 = true ∧
    boundSession (interface0 .locked) 0 = false ∧ hostSession (sessions0 true) = some 3 ∧ (0x1F : BitVec 8).toNat ∈ measured ∧ (0xFD : BitVec 8).toNat ∉ measured ∧ (0x20 : BitVec 8).toNat ∉ measured ∧
    (sessions0 false).fabric.sessions.find? (fun e => e.id == 3 && !e.live) = some ⟨3, none, false, 0⟩ ∧
    (sessions0 true).fabric.sessions.find? (fun e => e.id == 3 && !e.live) = none ∧ (sessions0 true).fabric.sessions.any (fun e => e.id == 3) = true ∧
    (sessions0 true).fabric.sessions.any (fun e => e.id == 4) = false := by decide +kernel

/-- A command of the package's ring for partition 0, and a descriptor of one cluster group at host address 0. -/
def adminCmd (cmd arg0 : Nat) : List Byte := leBytes 1 cmd ++ leBytes 7 0 ++ leBytes 8 arg0 ++ leBytes 16 0
def createDesc (groups : Nat) : List Byte :=
  List.replicate 50 0 ++ leBytes 2 groups ++ List.replicate 8 0 ++ leBytes 4 1 ++ leBytes 8 0x1000 ++ List.replicate 20 0 ++ leBytes 2 32 ++ List.replicate 34 0
def administered (s : State) (cmd : Nat) (groups : Nat) : State := ringed (s.store (hostAddr 0) (createDesc groups)) adminRing (adminCmd cmd 0)

theorem witness_Administration : ((0x100 : BitVec 32) - State.reset.pf.admhead).toNat ≤ 256 ∧ 256 < ((0x101 : BitVec 32) - State.reset.pf.admhead).toNat ∧
    headRecord State.reset adminRing = none ∧ 0x13 < cmdOf (adminCmd 0x14 0) ∧
    (let s := administered State.reset 0x10 1;
      let d := s.load (hostAddr 0) 128;
      headRecord s adminRing = some (adminCmd 0x10 0) ∧ cmdOf (adminCmd 0x10 0) = 0x10 ∧ cmdClean (adminCmd 0x10 0) = true ∧ cmdArg1 (adminCmd 0x10 0) = 0 ∧
        cmdPart (adminCmd 0x10 0) = 0 ∧ s.parts[(0 : Fin 16)].st = .free ∧ d = createDesc 1 ∧ cdOk 0 d = true ∧ cdOk 0 (createDesc 0) = false ∧
        cdGroups d = 1 ∧ cdProt d = false) ∧
    (let s := administered unit0 0x11 1;
      headRecord s adminRing = some (adminCmd 0x11 0) ∧ s.parts[(0 : Fin 16)].st = .live ∧ s.aux[(0 : Fin 16)].usePend = none ∧
        s.aux[(0 : Fin 16)].meterInt = 0) ∧
    (let a := unit0.aux[(0 : Fin 16)];
      let s := unit0.putAux 0 { a with meterInt := 1, meterDue := 0, usePend := some 1 };
      s.aux[(0 : Fin 16)].meterInt ≠ 0 ∧ s.aux[(0 : Fin 16)].meterDue ≤ s.clk) := by decide +kernel

theorem witness_Fleet : (let f := { State.reset.pf with usetail := 256 };
      useFull { State.reset with pf := f } = true) ∧ State.reset.aux[(0 : Fin 16)].usePend = none ∧
    (State.reset.clk / 2 ^ 24 ≤ State.reset.pf.regint) ∧ State.reset.pf.regint < { State.reset with clk := 2 ^ 24 }.clk / 2 ^ 24 ∧
    (7 : Word).toNat < 8 ∧ 8 ≤ (8 : Word).toNat ∧ (1 : Word).getLsbD 0 = true ∧ 105 ≤ (105 : BitVec 8).toNat ∧ (104 : BitVec 8).toNat < 105 ∧
    115 ≤ (115 : BitVec 8).toNat ∧ (114 : BitVec 8).toNat < 115 ∧ State.reset.pf.trip1 = false ∧ State.reset.pf.trip2 = false ∧
    (let off : BitVec 21 := 0x1FFFF8;
      off.toNat + memBytes .b64 ≤ 2 ^ 21 ∧ State.reset.hub.images.trial = false ∧ decide (2 ^ 20 ≤ off.toNat) = decide (2 ^ 20 ≤ off.toNat + memBytes .b64 - 1) ∧
        decide (2 ^ 20 ≤ off.toNat) ≠ State.reset.hub.images.active ∧ decide (2 ^ 20 ≤ (0 : BitVec 21).toNat) = State.reset.hub.images.active) := by
  decide +kernel

/-- The state after an instruction. -/
def after (i : Instr) (s : State) : State := (goesOn (exec i s)).getD s

/-- R72: ADD wraps modulo 2^64; a SUB whose destination is its own source reads it first. -/
theorem test_add_wraps : (after (.add h0 3 1 2) (args unit0 0xFFFFFFFFFFFFFFFF 2)).rs 3 = 1 := by decide +kernel
theorem test_sub_into_its_source : (after (.sub h0 1 1 2) (args unit0 5 7)).rs 1 = 0xFFFFFFFFFFFFFFFE := by decide +kernel

/-- R72: SRA fills with the sign and counts by the low six bits; MULH is the high half of the signed product. -/
theorem test_sra : (after (.sra h0 3 1 2) (args unit0 0x8000000000000000 0x44)).rs 3 = 0xF800000000000000 := by decide +kernel
theorem test_mulh : (after (.mulh h0 3 1 2) (args unit0 0xFFFFFFFFFFFFFFFF 2)).rs 3 = 0xFFFFFFFFFFFFFFFF ∧
    (after (.mulhu h0 3 1 2) (args unit0 0xFFFFFFFFFFFFFFFF 2)).rs 3 = 1 := by decide +kernel

/-- R74: the CM window of place 5, built in three words. -/
theorem test_constants : (after (.li32 h0 4 1) (after (.li16 h0 4 0x0500) (after (.li h0 4 0) unit0))).rs 4 = 0x0000000105000000 := by decide +kernel

/-- R13: a write of p0 is discarded. R75: CMP LTU compares as unsigned values. -/
theorem test_p0_reads_true : (after (.cmpEq h0 0 1 2) (args unit0 1 2)).rp 0 = true := by decide +kernel
theorem test_cmp_ltu : (after (.cmpLtu h0 2 1 2) (args unit0 1 0xFFFFFFFFFFFFFFFF)).rp 2 = true ∧
    (after (.cmpLt h0 2 1 2) (args unit0 1 0xFFFFFFFFFFFFFFFF)).rp 2 = false := by decide +kernel

/-- R104: in I8, 100 + 50 gives 127 and −100 − 50 gives −128. -/
theorem test_saturating_lanes : (let s := (unit0.wrV 1 (BitVec.ofNat 2048 100)).wrV 2 (BitVec.ofNat 2048 50);
      elem .i8 ((after (.vadds h0 0 3 1 2 .i8) s).rv 3) 0 = 127) ∧
    (let s := (unit0.wrV 1 (BitVec.ofNat 2048 156)).wrV 2 (BitVec.ofNat 2048 50);
      elem .i8 ((after (.vsubs h0 0 3 1 2 .i8) s).rv 3) 0 = 128) := by decide +kernel

/-- R381: SUB takes the top of the stack from the value below it. -/
theorem test_topiary_sub : ((after .topiarySub (topiary0 (running0 [3, 10] none 0 0))).aux[(0 : Fin 16)].run).any (fun r => r.stack == [7]) = true := by
  decide +kernel

/-- R24, R77: a load that performs takes its eight bytes from TM in little-endian order. -/
theorem test_load_returns : (let s := (args unit0 0x100 0).store (tmAddr 0 0x100) [1, 2, 0, 0, 0, 0, 0, 0x80];
    (after (.loadReturn 0 false) (after (.ld h0 3 1 .u64 0) s)).rs 3 = 0x8000000000000201) := by decide +kernel

/-- R28: a step runs the word at the firmware context's PC and moves on to its next word. -/
theorem test_step_of_sub : (let s := State.reset.withFetchWord 32 0x00074241;
    let t := (goesOn (step (s.wrS 8 9))).getD s;
    t.cores[(0 : Fin 512)].fw.regs.getS 7 = 9 ∧ t.cores[(0 : Fin 512)].fw.word = 1) := by decide +kernel

/-- The example digest of FIPS 180-4 (log 6): the first bytes of the SHA-512 of the three bytes 61 62 63. -/
theorem test_sha512 : leBytes 8 (sha512 [0x61, 0x62, 0x63]).toNat = [0xDD, 0xAF, 0x35, 0xA1, 0x93, 0x61, 0x7A, 0xBA] := by
  unfold sha512
  decide +kernel

/-- The digest of an image slot that holds zeros is the one that reset measures (R353, R384). -/
theorem test_zero_image_digest : sha512 (List.replicate 576 0) = zeroImageDigest := by
  unfold sha512
  decide +kernel

/-- The AES-256 example of FIPS 197 (log 6), and the second AES-256 example of the GCM specification: a zero key, nonce and block. -/
theorem test_aes : aes (keysOf 0x000102030405060708090A0B0C0D0E0F101112131415161718191A1B1C1D1E1F) 0x00112233445566778899AABBCCDDEEFF =
    0x8EA2B7CA516745BFEAFC49904B496089 := by decide +kernel
theorem test_gcm : msbNat (gcmCrypt (keysOf 0) 0 (List.replicate 16 0)) = 0xCEA7403D4D606B6E074EC5D3BAF39D18 ∧
    gcmTag (keysOf 0) 0 [] (gcmCrypt (keysOf 0) 0 (List.replicate 16 0)) = 0xD0D1C8A799996BF0265B98B5D48AB919 := by decide +kernel

/-- Five times the base point of P-384 (SEC 2, log 6) by its abscissa, and a share that is not on the curve. -/
theorem test_p384 : (pointMul 384 5 (some p384Base) none).map (·.1) =
    some 0x11DE24A2C251C777573CAC5EA025E467F208E51DBFF98FC54F6661CBE56583B037882F4A1CA297E60ABCDBC3836D84BC ∧
    ecdhe (privateKey 0) (List.replicate 96 0) = none := by
  unfold ecdhe
  decide +kernel

end Sys2Proof.Tests
end

section
/-! PROOFS. What one turn runs and what follows it (R4): the turns of decode, of a policy, of the outside world and of an event, and the mark and
the time at the end of a step. -/

namespace Sys2Proof.Machine

/-! ### What keeps the mark and the time -/

/-- The mark, the count of steps and the time: what the end of a step sets, and what is left alone by all that happens as it ends (R4). -/
def State.clock (s : State) : Mark × Nat × Nat := (s.mark, s.tick, s.clk)

theorem clock_eq_iff {s : State} {m : Mark} {n x : Nat} : s.clock = (m, n, x) ↔ s.mark = m ∧ s.tick = n ∧ s.clk = x := by
  simp [State.clock]

@[simp] theorem clock_withFabric (s : State) (x : Fabric) : State.clock { s with fabric := x } = s.clock := rfl
@[simp] theorem clock_withHub (s : State) (x : Hub) : State.clock { s with hub := x } = s.clock := rfl
@[simp] theorem clock_putCore (s : State) (c : Fin 512) (x : Core) : (s.putCore c x).clock = s.clock := rfl
@[simp] theorem clock_putDie (s : State) (d : Fin 4) (x : Die) : (s.putDie d x).clock = s.clock := rfl
@[simp] theorem clock_putPart (s : State) (p : Fin 16) (x : Part) : (s.putPart p x).clock = s.clock := rfl
@[simp] theorem clock_store (s : State) (a : Nat) (bs : List Byte) : (s.store a bs).clock = s.clock := rfl
@[simp] theorem clock_storeNat (s : State) (a n x : Nat) : (s.storeNat a n x).clock = s.clock := rfl

/-- A fold of steps that each keep the mark and the time keeps them. -/
theorem clock_foldl {α : Type} (f : State → α → State) (h : ∀ s a, (f s a).clock = s.clock) (l : List α) (s : State) :
    (l.foldl f s).clock = s.clock := by
  induction l generalizing s with
  | nil => rfl
  | cons a l ih => rw [List.foldl_cons, ih, h]

/-! ### Writes to a die's memory (R335) -/

@[simp] theorem clock_sweepPage (s : State) (d : Fin 4) (page : Nat) (k : MemKey) (b : Nat) : (sweepPage s d page k b).clock = s.clock := by
  cases k with
  | system => rfl
  | mem p va =>
    simp only [sweepPage]
    split
    · split_ifs <;> rfl
    · rfl

theorem advanceBlock_clock {s t : State} {d : Fin 4} {b : Nat} {k : MemKey} {va : Word} (h : advanceBlock s d b k va = .ok t) :
    t.clock = s.clock := by
  simp only [advanceBlock] at h
  split at h
  · cases h
  · split_ifs at h <;> cases h <;> rfl

theorem writeBlock_clock {s t : State} {d : Fin 4} {p b : Nat} {full : Bool} {k : MemKey} (h : writeBlock s d p b full k = .ok t) :
    t.clock = s.clock := by
  simp only [writeBlock] at h
  split_ifs at h
  rw [advanceBlock_clock h, clock_sweepPage]

/-- The blocks of a write advance one after another. -/
theorem writeBlocks_clock {d : Fin 4} {p : Nat} {full : Nat → Bool} {k : MemKey} (l : List Nat) {s t : State}
    (h : l.foldlM (fun t b => writeBlock t d p b (full b) k) s = .ok t) : t.clock = s.clock := by
  induction l generalizing s with
  | nil => cases h; rfl
  | cons b l ih =>
    rw [List.foldlM_cons] at h
    cases hw : writeBlock s d p b (full b) k with
    | error c => rw [hw] at h; cases h
    | ok u => rw [hw] at h; rw [ih h, writeBlock_clock hw]

theorem hbmRuns_clock {s t : State} {d : Fin 4} {p : Nat} {runs : List (Nat × List Byte)} {k : MemKey}
    (h : hbmRuns s d p runs k = .ok t) : t.clock = s.clock := by
  have put (u : State) : (runs.foldl (fun u (o, bs) => u.store (hbmAddr d (p + o)) bs) u).clock = u.clock :=
    clock_foldl _ (fun u x => clock_store u (hbmAddr d (p + x.1)) x.2) runs u
  simp only [hbmRuns] at h
  split at h
  · cases h
  · split at h
    · cases h
    · split at h
      · split_ifs at h
        cases h
        exact (put _).trans (clock_putDie ..)
      · split at h
        next hw =>
          cases h
          exact (put _).trans (writeBlocks_clock _ hw)
        next => cases h

@[simp] theorem clock_devWrite (s : State) (flat : Nat) (bs : List Byte) : (devWrite s flat bs).clock = s.clock := by
  simp only [devWrite]
  split
  next h => exact hbmRuns_clock h
  next => rfl

/-! ### Records, events and meters (R321 to R323, R374, R401) -/

@[simp] theorem clock_enterEvent (s : State) (c : Fin 512) (e : EventRec) : (enterEvent s c e).clock = s.clock := by
  simp only [enterEvent, clock_storeNat, clock_store]

@[simp] theorem clock_deliver (s : State) (c : Fin 512) (e : EventRec) : (deliver s c e).clock = s.clock := by
  unfold deliver; dsimp only; split <;> simp

@[simp] theorem clock_enterRecord (s : State) (p : Fin 16) (r : FaultRec) : (enterRecord s p r).clock = s.clock := by
  simp [enterRecord, tell]

@[simp] theorem clock_hubEntered (s : State) (p : Fin 16) (r : FaultRec) : (hubEntered s p r).clock = s.clock := by
  unfold hubEntered
  split
  · unfold dropExpired; dsimp only; split <;> rfl
  · rfl

@[simp] theorem clock_hubRecord (s : State) (p : Fin 16) (r : FaultRec) : (hubRecord s p r).clock = s.clock := by
  unfold hubRecord; split <;> simp

@[simp] theorem clock_count (s : State) (p : Option (Fin 16)) (i : Fin 16) (n : Nat) : (s.count p i n).clock = s.clock := by
  cases p <;> rfl

@[simp] theorem clock_pfRaise (s : State) (v : Fin 8) : (pfRaise s v).clock = s.clock := by
  unfold pfRaise; dsimp only; split <;> rfl

/-! ### Messages that leave (R336, R358) -/

@[simp] theorem clock_useIv (s : State) (p : Fin 16) (id : StreamId) : (useIv s p id).clock = s.clock := by
  unfold useIv
  dsimp only
  split_ifs <;> simp only [clock_hubRecord, clock_withHub]

@[simp] theorem clock_useAll (s : State) (p : Fin 16) (ids : List StreamId) : (useAll s p ids).clock = s.clock :=
  clock_foldl _ (fun s id => clock_useIv s p id) _ _

@[simp] theorem clock_noteSent (s : State) (o : OutMsg) (m : Msg) : (noteSent s o m).clock = s.clock := by
  unfold noteSent
  split
  · split <;> rfl
  · rfl

@[simp] theorem clock_freeNotified (s : State) (c : Fin 512) (t : BitVec 16) : (freeNotified s c t).clock = s.clock := by
  unfold freeNotified
  dsimp only
  split
  · split <;> rfl
  · rfl

@[simp] theorem clock_countSent (s : State) (m : OutMsg) : (countSent s m).clock = s.clock := by
  unfold countSent; split <;> simp

@[simp] theorem clock_leaveOn (s : State) (m : OutMsg) (k : Fin 6) (rest : List OutMsg) : (leaveOn s m k rest).clock = s.clock := by
  unfold leaveOn
  cases m.part <;> dsimp only <;> split_ifs <;> simp

@[simp] theorem clock_flushFrom (l : List OutMsg) (s : State) (kept : List OutMsg) : (flushFrom l s kept).clock = s.clock := by
  induction l generalizing s kept with
  | nil => rfl
  | cons m l ih =>
    unfold flushFrom
    dsimp only
    split
    · exact ih s _
    · rw [ih, clock_leaveOn]

@[simp] theorem clock_flushOut (s : State) : (flushOut s).clock = s.clock := clock_flushFrom _ _ _

/-! ### Requests that fail (R70, R357) -/

@[simp] theorem clock_failAway (s : State) (c : Fin 512) (t : BitVec 16) (k : Cause) : (failAway s c t k).clock = s.clock := by
  unfold failAway
  dsimp only
  split
  · split <;> rfl
  · rfl

/-- Of several changes that each keep the mark and the time, the first that applies keeps them. -/
theorem clock_firstOf (s : State) (l : List (Unit → Option State)) (h : ∀ f ∈ l, ∀ t, f () = some t → t.clock = s.clock) :
    (firstOf s l).clock = s.clock := by
  unfold firstOf
  cases ht : l.findSome? fun f => f () with
  | none => rfl
  | some t =>
    obtain ⟨f, hf, hft⟩ := List.exists_of_findSome?_eq_some ht
    exact h f hf t hft

theorem toEnt_clock {s t : State} {c : Fin 512} {addr : Word} {f : QEnt → Bool} {st : Stage} (h : toEnt s c addr f st = some t) :
    t.clock = s.clock := by
  unfold toEnt at h
  split at h <;> cases h <;> rfl

theorem toMwait_clock {s t : State} {c : Fin 512} {addr : Word} {st : Stage} (h : toMwait s c addr st = some t) : t.clock = s.clock := by
  obtain ⟨fw, -, h⟩ := List.exists_of_findSome?_eq_some h
  split at h
  · split_ifs at h
    cases h; rfl
  · cases h

theorem toMma_clock {s t : State} {c : Fin 512} {addr : Word} {st : Stage} (h : toMma s c addr st = some t) : t.clock = s.clock := by
  obtain ⟨fw, -, h⟩ := List.exists_of_findSome?_eq_some h
  split at h <;> cases h
  rfl

theorem toRecord_clock {s t : State} {c : Fin 512} {addr : Word} {st : Stage} (h : toRecord s c addr st = some t) : t.clock = s.clock := by
  unfold toRecord at h
  dsimp only at h
  split at h
  · obtain ⟨r, -, rfl⟩ := Option.map_eq_some_iff.mp h
    rfl
  · cases h

theorem copyErr_clock {s t : State} {c : Fin 512} {addr : Word} {e : Cause} (h : copyErr s c addr e = some t) : t.clock = s.clock := by
  obtain ⟨i, -, h⟩ := List.exists_of_findSome?_eq_some h
  obtain ⟨k, -, h⟩ := Option.bind_eq_some_iff.mp h
  obtain ⟨⟨r, q⟩, -, rfl⟩ := Option.map_eq_some_iff.mp h
  dsimp only
  split <;> rfl

theorem toQst_clock {s t : State} {c : Fin 512} {addr : Word} {k : Cause} (h : toQst s c addr k = some t) : t.clock = s.clock := by
  obtain ⟨⟨i, x⟩, -, h⟩ := Option.bind_eq_some_iff.mp h
  obtain ⟨e, -, h⟩ := Option.bind_eq_some_iff.mp h
  split at h <;> cases h
  exact clock_failAway _ _ _ _

theorem toHub_clock {s t : State} {p : Fin 16} {reads : Option Bool} {addr : Word} {st : Stage} (h : toHub s p reads addr st = some t) :
    t.clock = s.clock := by
  obtain ⟨a, -, rfl⟩ := Option.map_eq_some_iff.mp h
  rfl

@[simp] theorem clock_failRequest (s : State) (p : Option (Fin 16)) (c : Fin 512) (addr : Word) (k : Cause) :
    (failRequest s p c addr k).clock = s.clock := by
  refine clock_firstOf s _ ?_
  simp only [List.forall_mem_cons, List.not_mem_nil, false_implies, implies_true, and_true]
  refine ⟨fun _ => toEnt_clock, fun _ => toMwait_clock, fun _ => copyErr_clock, fun _ => toMma_clock, fun _ => toRecord_clock,
    fun _ => toQst_clock, fun t h => ?_⟩
  obtain ⟨q, -, h⟩ := Option.bind_eq_some_iff.mp h
  exact toHub_clock h

@[simp] theorem clock_refuseUndeliverable (s : State) : (refuseUndeliverable s).clock = s.clock := by
  refine (clock_foldl _ (fun u o => ?_) _ _).trans (clock_withFabric s _)
  dsimp only
  split <;> simp

/-! ### The end of a step (R4, R240) -/

@[simp] theorem clock_settleWindows (s : State) : (settleWindows s).clock = s.clock :=
  clock_foldl _ (fun u p => by split <;> rfl) _ _

@[simp] theorem clock_watchUpdstat (old s : State) : (watchUpdstat old s).clock = s.clock := by
  unfold watchUpdstat; split <;> simp

/-- What happens between the tick of a step and the choice of the next turn: the windows settle, and messages leave the package. -/
def settleStep (s : State) : State :=
  let s := settleWindows { s with mark := .none, clk := s.clk + Config.elapsed s.tick, tick := s.tick + 1 }
  if s.fabric.out.isEmpty then s else flushOut (refuseUndeliverable s)

theorem endStep_eq (s : State) : endStep s = nextTurn (settleStep s) (Config.pick (settleStep s).tick) := rfl

@[simp] theorem clock_nextTurn (s : State) (n : Nat) : (nextTurn s n).clock = s.clock := rfl

theorem clock_settleStep (s : State) : (settleStep s).clock = (.none, s.tick + 1, s.clk + Config.elapsed s.tick) := by
  have h : (State.clock { s with mark := .none, clk := s.clk + Config.elapsed s.tick, tick := s.tick + 1 }) =
      (.none, s.tick + 1, s.clk + Config.elapsed s.tick) := rfl
  rw [← h, settleStep]
  split <;> simp only [clock_flushOut, clock_refuseUndeliverable, clock_settleWindows]

@[simp] theorem clock_endStep (s : State) : (endStep s).clock = (.none, s.tick + 1, s.clk + Config.elapsed s.tick) := by
  rw [endStep_eq, clock_nextTurn, clock_settleStep]

theorem endStep_turn (s : State) :
    (endStep s).turn = turnOf (Config.pick (s.tick + 1) % turnKinds) (Config.pick (s.tick + 1) / turnKinds) := by
  obtain ⟨-, htick, -⟩ := clock_eq_iff.mp (clock_settleStep s)
  rw [endStep_eq, htick]; rfl

/-- R4: after a turn that goes on, time has gone on by a free amount, no word is in hand, and the next turn is a free choice. -/
theorem afterTurn_next (s t : State) :
    ∃ w, afterTurn s (.next t) = .next w ∧ w.mark = .none ∧ w.tick = t.tick + 1 ∧ w.clk = t.clk + Config.elapsed t.tick ∧
      w.turn = turnOf (Config.pick (t.tick + 1) % turnKinds) (Config.pick (t.tick + 1) / turnKinds) := by
  obtain ⟨-, htick, hclk⟩ := clock_eq_iff.mp (clock_watchUpdstat s t)
  obtain ⟨hmark, hn, hx⟩ := clock_eq_iff.mp (clock_endStep (watchUpdstat s t))
  rw [htick] at hn hx
  rw [hclk] at hx
  exact ⟨_, rfl, hmark, hn, hx, by rw [endStep_turn, htick]⟩

/-! ### The turn in hand -/

theorem step_stream {s : State} (h : s.turn = .stream) : step s = afterTurn s (streamTurn exec s) := by
  simp [step, runTurn, h]

theorem step_topiary {s : State} (h : s.turn = .topiary) : step s = afterTurn s (topiaryTurn exec s) := by
  simp [step, runTurn, h]

theorem step_input {s : State} (h : s.turn = .input) : step s = afterTurn s (takeInput s) := by
  simp [step, runTurn, h]

theorem step_event {s : State} {e : Event} (h : s.turn = .event e) : step s = afterTurn s (runEvent e s) := by
  simp [step, runTurn, h]

/-! ### Decode (R214, R297) -/

/-- With nothing to skip, to end, to fence or to fetch, decode takes the record at its position. -/
theorem decodeTurn_record (run : Instr → State → Out) {s : State} (hskip : s.front.skip = false) (hgraph : s.front.graph = none)
    (hended : s.front.level.ended = false) (hfence : entryFence s.front = false) (hfetch : s.front.fetchDue = none) :
    decodeTurn run s = recordTurn run s := by
  simp [decodeTurn, hskip, hgraph, hended, hfence, hfetch]

/-- A whole record that decodes is run, in the state that its fetch has left. -/
theorem recordTurn_decoded (run : Instr → State → Out) {s v : State} {bs : List Byte} {i : Instr} (hbytes : recordBytesAt s = (v, .ok bs))
    (hlen : recordBytes bs ≤ bs.length) (hdec : decodeStream bs = some i) : recordTurn run s = run i v := by
  simp [recordTurn, hbytes, hdec, Nat.not_lt.mpr hlen]

/-- Decode that waits keeps what has been read of other packages. -/
theorem streamTurn_stall {run : Instr → State → Out} {s t : State} (hcan : canDecode s s.part = true) (hrun : decodeTurn run s = .next t)
    (hstall : t.mark = .stall) : streamTurn run s = .next { t with mark := .none } := by
  simp [streamTurn, hcan, hrun, hstall]

/-- Decode that has acted forgets what has been read of other packages. -/
theorem streamTurn_acts {run : Instr → State → Out} {s t : State} (hcan : canDecode s s.part = true) (hrun : decodeTurn run s = .next t)
    (hacts : t.mark ≠ .stall) : streamTurn run s = .next { dropAsks t t.part askDecode with mark := .none } := by
  simp [streamTurn, hcan, hrun, hacts]

/-! ### A policy and the outside world (R380, R351) -/

/-- A policy in a run of a pick runs the operation at its index. -/
theorem topiaryTurn_runs (run : Instr → State → Out) {s : State} {r : TopRun} {i : Instr} (hpick : s.front.pick.isSome = true)
    (hrun : s.aux[s.part].run = some r) (hheld : frontHeld s s.part = false)
    (hdec : decodeTopiary (opAt s.aux[s.part].policy r.pc) = some i) : topiaryTurn run s = run i s := by
  obtain ⟨x, hx⟩ := Option.isSome_iff_exists.mp hpick
  have hx : s.aux[s.part].front.pick = some x := hx
  simp only [topiaryTurn, hx, hrun, hheld, hdec, Bool.false_eq_true, if_false]

/-- An input of the opcode table is the meaning of its row. -/
theorem takeInput_event {s : State} {i : Instr} {rest : List Input} (hbox : s.inbox = .event i :: rest) (hinput : isInput i = true) :
    takeInput s = endInput s (exec i { s with inbox := rest }) := by
  simp [takeInput, hbox, hinput]

theorem takeInput_hostWrite {s : State} {iova : Word} {bs : List Byte} {rest : List Input} (hbox : s.inbox = .hostWrite iova bs :: rest) :
    takeInput s = .next (State.store { s with inbox := rest } (hostAddr iova.toNat) bs) := by
  simp [takeInput, hbox, outside]

/-- An input that must wait stays in the inbox. -/
theorem endInput_stall (s : State) {t : State} (h : t.mark = .stall) :
    endInput s (.next t) = .next { t with mark := .none, inbox := s.inbox } := by
  simp [endInput, h]

/-- An input that has been taken is gone. -/
theorem endInput_taken (s : State) {t : State} (h : t.mark ≠ .stall) : endInput s (.next t) = .next { t with mark := .none } := by
  simp [endInput, h]

/-- Settles O45: each clause is the turn of its kind, and the last is the end of every step. -/
theorem stepRunsTheTurn : Obligations.StepRunsTheTurn := by
  intro s t v i r bs rest e iova
  refine ⟨?stream, ?topiary, ?input, ?hostWrite, step_event, ?context, ?cluster, afterTurn_next s t⟩
  case stream =>
    intro hturn hcan hskip hgraph hended hfence hfetch hbytes hlen hdec hexec
    have hrun : decodeTurn exec s = .next t := by
      rw [decodeTurn_record exec hskip hgraph hended hfence hfetch, recordTurn_decoded exec hbytes hlen hdec, hexec]
    rw [step_stream hturn]
    exact ⟨fun h => by rw [streamTurn_stall hcan hrun h], fun h => by rw [streamTurn_acts hcan hrun h]⟩
  case topiary =>
    intro hturn hpick hrun hheld hdec
    rw [step_topiary hturn, topiaryTurn_runs exec hpick hrun hheld hdec]
  case input =>
    intro hturn hbox hinput hexec
    rw [step_input hturn, takeInput_event hbox hinput, hexec]
    exact ⟨fun h => by rw [endInput_stall s h], fun h => by rw [endInput_taken s h]⟩
  case hostWrite =>
    intro hturn hbox
    rw [step_input hturn, takeInput_hostWrite hbox]
  case context => exact fun c fw => ⟨rfl, rfl, rfl, rfl, rfl, rfl⟩
  case cluster => exact fun k b => ⟨rfl, rfl⟩

end Sys2Proof.Machine
end

section
/-! PROOFS. The core as a kernel sees it: its registers and the words under a guard (R17, R56, R67), the end of a packet (R86, R87). -/

namespace Sys2Proof.Machine

/-- Settles O7: the laws of the register files, read through the acting context. -/
theorem hardWiredRegisters : Obligations.HardWiredRegisters := by
  intro s x q k y z
  refine ⟨getS_zero _, getP_zero _, getM_zero _, wrS_zero s x, wrP_zero s q, wrM_zero s k, ?s, ?p, ?m, ?v, ?a⟩
  case s => intro r hr; rw [State.wrS, setRegs_ctx, getS_setS, if_pos ⟨rfl, hr⟩]
  case p => intro r hr; rw [State.wrP, setRegs_ctx, getP_setP, if_pos ⟨rfl, hr⟩]
  case m => intro r hr; rw [State.wrM, setRegs_ctx, getM_setM, if_pos ⟨rfl, hr⟩]
  case v => intro r; simp [State.wrV, getV_setV]
  case a => intro r; simp [State.wrA, getA_setA]

/-! ### The end of a packet (R86, R87) -/

/-- Where a context that takes no branch goes from the last bundle of a packet. -/
theorem advance_endOfPacket (x : Ctx) {last : Nat} (h : 2 ≤ last) :
    x.advance none last = { x with
      regs := (loopEnd x.regs x.pc x.loops).1, loops := (loopEnd x.regs x.pc x.loops).2.1,
      pc := (loopEnd x.regs x.pc x.loops).2.2, word := 0, viaJr := none } := by
  simp only [Ctx.advance, if_neg (Nat.not_lt.2 h)]

theorem loopEnd_other (r : Regs) {pc : BitVec 32} {t : LoopEnt} (rest : List LoopEnt) (h : t.last ≠ pc) :
    loopEnd r pc (t :: rest) = (r, t :: rest, pc + 1) := by
  simp [loopEnd, h]

theorem loopEnd_again {r : Regs} {t : LoopEnt} (rest : List LoopEnt) (h : r.getS t.reg - 1 ≠ 0) :
    loopEnd r t.last (t :: rest) = (r.setS t.reg (r.getS t.reg - 1), t :: rest, t.first) := by
  rw [loopEnd, if_pos rfl]; exact if_pos h

theorem loopEnd_done {r : Regs} {t : LoopEnt} (rest : List LoopEnt) (h : r.getS t.reg - 1 = 0) :
    loopEnd r t.last (t :: rest) = loopEnd (r.setS t.reg 0) t.last rest := by
  rw [loopEnd, if_pos rfl, h]; exact if_neg (not_not.2 rfl)

/-- Settles O17: the end of a packet, by what stands on top of the loop stack. -/
theorem loopBodyEnd : Obligations.LoopBodyEnd := by
  intro x last t rest
  refine ⟨?within, ?noLoop, ?otherLoop, ?again, ?done⟩
  case within => intro h; simp [Ctx.advance, h]
  case noLoop => intro h hl; rw [advance_endOfPacket x h, hl]; rfl
  case otherLoop => intro h hl ht; rw [advance_endOfPacket x h, hl, loopEnd_other _ _ ht]
  case again => intro h hl ht hn; rw [advance_endOfPacket x h, hl, ← ht, loopEnd_again _ hn]
  case done =>
    intro h hl ht hn
    rw [advance_endOfPacket x h, advance_endOfPacket _ h, hl, ← ht, loopEnd_done _ hn]

/-! ### Words under a guard (R56) -/

/-- Every tile row is a word under its guard (R52, R56). -/
theorem exec_guarded {i : Instr} {h : Head} (s : State) (hh : Sys2Proof.headOf i = some h) : ∃ f, exec i s = guarded h s f := by
  cases i <;> cases hh <;> exact ⟨_, by apply Eq.refl⟩

/-- Settles O8: a word under a false guard does not act. -/
theorem falseGuardDoesNothing : Obligations.FalseGuardDoesNothing := by
  intro i h s hh hg
  obtain ⟨f, hf⟩ := exec_guarded s hh
  rw [hf, guarded_false f hg]

/-! ### Words that write one register (R67) -/

/-- A state after one write of a value to a register. -/
def Wrote (s t : State) : Dest → Prop
  | .s r => ∃ x, t = s.wrS r x
  | .p r => ∃ x, t = s.wrP r x
  | .v r => ∃ x, t = s.wrV r x
  | .m r => ∃ x, t = s.wrM r x
  | .a r => ∃ x, t = s.wrA r x

/-- A write of a register changes registers only, and of those the one. -/
theorem Wrote.frame {s t : State} {d : Dest} (w : Wrote s t d) : OnlyRegs s t ∧ OtherRegs s t d := by
  cases d with
  | s r => obtain ⟨x, rfl⟩ := w; exact ⟨onlyRegs_setRegs s _, otherRegs_wrS s r x⟩
  | p r => obtain ⟨x, rfl⟩ := w; exact ⟨onlyRegs_setRegs s _, otherRegs_wrP s r x⟩
  | v r => obtain ⟨x, rfl⟩ := w; exact ⟨onlyRegs_setRegs s _, otherRegs_wrV s r x⟩
  | m r => obtain ⟨x, rfl⟩ := w; exact ⟨onlyRegs_setRegs s _, otherRegs_wrM s r x⟩
  | a r => obtain ⟨x, rfl⟩ := w; exact ⟨onlyRegs_setRegs s _, otherRegs_wrA s r x⟩

theorem onlyRegs_refl (s : State) : OnlyRegs s s := by
  simpa using onlyRegs_setRegs s s.ctx.regs

theorem otherRegs_refl (s : State) (d : Dest) : OtherRegs s s d :=
  ⟨fun _ _ => rfl, fun _ _ => rfl, fun _ _ => rfl, fun _ _ => rfl, fun _ _ => rfl⟩

/-- A word that only computes writes its register, where its guard is true. -/
theorem exec_onlyDest {i : Instr} {d : Dest} (s : State) (hd : onlyDest i = some d) :
    ∃ (h : Head) (t : State), Wrote s t d ∧ exec i s = if s.rp h.g then .next t else .next s := by
  cases i <;> cases hd <;> exact ⟨_, _, ⟨_, rfl⟩, rfl⟩

/-- Settles O14: what a word that only computes leaves alone, whether its guard is true or false. -/
theorem registerWordsFrame : Obligations.RegisterWordsFrame := by
  intro i d s hd
  obtain ⟨h, t, hw, he⟩ := exec_onlyDest s hd
  cases hg : s.rp h.g with
  | true => exact ⟨t, by simp [he, hg], hw.frame⟩
  | false => exact ⟨s, by simp [he, hg], onlyRegs_refl s, otherRegs_refl s d⟩

end Sys2Proof.Machine
end

section
/-! PROOFS. The sequencer's address map (R19, R20). -/

namespace Sys2Proof.Machine

/-! ### The rows of the address map (R19) -/

theorem rowOf_general (a : Nat) : rowOf a = .general ↔ a < 0x78000 := by
  unfold rowOf; split_ifs <;> simp <;> omega
theorem rowOf_barriers (a : Nat) : rowOf a = .barriers ↔ 0x78000 ≤ a ∧ a < 0x7C000 := by
  unfold rowOf; split_ifs <;> simp <;> omega
theorem rowOf_trapArea (a : Nat) : rowOf a = .trapArea ↔ 0x7C000 ≤ a ∧ a < 0x7E000 := by
  unfold rowOf; split_ifs <;> simp <;> omega
theorem rowOf_work (a : Nat) : rowOf a = .work ↔ 0x7E000 ≤ a ∧ a < 0x7FF00 := by
  unfold rowOf; split_ifs <;> simp <;> omega
theorem rowOf_args (a : Nat) : rowOf a = .args ↔ 0x7FF00 ≤ a ∧ a < 0x80000 := by
  unfold rowOf; split_ifs <;> simp <;> omega
theorem rowOf_ownCm (a : Nat) : rowOf a = .ownCm ↔ 0x1000000 ≤ a ∧ a < 0x1800000 := by
  unfold rowOf; split_ifs <;> simp <;> omega
theorem rowOf_global (a : Nat) : rowOf a = .global ↔ 2 ^ 63 ≤ a := by
  unfold rowOf; split_ifs <;> simp <;> omega

/-- R24: where the window of place k begins. -/
def placeBase (k : Fin 64) : Nat := 0x100000000 + k.val * 2 ^ 24

theorem rowOf_place (a : Nat) (k : Fin 64) : rowOf a = .place k ↔ placeBase k ≤ a ∧ a < placeBase k + 2 ^ 23 := by
  unfold rowOf placeBase
  split_ifs <;> simp [Fin.ext_iff, ix] <;> omega

theorem rowOf_hole (a : Nat) : rowOf a = .hole ↔ a < 2 ^ 63 ∧ 0x80000 ≤ a ∧ ¬(0x1000000 ≤ a ∧ a < 0x1800000) ∧
    ¬(0x100000000 ≤ a ∧ a < 0x140000000 ∧ a % 2 ^ 24 < 2 ^ 23) := by
  unfold rowOf; split_ifs <;> simp <;> omega

/-! ### The checks of a local access (R20) -/

section
variable {s : State} {c : Fin 512} {fw : Bool} {a n : Nat} {i : Intent}

/-- R19, R25: what an access of one row reaches. -/
def rowAnswer (s : State) (c : Fin 512) (fw : Bool) (a : Nat) (i : Intent) : Row → Except Cause Loc
  | .hole => .error .unmapped
  | .place k =>
    match placeCluster s c k with
    | some cl => .ok (.cm cl (a % 2 ^ 23))
    | none => .error .unmapped
  | .ownCm => .ok (.cm (clusterOf c) (a % 2 ^ 23))
  | .general => .ok (.tm a)
  | .barriers => if i = .read then .ok (.tm a) else .error .barrierRange
  | .trapArea => if fw then .ok (.tm a) else .error .priv
  | .work => if fw then .ok (.tm a) else .error .priv
  | .args => if fw || i != .write then .ok (.tm a) else .error .priv
  | .global => .error .unmapped

theorem localCheck_eq : localCheck s c fw a n i = if crossesRows a n then .error .straddle else rowAnswer s c fw a i (rowOf a) := by
  unfold localCheck
  split
  next => rfl
  next => cases rowOf a <;> rfl

/-- An access of a row other than a hole lies in it when its first and its last byte do. -/
theorem localCheck_row {r : Row} (h : rowOf a = r) (h' : rowOf (a + n - 1) = r) (hr : r ≠ .hole) :
    localCheck s c fw a n i = rowAnswer s c fw a i r := by
  simp [localCheck_eq, crossesRows, h, h', hr]

/-- R20 step 1: an access whose first and last byte lie in two rows is STRADDLE. -/
theorem localCheck_twoRows (h : rowOf a ≠ rowOf (a + n - 1)) : localCheck s c fw a n i = .error .straddle := by
  simp [localCheck_eq, crossesRows, h]

/-- R19, R20 step 1: so is one that begins before a window and ends in it or beyond. -/
theorem localCheck_window (h : rowOf a = .hole) (hw : crossesWindow a (a + n - 1) = true) : localCheck s c fw a n i = .error .straddle := by
  simp [localCheck_eq, crossesRows, h, hw]

theorem localCheck_hole (h : rowOf a = .hole) (h' : rowOf (a + n - 1) = .hole) (hw : crossesWindow a (a + n - 1) = false) :
    localCheck s c fw a n i = .error .unmapped := by
  simp [localCheck_eq, crossesRows, h, h', hw, rowAnswer]

end

/-- R19: a range crosses into a window when the first byte of one lies after its own first byte. -/
theorem crossesWindow_iff (lo hi : Nat) : crossesWindow lo hi = true ↔
    (lo < 0x1000000 ∧ 0x1000000 ≤ hi) ∨ ∃ k : Fin 64, lo < placeBase k ∧ placeBase k ≤ hi := by
  simp only [crossesWindow, Bool.or_eq_true, Bool.and_eq_true, decide_eq_true_eq, List.any_eq_true, List.mem_range]
  refine or_congr Iff.rfl ⟨?_, ?_⟩
  · rintro ⟨-, k, hk, hlo, hhi⟩
    exact ⟨⟨k, hk⟩, hlo, hhi⟩
  · rintro ⟨k, hlo, hhi⟩
    refine ⟨?_, k.val, k.isLt, hlo, hhi⟩
    have hk := k.isLt
    unfold placeBase at hlo
    omega

theorem crossesWindow_false {lo hi : Nat} (hcm : lo < 0x1000000 → hi < 0x1000000)
    (hplace : ∀ k : Fin 64, lo < placeBase k → hi < placeBase k) : crossesWindow lo hi = false := by
  rw [← Bool.not_eq_true, crossesWindow_iff]
  rintro (⟨hlo, hhi⟩ | ⟨k, hlo, hhi⟩)
  · exact absurd (hcm hlo) (by omega)
  · exact absurd (hplace k hlo) (by omega)

/-- An access that begins before the window of a place and ends in it or beyond leaves its row. -/
theorem rowOf_ne_of_lt_place {a b : Nat} {k : Fin 64} (ha : a < placeBase k) (hb : placeBase k ≤ b) (hh : rowOf a ≠ .hole) :
    rowOf a ≠ rowOf b := by
  intro e
  have hk := k.isLt
  unfold placeBase at ha hb
  cases hr : rowOf a with
  | hole => exact hh hr
  | general => have := (rowOf_general b).1 (e ▸ hr); omega
  | barriers => have := (rowOf_barriers b).1 (e ▸ hr); omega
  | trapArea => have := (rowOf_trapArea b).1 (e ▸ hr); omega
  | work => have := (rowOf_work b).1 (e ▸ hr); omega
  | args => have := (rowOf_args b).1 (e ▸ hr); omega
  | ownCm => have := (rowOf_ownCm b).1 (e ▸ hr); omega
  | global => have := (rowOf_global a).1 hr; omega
  | place j =>
    have hja := (rowOf_place a j).1 hr
    have hjb := (rowOf_place b j).1 (e ▸ hr)
    unfold placeBase at hja hjb
    omega

/-- Settles O21: the row of the first and of the last byte of an access decides it. -/
theorem sequencerAddressMap : Obligations.SequencerAddressMap := by
  intro s c fw a n i k hn hmax
  have hk := k.isLt
  refine ⟨?general, ?barriers, ?trapArea, ?work, ?args, ?hole1, ?ownCm, ?place, ?hole2, ?holePlace, ?hole3, ?straddleCm, ?straddlePlace,
    ?straddleGeneral, ?straddleOwn⟩
  case general =>
    intro hhi
    exact localCheck_row ((rowOf_general a).2 (by omega)) ((rowOf_general _).2 (by omega)) (by decide)
  case barriers =>
    intro hlo hhi
    exact localCheck_row ((rowOf_barriers a).2 (by omega)) ((rowOf_barriers _).2 (by omega)) (by decide)
  case trapArea =>
    intro hlo hhi
    exact localCheck_row ((rowOf_trapArea a).2 (by omega)) ((rowOf_trapArea _).2 (by omega)) (by decide)
  case work =>
    intro hlo hhi
    exact localCheck_row ((rowOf_work a).2 (by omega)) ((rowOf_work _).2 (by omega)) (by decide)
  case args =>
    intro hlo hhi
    rw [localCheck_row ((rowOf_args a).2 (by omega)) ((rowOf_args _).2 (by omega)) (by decide)]
    simp [rowAnswer]
  case ownCm =>
    intro hlo hhi
    rw [localCheck_row ((rowOf_ownCm a).2 (by omega)) ((rowOf_ownCm _).2 (by omega)) (by decide)]
    simp only [rowAnswer, show a % 2 ^ 23 = a - 0x1000000 by omega]
  case place =>
    intro hlo hhi
    rw [localCheck_row ((rowOf_place a k).2 (by unfold placeBase; omega)) ((rowOf_place _ k).2 (by unfold placeBase; omega)) (by simp)]
    simp only [rowAnswer, show a % 2 ^ 23 = a - (0x100000000 + k.val * 2 ^ 24) by omega] <;> rfl
  case hole1 =>
    intro hlo hhi
    exact localCheck_hole ((rowOf_hole a).2 (by omega)) ((rowOf_hole _).2 (by omega))
      (crossesWindow_false (by omega) fun j _ => by unfold placeBase; omega)
  case hole2 =>
    intro hlo hhi
    exact localCheck_hole ((rowOf_hole a).2 (by omega)) ((rowOf_hole _).2 (by omega))
      (crossesWindow_false (by omega) fun j _ => by unfold placeBase; omega)
  case holePlace =>
    intro hlo hhi
    exact localCheck_hole ((rowOf_hole a).2 (by omega)) ((rowOf_hole _).2 (by omega))
      (crossesWindow_false (by omega) fun j hj => by unfold placeBase at hj ⊢; omega)
  case hole3 =>
    intro hlo
    exact localCheck_hole ((rowOf_hole a).2 (by omega)) ((rowOf_hole _).2 (by omega))
      (crossesWindow_false (by omega) fun j hj => by have := j.isLt; unfold placeBase at hj; omega)
  case straddleCm =>
    intro hlo hhi hend
    exact localCheck_window ((rowOf_hole a).2 (by omega)) ((crossesWindow_iff _ _).2 (.inl (by omega)))
  case straddlePlace =>
    intro hlo hend
    have hlast : placeBase k ≤ a + n - 1 := by unfold placeBase; omega
    by_cases hh : rowOf a = .hole
    · exact localCheck_window hh ((crossesWindow_iff _ _).2 (.inr ⟨k, hlo, hlast⟩))
    · exact localCheck_twoRows (rowOf_ne_of_lt_place hlo hlast hh)
  case straddleGeneral =>
    intro hlo hend
    refine localCheck_twoRows fun e => ?_
    have := (rowOf_general _).1 (e ▸ (rowOf_general a).2 hlo)
    omega
  case straddleOwn =>
    intro hlo hhi hend
    refine localCheck_twoRows fun e => ?_
    have := (rowOf_ownCm _).1 (e ▸ (rowOf_ownCm a).2 ⟨hlo, hhi⟩)
    omega

end Sys2Proof.Machine
end

section
/-! PROOFS. The turn in which a context issues a bundle of one word (R28, R55, R90), and the state after reset (R399). -/

namespace Sys2Proof.Machine

/-! ### The FENCE words among the words (R58, R90) -/

/-- The FENCE words (R89). -/
def isFence : Instr → Bool
  | .fenceCore _ | .fenceCluster _ | .fenceDie _ | .fencePkg _ | .fenceSys _ => true
  | _ => false

/-- What a decoder answers is no FENCE. -/
def NoFence (o : Option Instr) : Prop := ∀ i, o = some i → isFence i = false

@[simp] theorem noFence_none : NoFence none := by simp [NoFence]

@[simp] theorem noFence_some {i : Instr} : NoFence (some i) ↔ isFence i = false := by simp [NoFence]

@[simp] theorem noFence_bind {α : Type} {o : Option α} {f : α → Option Instr} (h : ∀ a, NoFence (f a)) : NoFence (o.bind f) := by
  cases o with
  | none => exact noFence_none
  | some a => exact h a

/-- R58: the FENCE words are those of the major opcode 0x1A. -/
theorem decodeRaw_noFence {w : BitVec 32} (hop : (fld w 24 7).toNat ≠ 0x1A) : NoFence (decodeRaw w) := by
  unfold decodeRaw
  split
  case h_21 => exact absurd ‹_› hop
  all_goals simp only [noFence_none, decodeOp00, decodeOp01, decodeOp02, decodeOp03, decodeOp04, decodeOp05, decodeOp06, decodeOp07, decodeOp08, decodeOp09,
    decodeOp0A, decodeOp0B, decodeOp0C, decodeOp0D, decodeOp10, decodeOp11, decodeOp12, decodeOp13, decodeOp18, decodeOp19, decodeOp1B,
    decodeOp1C, decodeOp1D, decodeOp30, decodeOp31, decodeOp32, decodeOp33, decodeOp34, decodeOp35, decodeOp36, decodeOp37, decodeOp40, decodeOp41,
    decodeOp42, decodeOp43, decodeOp44, decodeOp45, decodeOp46, decodeOp47, decodeOp48, decodeOp49, decodeOp4A, decodeOp4B, decodeOp4C,
    decodeOp4D, decodeOp4E, decodeOp4F, decodeOp50, decodeOp51, decodeOp52, decodeOp53, decodeOp54, decodeOp55, decodeOp56, decodeOp57,
    decodeOp58, decodeOp59, decodeOp5A, decodeOp5B, decodeOp5C, decodeOp60, decodeOp61, decodeOp62, decodeOp63, decodeOp64, decodeOp65,
    decodeOp66, decodeOp67, decodeOp70, decodeOp71, decodeOp72, decodeOp73, decodeOp78, decodeOp79, decodeOp7A, decodeOp7B, decodeOp7C,
    decodeOp7D]
  all_goals (repeat' split) <;> simp [isFence]

theorem decodeRaw_of_decodeWord {w : BitVec 32} {i : Instr} (h : decodeWord w = some i) : decodeRaw w = some i := by
  unfold decodeWord at h
  split at h
  next j hj => split_ifs at h; rw [hj, h]
  next => cases h

/-- R27: a FENCE word is of the S pipe. -/
theorem pipeOf_fence {w : BitVec 32} {i : Instr} (h : decodeWord w = some i) (hi : isFence i = true) : pipeOf w = some .s := by
  have hop : (fld w 24 7).toNat = 0x1A := by
    by_contra hop
    rw [decodeRaw_noFence hop i (decodeRaw_of_decodeWord h)] at hi
    cases hi
  have hop' : (w.extractLsb' 24 7).toNat = 0x1A := hop
  simp [pipeOf, hop']

theorem isFence_resolve (s : State) (i : Instr) : isFence (resolve s i) = isFence i := by
  unfold resolve
  split
  next => dsimp only; split_ifs <;> rfl
  next => dsimp only; split_ifs <;> rfl
  next => dsimp only; split_ifs <;> rfl
  next => rfl

theorem fenceClash_eq (regs : Regs) (ws : List Slot) (w : Slot) : fenceClash regs ws w =
    (isFence w.instr && w.live regs && ws.any fun u => u.live regs && (pipeOf u.bits == some .m || pipeOf u.bits == some .x)) := by
  rfl

/-- R90: a word that is its whole bundle shares it with none. -/
theorem fenceClash_alone (s : State) (regs : Regs) {n : Nat} {bits : BitVec 32} {i : Instr} (h : decodeWord bits = some i) :
    fenceClash regs [⟨n, bits, resolve s i⟩] ⟨n, bits, resolve s i⟩ = false := by
  rw [fenceClash_eq, isFence_resolve]
  cases hi : isFence i with
  | false => rfl
  | true => simp [pipeOf_fence h hi]

/-! ### The turn of a context (R28, R55, R315, R373) -/

theorem step_issue {s : State} (h : s.turn = .issue) (htrip : s.pf.trip2 = false) : step s = afterTurn s (issue exec s) := by
  simp [step, runTurn, h, htrip]

/-- A context that is present and has its share issues. -/
theorem issue_present (run : Instr → State → Out) {s : State} (hp : present? s = true) (hs : shareSpent run (shareWindow s) = false) :
    issue run s = issueNow run (shareWindow s) := by
  have hend : (!s.fw && s.cur.ending.isSome) = false := by
    cases hf : s.fw with
    | true => rfl
    | false =>
      have ⟨_, hnone⟩ : trapFree s s.core = true ∧ s.cur.ending = none := by simpa [present?, hf] using hp
      simp [hnone]
  simp [issue, hend, hp, hs]

/-- A context within a packet with nothing to take at its boundary, and no stream that lacks a read, fetches its packet. -/
theorem issueNow_fetch (run : Instr → State → Out) {u u' : State} (hw : u.ctx.word < 3)
    (hb : if u.fw then oldestFault u u.core true = none
      else cancelDue u u.core = false ∧ (cancelling u u.core = true ∨ boundaryTrap u u.core = none))
    (hs : streamsReady u = (u', true)) : issueNow run u = fetchIssue run u' := by
  cases hf : u.fw with
  | true =>
    obtain rfl : u = u' := by simpa [streamsReady, hf] using hs
    simp only [hf, if_true] at hb
    simp [issueNow, packetEnd, hw, hf, hb]
  | false =>
    simp only [hf, Bool.false_eq_true, if_false] at hb
    obtain ⟨hdue, hnone⟩ := hb
    have htrap : (if cancelling u u.core then none else boundaryTrap u u.core) = none := by
      rcases hnone with h | h <;> simp [h]
    simp [issueNow, packetEnd, hw, hf, hdue, htrap, hs]

theorem fetchIssue_fetched (run : Instr → State → Out) {s v : State} {ws : List (BitVec 32)} (hj : s.ctx.viaJr = none)
    (hf : fetchPacket s s.core s.fw s.ctx.pc = (v, .ok ws)) : fetchIssue run s = issueFrom run v ws := by
  simp [fetchIssue, hj, hf]

/-- A bundle of one word that waits for no register. -/
theorem issueFrom_one (run : Instr → State → Out) {s : State} {ws : List (BitVec 32)} {n : Nat} {i : Instr}
    (hp : packetFault s.fw ws = none) (hfirst : bundleFirst ws s.ctx.word = n) (hlast : bundleLast ws n = n)
    (hd : decodeWord (ws.getD n 0) = some i) (hw : mustWait s.ctx ⟨n, ws.getD n 0, resolve s i⟩ = false) :
    issueFrom run s ws =
      finish [⟨n, ws.getD n 0, resolve s i⟩]
        (run (resolve s i) (enter s s.serial s.ctx.regs n ⟨n, ws.getD n 0, resolve s i⟩)) := by
  have hslots : bundleSlots s ws n n = [⟨n, ws.getD n 0, resolve s i⟩] := by
    simp only [bundleSlots, Nat.add_sub_cancel_left, List.range_one, List.filterMap_cons, Nat.add_zero, hd, Option.map_some, List.filterMap_nil]
  simp only [issueFrom, hp, hfirst, hlast, hslots, List.find?_cons, hw, List.find?_nil, runBundle, runWord, fenceClash_alone s _ hd,
    Bool.false_eq_true, if_false]

/-- Settles O44: from the turn to the bundle, and the one word of the bundle. -/
theorem stepRunsTheDecodedWord : Obligations.StepRunsTheDecodedWord := by
  intro s u' v ws n i hturn htrip hpresent u hshare hword hboundary hstreams hjr hfetch hpacket hfirst hlast hdecode w hwait
  rw [step_issue hturn htrip, issue_present exec hpresent hshare, issueNow_fetch exec hword hboundary hstreams,
    fetchIssue_fetched exec hjr hfetch, issueFrom_one exec hpacket hfirst hlast hdecode hwait]

/-! ### Reset (R383, R399) -/

theorem readByte_unlisted {m : List Host.Cell} {x : Nat} (h : ∀ c ∈ m, c.1 ≠ x) : readByte m x = unlisted := by
  induction m with
  | nil => rfl
  | cons d m ih =>
    have hd : d.1 ≠ x := h d List.mem_cons_self
    rw [readByte, if_neg hd, ih fun c hc => h c (List.mem_cons_of_mem d hc)]

/-- R376: after reset every cell of memory lies in the firmware directory. -/
theorem resetMem_range : ∀ c ∈ resetMem, hbmAddr 0 0x1FC0000000 ≤ c.1 ∧ c.1 < hbmAddr 0 0x1FC0000040 := by decide +kernel

theorem reset_readByte {a : Nat} (h : a < hbmAddr 0 0x1FC0000000 ∨ hbmAddr 0 0x1FC0000040 ≤ a) : readByte State.reset.mem a = 0 := by
  refine readByte_unlisted fun c hc e => ?_
  obtain ⟨hlo, hhi⟩ := resetMem_range c hc
  omega

/-- R383: after reset every core is as the boot ROM starts it. -/
theorem reset_core (c : Fin 512) : State.reset.cores[c] = Core.boot c.val := by
  simp [State.reset]

theorem boot_getS_dir (n : Nat) : (Core.boot n).fw.regs.getS 3 = dirAddr := rfl
theorem boot_getS_core (n : Nat) : (Core.boot n).fw.regs.getS 4 = BitVec.ofNat 64 n := rfl

theorem boot_getS_other (n : Nat) {r : BitVec 5} (h3 : r ≠ 3) (h4 : r ≠ 4) : (Core.boot n).fw.regs.getS r = 0 := by
  have n3 : 3 ≠ r.toNat := fun e => h3 (BitVec.eq_of_toNat_eq e.symm)
  have n4 : 4 ≠ r.toNat := fun e => h4 (BitVec.eq_of_toNat_eq e.symm)
  simp [Core.boot, Regs.getS, Regs.zero, n3, n4]

theorem boot_getP (n : Nat) {p : BitVec 3} (hp : p ≠ 0) : (Core.boot n).fw.regs.getP p = false := by
  have hp' : p ≠ 0#3 := hp
  simp [Core.boot, Ctx.zero, Regs.getP, Regs.zero, hp']

/-- Settles O46: the parts of the reset state, one by one. -/
theorem resetState : Obligations.ResetState := by
  refine ⟨reset_memWf, rfl, rfl, rfl, rfl, rfl, rfl, ?links, fun a h => reset_readByte h, ?parts, ?clusters, fun c => ?core⟩
  case links => intro k; simp [State.reset, Fabric.zero, Link.zero]
  case parts => intro p; simp [State.reset, Part.zero, PartAux.zero, Front.zero, Window.zero, Hub.reset]
  case clusters => intro k; simp [State.reset, Hub.reset, KeySlot.zero]
  case core =>
    rw [reset_core c]
    exact ⟨rfl, rfl, rfl, rfl, rfl, rfl, rfl, rfl, rfl, rfl, rfl, rfl, boot_getS_dir _, boot_getS_core _,
      fun r => boot_getS_other _, fun p => boot_getP _⟩

end Sys2Proof.Machine
end

section
/-! PROOFS. Units and launches (R91 to R93, R240 to R265): the bytes of a record, what the use of an IV leaves alone, and each word and event. -/

namespace Sys2Proof.Machine

/-! ### Fields of little-endian bytes (R3) -/

@[simp] theorem length_leBytes (n x : Nat) : (leBytes n x).length = n := by
  induction n generalizing x with
  | zero => rfl
  | succ n ih => simp [leBytes, ih]

theorem leNat_leBytes (n x : Nat) : leNat (leBytes n x) = x % 256 ^ n := by
  induction n generalizing x with
  | zero => simp [leBytes, leNat, Nat.mod_one]
  | succ n ih =>
    rw [leBytes, leNat, ih, BitVec.toNat_ofNat, pow_succ' 256 n, Nat.mod_mul]

theorem fieldAt_append_left {xs : List Byte} (ys : List Byte) {o n : Nat} (h : o + n ≤ xs.length) :
    fieldAt (xs ++ ys) o n = fieldAt xs o n := by
  rw [fieldAt, fieldAt, List.drop_append_of_le_length (by omega), List.take_append_of_le_length (by simp; omega)]

theorem fieldAt_append_right {xs : List Byte} (ys : List Byte) {o : Nat} (n : Nat) (h : xs.length ≤ o) :
    fieldAt (xs ++ ys) o n = fieldAt ys (o - xs.length) n := by
  rw [fieldAt, fieldAt, List.drop_append, List.drop_eq_nil_of_le h, List.nil_append]

theorem fieldAt_leBytes (n x : Nat) : fieldAt (leBytes n x) 0 n = x % 256 ^ n := by
  rw [fieldAt, List.drop_zero, List.take_of_length_le (by simp), leNat_leBytes]

/-- An entry of numbers of one size that stand side by side. -/
theorem fieldAt_flatMap {α : Type} (n : Nat) (f : α → Nat) (l : List α) {i : Nat} (hi : i < l.length) :
    fieldAt (l.flatMap fun x => leBytes n (f x)) (n * i) n = f l[i] % 256 ^ n := by
  induction l generalizing i with
  | nil => simp at hi
  | cons x l ih =>
    rw [List.flatMap_cons]
    cases i with
    | zero => rw [Nat.mul_zero, fieldAt_append_left _ (by simp), fieldAt_leBytes]; rfl
    | succ i =>
      rw [fieldAt_append_right _ _ (by rw [length_leBytes]; exact Nat.le_mul_of_pos_right _ (by omega)), length_leBytes,
        show n * (i + 1) - n = n * i by rw [Nat.mul_succ, Nat.add_sub_cancel], ih (by simpa using hi), List.getElem_cons_succ]

theorem byteAt_append_left {xs : List Byte} (ys : List Byte) {i : Nat} (h : i < xs.length) : byteAt (xs ++ ys) i = byteAt xs i := by
  rw [byteAt, byteAt, List.getD_append _ _ _ _ h]

theorem byteAt_append_right {xs : List Byte} (ys : List Byte) {i : Nat} (h : xs.length ≤ i) :
    byteAt (xs ++ ys) i = byteAt ys (i - xs.length) := by
  rw [byteAt, byteAt, List.getD_append_right _ _ _ _ h]

theorem byteAt_leBytes {n i : Nat} (x : Nat) (h : i < n) : byteAt (leBytes n x) i = x / 256 ^ i % 256 := by
  induction n generalizing i x with
  | zero => omega
  | succ n ih =>
    cases i with
    | zero => simp [byteAt, leBytes]
    | succ i =>
      have := ih (x / 256) (i := i) (by omega)
      rw [pow_succ', ← Nat.div_div_eq_div_mul, ← this]
      rfl

/-! ### Records and their bytes (R15) -/

/-- R15: the number that holds a record's two flags and its wait kind. -/
def recFlags (r : CRec) : Nat := r.posted.toNat + 2 * r.resumed.toNat + 2 ^ 28 * r.wkind.toNat

theorem length_flatMap_leBytes {α : Type} (n : Nat) (f : α → Nat) (l : List α) :
    (l.flatMap fun x => leBytes n (f x)).length = n * l.length := by
  simp [List.length_flatMap, Nat.mul_comm]

section
variable (r : CRec)

/-- Where the parts of a record's bytes begin: the packet, the launch, the indices, the flags and the saved registers. -/
theorem recBytes_eq : recBytes r = leBytes 4 r.pkt.toNat ++ (leBytes 4 r.launch.toNat ++ ((r.index.toList.flatMap fun i => leBytes 2 i.toNat) ++
    (leBytes 4 (recFlags r) ++ r.saved.toList.flatMap fun w => leBytes 8 w.toNat))) := by
  simp [recBytes, recFlags]

theorem recBytes_pkt : fieldAt (recBytes r) 0 4 = r.pkt.toNat := by
  rw [recBytes_eq, fieldAt_append_left _ (by simp), fieldAt_leBytes]
  exact Nat.mod_eq_of_lt r.pkt.isLt

theorem recBytes_launch : fieldAt (recBytes r) 4 4 = r.launch.toNat := by
  rw [recBytes_eq, fieldAt_append_right _ _ (by simp), length_leBytes, fieldAt_append_left _ (by simp), fieldAt_leBytes]
  exact Nat.mod_eq_of_lt r.launch.isLt

theorem recBytes_index (i : Fin 6) : fieldAt (recBytes r) (8 + 2 * i.val) 2 = r.index[i].toNat := by
  have hi : i.val < r.index.toList.length := by simp
  rw [recBytes_eq, fieldAt_append_right _ _ (by simp; omega), fieldAt_append_right _ _ (by simp; omega), length_leBytes, length_leBytes,
    show 8 + 2 * i.val - 4 - 4 = 2 * i.val by omega, fieldAt_append_left _ (by rw [length_flatMap_leBytes]; omega), fieldAt_flatMap _ _ _ hi]
  exact Nat.mod_eq_of_lt (BitVec.isLt _)

theorem recBytes_saved (i : Fin 5) : fieldAt (recBytes r) (24 + 8 * i.val) 8 = r.saved[i].toNat := by
  have hi : i.val < r.saved.toList.length := by simp
  have hx := length_flatMap_leBytes 2 BitVec.toNat r.index.toList
  rw [Vector.length_toList] at hx
  rw [recBytes_eq, fieldAt_append_right _ _ (by simp; omega), fieldAt_append_right _ _ (by simp; omega),
    fieldAt_append_right _ _ (by rw [hx]; simp; omega), fieldAt_append_right _ _ (by rw [hx]; simp; omega), length_leBytes, length_leBytes, hx,
    length_leBytes, show 24 + 8 * i.val - 4 - 4 - 2 * 6 - 4 = 8 * i.val by omega, fieldAt_flatMap _ _ _ hi]
  exact Nat.mod_eq_of_lt (BitVec.isLt _)

/-- R15: a byte of the word of flags. -/
theorem recBytes_flags {i : Nat} (h : i < 4) : byteAt (recBytes r) (20 + i) = recFlags r / 256 ^ i % 256 := by
  have hx := length_flatMap_leBytes 2 BitVec.toNat r.index.toList
  rw [Vector.length_toList] at hx
  rw [recBytes_eq, byteAt_append_right _ (by simp; omega), byteAt_append_right _ (by simp; omega),
    byteAt_append_right _ (by rw [hx]; simp; omega), byteAt_append_left _ (by rw [hx]; simp; omega), length_leBytes, length_leBytes, hx,
    show 20 + i - 4 - 4 - 2 * 6 = i by omega, byteAt_leBytes _ h]

/-- R15: the bytes of a record hold all of it. -/
theorem recOf_recBytes : recOf r (recBytes r) = { r with ready := r.wkind == 0, stage := .waiting, spot := none } := by
  have hk := r.wkind.isLt
  have hlow : byteAt (recBytes r) 20 = r.posted.toNat + 2 * r.resumed.toNat := by
    have h : byteAt (recBytes r) 20 = recFlags r / 1 % 256 := recBytes_flags r (i := 0) (by omega)
    have hp := r.posted.toNat_le
    have hr := r.resumed.toNat_le
    rw [recFlags, Nat.div_one] at h
    omega
  have hkind : BitVec.ofNat 4 (byteAt (recBytes r) 23 / 16) = r.wkind := by
    have h : byteAt (recBytes r) 23 = recFlags r / 16777216 % 256 := recBytes_flags r (i := 3) (by omega)
    have hp := r.posted.toNat_le
    have hr := r.resumed.toNat_le
    simp only [recFlags] at h
    rw [show byteAt (recBytes r) 23 / 16 = r.wkind.toNat by omega, BitVec.ofNat_toNat, BitVec.setWidth_eq]
  have hposted : (byteAt (recBytes r) 20 % 2 == 1) = r.posted := by rw [hlow]; cases r.posted <;> cases r.resumed <;> rfl
  have hresumed : (byteAt (recBytes r) 20 / 2 % 2 == 1) = r.resumed := by rw [hlow]; cases r.posted <;> cases r.resumed <;> rfl
  have hindex : (Vector.ofFn fun i : Fin 6 => BitVec.ofNat 16 (fieldAt (recBytes r) (8 + 2 * i.val) 2)) = r.index := by
    ext1 i hi
    rw [Vector.getElem_ofFn, recBytes_index r ⟨i, hi⟩, BitVec.ofNat_toNat, BitVec.setWidth_eq]; rfl
  have hsaved : (Vector.ofFn fun i : Fin 5 => BitVec.ofNat 64 (fieldAt (recBytes r) (24 + 8 * i.val) 8)) = r.saved := by
    ext1 i hi
    rw [Vector.getElem_ofFn, recBytes_saved r ⟨i, hi⟩, BitVec.ofNat_toNat, BitVec.setWidth_eq]; rfl
  simp only [recOf, recBytes_pkt, recBytes_launch, hkind, hposted, hresumed, hindex, hsaved, BitVec.ofNat_toNat, BitVec.setWidth_eq]

end

/-! ### The ends of units (R91, R92, R93) -/

section
variable {h : Head} {s : State} (g : s.rp h.g = true)
include g

/-- R91: DONE and SUSPEND act on a unit only, and so does POST (R93); no wait kind is above 2 (R92). -/
theorem execDone_fw (hf : s.fw = true) : execDone h s = raise s .illegalOp := by
  simp [execDone, guarded_true _ g, hf]

theorem execSuspend_illegal {k : BitVec 5} (hk : s.fw = true ∨ 2 < k.toNat) : execSuspend h k s = raise s .illegalOp := by
  rw [execSuspend, guarded_true _ g, if_pos hk]

theorem execPost_illegal {k : BitVec 5} (d a : BitVec 5) (hk : s.fw = true ∨ 2 < k.toNat) : execPost h d a k s = raise s .illegalOp := by
  rw [execPost, guarded_true _ g, if_pos hk]

theorem execDone_stall (hf : s.fw = false) (hw : workOut s.cur (sinceNow s) = true) : execDone h s = stall s := by
  simp [execDone, guarded_true _ g, hf, hw]

theorem execDone_ends (hf : s.fw = false) (hw : workOut s.cur (sinceNow s) = false) :
    execDone h s = .next { finishEnding (s.setCur { s.cur with ending := some none }) s.core with mark := .ended } := by
  simp [execDone, guarded_true _ g, hf, hw]

theorem execSuspend_ends {k : BitVec 5} (hf : s.fw = false) (hk : k.toNat ≤ 2) (hwait : waitFault k (s.rs 8) = none)
    (hw : workOut s.cur (sinceNow s) = false) :
    execSuspend h k s = .next { finishEnding (s.setCur { s.cur with ending := some (some ⟨s.curPart.getD 0, s.ctx.pc + 1, s.cur.ctl.launchid,
      s.cur.index, false, s.cur.resumed, k.setWidth 4, savedRegs s, k == 0, .waiting, none⟩) }) s.core with mark := .ended } := by
  have hno : ¬(s.fw = true ∨ 2 < k.toNat) := by simp [hf]; omega
  simp only [execSuspend, guarded_true _ g, if_neg hno, hwait, hw, Bool.false_eq_true, if_false]

end

/-! ### What the use of an IV leaves alone (R323, R337) -/

/-- A part of the state that no write of memory, of a die, of a partition, of the hub or of the fabric changes, nor an event that a core holds. -/
structure Untold {α : Type} (f : State → α) : Prop where
  store : ∀ s a bs, f (s.store a bs) = f s
  putDie : ∀ s d x, f (s.putDie d x) = f s
  putPart : ∀ s p x, f (s.putPart p x) = f s
  withHub : ∀ (s : State) x, f { s with hub := x } = f s
  withFabric : ∀ (s : State) x, f { s with fabric := x } = f s
  hold : ∀ (s : State) (c : Fin 512) l, f (s.putCore c { s.cores[c] with heldEvents := l }) = f s

namespace Untold
variable {α : Type} {f : State → α}

theorem foldl {β : Type} {g : State → β → State} (hg : ∀ s x, f (g s x) = f s) (l : List β) (s : State) : f (l.foldl g s) = f s := by
  induction l generalizing s with
  | nil => rfl
  | cons x l ih => rw [List.foldl_cons, ih, hg]

variable (u : Untold f)
include u

theorem sweepPage (s : State) (d : Fin 4) (page : Nat) (k : MemKey) (b : Nat) : f (sweepPage s d page k b) = f s := by
  cases k with
  | system => rfl
  | mem p va =>
    simp only [Machine.sweepPage]
    split
    · split_ifs <;> simp only [u.putDie]
    · rfl

theorem advanceBlock {s t : State} {d : Fin 4} {b : Nat} {k : MemKey} {va : Word} (h : advanceBlock s d b k va = .ok t) : f t = f s := by
  simp only [Machine.advanceBlock] at h
  split at h
  · cases h
  · split_ifs at h <;> cases h <;> exact u.putDie _ _ _

theorem writeBlock {s t : State} {d : Fin 4} {p b : Nat} {full : Bool} {k : MemKey} (h : writeBlock s d p b full k = .ok t) : f t = f s := by
  simp only [Machine.writeBlock] at h
  split_ifs at h
  rw [u.advanceBlock h, u.sweepPage]

theorem writeBlocks {d : Fin 4} {p : Nat} {full : Nat → Bool} {k : MemKey} (l : List Nat) {s t : State}
    (h : l.foldlM (fun t b => Machine.writeBlock t d p b (full b) k) s = .ok t) : f t = f s := by
  induction l generalizing s with
  | nil => cases h; rfl
  | cons b l ih =>
    rw [List.foldlM_cons] at h
    cases hw : Machine.writeBlock s d p b (full b) k with
    | error c => rw [hw] at h; cases h
    | ok v => rw [hw] at h; rw [ih h, u.writeBlock hw]

theorem hbmRuns {s t : State} {d : Fin 4} {p : Nat} {runs : List (Nat × List Byte)} {k : MemKey} (h : hbmRuns s d p runs k = .ok t) :
    f t = f s := by
  have put (v : State) : f (runs.foldl (fun u (o, bs) => u.store (hbmAddr d (p + o)) bs) v) = f v :=
    foldl (fun v x => u.store v (hbmAddr d (p + x.1)) x.2) runs v
  simp only [Machine.hbmRuns] at h
  split at h
  · cases h
  · split at h
    · cases h
    · split at h
      · split_ifs at h
        cases h
        exact (put _).trans (u.putDie _ _ _)
      · split at h
        next hw =>
          cases h
          exact (put _).trans (u.writeBlocks _ hw)
        next => cases h

theorem devWrite (s : State) (flat : Nat) (bs : List Byte) : f (devWrite s flat bs) = f s := by
  simp only [Machine.devWrite]
  split
  next h => exact u.hbmRuns h
  next => rfl

theorem enterRecord (s : State) (p : Fin 16) (r : FaultRec) : f (enterRecord s p r) = f s := by
  simp only [Machine.enterRecord, tell, deliver]
  split
  · exact (u.store _ _ _).trans ((u.store _ _ _).trans ((u.putPart _ _ _).trans (u.devWrite _ _ _)))
  · exact (u.hold _ _ _).trans ((u.putPart _ _ _).trans (u.devWrite _ _ _))

theorem hubEntered (s : State) (p : Fin 16) (r : FaultRec) : f (hubEntered s p r) = f s := by
  unfold Machine.hubEntered
  split
  · unfold dropExpired
    dsimp only
    split
    · exact u.withFabric _ _
    · rfl
  · rfl

theorem hubRecord (s : State) (p : Fin 16) (r : FaultRec) : f (hubRecord s p r) = f s := by
  unfold Machine.hubRecord
  split
  · exact u.putPart _ _ _
  · exact (u.hubEntered _ _ _).trans (u.enterRecord _ _ _)

theorem useIv (s : State) (p : Fin 16) (id : StreamId) : f (useIv s p id) = f s := by
  unfold Machine.useIv
  split
  · rfl
  · dsimp only
    split
    · exact (u.hubRecord _ _ _).trans (u.withHub s _)
    · split
      · exact (u.hubRecord _ _ _).trans (u.withHub s _)
      · exact u.withHub s _

theorem useAll (s : State) (p : Fin 16) (ids : List StreamId) : f (useAll s p ids) = f s := foldl (fun s id => u.useIv s p id) ids s

end Untold

/-- What the word in hand reads, and the launch of its unit, stand while others are told. -/
theorem untold_src : Untold State.src := by
  refine ⟨fun _ _ _ => rfl, fun _ _ _ => rfl, fun _ _ _ => rfl, fun _ _ => rfl, fun _ _ => rfl, fun s c l => ?_⟩
  simp only [State.src, State.ctx, State.cur, State.putCore, vput_get]
  split_ifs with h
  · subst h; cases s.fw <;> rfl
  · rfl

theorem untold_launch : Untold fun s => s.cur.ctl.launchid := by
  refine ⟨fun _ _ _ => rfl, fun _ _ _ => rfl, fun _ _ _ => rfl, fun _ _ => rfl, fun _ _ => rfl, fun s c l => ?_⟩
  simp only [State.cur, State.putCore, vput_get]
  split_ifs with h
  · subst h; rfl
  · rfl

/-! ### POST (R93) -/

section
variable {h : Head} {s u : State} {d a k : BitVec 5} {cl : Fin 64}

/-- R93: the streams that a POST uses on its way to a shard. -/
def postHops (u : State) (cl : Fin 64) : List StreamId := if cl = clusterOf u.core then [] else edgeHops u (clusterOf u.core) cl

/-- R93: what POST does once its shard is known. -/
theorem execPost_found (g : s.rp h.g = true) (hf : s.fw = false) (hk : k.toNat ≤ 2) (hwait : waitFault k (s.rs 8) = none)
    (hshard : postShard s (s.rs a) = (u, .ok cl)) (hroom : recordCount u (u.curPart.getD 0) < postLimit) (hst : (olderEnts u).any (·.st) = false) :
    execPost h d a k s =
      if !allOpen u (u.curPart.getD 0) (postHops u cl) then stall u
      else
        let v := useAll u (u.curPart.getD 0) (postHops u cl)
        .next (insertRec (modLaunch v (u.curPart.getD 0) v.cur.ctl.launchid fun e => { e with outstanding := e.outstanding + 1 }) cl
          ⟨u.curPart.getD 0, (v.rs d).setWidth 32, v.cur.ctl.launchid, Vector.ofFn fun i => (v.rs (BitVec.ofNat 5 (1 + i.val))).setWidth 16,
            true, false, k.setWidth 4, savedRegs v, k == 0, .waiting, none⟩) := by
  have hno : ¬(s.fw = true ∨ 2 < k.toNat) := by simp [hf]; omega
  have hroom' : ¬postLimit ≤ recordCount u (u.curPart.getD 0) := by omega
  simp only [execPost, guarded_true _ g, if_neg hno, hwait, hshard, hst, hroom', false_or, Bool.false_eq_true]
  rfl

end

/-! ### Handing units and resuming records (R252, R257, R258) -/

section
variable {s : State} {p : Fin 16} {c : Fin 512} {e : WinEnt} {r : CRec}

theorem execHandUnit_hands {j : Nat}
    (he : (s.aux[p].window.entries.find? fun z => z.st == .running && !z.cancelled && decide (z.handed < z.units)) = some e)
    (hc : nextCore s p = some (j, c)) :
    let t := modLaunch s p e.launch fun z => { z with handed := e.handed + 1, outstanding := z.outstanding + 1 }
    execHandUnit p s = .next (startUnit (modWindow t p fun y => { y with pointer := (j + 1) % (placeCores t p).length }) c p e 0
      (e.indexOf e.handed) none (BitVec.ofNat 32 e.handed)) := by
  simp only [execHandUnit, he, hc]

theorem execHandUnit_noCore (hc : nextCore s p = none) : execHandUnit p s = .next s := by
  unfold execHandUnit
  split
  · rfl
  · rw [hc]

theorem execResumeRecord_none (hp : s.partOf c = some p) (hr : readyRec s c p = none) : execResumeRecord c s = .next s := by
  simp only [execResumeRecord, hp, hr]

theorem execResumeRecord_resumes (hp : s.partOf c = some p) (hr : readyRec s c p = some r) (hfree : coreFree s c = true)
    (hfirst : ∀ b, b < c → clusterOf b = clusterOf c → coreFree s b = false) :
    let t := s.putCluster (clusterOf c) { s.clusters[clusterOf c] with shard := s.clusters[clusterOf c].shard.erase r }
    findLaunch t p r.launch = some e →
      execResumeRecord c s = .next (startUnit t c p e r.pkt r.index (some r.saved) (e.ordinal r.index)) := by
  intro t he
  have hlower : ((List.finRange 512).any fun b => clusterOf b == clusterOf c && decide (b < c) && coreFree s b) = false := by
    simp only [List.any_eq_false, Bool.and_eq_true, beq_iff_eq, decide_eq_true_eq, not_and]
    rintro b - ⟨hb, hlt⟩
    simp [hfirst b hlt hb]
  simp only [execResumeRecord, hp, hr, hlower, hfree, Bool.not_true, Bool.or_false, Bool.false_eq_true, if_false]
  rw [show findLaunch _ p r.launch = some e from he]

end

/-! ### Shards (R259, R260) -/

section
variable {s u : State} {cl : Fin 64} {i : Fin 1024} {r : CRec} {ov : List CRec}

theorem execOverflowRefill_room (h : s.clusters[cl].overflow = r :: ov) (hroom : s.clusters[cl].shard.length < 1024) :
    execOverflowRefill cl s =
      .next (s.putCluster cl { s.clusters[cl] with shard := s.clusters[cl].shard ++ [readRec s r], overflow := ov }) := by
  simp only [execOverflowRefill, h, if_pos hroom]

theorem execOverflowRefill_empty (h : s.clusters[cl].overflow = []) : execOverflowRefill cl s = .next s := by
  simp only [execOverflowRefill, h]

theorem execShardWatch_none (h : s.clusters[cl].shard[i.val]? = none) : execShardWatch cl i s = .next s := by
  simp only [execShardWatch, h]

theorem execShardWatch_ready (h : s.clusters[cl].shard[i.val]? = some r) (hr : r.ready = true) : execShardWatch cl i s = .next s := by
  simp only [execShardWatch, h, hr, if_true]

theorem execShardWatch_value {v : Word} (h : s.clusters[cl].shard[i.val]? = some r) (hr : r.ready = false)
    (hv : readWaitWord s cl r = (u, .ok v)) :
    execShardWatch cl i s = .next (putRec u cl i.val
      { r with ready := (if r.wkind = 1 then v != r.saved[2] else v == r.saved[2]), stage := .waiting }) := by
  simp only [execShardWatch, h, hr, hv, Bool.false_eq_true, if_false]

theorem execShardWatch_fault {k : Cause} (h : s.clusters[cl].shard[i.val]? = some r) (hr : r.ready = false)
    (hv : readWaitWord s cl r = (u, .fail k)) : execShardWatch cl i s = .next (failRec u cl i.val r k) := by
  simp only [execShardWatch, h, hr, hv, Bool.false_eq_true, if_false]

end

/-! ### Leases and issue (R240, R246) -/

section
variable {s : State} {p : Fin 16} {e : WinEnt} {o : Operand} {j : Nat}

theorem execLeaseGrant_none (h : askedOps s.aux[p].window = []) : execLeaseGrant p s = .next s := by
  simp only [execLeaseGrant, grantLeases, h, List.filter_nil, List.foldl_nil]

/-- R246: a request that is alone is decided. -/
theorem execLeaseGrant_one (h : askedOps s.aux[p].window = [(e.serial, j, o)])
    (hw : (s.aux[p].window.entries.any fun z => z.serial == e.serial && z.st == .waiting && !z.cancelled) = true) :
    execLeaseGrant p s = .next (noteLease (decideLease s p e.serial o).1 p e.serial j o (decideLease s p e.serial o).2) := by
  have hfirst : [(e.serial, j, o)].filter (firstAtDie [(e.serial, j, o)]) = [(e.serial, j, o)] := by simp [firstAtDie]
  simp only [execLeaseGrant, grantLeases, h, hfirst, List.foldl_cons, List.foldl_nil, hw, if_true]

theorem execIssueLaunch_some (h : (markReady s p).aux[p].window.entries.find?
      (fun z => z.st == .ready && !z.cancelled && decide (z.readyAt < s.clk)) = some e) :
    execIssueLaunch p s = .next (if ((markReady s p).aux[p].window.entries.filter fun z => z.st == .running).length < 8
      then issueEntry (markReady s p) p e else markReady s p) := by
  have hclk : (markReady s p).clk = s.clk := rfl
  simp only [execIssueLaunch, hclk, h]

theorem execIssueLaunch_none (h : (markReady s p).aux[p].window.entries.find?
      (fun z => z.st == .ready && !z.cancelled && decide (z.readyAt < s.clk)) = none) : execIssueLaunch p s = .next (markReady s p) := by
  have hclk : (markReady s p).clk = s.clk := rfl
  simp only [execIssueLaunch, hclk, h]

/-! ### Leaving the window (R248, R250, R255) -/

theorem execRetire_complete {rest : List WinEnt} (h : (modWindow s p settleWindow).aux[p].window.entries = e :: rest)
    (hst : e.st = .complete) (hc : e.cancelled = false) :
    execRetire p s = .next ((modWindow (removeEntry (modWindow (modWindow s p settleWindow) p fun y => commitVersions y e.serial) p e) p
      tidy).count (some p) 11 1) := by
  simp only [execRetire, retireOldest, h, hst, hc, and_self, if_true]

theorem execRetire_not {rest : List WinEnt} (h : (modWindow s p settleWindow).aux[p].window.entries = e :: rest)
    (hst : e.st ≠ .complete) : execRetire p s = .next (modWindow s p settleWindow) := by
  simp only [execRetire, retireOldest, h, hst, false_and, if_false]

theorem execFaultReport_report {rest : List WinEnt} (hs : s.aux[p].window.stop = none) (h : s.aux[p].window.entries = e :: rest)
    (hst : e.st = .faulted) (hc : e.cancelled = false) (hheld : s.parts[p].heldWindow = none) :
    execFaultReport p s = .next (reportFault s p e) := by
  simp only [execFaultReport, hs, h, hst, hc, hheld, and_self, if_true]

theorem execFaultReport_stop {x : WinStop} (hs : s.aux[p].window.stop = some x) (h : s.aux[p].window.entries = []) :
    execFaultReport p s = .next (stopAtFault s p x) := by
  simp only [execFaultReport, hs, h]

theorem execFaultReport_idle (hs : s.aux[p].window.stop = none) (h : s.aux[p].window.entries = []) : execFaultReport p s = .next s := by
  simp only [execFaultReport, hs, h]

theorem execCancel_one (h : leaving s.aux[p].window = [e]) : execCancel p s = .next (cancelEntry s p e) := by
  simp only [execCancel, h, List.foldl_cons, List.foldl_nil]

theorem execCancel_none (h : leaving s.aux[p].window = []) : execCancel p s = .next s := by
  simp only [execCancel, h, List.foldl_nil]

/-- R255 step 5: the entry leaves once what its units left has drained. -/
def leaveEntry (s : State) (p : Fin 16) (e : WinEnt) : State :=
  let gone := removeEntry (modWindow s p fun y => dropVersions y e.serial) p e
  if (modWindow s p fun y => dropVersions y e.serial).aux[p].window.stop.isSome then gone else modWindow gone p tidy

section
variable {t : State} (hd : dropSaved (dropRecords ((launchCores s p e.launch).foldl discardUnit s) p e.launch) p e.launch = t)
include hd

theorem cancelEntry_eq : cancelEntry s p e = if !(launchCores t p e.launch).isEmpty then t else leaveEntry t p e := by
  unfold cancelEntry leaveEntry
  dsimp only
  rw [hd]

theorem cancelEntry_waits (h : launchCores t p e.launch ≠ []) : cancelEntry s p e = t := by
  rw [cancelEntry_eq hd, if_pos (by simpa using h)]

theorem cancelEntry_leaves (h : launchCores t p e.launch = []) : cancelEntry s p e = leaveEntry t p e := by
  rw [cancelEntry_eq hd, if_neg (by simp [h])]

end

theorem modWindow_window (f : Window → Window) : (modWindow s p f).aux[p].window = f s.aux[p].window := by
  simp [modWindow, State.putAux]

theorem leaveEntry_eq (s : State) (p : Fin 16) (e : WinEnt) : leaveEntry s p e =
    if s.aux[p].window.stop = none then modWindow (removeEntry (modWindow s p fun y => dropVersions y e.serial) p e) p tidy
    else removeEntry (modWindow s p fun y => dropVersions y e.serial) p e := by
  have hstop : (modWindow s p fun y => dropVersions y e.serial).aux[p].window.stop = s.aux[p].window.stop := by
    rw [modWindow_window]; rfl
  rw [leaveEntry, hstop]
  cases s.aux[p].window.stop <;> simp

theorem leaving_cancelled {w : Window} (h : w.stop = none ∨ w.entries.length ≠ 1) : leaving w = w.entries.filter (·.cancelled) := by
  unfold leaving
  split
  next x z hs he => simp [hs, he] at h
  next => rfl

theorem leaving_alone {w : Window} {y : WinStop} (hs : w.stop = some y) (he : w.entries = [e]) : leaving w = [e] := by
  simp only [leaving, hs, he]

/-! ### Ramp windows (R265) -/

theorem execRampWindow_early {c : Fin 512} (h : s.clk < s.cores[c].ramp.due) : execRampWindow c s = .next s := by
  simp only [execRampWindow, if_pos h]

theorem execRampWindow_due {c : Fin 512} (h : s.cores[c].ramp.due ≤ s.clk) :
    execRampWindow c s = .next (s.putCore c { s.cores[c] with ramp :=
      ⟨nextAllow s s.cores[c], 0, false, s.clk + 1024 - (s.clk - s.cores[c].ramp.due) % 1024, s.cores[c].ctl.rampstep⟩ }) := by
  simp only [execRampWindow, if_neg (Nat.not_lt.2 h)]

end

/-- Settles O54: each clause is the lemma of its word or event. -/
theorem unitsAndLaunches : Obligations.UnitsAndLaunches := by
  intro s u h d a k c p cl i r e j rest v ov x o g w wait record posted ends q settled marked m sw
  refine ⟨?ends, ?doneStall, ?post, recOf_recBytes r, ?illegal, execDone_fw g, ?hand, execHandUnit_noCore, ?resume, execResumeRecord_none,
    execOverflowRefill_room, execOverflowRefill_empty, execShardWatch_value, execShardWatch_ready, ?watchFault, execShardWatch_none,
    execLeaseGrant_none, execLeaseGrant_one, execIssueLaunch_some, execIssueLaunch_none, execRetire_complete, execRetire_not,
    execFaultReport_report, execFaultReport_stop, execFaultReport_idle, ?cancel, execCancel_none, ?cancelled, ?alone, execRampWindow_early,
    ?ramp⟩
  case ends => exact fun hf hw => ⟨execDone_ends g hf hw, fun hk hwait => execSuspend_ends g hf hk hwait hw⟩
  case doneStall => exact execDone_stall g
  case post =>
    intro hf hk hwait hshard hroom hst hpart hcur hsrc hcore ids
    have hq : u.curPart.getD 0 = q := by rw [hpart]
    have hids : postHops u cl = ids := by rw [postHops, hcore]
    have hpost := execPost_found (d := d) g hf hk hwait hshard (by rwa [hq]) hst
    rw [hq, hids] at hpost
    refine ⟨fun hopen => ?opened, fun hopen => ?shut⟩
    case shut => exact hpost.trans (if_pos (by simp [hopen]))
    case opened =>
      have hsrc' : (useAll u q ids).src = s.src := (untold_src.useAll u q ids).trans hsrc
      have hrs (n : BitVec 5) : (useAll u q ids).rs n = s.rs n := by rw [State.rs, hsrc', ← State.rs]
      have hlaunch : (useAll u q ids).cur.ctl.launchid = s.cur.ctl.launchid := by rw [untold_launch.useAll u q ids, hcur]
      refine (hpost.trans (if_neg (by simp [hopen]))).trans ?_
      simp only [hlaunch, hrs, savedRegs]
      rfl
  case illegal => exact fun hk => ⟨execSuspend_illegal g hk, execPost_illegal g d a hk⟩
  case hand => exact fun he hc => execHandUnit_hands he hc
  case resume => exact fun hp hr hfree hfirst => execResumeRecord_resumes hp hr hfree hfirst
  case watchFault => exact fun k => execShardWatch_fault
  case cancel =>
    intro hl
    generalize hd : dropSaved (dropRecords ((launchCores s p e.launch).foldl discardUnit s) p e.launch) p e.launch = t
    refine ⟨fun ht => ?_, fun ht => ?_⟩
    · exact (execCancel_one hl).trans (congrArg Host.Outcome.next ((cancelEntry_leaves hd ht).trans (leaveEntry_eq t p e)))
    · exact (execCancel_one hl).trans (congrArg Host.Outcome.next (cancelEntry_waits hd ht))
  case cancelled => exact fun es hs hes => (leaving_cancelled hs).trans hes
  case alone => exact fun y => leaving_alone
  case ramp =>
    intro h
    exact ⟨_, execRampWindow_due h, ⟨fun _ => rfl, rfl⟩, by simp⟩

end Sys2Proof.Machine
end

section
/-! PROOFS. Every step keeps the memory in its canonical form: one lemma for each function that answers a state, in the order of the model's
files, each by the cases of the function and from the lemmas of what it calls. The stores of Laws/Memory are where the memory changes; all
else leaves it alone or goes through them. -/

namespace Sys2Proof.Machine

/-! ### The canonical form of what a function answers -/

/-- The form is one of the memory alone: the other fields may be set to anything. -/
theorem update_memWf {s : State} {cores : Vector Core 512} {clusters : Vector Cluster 64} {dies : Vector Die 4} {parts : Vector Part 16}
    {aux : Vector PartAux 16} {hub : Hub} {fabric : Fabric} {pf : Pf} {caps : List Nat} {core : Fin 512} {fw : Bool} {part : Fin 16}
    {turn : Turn} {inbox : List Input} {snap : Option Regs} {mark : Mark} {since : Nat} {redirect : Option Redirect} {word last : Nat}
    {iword : BitVec 32} {serial tick clk free : Nat} (h : s.memWf) :
    State.memWf ⟨cores, clusters, dies, parts, aux, hub, fabric, pf, s.mem, caps, core, fw, part, turn, inbox, snap, mark, since, redirect,
      word, last, iword, serial, tick, clk, free⟩ := h

/-- The state that a step goes on with has its memory in canonical form. -/
inductive OutWf : Out → Prop
  | next {t : State} (h : t.memWf) : OutWf (.next t)
  | fault {f : Fault} : OutWf (.fault f)
  | refused {r : Refusal} : OutWf (.refused r)

/-- An optional state, if there is one, has its memory in canonical form. -/
inductive OptWf : Option State → Prop
  | none : OptWf .none
  | some {t : State} (h : t.memWf) : OptWf (.some t)

/-- A state that comes with something more. -/
def FstWf {α : Type} (x : State × α) : Prop := x.1.memWf

/-- A state that comes second. -/
def SndWf {α : Type} (x : α × State) : Prop := x.2.memWf

/-- An optional state that comes with something more. -/
inductive OptFstWf {α : Type} : Option (State × α) → Prop
  | none : OptFstWf .none
  | some {x : State × α} (h : FstWf x) : OptFstWf (.some x)

/-- The state of a success. -/
inductive ExWf {ε : Type} : Except ε State → Prop
  | ok {t : State} (h : t.memWf) : ExWf (.ok t)
  | error {e : ε} : ExWf (.error e)

/-- The state of a success that brings something more. -/
inductive ExFstWf {ε α : Type} : Except ε (State × α) → Prop
  | ok {x : State × α} (h : FstWf x) : ExFstWf (.ok x)
  | error {e : ε} : ExFstWf (.error e)

/-- The state of an answer. -/
inductive ResWf : Res State → Prop
  | ok {t : State} (h : t.memWf) : ResWf (.ok t)
  | fail {k : Cause} : ResWf (.fail k)
  | wait : ResWf .wait

/-- The state of an answer that brings something more. -/
inductive ResFstWf {α : Type} : Res (State × α) → Prop
  | ok {x : State × α} (h : FstWf x) : ResFstWf (.ok x)
  | fail {k : Cause} : ResFstWf (.fail k)
  | wait : ResFstWf .wait

/-- A state and the one that its answer brings. -/
structure BothWf (x : State × Res State) : Prop where
  fst : x.1.memWf
  snd : ResWf x.2

theorem fstWf_mk {α : Type} {t : State} {a : α} (h : t.memWf) : FstWf (t, a) := h
theorem sndWf_mk {α : Type} {t : State} {a : α} (h : t.memWf) : SndWf (a, t) := h

theorem OutWf.of_eq {x : Out} {t : State} (h : OutWf x) (e : x = .next t) : t.memWf := by
  subst e
  cases h
  assumption

theorem OptWf.of_eq {x : Option State} {t : State} (h : OptWf x) (e : x = .some t) : t.memWf := by
  subst e
  cases h
  assumption

theorem FstWf.of_eq {α : Type} {x : State × α} {t : State} {a : α} (h : FstWf x) (e : x = (t, a)) : t.memWf := by
  subst e
  exact h

theorem SndWf.of_eq {α : Type} {x : α × State} {t : State} {a : α} (h : SndWf x) (e : x = (a, t)) : t.memWf := by
  subst e
  exact h

theorem OptFstWf.of_eq {α : Type} {x : Option (State × α)} {t : State} {a : α} (h : OptFstWf x) (e : x = .some (t, a)) : t.memWf := by
  subst e
  cases h
  assumption

theorem ExWf.of_eq {ε : Type} {x : Except ε State} {t : State} (h : ExWf x) (e : x = .ok t) : t.memWf := by
  subst e
  cases h
  assumption

theorem ExFstWf.of_eq {ε α : Type} {x : Except ε (State × α)} {t : State} {a : α} (h : ExFstWf x) (e : x = .ok (t, a)) : t.memWf := by
  subst e
  cases h
  assumption

theorem ResWf.of_eq {x : Res State} {t : State} (h : ResWf x) (e : x = .ok t) : t.memWf := by
  subst e
  cases h
  assumption

theorem ResFstWf.of_eq {α : Type} {x : Res (State × α)} {t : State} {a : α} (h : ResFstWf x) (e : x = .ok (t, a)) : t.memWf := by
  subst e
  cases h
  assumption

theorem OptWf.getD {x : Option State} {s : State} (h : OptWf x) (hs : s.memWf) : (x.getD s).memWf := by
  cases h with
  | none => exact hs
  | some h => exact h

theorem ite_wf {α : Sort*} {P : α → Prop} {c : Prop} [Decidable c] {a b : α} (ha : P a) (hb : P b) : P (if c then a else b) := by
  split
  · exact ha
  · exact hb

theorem dite_wf {α : Sort*} {P : α → Prop} {c : Prop} [Decidable c] {a : c → α} {b : ¬ c → α} (ha : ∀ h, P (a h)) (hb : ∀ h, P (b h)) :
    P (if h : c then a h else b h) := by
  split
  · exact ha _
  · exact hb _

theorem optMap_wf {α β : Type} {P : Option β → Prop} {f : α → β} {o : Option α} (hn : P none) (hs : ∀ a, o = some a → P (some (f a))) :
    P (o.map f) := by
  cases o with
  | none => exact hn
  | some a => exact hs a rfl

theorem optBind_wf {α β : Type} {P : Option β → Prop} {f : α → Option β} {o : Option α} (hn : P none)
    (hs : ∀ a, o = some a → P (f a)) : P (o.bind f) := by
  cases o with
  | none => exact hn
  | some a => exact hs a rfl

theorem exMap_wf {ε α β : Type} {P : Except ε β → Prop} {f : α → β} {x : Except ε α} (he : ∀ c, P (.error c))
    (ho : ∀ a, x = .ok a → P (.ok (f a))) : P (x.map f) := by
  cases x with
  | error c => exact he c
  | ok a => exact ho a rfl

theorem findSome_wf {α β : Type} {P : Option β → Prop} {f : α → Option β} {l : List α} (hn : P none) (hs : ∀ a ∈ l, P (f a)) :
    P (l.findSome? f) := by
  induction l with
  | nil => exact hn
  | cons a l ih =>
    rw [List.findSome?_cons]
    split
    next e => exact e ▸ hs a List.mem_cons_self
    next => exact ih fun b hb => hs b (List.mem_cons_of_mem a hb)

theorem tries_nil : ∀ f ∈ ([] : List (Unit → Option State)), OptWf (f ()) := by simp

theorem tries_cons {f : Unit → Option State} {l : List (Unit → Option State)} (hf : OptWf (f ())) (hl : ∀ g ∈ l, OptWf (g ())) :
    ∀ g ∈ f :: l, OptWf (g ()) := List.forall_mem_cons.2 ⟨hf, hl⟩

theorem foldl_wf {α β : Type} {P : α → Prop} {f : α → β → α} {l : List β} {a : α} (h : P a) (hf : ∀ a x, P a → P (f a x)) :
    P (l.foldl f a) := by
  induction l generalizing a with
  | nil => exact h
  | cons x l ih => exact ih (hf a x h)

theorem foldlM_wf {ε β : Type} {f : State → β → Except ε State} {l : List β} {s : State} (h : s.memWf)
    (hf : ∀ t x, t.memWf → ExWf (f t x)) : ExWf (l.foldlM f s) := by
  induction l generalizing s with
  | nil => exact .ok h
  | cons x l ih =>
    rw [List.foldlM_cons]
    have hx := hf s x h
    cases hs : f s x with
    | error c => exact .error
    | ok t => exact ih (hx.of_eq hs)

theorem optFoldlM_wf {α β : Type} {P : Option α → Prop} {f : α → β → Option α} {l : List β} {a : α} (hn : P none) (h : P (some a))
    (hf : ∀ a x, P (some a) → P (f a x)) : P (l.foldlM f a) := by
  induction l generalizing a with
  | nil => exact h
  | cons x l ih =>
    rw [List.foldlM_cons]
    have hx := hf a x h
    cases hs : f a x with
    | none => exact hn
    | some b => exact ih (hs ▸ hx)

variable {s t : State}

/-! ### Registers and guards (R17, R56) -/

theorem putCore_memWf {i : Fin 512} {c : Core} (h : s.memWf) : (s.putCore i c).memWf := update_memWf h

theorem setCur_memWf {c : Core} (h : s.memWf) : (s.setCur c).memWf := putCore_memWf h

theorem setCtx_memWf {x : Ctx} (h : s.memWf) : (s.setCtx x).memWf := setCur_memWf h

theorem putPart_memWf {i : Fin 16} {p : Part} (h : s.memWf) : (s.putPart i p).memWf := update_memWf h

theorem putAux_memWf {i : Fin 16} {p : PartAux} (h : s.memWf) : (s.putAux i p).memWf := update_memWf h

theorem putCluster_memWf {i : Fin 64} {c : Cluster} (h : s.memWf) : (s.putCluster i c).memWf := update_memWf h

theorem putDie_memWf {i : Fin 4} {d : Die} (h : s.memWf) : (s.putDie i d).memWf := update_memWf h

theorem count_memWf {p : Option (Fin 16)} {i : Fin 16} {n : Nat} (h : s.memWf) : (s.count p i n).memWf := by
  unfold State.count
  dsimp only
  split
  · exact putAux_memWf h
  · exact h

theorem setRegs_memWf {r : Regs} (h : s.memWf) : (s.setRegs r).memWf := setCtx_memWf h

theorem wrS_memWf {i : BitVec 5} {x : Word} (h : s.memWf) : (s.wrS i x).memWf := setRegs_memWf h

theorem wrP_memWf {i : BitVec 3} {x : Bool} (h : s.memWf) : (s.wrP i x).memWf := setRegs_memWf h

theorem wrV_memWf {i : BitVec 5} {x : Vec} (h : s.memWf) : (s.wrV i x).memWf := setRegs_memWf h

theorem wrA_memWf {i : BitVec 4} {x : Acc} (h : s.memWf) : (s.wrA i x).memWf := setRegs_memWf h

theorem guarded_memWf {hd : Head} {f : State → Out} (h : s.memWf) (hf : ∀ (t : State), t.memWf → OutWf (f t)) : OutWf (guarded hd s f) :=
  ite_wf (hf _ h) (OutWf.next h)

/-! ### Writes to protected memory (R330 to R342) -/

theorem sweepPage_memWf {d : Fin 4} {page : Nat} {k : MemKey} {block : Nat} (h : s.memWf) : (sweepPage s d page k block).memWf := by
  unfold sweepPage
  dsimp only
  split
  · exact h
  · split
    · exact ite_wf h (putDie_memWf h)
    · exact h

theorem advanceBlock_memWf {d : Fin 4} {block : Nat} {k : MemKey} {va : Word} (h : s.memWf) : ExWf (advanceBlock s d block k va) := by
  unfold advanceBlock
  dsimp only
  split
  · exact ExWf.error
  · exact ite_wf (ExWf.ok (putDie_memWf h)) (ite_wf ExWf.error (ite_wf (ExWf.ok (putDie_memWf h)) ExWf.error))

theorem writeBlock_memWf {d : Fin 4} {p block : Nat} {full : Bool} {k : MemKey} (h : s.memWf) : ExWf (writeBlock s d p block full k) :=
  ite_wf (advanceBlock_memWf (sweepPage_memWf h)) ExWf.error

theorem hbmRuns_memWf {d : Fin 4} {p : Nat} {runs : List (Nat × List Byte)} {k : MemKey} (h : s.memWf) : ExWf (hbmRuns s d p runs k) := by
  unfold hbmRuns
  refine ite_wf ExWf.error ?_
  dsimp only
  split
  · exact ExWf.error
  · refine ite_wf (ite_wf ExWf.error (ExWf.ok (foldl_wf (putDie_memWf h) (fun _ _ ht => store_memWf _ _ ht)))) ?_
    split
    next e => exact ExWf.ok (foldl_wf (ExWf.of_eq (foldlM_wf h (fun _ _ ht' => writeBlock_memWf ht')) e) (fun _ _ ht'' => store_memWf _ _ ht''))
    · exact ExWf.error

theorem hbmWrite_memWf {d : Fin 4} {p : Nat} {bs : List Byte} {k : MemKey} (h : s.memWf) : ExWf (hbmWrite s d p bs k) := hbmRuns_memWf h

theorem devWrite_memWf {flat : Nat} {bs : List Byte} (h : s.memWf) : (devWrite s flat bs).memWf := by
  unfold devWrite
  dsimp only
  split
  next e => exact (hbmWrite_memWf h).of_eq e
  · exact h

/-! ### Events, fault records and interrupts (R321 to R323, R374, R392, R407) -/

theorem pfRaise_memWf {v : Fin 8} (h : s.memWf) : (pfRaise s v).memWf := ite_wf (update_memWf h) (update_memWf h)

theorem vfRaise_memWf {p : Fin 16} {v : Fin 64} (h : s.memWf) : (vfRaise s p v).memWf := ite_wf (putAux_memWf h) (update_memWf h)

theorem enterEvent_memWf {c : Fin 512} {e : EventRec} (h : s.memWf) : (enterEvent s c e).memWf := storeNat_memWf _ _ _ (store_memWf _ _ h)

theorem deliver_memWf {c : Fin 512} {e : EventRec} (h : s.memWf) : (deliver s c e).memWf := ite_wf (enterEvent_memWf h) (putCore_memWf h)

theorem deliverFirst_memWf {c : Fin 512} {e : EventRec} (h : s.memWf) : (deliverFirst s c e).memWf := by
  unfold deliverFirst
  exact ite_wf (enterEvent_memWf h) (putCore_memWf h)

theorem pumpEvents_memWf {n : Nat} {c : Fin 512} (h : s.memWf) : (pumpEvents n s c).memWf := by
  induction n generalizing s with
  | zero => exact h
  | succ n ih =>
    unfold pumpEvents
    split
    · exact h
    · exact ite_wf (ih (enterEvent_memWf (putCore_memWf h))) h

theorem afterWorkStore_memWf {old : State} {c : Fin 512} (hs : s.memWf) : (afterWorkStore old s c).memWf := by
  unfold afterWorkStore
  exact ite_wf hs (ite_wf (pumpEvents_memWf hs) (storeNat_memWf _ _ _ hs))

theorem tell_memWf {p : Fin 16} {kind : BitVec 8} {arg0 arg1 : Word} (h : s.memWf) : (tell s p kind arg0 arg1).memWf := deliver_memWf h

theorem enterRecord_memWf {p : Fin 16} {r : FaultRec} (h : s.memWf) : (enterRecord s p r).memWf :=
  tell_memWf (putPart_memWf (devWrite_memWf h))

theorem trapEvent_memWf {c : Fin 512} (h : s.memWf) : (trapEvent s c).memWf := deliver_memWf h

theorem unitRecord_memWf {c : Fin 512} {r : FaultRec} (h : s.memWf) : (unitRecord s c r).memWf := by
  unfold unitRecord
  dsimp only
  split
  · exact trapEvent_memWf h
  · exact ite_wf (putCore_memWf h) (trapEvent_memWf (enterRecord_memWf h))

theorem frontRecord_memWf {p : Fin 16} {r : FaultRec} (h : s.memWf) : (frontRecord s p r).memWf :=
  ite_wf (putPart_memWf h) (enterRecord_memWf h)

theorem windowRecord_memWf {p : Fin 16} {r : FaultRec} (h : s.memWf) : (windowRecord s p r).memWf :=
  ite_wf (putPart_memWf h) (enterRecord_memWf h)

theorem dropExpired_memWf {p : Fin 16} {addr : Word} (h : s.memWf) : (dropExpired s p addr).memWf := by
  unfold dropExpired
  dsimp only
  split
  · exact update_memWf h
  · exact h

theorem hubEntered_memWf {p : Fin 16} {r : FaultRec} (h : s.memWf) : (hubEntered s p r).memWf := ite_wf (dropExpired_memWf h) h

theorem hubRecord_memWf {p : Fin 16} {r : FaultRec} (h : s.memWf) : (hubRecord s p r).memWf :=
  ite_wf (putPart_memWf h) (hubEntered_memWf (enterRecord_memWf h))

theorem poisonFullPage_memWf {d : Fin 4} {block : Nat} (h : s.memWf) : (poisonFullPage s d block).memWf := by
  unfold poisonFullPage
  refine ite_wf h ?_
  dsimp only
  split
  · exact hubRecord_memWf (putDie_memWf h)
  · exact putDie_memWf h

theorem hbmFail_memWf {d : Fin 4} {p n : Nat} (h : s.memWf) : (hbmFail s d p n).memWf := foldl_wf h (fun _ _ ht => poisonFullPage_memWf ht)

/-- One step of a structural recursion on a number. Lean's own equation for `releaseHeld` and `releaseHolds` would evaluate the list of all cores
and that of all held stores, which their bodies match on; with this step the two sides of the equation are the same body. -/
theorem brecOn_succ {α : Sort*} (F : ∀ n, Nat.below (motive := fun _ => α) n → α) (n : Nat) :
    Nat.brecOn (motive := fun _ => α) (n + 1) F = F (n + 1) ⟨Nat.brecOn n F, (Nat.brecOn.go n F).2⟩ := rfl

/-- R323: one held record enters, and then the rest. -/
theorem releaseHeld_succ (n : Nat) (s : State) (p : Fin 16) : releaseHeld (n + 1) s p =
    if faultFull s p then s
    else match holdingCores s p with
      | c :: _ =>
        match s.cores[c].heldRec with
        | some r => releaseHeld n (trapEvent (enterRecord (s.putCore c { s.cores[c] with heldRec := none }) p r) c) p
        | none => s
      | [] =>
        match s.parts[p].heldFront, s.parts[p].heldWindow, s.parts[p].heldHub with
        | some r, _, _ => releaseHeld n (enterRecord (s.putPart p { s.parts[p] with heldFront := none }) p r) p
        | none, some r, _ => releaseHeld n (enterRecord (s.putPart p { s.parts[p] with heldWindow := none }) p r) p
        | none, none, r :: rest =>
          releaseHeld n (hubEntered (enterRecord (s.putPart p { s.parts[p] with heldHub := rest }) p r) p r) p
        | none, none, [] => s := by
  delta releaseHeld
  rewrite [brecOn_succ]
  with_reducible_and_instances rfl

theorem releaseHeld_memWf {n : Nat} {p : Fin 16} (h : s.memWf) : (releaseHeld n s p).memWf := by
  induction n generalizing s with
  | zero => exact h
  | succ n ih =>
    rw [releaseHeld_succ]
    refine ite_wf h ?_
    split
    · split
      · exact ih (trapEvent_memWf (enterRecord_memWf (putCore_memWf h)))
      · exact h
    · split
      · exact ih (enterRecord_memWf (putPart_memWf h))
      · exact ih (enterRecord_memWf (putPart_memWf h))
      · exact ih (hubEntered_memWf (enterRecord_memWf (putPart_memWf h)))
      · exact h

theorem enterLog_memWf {r : FaultRec} (h : s.memWf) : (enterLog s r).memWf := pfRaise_memWf (update_memWf (store_memWf _ _ h))

theorem logRecord_memWf {r : FaultRec} (h : s.memWf) : (logRecord s r).memWf :=
  ite_wf (enterLog_memWf h) (ite_wf (update_memWf h) (ite_wf h (update_memWf h)))

theorem releaseLog_memWf {n : Nat} (h : s.memWf) : (releaseLog n s).memWf := by
  induction n generalizing s with
  | zero => exact h
  | succ n ih =>
    unfold releaseLog
    split
    · exact h
    · exact ite_wf (ih (enterLog_memWf (update_memWf h))) h

theorem cancelWindow_memWf {p : Fin 16} (h : s.memWf) : (cancelWindow s p).memWf := putAux_memWf h

theorem tdiToError_memWf {p : Fin 16} (h : s.memWf) : (tdiToError s p).memWf :=
  ite_wf (ite_wf (cancelWindow_memWf (putPart_memWf h)) (vfRaise_memWf (putAux_memWf (cancelWindow_memWf (putPart_memWf h))))) h

/-! ### Translation, and global memory through it (R302 to R306) -/

theorem fillSlice_memWf {d i : Fin 4} {l2 : Bool} {t : TlbEnt} (h : s.memWf) : (fillSlice s d i l2 t).memWf := putDie_memWf h

theorem reportAbsent_memWf {d : Fin 4} {p : Fin 16} {va : Word} {size : BitVec 2} (h : s.memWf) : (reportAbsent s d p va size).memWf :=
  ite_wf h (tell_memWf (putDie_memWf h))

theorem reportBad_memWf {d : Fin 4} {p : Fin 16} {table : Nat} (h : s.memWf) : (reportBad s d p table).memWf :=
  logRecord_memWf (tell_memWf h)

theorem translateUnit_memWf {p : Fin 16} {va : Word} {write : Bool} (h : s.memWf) : FstWf (translateUnit s p va write) := by
  unfold translateUnit
  refine ite_wf h ?_
  dsimp only
  split
  · exact ite_wf h h
  · split
    · exact ite_wf (fillSlice_memWf h) (fillSlice_memWf h)
    · split
      · exact ite_wf (fillSlice_memWf h) (fillSlice_memWf h)
      · split
        · exact ite_wf (fillSlice_memWf h) (fillSlice_memWf h)
        · exact reportAbsent_memWf h
        · exact reportBad_memWf h
        · exact h

theorem translate_memWf {fw : Bool} {p : Option (Fin 16)} {va : Word} {write : Bool} (h : s.memWf) : FstWf (translate s fw p va write) := by
  unfold translate
  refine ite_wf ?_ ?_
  · split <;> exact h
  · split
    · exact translateUnit_memWf h
    · exact h

theorem pinVa_memWf {p : Fin 16} {va : Word} (h : s.memWf) : OptWf (pinVa s p va) := by
  unfold pinVa
  dsimp only
  split
  · exact ite_wf (OptWf.some (fillSlice_memWf h)) OptWf.none
  · exact OptWf.some h

theorem translatePin_memWf {fw : Bool} {p : Option (Fin 16)} {va : Word} {write : Bool} (h : s.memWf) :
    FstWf (translatePin s fw p va write) := by
  unfold translatePin
  split
  next e =>
    have hu := (translate_memWf h).of_eq e
    split
    next e' => exact (pinVa_memWf hu).of_eq e'
    · exact hu
  · exact translate_memWf h

theorem globRead_memWf {fw : Bool} {p : Option (Fin 16)} {va : Word} {n : Nat} (h : s.memWf) : FstWf (globRead s fw p va n) := by
  unfold globRead
  refine foldl_wf h fun _ _ ht => ?_
  split
  · split
    next e =>
      have hu := (translate_memWf ht).of_eq e
      split <;> exact hu
    next e' => exact (translate_memWf ht).of_eq e'
    next e'' => exact (translate_memWf ht).of_eq e''
  · exact ht

theorem globXlate_memWf {fw : Bool} {p : Option (Fin 16)} {va : Word} {n : Nat} {write : Bool} (h : s.memWf) :
    FstWf (globXlate s fw p va n write) := by
  unfold globXlate
  refine foldl_wf h fun _ _ ht => ?_
  split
  · split
    next e => exact (translate_memWf ht).of_eq e
    next e' => exact (translate_memWf ht).of_eq e'
    next e'' => exact (translate_memWf ht).of_eq e''
  · exact ht

theorem globWrite_memWf {fw : Bool} {p : Option (Fin 16)} {va : Word} {bs : List Byte} (h : s.memWf) : FstWf (globWrite s fw p va bs) := by
  unfold globWrite
  split
  next e => exact (globXlate_memWf h).of_eq e
  next e' => exact (globXlate_memWf h).of_eq e'
  next e'' =>
    have hu := (globXlate_memWf h).of_eq e''
    split
    next e3 => exact ExWf.of_eq (foldlM_wf hu (fun _ _ ht => hbmWrite_memWf ht)) e3
    · exact fstWf_mk (foldl_wf hu (fun _ _ ht' => hbmFail_memWf ht'))

/-! ### Barrier objects (R155 to R159) -/

theorem putBar_memWf {c : Fin 512} {fw : Bool} {n : Nat} {b : Bar} (h : s.memWf) : (putBar s c fw n b).memWf := storeNat_memWf _ _ _ h

theorem markBar_memWf {c : Fin 512} {fw : Bool} {n : Nat} {x : BarSource} (h : s.memWf) : (markBar s c fw n x).memWf := putCore_memWf h

theorem barEvent_memWf {c : Fin 512} {fw : Bool} {n : Nat} {x : BarSource} {f : Bar → Bar} (h : s.memWf) : (barEvent s c fw n x f).memWf :=
  putBar_memWf (markBar_memWf h)

theorem credit_memWf {c : Fin 512} {fw : Bool} {n : Option (BitVec 11)} {x : BarSource} {bytes : Nat} (h : s.memWf) :
    (credit s c fw n x bytes).memWf := by
  unfold credit
  split
  · exact barEvent_memWf h
  · exact h

theorem squash_memWf {c : Fin 512} {fw : Bool} {n : Option (BitVec 11)} {x : BarSource} {bytes : Nat} (h : s.memWf) :
    (squash s c fw n x bytes).memWf := by
  unfold squash
  split
  · exact barEvent_memWf h
  · exact h

/-! ### The entries of the queues (R79, R200) -/

theorem pushEnt_memWf {e : QEnt} (h : s.memWf) : (pushEnt s e).memWf := update_memWf (setCtx_memWf h)

theorem stall_memWf (h : s.memWf) : OutWf (stall s) := OutWf.next (update_memWf h)

theorem stallAsk_memWf {va : Word} (h : s.memWf) : OutWf (stallAsk s va) := OutWf.next (update_memWf (setCur_memWf h))

/-! ### Messages to other packages (R356 to R359) and tokens (R82, R83) -/

theorem useIv_memWf {p : Fin 16} {id : StreamId} (h : s.memWf) : (useIv s p id).memWf :=
  ite_wf h (ite_wf (hubRecord_memWf (update_memWf h)) (ite_wf (hubRecord_memWf (update_memWf h)) (update_memWf h)))

theorem sendFor_memWf {p : Option (Fin 16)} {edge : Option (Fin 64)} {m : Msg} (h : s.memWf) : (sendFor s p edge m).memWf := update_memWf h

theorem send_memWf {p : Fin 16} {m : Msg} (h : s.memWf) : (send s p m).memWf := sendFor_memWf h

theorem modAsks_memWf {p : Fin 16} {f : List HubAsk → List HubAsk} (h : s.memWf) : (modAsks s p f).memWf := putAux_memWf h

theorem dropAsks_memWf {p : Fin 16} {key : Nat} (h : s.memWf) : (dropAsks s p key).memWf := ite_wf h (modAsks_memWf h)

theorem putAsk_memWf {p : Fin 16} {a : HubAsk} (h : s.memWf) : (putAsk s p a).memWf := modAsks_memWf h

theorem askNext_memWf {p : Fin 16} {a : HubAsk} (h : s.memWf) : (askNext s p a).memWf := send_memWf (putAsk_memWf h)

theorem hubRead_memWf {p : Fin 16} {key : Nat} {va : Word} {n : Nat} (h : s.memWf) : FstWf (hubRead s p key va n) := by
  unfold hubRead
  dsimp only
  split
  · exact ite_wf h (askNext_memWf h)
  · split
    · exact ite_wf (askNext_memWf h) (putAsk_memWf h)
    · exact ite_wf h h
    · exact dropAsks_memWf h
    · exact h
    · exact h

theorem toHub_memWf {p : Fin 16} {reads : Option Bool} {addr : Word} {st : Stage} (h : s.memWf) : OptWf (toHub s p reads addr st) :=
  optMap_wf OptWf.none (fun _ _ => OptWf.some (putAsk_memWf h))

theorem settleHold_memWf {c : Fin 512} (h : s.memWf) : (settleHold s c).memWf := by
  unfold settleHold
  dsimp only
  split
  · exact ite_wf (count_memWf (putCore_memWf h)) h
  · exact h

theorem landToken_memWf {c : Fin 512} {t : BitVec 16} (h : s.memWf) : (landToken s c t).memWf := by
  unfold landToken
  dsimp only
  split
  · exact h
  · exact settleHold_memWf (ite_wf (putCore_memWf h) (foldl_wf (putCore_memWf h) (fun _ _ ht => send_memWf ht)))

theorem freeNotified_memWf {c : Fin 512} {t : BitVec 16} (h : s.memWf) : (freeNotified s c t).memWf := by
  unfold freeNotified
  dsimp only
  split
  · exact ite_wf (putCore_memWf h) h
  · exact h

theorem useAll_memWf {p : Fin 16} {ids : List StreamId} (h : s.memWf) : (useAll s p ids).memWf := foldl_wf h (fun _ _ ht => useIv_memWf ht)

theorem sealCross_memWf {p : Option (Fin 16)} {src dst : Fin 64} (h : s.memWf) : (sealCross s p src dst).memWf := by
  unfold sealCross
  split
  · exact useAll_memWf h
  · exact h

theorem noteSent_memWf {o : OutMsg} {m : Msg} (h : s.memWf) : (noteSent s o m).memWf := by
  unfold noteSent
  dsimp only
  split
  · exact ite_wf (update_memWf h) h
  · exact h

theorem noteAnswer_memWf {p : Fin 16} {a : Msg} (h : s.memWf) : (noteAnswer s p a).memWf := by
  unfold noteAnswer
  dsimp only
  split
  · exact update_memWf h
  · exact h

theorem countSent_memWf {m : OutMsg} (h : s.memWf) : (countSent s m).memWf := ite_wf h (count_memWf h)

theorem leaveOn_memWf {m : OutMsg} {k : Fin 6} {rest : List OutMsg} (h : s.memWf) : (leaveOn s m k rest).memWf := by
  unfold leaveOn
  refine ite_wf ?_ ?_
  · refine freeNotified_memWf ?_
    refine noteSent_memWf ?_
    dsimp only
    split
    · exact useAll_memWf (update_memWf (countSent_memWf h))
    · exact update_memWf (countSent_memWf h)
  · refine noteSent_memWf ?_
    dsimp only
    split
    · exact useAll_memWf (update_memWf (countSent_memWf h))
    · exact update_memWf (countSent_memWf h)

theorem flushFrom_memWf {l kept : List OutMsg} (h : s.memWf) : (flushFrom l s kept).memWf := by
  induction l generalizing s kept with
  | nil => exact update_memWf h
  | cons m l ih =>
    unfold flushFrom
    dsimp only
    split
    · exact ih h
    · exact ih (leaveOn_memWf h)

theorem flushOut_memWf (h : s.memWf) : (flushOut s).memWf := flushFrom_memWf h

/-! ### Performing the entries of the queues (R77 to R81, R199 to R201) -/

theorem clearGaps_memWf {a n : Nat} (h : s.memWf) : (clearGaps s a n).memWf := ite_wf (foldl_wf h (fun _ _ ht => zero_memWf _ _ ht)) h

theorem targetWrite_memWf {t : Target} {bs : List Byte} (h : s.memWf) : ExWf (targetWrite s t bs) := by
  unfold targetWrite
  split
  · exact ExWf.ok (clearGaps_memWf (store_memWf _ _ h))
  · exact hbmWrite_memWf h

theorem targetRuns_memWf {t : Target} {runs : List (Nat × List Byte)} (h : s.memWf) : ExWf (targetRuns s t runs) := by
  unfold targetRuns
  split
  · exact ExWf.ok (foldl_wf h (fun _ _ ht => clearGaps_memWf (store_memWf _ _ ht)))
  · exact hbmRuns_memWf h

theorem targetCap_memWf {t : Target} {bs : List Byte} (h : s.memWf) : ExWf (targetCap s t bs) := by
  unfold targetCap
  split
  next e => exact ExWf.ok (storeCap_memWf _ _ ((targetWrite_memWf h).of_eq e))
  · exact ExWf.error

theorem writtenTm_memWf {old : State} {c : Fin 512} {fw : Bool} {t : Target} (hs : s.memWf) : (writtenTm old s c fw t).memWf := by
  unfold writtenTm
  split
  · exact ite_wf (afterWorkStore_memWf hs) hs
  · exact hs

theorem putEnt_memWf {c : Fin 512} {fw : Bool} {e : QEnt} (h : s.memWf) : (putEnt s c fw e).memWf := putCore_memWf h

theorem dropEnt_memWf {c : Fin 512} {fw : Bool} {id : Nat} (h : s.memWf) : (dropEnt s c fw id).memWf := putCore_memWf h

theorem modRegs_memWf {c : Fin 512} {fw : Bool} {f : Regs → Regs} (h : s.memWf) : (modRegs s c fw f).memWf := putCore_memWf h

theorem QEnt.result_memWf {e : QEnt} {c : Fin 512} {fw : Bool} {reg : Nat} {f : Regs → Regs} (h : s.memWf) :
    (e.result s c fw reg f).memWf :=
  ite_wf h (modRegs_memWf h)

theorem writeActive_memWf {t : Target} {m : Mask} {p : Piece} {bs : List Byte} (h : s.memWf) : ExWf (writeActive s t m p bs) :=
  ite_wf (targetWrite_memWf h) (targetRuns_memWf h)

theorem vamoAt_memWf {t : Target} {b16 : Bool} {m : Mask} {v : Vec} (h : s.memWf) : ExWf (vamoAt s t b16 m v) := by
  unfold vamoAt
  dsimp only
  split
  · exact ExWf.error
  · exact targetRuns_memWf h

theorem writeMates_memWf {mates : List Piece} {target : Piece → Target} {bytes : Piece → List Byte} {alone : Except Cause State}
    (h : s.memWf) (halone : ExWf alone) : ExWf (writeMates s mates target bytes alone) := by
  unfold writeMates
  split
  · exact halone
  · exact targetWrite_memWf h

theorem storePart_memWf {c : Fin 512} {fw : Bool} {e : QEnt} {p : Piece} {t : Target} (h : s.memWf) : ExFstWf (storePart s c fw e p t) :=
  exMap_wf (fun _ => ExFstWf.error) (fun _ e => ExFstWf.ok (writtenTm_memWf
    ((writeMates_memWf h (ite_wf (targetWrite_memWf h) (writeActive_memWf h))).of_eq e)))

theorem performPart_memWf {c : Fin 512} {fw : Bool} {e : QEnt} {p : Piece} {t : Target} (h : s.memWf) :
    ExFstWf (performPart s c fw e p t) := by
  unfold performPart
  dsimp only
  split
  · exact exMap_wf (fun _ => ExFstWf.error) (fun _ _ => ExFstWf.ok h)
  · exact exMap_wf (fun _ => ExFstWf.error) (fun _ _ => ExFstWf.ok h)
  · exact exMap_wf (fun _ => ExFstWf.error) (fun _ _ => ExFstWf.ok h)
  · exact exMap_wf (fun _ => ExFstWf.error) (fun _ _ => ExFstWf.ok h)
  · exact exMap_wf (fun _ => ExFstWf.error) (fun _ _ => ExFstWf.ok h)
  · exact exMap_wf (fun _ => ExFstWf.error) (fun _ _ => ExFstWf.ok (QEnt.result_memWf h))
  · split
    · exact ExFstWf.error
    · split
      · exact ExFstWf.error
      · exact ExFstWf.ok h
  · exact exMap_wf (fun _ => ExFstWf.error) (fun _ _ => ExFstWf.ok h)
  · exact storePart_memWf h
  · exact storePart_memWf h
  · exact storePart_memWf h
  · exact storePart_memWf h
  · exact exMap_wf (fun _ => ExFstWf.error) (fun _ e => ExFstWf.ok (writtenTm_memWf ((targetWrite_memWf h).of_eq e)))
  · exact ExFstWf.ok h
  · split
    · exact ExFstWf.error
    · exact exMap_wf (fun _ => ExFstWf.error) (fun _ e' => ExFstWf.ok (writtenTm_memWf ((targetWrite_memWf h).of_eq e')))
  · exact exMap_wf (fun _ => ExFstWf.error) (fun _ e'' => ExFstWf.ok (writtenTm_memWf ((vamoAt_memWf h).of_eq e'')))
  · refine ite_wf ?_ (exMap_wf (fun _ => ExFstWf.error) (fun _ e3 => ExFstWf.ok (writtenTm_memWf ((targetCap_memWf h).of_eq e3))))
    split
    · exact ExFstWf.error
    · split
      · exact ExFstWf.error
      · exact ExFstWf.ok h
  · refine ite_wf ?_ (exMap_wf (fun _ => ExFstWf.error) (fun _ e4 => ExFstWf.ok (writtenTm_memWf ((targetCap_memWf h).of_eq e4))))
    split
    · exact ExFstWf.error
    · split
      · exact ExFstWf.error
      · exact ExFstWf.ok h

theorem finishEnt_memWf {c : Fin 512} {fw : Bool} {e : QEnt} (h : s.memWf) : (finishEnt s c fw e).memWf := by
  unfold finishEnt
  dsimp only
  split
  · exact QEnt.result_memWf h
  · exact QEnt.result_memWf h
  · exact QEnt.result_memWf h
  · exact QEnt.result_memWf h
  · split <;> exact putCore_memWf h
  · exact QEnt.result_memWf (QEnt.result_memWf h)
  · exact QEnt.result_memWf h
  · exact QEnt.result_memWf h
  · exact landToken_memWf h
  · exact h

theorem settleEnt_memWf {c : Fin 512} {fw : Bool} {e : QEnt} (h : s.memWf) : (settleEnt s c fw e).memWf :=
  ite_wf (dropEnt_memWf (finishEnt_memWf h)) (putEnt_memWf h)

theorem failEnt_memWf {c : Fin 512} {fw : Bool} {e : QEnt} {k : Cause} (h : s.memWf) : (failEnt s c fw e k).memWf := putEnt_memWf h

theorem targetFail_memWf {t : Target} {n : Nat} (h : s.memWf) : (targetFail s t n).memWf := by
  unfold targetFail
  split
  · exact h
  · exact hbmFail_memWf h

theorem runPart_memWf {c : Fin 512} {fw : Bool} {e : QEnt} {p : Piece} (h : s.memWf) : (runPart s c fw e p).memWf := by
  unfold runPart
  dsimp only
  split
  · exact failEnt_memWf (targetFail_memWf h)
  · split
    next e => exact settleEnt_memWf ((performPart_memWf h).of_eq e)
    · exact ite_wf (settleEnt_memWf (ite_wf (targetFail_memWf h) h)) (failEnt_memWf (ite_wf (targetFail_memWf h) h))

theorem touchLine_memWf {k : Fin 64} {line : Nat} {part : Fin 16} {busy : Nat → Bool} (h : s.memWf) :
    OptWf (touchLine s k line part busy) :=
  ite_wf (OptWf.some (putCluster_memWf h)) (optMap_wf OptWf.none (fun _ _ => OptWf.some (putCluster_memWf h)))

/-! ### The boxes of a copy (R152 to R166) -/

theorem putCopy_memWf {c : Fin 512} {slot : Fin 256} {k : Option Copy} (h : s.memWf) : (putCopy s c slot k).memWf := putCore_memWf h

theorem copyFault_memWf {c : Fin 512} {slot : Fin 256} {k : Copy} {b : Nat} {e : Cause} {addr : Word} (h : s.memWf) :
    (copyFault s c slot k b e addr).memWf :=
  putCopy_memWf h

theorem releaseRanges_memWf {c : Fin 512} {k : Copy} (h : s.memWf) : (releaseRanges s c k).memWf := putCore_memWf h

theorem endCopy_memWf {c : Fin 512} {slot : Fin 256} {k : Copy} (h : s.memWf) : (endCopy s c slot k).memWf :=
  putCore_memWf (putCopy_memWf h)

theorem creditBox_memWf {c : Fin 512} {slot : Fin 256} {k : Copy} {b : Nat} (h : s.memWf) : (creditBox s c slot k b).memWf :=
  ite_wf (endCopy_memWf (credit_memWf (releaseRanges_memWf (putCopy_memWf h)))) (credit_memWf (releaseRanges_memWf (putCopy_memWf h)))

theorem endCancel_memWf {c : Fin 512} {slot : Fin 256} {k : Copy} (h : s.memWf) : (endCancel s c slot k).memWf :=
  credit_memWf (endCopy_memWf h)

theorem xlateParts_memWf {c : Fin 512} {fw write : Bool} {l : List Piece} (h : s.memWf) : FstWf (xlateParts s c fw write l) := by
  induction l generalizing s with
  | nil => exact h
  | cons p l ih =>
    have rest {t : State} (q : Piece) (ht : t.memWf) : FstWf (match xlateParts t c fw write l with
        | (s, .ok l) => (s, .ok (q :: l))
        | r => r) := by
      split
      next e => exact (ih ht).of_eq e
      · exact ih ht
    unfold xlateParts
    dsimp only
    split
    · refine ite_wf h ?_
      split
      · exact h
      · refine ite_wf (rest p h) ?_
        split
        next e => exact rest _ ((translatePin_memWf h).of_eq e)
        next e => exact (translatePin_memWf h).of_eq e
        next e => exact (translatePin_memWf h).of_eq e
    · exact rest p h

theorem crossParts_memWf {c : Fin 512} {fw : Bool} {ps : List Piece} (h : s.memWf) : OptWf (crossParts s c fw ps) :=
  ite_wf (OptWf.some h) (ite_wf (OptWf.some (foldl_wf h (fun _ _ ht => sealCross_memWf ht))) OptWf.none)

theorem writePart_memWf {c : Fin 512} {k : Copy} {r : BoxRun} {mates : List Piece} {p : Piece} (h : s.memWf) :
    ExWf (writePart s c k r mates p) := by
  unfold writePart
  dsimp only
  split
  · split
    · exact targetWrite_memWf h
    · exact ExWf.error
  · exact writeMates_memWf h (targetWrite_memWf h)

theorem beginPhase_memWf {c : Fin 512} {slot : Fin 256} {k : Copy} {r : BoxRun} (h : s.memWf) : (beginPhase s c slot k r).memWf := by
  unfold beginPhase
  dsimp only
  split
  next e => exact copyFault_memWf ((xlateParts_memWf h).of_eq e)
  next e' => exact (xlateParts_memWf h).of_eq e'
  next e'' =>
    have hu := (xlateParts_memWf h).of_eq e''
    split
    · exact copyFault_memWf (targetFail_memWf hu)
    · split
      next e3 => exact releaseRanges_memWf (putCopy_memWf ((crossParts_memWf hu).of_eq e3))
      · exact hu

theorem startBox_memWf {c : Fin 512} {slot : Fin 256} {k : Copy} {b : Nat} (h : s.memWf) : (startBox s c slot k b).memWf :=
  beginPhase_memWf h

theorem writePhase_memWf {c : Fin 512} {slot : Fin 256} {k : Copy} {r : BoxRun} (h : s.memWf) : (writePhase s c slot k r).memWf := by
  unfold writePhase
  dsimp only
  split
  · exact copyFault_memWf h
  · exact beginPhase_memWf h

theorem readDone_memWf {c : Fin 512} {slot : Fin 256} {k : Copy} {r : BoxRun} (h : s.memWf) : (readDone s c slot k r).memWf := by
  unfold readDone
  dsimp only
  split
  · split
    · exact copyFault_memWf h
    · exact ite_wf (putCopy_memWf (putCopy_memWf h)) (ite_wf (writePhase_memWf (putCopy_memWf h)) (beginPhase_memWf (putCopy_memWf h)))
  · exact writePhase_memWf h

theorem startStamp_memWf {c : Fin 512} {slot : Fin 256} {k : Copy} (h : s.memWf) : (startStamp s c slot k).memWf := beginPhase_memWf h

theorem sendPart_memWf {c : Fin 512} {slot : Fin 256} {k : Copy} {r : BoxRun} {p : Piece} (h : s.memWf) : (sendPart s c slot k r p).memWf :=
  send_memWf (putCopy_memWf h)

theorem runBoxPart_memWf {c : Fin 512} {slot : Fin 256} {k : Copy} {r : BoxRun} {p : Piece} (h : s.memWf) :
    (runBoxPart s c slot k r p).memWf := by
  unfold runBoxPart
  refine ite_wf ?_ ?_
  · dsimp only
    split
    next e => exact putCopy_memWf ((writePart_memWf h).of_eq e)
    · exact copyFault_memWf (targetFail_memWf h)
  · split
    · exact putCopy_memWf h
    · exact copyFault_memWf h

theorem endPhase_memWf {c : Fin 512} {slot : Fin 256} {k : Copy} {r : BoxRun} (h : s.memWf) : (endPhase s c slot k r).memWf :=
  ite_wf (putCopy_memWf h) (ite_wf (readDone_memWf h) (ite_wf (endCopy_memWf h) (creditBox_memWf h)))

/-! ### The shared work of the matrix unit (R177 to R195) -/

theorem modMmas_memWf {c : Fin 512} {fw : Bool} {f : List MmaRun → List MmaRun} (h : s.memWf) : (modMmas s c fw f).memWf := putCore_memWf h

theorem putMma_memWf {c : Fin 512} {fw : Bool} {r : MmaRun} (h : s.memWf) : (putMma s c fw r).memWf := modMmas_memWf h

theorem mmaFail_memWf {c : Fin 512} {fw : Bool} {r : MmaRun} {k : Cause} (h : s.memWf) : (mmaFail s c fw r k).memWf := putMma_memWf h

theorem mmaGot_memWf {c : Fin 512} {fw : Bool} {r : MmaRun} {tile : List Byte} (h : s.memWf) : (mmaGot s c fw r tile).memWf := by
  unfold mmaGot
  dsimp only
  split
  · exact putMma_memWf h
  · exact ite_wf (putCore_memWf (putMma_memWf h)) (putMma_memWf h)

theorem mmaAsk_memWf {c : Fin 512} {fw : Bool} {r : MmaRun} {parts : List Piece} {got : List Byte} (h : s.memWf) :
    (mmaAsk s c fw r parts got).memWf := by
  unfold mmaAsk
  split
  next e => exact putMma_memWf ((crossParts_memWf h).of_eq e)
  · exact h

theorem mmaAskRec_memWf {c : Fin 512} {fw : Bool} {r : MmaRun} {l : Loc} {n : Nat} (h : s.memWf) : (mmaAskRec s c fw r l n).memWf :=
  mmaAsk_memWf h

theorem mmaStart_memWf {c : Fin 512} {fw : Bool} {r : MmaRun} (h : s.memWf) : (mmaStart s c fw r).memWf := by
  unfold mmaStart
  refine ite_wf ?_ ?_
  · dsimp only
    split
    · exact mmaFail_memWf h
    · refine ite_wf (putMma_memWf (send_memWf h)) ?_
      split
      next e => exact mmaAsk_memWf ((xlateParts_memWf h).of_eq e)
      next e' => exact mmaFail_memWf ((xlateParts_memWf h).of_eq e')
      next e'' => exact (xlateParts_memWf h).of_eq e''
  · dsimp only
    split
    · exact mmaFail_memWf h
    · exact ite_wf (mmaAskRec_memWf h) (mmaAsk_memWf h)

theorem mmaHeader_memWf {c : Fin 512} {fw : Bool} {r : MmaRun} (h : s.memWf) : (mmaHeader s c fw r).memWf := by
  unfold mmaHeader
  split
  · exact mmaFail_memWf h
  · split
    · exact mmaFail_memWf h
    · split
      · exact mmaFail_memWf h
      · exact ite_wf (mmaGot_memWf h) (mmaAskRec_memWf h)

theorem mmaEnd_memWf {c : Fin 512} {fw : Bool} {r : MmaRun} {bs : List Byte} (h : s.memWf) : (mmaEnd s c fw r bs).memWf := by
  unfold mmaEnd
  refine ite_wf ?_ (ite_wf (mmaHeader_memWf h) (mmaGot_memWf h))
  split
  · exact mmaGot_memWf h
  · exact mmaFail_memWf h

theorem runTilePart_memWf {c : Fin 512} {fw : Bool} {r : MmaRun} {p : Piece} (h : s.memWf) : (runTilePart s c fw r p).memWf := by
  unfold runTilePart
  split
  · exact putMma_memWf h
  · exact mmaFail_memWf h

theorem mmaTurn_memWf {c : Fin 512} {fw : Bool} {r : MmaRun} (h : s.memWf) : (mmaTurn s c fw r).memWf := by
  unfold mmaTurn
  split
  · exact h
  · exact mmaEnd_memWf h
  · exact ite_wf (mmaStart_memWf h) (mmaEnd_memWf h)

theorem rampWaits_memWf {c : Fin 512} (h : s.memWf) : (rampWaits s c).memWf := putCore_memWf h

theorem rampStart_memWf {c : Fin 512} {fw : Bool} {ws : List Nat} (h : s.memWf) : (rampStart s c fw ws).memWf :=
  ite_wf (putCore_memWf h) (foldl_wf (putCore_memWf h) (fun _ _ ht => count_memWf ht))

theorem mmaFinish_memWf {c : Fin 512} {fw : Bool} {r : MmaRun} (h : s.memWf) : (mmaFinish s c fw r).memWf :=
  modMmas_memWf (ite_wf h (modRegs_memWf h))

theorem modQuants_memWf {c : Fin 512} {fw : Bool} {f : List Quant → List Quant} (h : s.memWf) : (modQuants s c fw f).memWf :=
  putCore_memWf h

theorem quantStep_memWf {c : Fin 512} {fw : Bool} {q : Quant} (h : s.memWf) : (quantStep s c fw q).memWf :=
  ite_wf (modQuants_memWf (foldl_wf h (fun _ _ ht => store_memWf _ _ ht)))
    (ite_wf (modQuants_memWf (foldl_wf h (fun _ _ ht' => store_memWf _ _ ht'))) (putCore_memWf (modQuants_memWf h)))

/-! ### Stream registers (R120 to R123) -/

theorem keepPos_memWf {c : Fin 512} {fw : Bool} {q : BitVec 2} {k : Nat} {r : List Byte ⊕ Cause} (h : s.memWf) :
    (keepPos s c fw q k r).memWf := by
  unfold keepPos
  dsimp only
  split
  · exact putCore_memWf h
  · exact h

theorem issueRead_memWf {c : Fin 512} {fw : Bool} {q : BitVec 2} {d : List Byte} {k : Nat} (h : s.memWf) :
    (issueRead s c fw q d k).memWf := by
  unfold issueRead
  refine ite_wf h ?_
  dsimp only
  split
  · exact keepPos_memWf h
  · exact update_memWf (putCore_memWf h)

theorem reissueReads_memWf {c : Fin 512} {fw : Bool} {q : BitVec 2} (h : s.memWf) : (reissueReads s c fw q).memWf := by
  unfold reissueReads
  split
  · exact foldl_wf h (fun _ _ ht => ite_wf (issueRead_memWf ht) ht)
  · exact h

theorem reissueAll_memWf {c : Fin 512} {fw : Bool} (h : s.memWf) : (reissueAll s c fw).memWf :=
  foldl_wf h (fun _ _ ht => reissueReads_memWf ht)

theorem releaseStream_memWf {c : Fin 512} {fw : Bool} {q : BitVec 2} (h : s.memWf) : (releaseStream s c fw q).memWf := putCore_memWf h

/-! ### Fetching packets, and the end of a bundle (R26 to R28, R87) -/

theorem codeRead_memWf {p : Option (Fin 16)} {key : Nat} {va : Word} {n : Nat} (h : s.memWf) : FstWf (codeRead s p key va n) := by
  unfold codeRead
  split
  · refine ite_wf (globRead_memWf h) ?_
    split
    next e => exact dropAsks_memWf ((hubRead_memWf h).of_eq e)
    · exact hubRead_memWf h
  · exact globRead_memWf h

theorem fetchPacket_memWf {c : Fin 512} {fw : Bool} {pc : BitVec 32} (h : s.memWf) : FstWf (fetchPacket s c fw pc) := by
  unfold fetchPacket
  refine ite_wf (ite_wf h h) ?_
  refine ite_wf h ?_
  split
  · exact h
  · split
    next e => exact (codeRead_memWf h).of_eq e
    next e' => exact (codeRead_memWf h).of_eq e'
    next e'' => exact (codeRead_memWf h).of_eq e''

theorem atBoundary_memWf {c : Fin 512} (h : s.memWf) : (atBoundary s c).memWf := putCore_memWf h

theorem advance_memWf (h : s.memWf) : (advance s).memWf := update_memWf (setCtx_memWf h)

/-! ### Traps and firmware restarts (R315 to R319, R372, R383) -/

theorem drainEnt_memWf {n : Nat} {c : Fin 512} {id : Nat} (h : s.memWf) : (drainEnt n s c id).memWf := by
  induction n generalizing s with
  | zero => exact h
  | succ n ih =>
    unfold drainEnt
    split
    · exact h
    · refine ite_wf h ?_
      split
      · exact settleEnt_memWf h
      · exact failEnt_memWf h
      · split
        next e => exact ih (runPart_memWf ((xlateParts_memWf h).of_eq e))
        next e => exact failEnt_memWf ((xlateParts_memWf h).of_eq e)
        next e => exact (xlateParts_memWf h).of_eq e

theorem drainAll_memWf {c : Fin 512} (h : s.memWf) : (drainAll s c).memWf := foldl_wf h (fun _ _ ht => drainEnt_memWf ht)

theorem settleWords_memWf {c : Fin 512} {taken : Option Nat} (h : s.memWf) : (settleWords s c taken).memWf := putCore_memWf h

theorem abandonCopy_memWf {c : Fin 512} {slot : Fin 256} {k : Copy} (h : s.memWf) : (abandonCopy s c slot k).memWf := by
  unfold abandonCopy
  dsimp only
  split
  · exact barEvent_memWf (putCopy_memWf h)
  · exact putCopy_memWf h

theorem freshNonce_memWf {k : Copy} (h : s.memWf) : FstWf (freshNonce s k) := by
  unfold freshNonce
  dsimp only
  split
  · exact update_memWf h
  · exact h

theorem holdRanges_memWf {c : Fin 512} {k : Copy} (h : s.memWf) : (holdRanges s c k).memWf := putCore_memWf h

theorem squashCopy_memWf {c : Fin 512} {slot : Fin 256} {k : Copy} (h : s.memWf) : (squashCopy s c slot k).memWf :=
  squash_memWf (holdRanges_memWf (putCopy_memWf (freshNonce_memWf h)))

theorem settleCopy_memWf {c : Fin 512} {slot : Fin 256} (h : s.memWf) : (settleCopy s c slot).memWf := by
  unfold settleCopy
  split
  · exact h
  · exact ite_wf h (ite_wf (putCopy_memWf h) (ite_wf (abandonCopy_memWf h) (squashCopy_memWf h)))

theorem writeRecords_memWf {c : Fin 512} (h : s.memWf) : (writeRecords s c).memWf := putCore_memWf h

theorem settleCopies_memWf {c : Fin 512} (h : s.memWf) : (settleCopies s c).memWf :=
  writeRecords_memWf (foldl_wf h (fun _ _ ht => settleCopy_memWf ht))

theorem writeFrame_memWf {c : Fin 512} {t : TrapInfo} (h : s.memWf) : (writeFrame s c t).memWf :=
  foldl_wf (zero_memWf _ _ h) (fun _ _ ht => store_memWf _ _ ht)

theorem takeTrap_memWf {c : Fin 512} {taken : Option Nat} {t : TrapInfo} (h : s.memWf) : (takeTrap s c taken t).memWf :=
  update_memWf (ite_wf (trapEvent_memWf (writeFrame_memWf (putCore_memWf (settleCopies_memWf (settleWords_memWf h)))))
    (unitRecord_memWf (writeFrame_memWf (putCore_memWf (settleCopies_memWf (settleWords_memWf h))))))

theorem startTrap_memWf {c : Fin 512} {taken : Option Nat} {t : TrapInfo} (h : s.memWf) : (startTrap s c taken t).memWf :=
  ite_wf (takeTrap_memWf h) (update_memWf (putCore_memWf h))

theorem bootFw_memWf {c : Fin 512} {reason : Nat} (h : s.memWf) : (bootFw s c reason).memWf := putCore_memWf h

theorem settleFw_memWf {c : Fin 512} (h : s.memWf) : (settleFw s c).memWf := by
  unfold settleFw
  refine drainAll_memWf ?_
  refine foldl_wf (putCore_memWf h) fun _ _ ht => ?_
  split
  · exact ite_wf (endCopy_memWf ht) ht
  · exact ht

theorem restartAll_memWf {reason : Nat} (h : s.memWf) : (restartAll s reason).memWf :=
  foldl_wf h (fun _ _ ht => bootFw_memWf (settleFw_memWf ht))

theorem writeOutcome_memWf {reason : Nat} (h : s.memWf) : (writeOutcome s reason).memWf := devWrite_memWf h

theorem rollBack_memWf {reason : Nat} (h : s.memWf) : (rollBack s reason).memWf :=
  restartAll_memWf (update_memWf (writeOutcome_memWf (foldl_wf h (fun _ _ ht => settleFw_memWf ht))))

theorem fwFault_memWf {c : Fin 512} {cause : Cause} (h : s.memWf) : (fwFault s c cause).memWf := by
  unfold fwFault
  exact update_memWf (ite_wf (rollBack_memWf (logRecord_memWf (settleFw_memWf h)))
    (deliverFirst_memWf (bootFw_memWf (logRecord_memWf (settleFw_memWf h)))))

theorem raiseAt_memWf {cause : Cause} {addr : Word} (h : s.memWf) : OutWf (raiseAt s cause addr) :=
  ite_wf (OutWf.next (fwFault_memWf h)) (OutWf.next (startTrap_memWf h))

theorem raise_memWf {cause : Cause} (h : s.memWf) : OutWf (raise s cause) := raiseAt_memWf h

theorem onRes_memWf {α : Type} {r : Res α} {ea : Word} {f : α → Out} (h : s.memWf) (hf : ∀ (x : α), OutWf (f x)) :
    OutWf (onRes r s ea f) := by
  unfold onRes
  split
  · exact hf _
  · exact raiseAt_memWf h
  · exact stallAsk_memWf h

theorem reinject_memWf {c : Fin 512} {r : Replay} (h : s.memWf) : (reinject s c r).memWf := by
  unfold reinject
  dsimp only
  split <;> exact putCore_memWf h

theorem resumeCopies_memWf {c : Fin 512} (h : s.memWf) : (resumeCopies s c).memWf := by
  unfold resumeCopies
  refine foldl_wf h fun _ _ ht => ?_
  split
  · exact ite_wf ht (ite_wf (endCopy_memWf ht) (putCopy_memWf ht))
  · exact ht

theorem returnFromTrap_memWf {c : Fin 512} (h : s.memWf) : (returnFromTrap s c).memWf :=
  reissueAll_memWf (resumeCopies_memWf (foldl_wf (putCore_memWf h) (fun _ _ ht => reinject_memWf ht)))

/-! ### Messages of single accesses and the hold queue (R357 to R365) -/

theorem answer_memWf {p : Fin 16} {m : Msg} {kind : BitVec 5} {payload : List Byte} (h : s.memWf) : (answer s p m kind payload).memWf :=
  sendFor_memWf h

theorem landed_memWf {p : Fin 16} {m : Msg} (h : s.memWf) : (landed s p m).memWf := ite_wf (landToken_memWf h) (sendFor_memWf h)

theorem errAnswer_memWf {p : Fin 16} {m : Msg} {c : Cause} (h : s.memWf) : (errAnswer s p m c).memWf := sendFor_memWf h

theorem failAway_memWf {c : Fin 512} {t : BitVec 16} {k : Cause} (h : s.memWf) : (failAway s c t k).memWf := by
  unfold failAway
  dsimp only
  split
  · split
    · exact putCore_memWf h
    · exact h
  · exact h

theorem xlateAll_memWf {pin fw : Bool} {p : Option (Fin 16)} {write : Bool} {l : List Piece} (h : s.memWf) :
    FstWf (xlateAll s pin fw p write l) := by
  induction l generalizing s with
  | nil => exact h
  | cons q l ih =>
    have rest {t : State} (q : Piece) (ht : t.memWf) : FstWf (match xlateAll t pin fw p write l with
        | (s, .ok l) => (s, .ok (q :: l))
        | r => r) := by
      split
      next e => exact (ih ht).of_eq e
      · exact ih ht
    have one (va : Word) : FstWf (if pin then translatePin s fw p va write else translate s fw p va write) :=
      ite_wf (translatePin_memWf h) (translate_memWf h)
    unfold xlateAll
    dsimp only
    split
    next va _ =>
      split
      next e => exact rest _ ((one va).of_eq e)
      next e => exact (one va).of_eq e
      next e => exact (one va).of_eq e
    · exact rest q h

theorem inwardFail_memWf {p : Fin 16} {m : Msg} {k : Cause} (h : s.memWf) : (inwardFail s p m k).memWf :=
  ite_wf (errAnswer_memWf h) (ite_wf (failAway_memWf h) (OptWf.getD (toHub_memWf h) h))

theorem enterInward_memWf {p : Fin 16} {m : Msg} (h : s.memWf) : OptWf (enterInward s p m) := by
  unfold enterInward
  refine ite_wf OptWf.none ?_
  dsimp only
  split
  next e => exact OptWf.some (update_memWf ((xlateAll_memWf (useIv_memWf h)).of_eq e))
  next e' => exact OptWf.some (inwardFail_memWf ((xlateAll_memWf (useIv_memWf h)).of_eq e'))
  · exact OptWf.none

theorem endInward_memWf {x : Inward} (h : s.memWf) : (endInward s x).memWf :=
  ite_wf (OptWf.getD (toHub_memWf h) h) (ite_wf (answer_memWf h) (ite_wf (answer_memWf h)
    (ite_wf (answer_memWf h) (ite_wf (landed_memWf h) (answer_memWf h)))))

theorem hubWrite_memWf {p : Fin 16} {key : Nat} {m : Msg} (h : s.memWf) : FstWf (hubWrite s p key m) := by
  unfold hubWrite
  dsimp only
  split
  · refine ite_wf (send_memWf (putAsk_memWf h)) ?_
    split
    next e => exact (enterInward_memWf (putAsk_memWf h)).of_eq e
    · exact h
  · split
    · exact dropAsks_memWf h
    · exact dropAsks_memWf h
    · exact h

theorem holdEnter_memWf {p : Fin 16} {m : Msg} (h : s.memWf) : OptWf (holdEnter s p m) := by
  unfold holdEnter
  refine ite_wf OptWf.none ?_
  dsimp only
  split
  · exact OptWf.none
  · exact OptWf.some (update_memWf h)

theorem holdFull_memWf {c : Fin 512} {addr : Word} (h : s.memWf) : (holdFull s c addr).memWf := by
  unfold holdFull
  dsimp only
  split
  · exact putCore_memWf h
  · exact h

theorem answerFull_memWf {p : Fin 16} {m : Msg} (h : s.memWf) : (answerFull s p m).memWf :=
  ite_wf (holdFull_memWf (ite_wf (update_memWf h) h)) (sendFor_memWf (ite_wf (update_memWf h) h))

theorem arriveQst_memWf {p : Fin 16} {m : Msg} (h : s.memWf) : OptWf (arriveQst s p m) := by
  unfold arriveQst
  refine ite_wf (OptWf.some (answerFull_memWf h)) ?_
  refine ite_wf (enterInward_memWf (update_memWf h)) ?_
  dsimp only
  split
  next e => exact OptWf.some ((holdEnter_memWf (update_memWf h)).of_eq e)
  · exact OptWf.some (answerFull_memWf h)

/-- R364: one store goes on, and then the rest. -/
theorem releaseHolds_succ (n : Nat) (s : State) : releaseHolds (n + 1) s = (match freeHold s with
    | some (i, e) =>
      match enterInward { s with fabric := { s.fabric with hold := vput s.fabric.hold i none } } e.part
          { e.msg with carry0 := 0, carry1 := 0 } with
      | some s => releaseHolds n s
      | none => s
    | none => s) := by
  delta releaseHolds
  rewrite [brecOn_succ]
  with_reducible_and_instances rfl

theorem releaseHolds_memWf {n : Nat} (h : s.memWf) : (releaseHolds n s).memWf := by
  induction n generalizing s with
  | zero => exact h
  | succ n ih =>
    rw [releaseHolds_succ]
    split
    · split
      next e => exact ih ((enterInward_memWf (update_memWf h)).of_eq e)
      · exact h
    · exact h

theorem arriveRel_memWf {src : Pkg} {core : Fin 512} {t : BitVec 16} (h : s.memWf) : (arriveRel s src core t).memWf :=
  releaseHolds_memWf (update_memWf h)

theorem sendHub_memWf {p : Fin 16} {m : Msg} (h : s.memWf) : OptWf (sendHub s p m) :=
  ite_wf (ite_wf (arriveQst_memWf (useAll_memWf h)) OptWf.none) (OptWf.some (send_memWf h))

theorem sendQst_memWf {c : Fin 512} {fw : Bool} {e : QEnt} (h : s.memWf) : (sendQst s c fw e).memWf := by
  unfold sendQst
  dsimp only
  split
  · exact OptWf.getD (sendHub_memWf (dropEnt_memWf (putCore_memWf h))) h
  · exact h

theorem resendQst_memWf {c : Fin 512} {i : Fin 256} (h : s.memWf) : (resendQst s c i).memWf := by
  unfold resendQst
  dsimp only
  split
  · split
    · split
      · exact ite_wf h (OptWf.getD (sendHub_memWf (putCore_memWf h)) h)
      · exact h
    · exact h
  · exact h

/-! ### Requests at TM, CM, memory and the engines (R207 to R211) -/

theorem putMwait_memWf {c : Fin 512} {fw : Bool} {w : MWait} (h : s.memWf) : (putMwait s c fw w).memWf := putCore_memWf h

theorem mwaitRead_memWf {c : Fin 512} {fw : Bool} {w : MWait} {v : Word} (h : s.memWf) : (mwaitRead s c fw w v).memWf :=
  ite_wf (putMwait_memWf h) (putMwait_memWf h)

theorem runWatch_memWf {c : Fin 512} {fw : Bool} {w : MWait} {p : Piece} (h : s.memWf) : (runWatch s c fw w p).memWf := by
  unfold runWatch
  split
  · exact mwaitRead_memWf h
  · exact putMwait_memWf h

theorem performInward_memWf {x : Inward} {p : Piece} {t : Target} (h : s.memWf) : ExFstWf (performInward s x p t) := by
  unfold performInward
  refine ite_wf (exMap_wf (fun _ => ExFstWf.error) (fun _ _ => ExFstWf.ok h)) ?_
  refine ite_wf ?_ ?_
  · split
    · exact exMap_wf (fun _ => ExFstWf.error) (fun _ e => ExFstWf.ok ((targetWrite_memWf h).of_eq e))
    · exact ExFstWf.error
  · refine ite_wf (exMap_wf (fun _ => ExFstWf.error) (fun _ e' => ExFstWf.ok ((vamoAt_memWf h).of_eq e'))) ?_
    refine ite_wf ?_ (exMap_wf (fun _ => ExFstWf.error) (fun _ e'' => ExFstWf.ok ((writeMates_memWf h (targetRuns_memWf h)).of_eq e'')))
    split
    · exact exMap_wf (fun _ => ExFstWf.error) (fun _ e3 => ExFstWf.ok ((targetWrite_memWf h).of_eq e3))
    · exact ExFstWf.error

theorem setInward_memWf {l : List Inward} (h : s.memWf) : (setInward s l).memWf := update_memWf h

theorem runInward_memWf {i : Nat} {x : Inward} {p : Piece} (h : s.memWf) : (runInward s i x p).memWf := by
  unfold runInward
  dsimp only
  split
  · exact inwardFail_memWf (setInward_memWf (ite_wf h (targetFail_memWf h)))
  · split
    · exact inwardFail_memWf (setInward_memWf (ite_wf h (targetFail_memWf h)))
    next e =>
      have hu := (performInward_memWf h).of_eq e
      exact ite_wf (endInward_memWf (setInward_memWf hu)) (setInward_memWf hu)

theorem Req.run_memWf {q : Req} (h : s.memWf) : (q.run s).memWf := by
  unfold Req.run
  split
  · exact runPart_memWf h
  · exact runBoxPart_memWf h
  · exact runTilePart_memWf h
  · exact runWatch_memWf h
  · exact runInward_memWf h

theorem runAtEngine_memWf {k : Fin 64} {q : Req} (h : s.memWf) : OptWf (runAtEngine s k q) := by
  unfold runAtEngine
  dsimp only
  split
  · refine optMap_wf OptWf.none fun _ e => ?_
    refine OptWf.some ?_
    refine Req.run_memWf ?_
    refine OptWf.of_eq ?_ e
    refine optBind_wf OptWf.none fun _ e' => ?_
    refine touchLine_memWf ?_
    refine OptWf.of_eq ?_ e'
    split
    · exact ite_wf (OptWf.some h) (pinVa_memWf h)
    · exact OptWf.some h
  · exact OptWf.none

theorem runOwn_memWf {c : Fin 512} {l : List Req} (h : s.memWf) : (runOwn s c l).memWf := by
  unfold runOwn
  split
  · exact Req.run_memWf h
  · exact h

/-! ### The scalar memory words (R68, R77 to R85) -/

theorem aligned_memWf {ea : Word} {n : Nat} {f : Out} (h : s.memWf) (hf : OutWf f) : OutWf (aligned s ea n f) := ite_wf (raiseAt_memWf h) hf

theorem issueLoad_memWf {kind : QKind} {ea : Word} {n : Nat} {pieces : Loc → List Piece} (h : s.memWf) :
    OutWf (issueLoad s kind ea n pieces) :=
  onRes_memWf h (fun _ => ite_wf (stall_memWf h) (OutWf.next (pushEnt_memWf h)))

theorem issueStore_memWf {kind : QKind} {ea : Word} {n : Nat} {data : List Byte} (h : s.memWf) : OutWf (issueStore s kind ea n data) :=
  onRes_memWf h (fun _ => ite_wf (stall_memWf h) (OutWf.next (pushEnt_memWf h)))

theorem execLd_memWf {hd : Head} {d a : BitVec 5} {f : LdForm} {o : BitVec 8} (h : s.memWf) : OutWf (execLd hd d a f o s) :=
  guarded_memWf h (fun _ ht => issueLoad_memWf ht)

theorem execLdAcq_memWf {hd : Head} {d a : BitVec 5} {f : MemSize} {o : BitVec 8} (h : s.memWf) : OutWf (execLdAcq hd d a f o s) :=
  guarded_memWf h (fun _ ht => aligned_memWf ht (issueLoad_memWf ht))

theorem execSt_memWf {hd : Head} {d a : BitVec 5} {f : MemSize} {o : BitVec 8} (h : s.memWf) : OutWf (execSt hd d a f o s) :=
  guarded_memWf h (fun _ ht => issueStore_memWf ht)

theorem execStRel_memWf {hd : Head} {d a : BitVec 5} {f : MemSize} {o : BitVec 8} (h : s.memWf) : OutWf (execStRel hd d a f o s) :=
  guarded_memWf h (fun _ ht => aligned_memWf ht (issueStore_memWf ht))

theorem execLsaln_memWf {hd : Head} (h : s.memWf) : OutWf (execLsaln hd s) := guarded_memWf h (fun _ ht => OutWf.next (pushEnt_memWf ht))

theorem issueAmo_memWf {op : BitVec 4} {hd : Head} {d a b : BitVec 5} {z : AmoSize} (h : s.memWf) : OutWf (issueAmo op hd d a b z s) :=
  guarded_memWf h (fun _ ht => aligned_memWf ht (onRes_memWf ht (fun _ => ite_wf (stall_memWf ht) (OutWf.next (pushEnt_memWf ht)))))

theorem execAmoAdd_memWf {hd : Head} {d a b : BitVec 5} {z : AmoSize} (h : s.memWf) : OutWf (execAmoAdd hd d a b z s) := issueAmo_memWf h

theorem execAmoAnd_memWf {hd : Head} {d a b : BitVec 5} {z : AmoSize} (h : s.memWf) : OutWf (execAmoAnd hd d a b z s) := issueAmo_memWf h

theorem execAmoOr_memWf {hd : Head} {d a b : BitVec 5} {z : AmoSize} (h : s.memWf) : OutWf (execAmoOr hd d a b z s) := issueAmo_memWf h

theorem execAmoXor_memWf {hd : Head} {d a b : BitVec 5} {z : AmoSize} (h : s.memWf) : OutWf (execAmoXor hd d a b z s) := issueAmo_memWf h

theorem execAmoMin_memWf {hd : Head} {d a b : BitVec 5} {z : AmoSize} (h : s.memWf) : OutWf (execAmoMin hd d a b z s) := issueAmo_memWf h

theorem execAmoMax_memWf {hd : Head} {d a b : BitVec 5} {z : AmoSize} (h : s.memWf) : OutWf (execAmoMax hd d a b z s) := issueAmo_memWf h

theorem execAmoMinu_memWf {hd : Head} {d a b : BitVec 5} {z : AmoSize} (h : s.memWf) : OutWf (execAmoMinu hd d a b z s) := issueAmo_memWf h

theorem execAmoMaxu_memWf {hd : Head} {d a b : BitVec 5} {z : AmoSize} (h : s.memWf) : OutWf (execAmoMaxu hd d a b z s) := issueAmo_memWf h

theorem execAmoSwap_memWf {hd : Head} {d a b : BitVec 5} {z : AmoSize} (h : s.memWf) : OutWf (execAmoSwap hd d a b z s) := issueAmo_memWf h

theorem execAmoCas_memWf {hd : Head} {d a b : BitVec 5} {z : AmoSize} (h : s.memWf) : OutWf (execAmoCas hd d a b z s) := issueAmo_memWf h

theorem makeOrdered_memWf {t : BitVec 16} (h : s.memWf) : (makeOrdered s t).memWf := by
  unfold makeOrdered
  dsimp only
  split
  · exact h
  · exact update_memWf (setCur_memWf h)

theorem addWaiter_memWf {t : BitVec 16} {dst : Pkg} (h : s.memWf) : (addWaiter s t dst).memWf := by
  unfold addWaiter
  dsimp only
  split
  · exact ite_wf h (setCur_memWf h)
  · exact h

theorem applyCarry_memWf {t : BitVec 16} {dst : Pkg} {x : Carry} (h : s.memWf) : (applyCarry s t dst x).memWf := by
  unfold applyCarry
  split
  · exact makeOrdered_memWf h
  · exact addWaiter_memWf h
  · exact h

theorem qstChecks_memWf {ea : Word} {lo n : Nat} {f : Out} (h : s.memWf) (hf : OutWf f) : OutWf (qstChecks s ea lo n f) :=
  ite_wf (raiseAt_memWf h) (onRes_memWf h (fun _ => hf))

theorem emptyQst_memWf {d : BitVec 5} (h : s.memWf) : OutWf (emptyQst s d) := by
  unfold emptyQst
  dsimp only
  split
  · exact stall_memWf h
  · exact OutWf.next (wrS_memWf (setCur_memWf h))

theorem issueQst_memWf {d : BitVec 5} {carries : BitVec 16 × BitVec 16} {o : Bool} {ea : Word} {lo n : Nat} {m : Mask} {data : List Byte}
    {opa : Word} (h : s.memWf) : OutWf (issueQst s d carries o ea lo n m data opa) := by
  unfold issueQst
  dsimp only
  split
  · exact stall_memWf h
  · exact ite_wf (stall_memWf h) (OutWf.next (wrS_memWf (pushEnt_memWf (setCur_memWf (applyCarry_memWf (applyCarry_memWf h))))))

theorem execQst_memWf {hd : Head} {d a b : BitVec 5} {t o : Bool} {z : MemSize} (h : s.memWf) : OutWf (execQst hd d a b t o z s) :=
  guarded_memWf h (fun _ ht => aligned_memWf ht (qstChecks_memWf ht (issueQst_memWf ht)))

theorem issueMwait_memWf {eq : Bool} {hd : Head} {d a b : BitVec 5} (h : s.memWf) : OutWf (issueMwait eq hd d a b s) := by
  unfold issueMwait
  refine guarded_memWf h fun _ ht => ?_
  refine aligned_memWf ht ?_
  refine onRes_memWf ht fun _ => ?_
  refine ite_wf (stall_memWf ht) ?_
  dsimp only
  split
  · exact stall_memWf (setCtx_memWf ht)
  · refine ite_wf (stall_memWf (setCtx_memWf ht)) ?_
    split
    · exact raiseAt_memWf ht
    · exact OutWf.next (wrS_memWf (setCtx_memWf ht))
    · exact stall_memWf ht

theorem execMwaitNe_memWf {hd : Head} {d a b : BitVec 5} (h : s.memWf) : OutWf (execMwaitNe hd d a b s) := issueMwait_memWf h

theorem execMwaitEq_memWf {hd : Head} {d a b : BitVec 5} (h : s.memWf) : OutWf (execMwaitEq hd d a b s) := issueMwait_memWf h

theorem askWatch_memWf {c : Fin 512} {fw : Bool} {w : MWait} (h : s.memWf) : (askWatch s c fw w).memWf := by
  unfold askWatch
  dsimp only
  split
  · exact putMwait_memWf h
  · refine ite_wf (putMwait_memWf (send_memWf h)) ?_
    split
    next e =>
      have hu := (xlateAll_memWf h).of_eq e
      split
      next e' => exact putMwait_memWf ((crossParts_memWf hu).of_eq e')
      · exact hu
    next e'' => exact putMwait_memWf ((xlateAll_memWf h).of_eq e'')
    next e3 => exact (xlateAll_memWf h).of_eq e3

theorem execMwaitReread_memWf {core : Fin 512} {fw : Bool} (h : s.memWf) : OutWf (execMwaitReread core fw s) := by
  unfold execMwaitReread
  split
  · exact OutWf.next h
  · split
    · exact OutWf.next (mwaitRead_memWf h)
    · exact OutWf.next (askWatch_memWf h)
    · exact OutWf.next (runOwn_memWf h)
    · exact OutWf.next h

theorem takeReturned_memWf {c : Fin 512} {fw : Bool} {e : QEnt} {bs : List Byte} (h : s.memWf) : (takeReturned s c fw e bs).memWf := by
  unfold takeReturned
  dsimp only
  split
  · exact settleEnt_memWf h
  · exact settleEnt_memWf h
  · exact settleEnt_memWf h
  · exact settleEnt_memWf h
  · exact settleEnt_memWf h
  · exact settleEnt_memWf h
  · exact settleEnt_memWf (QEnt.result_memWf h)
  · exact settleEnt_memWf h
  · exact settleEnt_memWf h

theorem turnEnt_memWf {c : Fin 512} {fw : Bool} {e : QEnt} {mem : Bool} (h : s.memWf) : (turnEnt s c fw e mem).memWf := by
  unfold turnEnt
  split
  · exact takeReturned_memWf h
  · exact h
  · exact h
  · split
    · exact settleEnt_memWf h
    · exact failEnt_memWf h
    · exact runOwn_memWf h

theorem execLoadReturn_memWf {core : Fin 512} {fw : Bool} (h : s.memWf) : OutWf (execLoadReturn core fw s) := by
  unfold execLoadReturn
  split
  · split
    · exact OutWf.next h
    · exact OutWf.next (turnEnt_memWf h)
  · exact OutWf.next h

theorem execStorePerform_memWf {core : Fin 512} {fw : Bool} (h : s.memWf) : OutWf (execStorePerform core fw s) := by
  unfold execStorePerform
  split
  · exact OutWf.next (turnEnt_memWf h)
  · exact OutWf.next h

theorem execCounterWrite_memWf {core : Fin 512} {fw : Bool} (h : s.memWf) : OutWf (execCounterWrite core fw s) := by
  unfold execCounterWrite
  split
  · exact ite_wf (OutWf.next h) (OutWf.next (runOwn_memWf h))
  · exact OutWf.next h

theorem execBankRequest_memWf {cluster bank : Fin 64} (h : s.memWf) : OutWf (execBankRequest cluster bank s) := by
  unfold execBankRequest
  split
  · exact OutWf.next (Req.run_memWf h)
  · exact OutWf.next h

theorem execAtomicEngineRequest_memWf {cluster : Fin 64} (h : s.memWf) : OutWf (execAtomicEngineRequest cluster s) := by
  unfold execAtomicEngineRequest
  split
  · exact OutWf.next (OptWf.getD (runAtEngine_memWf h) h)
  · exact OutWf.next h

theorem execInward_memWf (h : s.memWf) : OutWf (execInward s) := by
  unfold execInward
  split
  · refine OutWf.next ?_
    split
    · exact endInward_memWf (setInward_memWf h)
    · exact h
  · split
    · exact OutWf.next (Req.run_memWf h)
    · exact OutWf.next h

theorem translateEnt_memWf {c : Fin 512} {fw : Bool} {e : QEnt} (h : s.memWf) : (translateEnt s c fw e).memWf := by
  unfold translateEnt
  refine ite_wf (sendQst_memWf h) ?_
  split
  · exact h
  · refine ite_wf ?_ ?_
    · split
      · exact putEnt_memWf (send_memWf h)
      · exact failEnt_memWf h
    · split
      next e =>
        have hu := (xlateAll_memWf h).of_eq e
        split
        next e' => exact putEnt_memWf ((crossParts_memWf hu).of_eq e')
        · exact hu
      next e'' => exact failEnt_memWf ((xlateAll_memWf h).of_eq e'')
      next e3 => exact (xlateAll_memWf h).of_eq e3

theorem execTranslate_memWf {core : Fin 512} {fw : Bool} (h : s.memWf) : OutWf (execTranslate core fw s) := by
  unfold execTranslate
  split
  · exact OutWf.next (translateEnt_memWf h)
  · exact OutWf.next h

theorem execLeaseLookup_memWf {core : Fin 512} {fw : Bool} (h : s.memWf) : OutWf (execLeaseLookup core fw s) := by
  unfold execLeaseLookup
  dsimp only
  split
  · exact ite_wf (OutWf.next h) (OutWf.next (putCluster_memWf (putCore_memWf h)))
  · exact OutWf.next h

theorem takeDeferred_memWf {c : Fin 512} {d : Deferred} (h : s.memWf) : (takeDeferred s c d).memWf := startTrap_memWf (atBoundary_memWf h)

theorem execDeferredFault_memWf {core : Fin 512} {fw : Bool} (h : s.memWf) : OutWf (execDeferredFault core fw s) := by
  unfold execDeferredFault
  split
  · exact OutWf.next h
  · exact ite_wf (OutWf.next (fwFault_memWf h)) (ite_wf (OutWf.next (takeDeferred_memWf h)) (OutWf.next h))

theorem resendAll_memWf {c : Fin 512} (h : s.memWf) : (resendAll s c).memWf := by
  unfold resendAll
  refine foldl_wf h fun _ _ ht => ?_
  split
  · exact ite_wf (resendQst_memWf ht) ht
  · exact ht

theorem execTokenExpire_memWf {core : Fin 512} (h : s.memWf) : OutWf (execTokenExpire core s) := by
  unfold execTokenExpire
  have ht := resendAll_memWf (c := core) h
  generalize resendAll s core = t at ht
  extract_lets r c due
  generalize (List.finRange 256).find? due = o
  cases o with
  | none => exact .next ht
  | some i =>
    dsimp only
    split
    · exact ite_wf (.next (fwFault_memWf (putCore_memWf ht)))
        (ite_wf (.next (settleHold_memWf (putCore_memWf ht))) (.next (putCore_memWf ht)))
    · exact .next ht

/-! ### Control words (R86 to R96) -/

theorem goto_memWf {i : BitVec 32} (h : s.memWf) : (goto s i).memWf := update_memWf h

theorem execBr_memWf {hd : Head} {o : BitVec 16} (h : s.memWf) : OutWf (execBr hd o s) :=
  guarded_memWf h (fun _ ht => OutWf.next (goto_memWf ht))

theorem execCall_memWf {hd : Head} {a : BitVec 5} {o : BitVec 16} (h : s.memWf) : OutWf (execCall hd a o s) :=
  guarded_memWf h (fun _ ht => OutWf.next (goto_memWf (wrS_memWf ht)))

theorem execJr_memWf {hd : Head} {a : BitVec 5} (h : s.memWf) : OutWf (execJr hd a s) :=
  guarded_memWf h (fun _ ht => OutWf.next (update_memWf ht))

theorem execLoop_memWf {hd : Head} {a : BitVec 5} {o : BitVec 16} (h : s.memWf) : OutWf (execLoop hd a o s) :=
  guarded_memWf h (fun _ ht => ite_wf (OutWf.next (goto_memWf ht)) (ite_wf (raise_memWf ht) (OutWf.next (goto_memWf (setCtx_memWf ht)))))

theorem execCrd_memWf {hd : Head} {d : BitVec 5} {n : BitVec 11} (h : s.memWf) : OutWf (execCrd hd d n s) :=
  guarded_memWf h (fun _ ht => ite_wf (OutWf.next (wrS_memWf ht)) (raise_memWf ht))

theorem modCtl_memWf {f : Ctl → Ctl} (h : s.memWf) : (modCtl s f).memWf := setCur_memWf h

theorem writePix_memWf {v : BitVec 32} (h : s.memWf) : (writePix s v).memWf := by
  unfold writePix
  dsimp only
  split
  · exact update_memWf (setCur_memWf h)
  · exact h

theorem writePlace_memWf {n : Nat} {x : Word} (h : s.memWf) : OptWf (writePlace s n x) := by
  unfold writePlace
  dsimp only
  split
  · exact ite_wf OptWf.none (OptWf.some (ite_wf (putPart_memWf h) (tdiToError_memWf (putPart_memWf h))))
  · exact ite_wf OptWf.none (OptWf.some h)

theorem writeFstat_memWf {p : Fin 16} {hd : BitVec 13} (h : s.memWf) : (writeFstat s p hd).memWf :=
  ite_wf (releaseHeld_memWf (putPart_memWf h)) h

theorem modPart_memWf {f : Part → Part} (h : s.memWf) : (modPart s f).memWf := by
  unfold modPart
  split
  · exact putPart_memWf h
  · exact h

theorem writeCtl_memWf {n : Nat} {x : Word} (h : s.memWf) : OptWf (writeCtl s n x) := by
  unfold writeCtl
  refine ite_wf (OptWf.some (modCtl_memWf h)) ?_
  refine ite_wf (OptWf.some (modCtl_memWf h)) ?_
  refine ite_wf (OptWf.some (modCtl_memWf h)) ?_
  refine ite_wf (OptWf.some (writePix_memWf h)) ?_
  refine ite_wf (OptWf.some (modCtl_memWf h)) ?_
  refine ite_wf (OptWf.some (modCtl_memWf h)) ?_
  refine ite_wf (OptWf.some (modPart_memWf h)) ?_
  refine ite_wf (OptWf.some (modPart_memWf h)) ?_
  refine ite_wf ?_ (ite_wf (OptWf.some h) (ite_wf (OptWf.some (modCtl_memWf h))
    (ite_wf (OptWf.some (modCtl_memWf h)) (ite_wf (writePlace_memWf h) OptWf.none))))
  refine OptWf.some ?_
  split
  · exact writeFstat_memWf h
  · exact h

theorem execCwr_memWf {hd : Head} {a : BitVec 5} {n : BitVec 11} (h : s.memWf) : OutWf (execCwr hd a n s) := by
  unfold execCwr
  refine guarded_memWf h fun _ ht => ?_
  refine ite_wf ?_ (raise_memWf ht)
  split
  next e => exact OutWf.next ((writeCtl_memWf ht).of_eq e)
  · exact raise_memWf ht

theorem fenceScope_memWf {z : Scope} {hd : Head} (h : s.memWf) : OutWf (fenceScope z hd s) :=
  guarded_memWf h (fun _ ht => ite_wf (stall_memWf ht) (OutWf.next ht))

theorem execFenceCore_memWf {hd : Head} (h : s.memWf) : OutWf (execFenceCore hd s) := fenceScope_memWf h

theorem execFenceCluster_memWf {hd : Head} (h : s.memWf) : OutWf (execFenceCluster hd s) := fenceScope_memWf h

theorem execFenceDie_memWf {hd : Head} (h : s.memWf) : OutWf (execFenceDie hd s) := fenceScope_memWf h

theorem execFencePkg_memWf {hd : Head} (h : s.memWf) : OutWf (execFencePkg hd s) := fenceScope_memWf h

theorem execFenceSys_memWf {hd : Head} (h : s.memWf) : OutWf (execFenceSys hd s) := fenceScope_memWf h

theorem execTrap_memWf {hd : Head} {k : BitVec 11} (h : s.memWf) : OutWf (execTrap hd k s) :=
  guarded_memWf h (fun _ ht => ite_wf (raise_memWf ht) (ite_wf (stall_memWf ht)
    (OutWf.next (update_memWf (startTrap_memWf (atBoundary_memWf (advance_memWf ht)))))))

theorem execTret_memWf {hd : Head} (h : s.memWf) : OutWf (execTret hd s) :=
  guarded_memWf h (fun _ ht => ite_wf (raise_memWf ht) (ite_wf (raise_memWf ht)
    (ite_wf (stall_memWf ht) (OutWf.next (returnFromTrap_memWf ht)))))

/-! ### The copy words and the copy engine (R152 to R166, R347) -/

theorem tmBlock_memWf {ea : Word} {align n : Nat} {f : Nat → Out} (h : s.memWf) (hf : ∀ (n : Nat), OutWf (f n)) :
    OutWf (tmBlock s ea align n f) := by
  unfold tmBlock
  refine ite_wf (raiseAt_memWf h) ?_
  split
  · exact raiseAt_memWf h
  · exact ite_wf (hf _) (raiseAt_memWf h)

theorem startCopy_memWf {c : Fin 512} {fw nest : Bool} {kind : CopyKind} {d : List Byte} {bar : Option (BitVec 11)} {src dst : Span}
    {srcAt dstAt : Nat} {stamp : Option Word} {boxes : Nat} {nonce : Word} (h : s.memWf) :
    OptFstWf (startCopy s c fw nest kind d bar src dst srcAt dstAt stamp boxes nonce) := by
  unfold startCopy
  dsimp only
  split
  · exact OptFstWf.none
  · exact ite_wf OptFstWf.none (OptFstWf.some (update_memWf (putCore_memWf h)))

theorem issueCopy_memWf {f k : BitVec 3} {v : Variant} {hd : Head} {d a b : BitVec 5} (h : s.memWf) :
    OutWf (issueCopy f k v hd d a b s) := by
  unfold issueCopy
  refine guarded_memWf h fun _ ht => ?_
  refine tmBlock_memWf ht fun _ => ?_
  refine ite_wf (stall_memWf ht) ?_
  dsimp only
  split
  · exact raise_memWf ht
  · split
    · exact raise_memWf ht
    · refine ite_wf (raise_memWf ht) ?_
      refine onRes_memWf ht fun _ => ?_
      split
      next e => exact OutWf.next (wrS_memWf ((startCopy_memWf ht).of_eq e))
      · exact stall_memWf ht

theorem execCpy2d_memWf {hd : Head} {d a b : BitVec 5} (h : s.memWf) : OutWf (execCpy2d hd d a b s) := issueCopy_memWf h

theorem execCpy2dCvtRelay_memWf {hd : Head} {d a b : BitVec 5} (h : s.memWf) : OutWf (execCpy2dCvtRelay hd d a b s) := issueCopy_memWf h

theorem execCpy2dCvtQnt_memWf {hd : Head} {d a b : BitVec 5} (h : s.memWf) : OutWf (execCpy2dCvtQnt hd d a b s) := issueCopy_memWf h

theorem execCpy2dCvtZexp_memWf {hd : Head} {d a b : BitVec 5} (h : s.memWf) : OutWf (execCpy2dCvtZexp hd d a b s) := issueCopy_memWf h

theorem execCpy2dRedAddF32_memWf {hd : Head} {d a b : BitVec 5} (h : s.memWf) : OutWf (execCpy2dRedAddF32 hd d a b s) := issueCopy_memWf h

theorem execCpy2dRedAddBf16_memWf {hd : Head} {d a b : BitVec 5} (h : s.memWf) : OutWf (execCpy2dRedAddBf16 hd d a b s) := issueCopy_memWf h

theorem execCpy2dRedMaxF32_memWf {hd : Head} {d a b : BitVec 5} (h : s.memWf) : OutWf (execCpy2dRedMaxF32 hd d a b s) := issueCopy_memWf h

theorem execCpy2dRedMinF32_memWf {hd : Head} {d a b : BitVec 5} (h : s.memWf) : OutWf (execCpy2dRedMinF32 hd d a b s) := issueCopy_memWf h

theorem execCpy2dStamp_memWf {hd : Head} {d a b : BitVec 5} (h : s.memWf) : OutWf (execCpy2dStamp hd d a b s) := issueCopy_memWf h

theorem issueSeal_memWf {open_ : Bool} {hd : Head} {d a b : BitVec 5} (h : s.memWf) : OutWf (issueSeal open_ hd d a b s) := by
  unfold issueSeal
  refine guarded_memWf h fun _ ht => ?_
  refine tmBlock_memWf ht fun _ => ?_
  refine ite_wf (stall_memWf ht) ?_
  dsimp only
  split
  · exact raise_memWf ht
  · split
    · exact raise_memWf ht
    · refine ite_wf (raise_memWf ht) ?_
      refine ite_wf (raise_memWf ht) ?_
      refine ite_wf (raise_memWf ht) ?_
      refine ite_wf (raise_memWf ht) ?_
      refine ite_wf (raise_memWf ht) ?_
      refine onRes_memWf ht fun _ => ?_
      split
      next e => exact OutWf.next (wrS_memWf (update_memWf ((startCopy_memWf ht).of_eq e)))
      · exact stall_memWf ht

theorem execSealChunks_memWf {hd : Head} {d a b : BitVec 5} (h : s.memWf) : OutWf (execSealChunks hd d a b s) := issueSeal_memWf h

theorem execUnsealChunks_memWf {hd : Head} {d a b : BitVec 5} (h : s.memWf) : OutWf (execUnsealChunks hd d a b s) := issueSeal_memWf h

theorem execCpycan_memWf {hd : Head} {a : BitVec 5} (h : s.memWf) : OutWf (execCpycan hd a s) := by
  unfold execCpycan
  refine guarded_memWf h fun _ ht => ?_
  refine ite_wf (stall_memWf ht) ?_
  split
  · exact OutWf.next ht
  · exact ite_wf (OutWf.next (endCancel_memWf ht)) (stall_memWf (putCopy_memWf ht))

theorem takeTurn_memWf {c : Fin 512} {slot : Fin 256} {k : Copy} {x : CopyTurn} (h : s.memWf) : (takeTurn s c slot k x).memWf := by
  unfold takeTurn
  split
  · exact startBox_memWf h
  · exact sendPart_memWf h
  · exact Req.run_memWf h
  · exact endPhase_memWf h
  · exact endCancel_memWf h

theorem execCopyBox_memWf {core : Fin 512} {slot : Fin 256} (h : s.memWf) : OutWf (execCopyBox core slot s) := by
  unfold execCopyBox
  split
  · exact OutWf.next h
  · split
    · exact OutWf.next (takeTurn_memWf h)
    · exact OutWf.next h

theorem execCopyStamp_memWf {core : Fin 512} {slot : Fin 256} (h : s.memWf) : OutWf (execCopyStamp core slot s) := by
  unfold execCopyStamp
  split
  · exact OutWf.next h
  · refine ite_wf (OutWf.next (startStamp_memWf h)) ?_
    split
    · exact OutWf.next (takeTurn_memWf h)
    · exact OutWf.next h

/-! ### Keys, scrubbing, images and memory errors (R331, R341, R350, R383) -/

theorem putKey_memWf {i : Fin 64} {k : KeySlot} (h : s.memWf) : (putKey s i k).memWf := update_memWf h

theorem destroyKeys_memWf {p : Fin 16} (h : s.memWf) : (destroyKeys s p).memWf := update_memWf h

theorem restartStreams_memWf {p : Fin 16} {epoch : Bool} (h : s.memWf) : (restartStreams s p epoch).memWf := update_memWf h

theorem installKey_memWf {i : Fin 64} {p : Fin 16} {cls : BitVec 2} (h : s.memWf) : (installKey s i p cls).memWf :=
  ite_wf (restartStreams_memWf (update_memWf h)) (update_memWf h)

theorem krotInstall_memWf {x y : Word} (h : s.memWf) : SndWf (krotInstall s x y) := ite_wf h (ite_wf h (ite_wf h (installKey_memWf h)))

theorem execKrotInstall_memWf {hd : Head} {d a b : BitVec 5} (h : s.memWf) : OutWf (execKrotInstall hd d a b s) :=
  guarded_memWf h (fun _ ht => OutWf.next (wrS_memWf (krotInstall_memWf ht)))

theorem execKrotQuery_memWf {hd : Head} {d a b : BitVec 5} (h : s.memWf) : OutWf (execKrotQuery hd d a b s) :=
  guarded_memWf h (fun _ ht => OutWf.next (wrS_memWf ht))

theorem execKrotRetire_memWf {hd : Head} {d a b : BitVec 5} (h : s.memWf) : OutWf (execKrotRetire hd d a b s) :=
  guarded_memWf h (fun _ ht => ite_wf (OutWf.next (wrS_memWf ht))
    (ite_wf (OutWf.next (wrS_memWf ht)) (OutWf.next (wrS_memWf (putKey_memWf ht)))))

theorem execKrotDestroy_memWf {hd : Head} {d a b : BitVec 5} (h : s.memWf) : OutWf (execKrotDestroy hd d a b s) :=
  guarded_memWf h (fun _ ht => ite_wf (OutWf.next (wrS_memWf ht)) (OutWf.next (wrS_memWf (destroyKeys_memWf ht))))

theorem sweepRegion_memWf {d : Fin 4} {r : Nat} {p : Fin 16} {a : KeySlot} (h : s.memWf) : (sweepRegion s d r p a).memWf := putDie_memWf h

theorem execMemSweep_memWf {part : Fin 16} (h : s.memWf) : OutWf (execMemSweep part s) := by
  unfold execMemSweep
  dsimp only
  split
  · refine .next (update_memWf ?_)
    split
    · exact sweepRegion_memWf h
    · exact h
  · exact .next h

theorem execKeyDrained_memWf {slot : Fin 64} (h : s.memWf) : OutWf (execKeyDrained slot s) := by
  unfold execKeyDrained
  refine ite_wf (OutWf.next h) ?_
  refine ite_wf ?_ (ite_wf (OutWf.next h) (OutWf.next (putKey_memWf h)))
  split
  · exact ite_wf (OutWf.next h) (OutWf.next (putKey_memWf h))
  · exact OutWf.next h

theorem scrubRegion_memWf {d : Fin 4} {r : Nat} (h : s.memWf) : (scrubRegion s d r).memWf := zero_memWf _ _ (putDie_memWf h)

theorem scrubRun_memWf {d : Fin 4} {r done n : Nat} (h : s.memWf) : SndWf (scrubRun s d r done n) := by
  induction n generalizing s r done with
  | zero => exact h
  | succ n ih =>
    unfold scrubRun
    exact ite_wf h (ih (scrubRegion_memWf h))

theorem execScrubRegions_memWf {hd : Head} {d a b : BitVec 5} (h : s.memWf) : OutWf (execScrubRegions hd d a b s) :=
  guarded_memWf h (fun _ ht => ite_wf (OutWf.next (wrS_memWf ht)) (OutWf.next (wrS_memWf (scrubRun_memWf ht))))

theorem loseLines_memWf {k : Fin 64} (h : s.memWf) : (loseLines s k).memWf :=
  foldl_wf h (fun _ _ ht => foldl_wf (store_memWf _ _ ht) (fun _ _ ht' => storeCap_memWf _ _ ht'))

theorem scrubCluster_memWf {k : Fin 64} (h : s.memWf) : (scrubCluster s k).memWf := zero_memWf _ _ (putCluster_memWf (loseLines_memWf h))

theorem execScrubCluster_memWf {hd : Head} {d a b : BitVec 5} (h : s.memWf) : OutWf (execScrubCluster hd d a b s) :=
  guarded_memWf h (fun _ ht => ite_wf (OutWf.next (wrS_memWf ht)) (OutWf.next (wrS_memWf (scrubCluster_memWf ht))))

theorem scrubCore_memWf {c : Fin 512} (h : s.memWf) : (scrubCore s c).memWf := zero_memWf _ _ (zero_memWf _ _ (putCore_memWf h))

theorem execScrubCore_memWf {hd : Head} {d a b : BitVec 5} (h : s.memWf) : OutWf (execScrubCore hd d a b s) :=
  guarded_memWf h (fun _ ht => ite_wf (OutWf.next (wrS_memWf ht))
    (ite_wf (OutWf.next (wrS_memWf ht)) (OutWf.next (wrS_memWf (scrubCore_memWf ht)))))

theorem extendPart_memWf {p : Fin 16} {bs : List Byte} (h : s.memWf) : (extendPart s p bs).memWf := update_memWf h

theorem execMext_memWf {hd : Head} {d a b : BitVec 5} (h : s.memWf) : OutWf (execMext hd d a b s) := by
  unfold execMext
  refine guarded_memWf h fun _ ht => ?_
  refine ite_wf (raiseAt_memWf ht) ?_
  dsimp only
  split
  · exact raiseAt_memWf ht
  · exact ite_wf (raiseAt_memWf ht) (ite_wf (stall_memWf ht) (ite_wf (OutWf.next (wrS_memWf (extendPart_memWf ht))) (OutWf.next (wrS_memWf ht))))

theorem modImages_memWf {f : Images → Images} (h : s.memWf) : (modImages s f).memWf := update_memWf h

theorem execSigchk_memWf {hd : Head} {d a : BitVec 5} (h : s.memWf) : OutWf (execSigchk hd d a s) :=
  guarded_memWf h (fun _ ht => ite_wf (OutWf.next (wrS_memWf ht))
    (ite_wf (OutWf.next (wrS_memWf ht)) (ite_wf (OutWf.next (wrS_memWf ht)) (OutWf.next (wrS_memWf (modImages_memWf ht))))))

theorem slotsw_memWf {hd : Head} {a d : BitVec 5} {f : State → Word → Out} (h : s.memWf)
    (hf : ∀ (t : State), t.memWf → ∀ (x : Word), OutWf (f t x)) : OutWf (slotsw hd a d s f) :=
  guarded_memWf h (fun _ ht => ite_wf (stall_memWf ht) (ite_wf (OutWf.next (wrS_memWf ht)) (hf _ ht _)))

theorem execSlotswQuery_memWf {hd : Head} {d a b : BitVec 5} (h : s.memWf) : OutWf (execSlotswQuery hd d a b s) :=
  slotsw_memWf h (fun _ ht _ => OutWf.next (wrS_memWf ht))

theorem execSlotswQuiesce_memWf {hd : Head} {d a b : BitVec 5} (h : s.memWf) : OutWf (execSlotswQuiesce hd d a b s) :=
  slotsw_memWf h (fun _ ht _ => ite_wf (OutWf.next (wrS_memWf (modImages_memWf ht))) (OutWf.next (wrS_memWf ht)))

theorem execSlotswSwitch_memWf {hd : Head} {d a b : BitVec 5} (h : s.memWf) : OutWf (execSlotswSwitch hd d a b s) := by
  unfold execSlotswSwitch
  refine slotsw_memWf h fun _ ht _ => ?_
  dsimp only
  split
  · exact OutWf.next (wrS_memWf ht)
  · exact OutWf.next (update_memWf (restartAll_memWf (modImages_memWf (foldl_wf ht (fun _ _ ht' => settleFw_memWf ht')))))

theorem commitImage_memWf (h : s.memWf) : (commitImage s).memWf := update_memWf (devWrite_memWf h)

theorem execSlotswBeat_memWf {hd : Head} {d a b : BitVec 5} (h : s.memWf) : OutWf (execSlotswBeat hd d a b s) :=
  slotsw_memWf h (fun _ ht _ => ite_wf (OutWf.next (wrS_memWf ht))
    (ite_wf (OutWf.next (wrS_memWf ht)) (OutWf.next (wrS_memWf (ite_wf (commitImage_memWf (modImages_memWf ht)) (modImages_memWf ht))))))

theorem execSlotswResume_memWf {hd : Head} {d a b : BitVec 5} (h : s.memWf) : OutWf (execSlotswResume hd d a b s) :=
  slotsw_memWf h (fun _ ht _ => ite_wf (OutWf.next (wrS_memWf ht))
    (ite_wf (OutWf.next (wrS_memWf ht)) (OutWf.next (wrS_memWf (modImages_memWf ht)))))

theorem execHeartbeatMissed_memWf (h : s.memWf) : OutWf (execHeartbeatMissed s) :=
  ite_wf (OutWf.next (update_memWf (rollBack_memWf h))) (OutWf.next h)

theorem execFwFault_memWf {core : Fin 512} {cause : Cause} (h : s.memWf) : OutWf (execFwFault core cause s) := OutWf.next (fwFault_memWf h)

theorem execNodeWriteback_memWf {die : Fin 4} {level : Fin 9} {node : BitVec 25} (h : s.memWf) :
    OutWf (execNodeWriteback die level node s) :=
  ite_wf (OutWf.next (putDie_memWf h)) (OutWf.next h)

theorem logFor_memWf {k : Cause} {p : Option (Fin 16)} {a : Word} (h : s.memWf) : (logFor s k p a).memWf := logRecord_memWf h

theorem poisonRegion_memWf {d : Fin 4} {p : Nat} (h : s.memWf) : (poisonRegion s d p).memWf := by
  unfold poisonRegion
  refine ite_wf h ?_
  dsimp only
  split
  · exact hubRecord_memWf (logFor_memWf (putDie_memWf h))
  · exact logFor_memWf (putDie_memWf h)

theorem poisonStack_memWf {d : Fin 4} {p : Nat} (h : s.memWf) : (poisonStack s d p).memWf :=
  ite_wf h (foldl_wf (logFor_memWf (putDie_memWf h)) (fun _ _ ht => hubRecord_memWf (tdiToError_memWf ht)))

theorem execUncorrectableError_memWf {die : Fin 4} {addr : BitVec 40} {site : ErrSite} (h : s.memWf) :
    OutWf (execUncorrectableError die addr site s) := by
  unfold execUncorrectableError
  refine OutWf.next ?_
  dsimp only
  split
  · exact putDie_memWf (logFor_memWf h)
  · exact poisonRegion_memWf h
  · exact poisonStack_memWf h

theorem execCorrectableError_memWf {cls : Fin 8} (h : s.memWf) : OutWf (execCorrectableError cls s) := OutWf.next (update_memWf h)

/-! ### Units and continuation records (R91 to R93, R252 to R266) -/

theorem modWindow_memWf {p : Fin 16} {f : Window → Window} (h : s.memWf) : (modWindow s p f).memWf := putAux_memWf h

theorem modLaunch_memWf {p : Fin 16} {launch : BitVec 32} {f : WinEnt → WinEnt} (h : s.memWf) : (modLaunch s p launch f).memWf :=
  modWindow_memWf h

theorem workDone_memWf {p : Fin 16} {launch : BitVec 32} (h : s.memWf) : (workDone s p launch).memWf := modLaunch_memWf h

theorem faultLaunch_memWf {p : Fin 16} {launch : BitVec 32} {k : Cause} {unit : BitVec 32} (h : s.memWf) :
    (faultLaunch s p launch k unit).memWf :=
  modLaunch_memWf h

theorem writeArgs_memWf {c : Fin 512} {p : Fin 16} {e : WinEnt} (h : s.memWf) : (writeArgs s c p e).memWf :=
  store_memWf _ _ (foldl_wf (zero_memWf _ _ h) (fun _ _ ht => ite_wf ht (ite_wf (storeCap_memWf _ _ ht) (store_memWf _ _ ht))))

theorem startUnit_memWf {c : Fin 512} {p : Fin 16} {e : WinEnt} {pkt : BitVec 32} {idx : Vector (BitVec 16) 6}
    {saved : Option (Vector Word 5)} {unitid : BitVec 32} (h : s.memWf) : (startUnit s c p e pkt idx saved unitid).memWf :=
  writeArgs_memWf (zero_memWf _ _ (putCore_memWf (settleHold_memWf h)))

theorem freeCore_memWf {c : Fin 512} (h : s.memWf) : (freeCore s c).memWf := settleHold_memWf (putCore_memWf h)

theorem discardCopy_memWf {c : Fin 512} {slot : Fin 256} (h : s.memWf) : (discardCopy s c slot).memWf := by
  unfold discardCopy
  split
  · exact h
  · exact ite_wf h (ite_wf (endCopy_memWf h) (ite_wf (endCancel_memWf h) (putCopy_memWf h)))

theorem discardUnit_memWf {c : Fin 512} (h : s.memWf) : (discardUnit s c).memWf :=
  ite_wf h (settleHold_memWf (putCore_memWf (foldl_wf h (fun _ _ ht => discardCopy_memWf ht))))

theorem spillRec_memWf {k : Fin 64} {r : CRec} (h : s.memWf) : (spillRec s k r).memWf := by
  unfold spillRec
  refine putCluster_memWf ?_
  split
  · exact devWrite_memWf h
  · exact h

theorem insertRec_memWf {k : Fin 64} {r : CRec} (h : s.memWf) : (insertRec s k r).memWf := ite_wf (putCluster_memWf h) (spillRec_memWf h)

theorem dropRecords_memWf {p : Fin 16} {launch : BitVec 32} (h : s.memWf) : (dropRecords s p launch).memWf := update_memWf h

theorem finishEnding_memWf {c : Fin 512} (h : s.memWf) : (finishEnding s c).memWf := by
  unfold finishEnding
  dsimp only
  split
  · exact h
  · refine ite_wf h ?_
    split
    · exact workDone_memWf (freeCore_memWf h)
    · exact insertRec_memWf (freeCore_memWf h)
    · exact freeCore_memWf h

theorem execDone_memWf {hd : Head} (h : s.memWf) : OutWf (execDone hd s) :=
  guarded_memWf h (fun _ ht => ite_wf (raise_memWf ht) (ite_wf (stall_memWf ht)
    (OutWf.next (update_memWf (finishEnding_memWf (setCur_memWf ht))))))

theorem execSuspend_memWf {hd : Head} {k : BitVec 5} (h : s.memWf) : OutWf (execSuspend hd k s) := by
  unfold execSuspend
  refine guarded_memWf h fun _ ht => ?_
  refine ite_wf (raise_memWf ht) ?_
  dsimp only
  split
  · exact raiseAt_memWf ht
  · exact ite_wf (stall_memWf ht) (OutWf.next (update_memWf (finishEnding_memWf (setCur_memWf ht))))

theorem postShard_memWf {ea : Word} (h : s.memWf) : FstWf (postShard s ea) := by
  unfold postShard
  dsimp only
  split
  · exact h
  · exact h
  · exact h
  · exact h
  · exact h
  · exact h
  · exact h
  · exact h
  · refine ite_wf h ?_
    split
    · exact h
    · refine ite_wf h ?_
      split
      · exact h
      · exact reportAbsent_memWf h
      · exact reportBad_memWf h
      · exact h

theorem execPost_memWf {hd : Head} {d a k : BitVec 5} (h : s.memWf) : OutWf (execPost hd d a k s) := by
  unfold execPost
  refine guarded_memWf h fun _ ht => ?_
  refine ite_wf (raise_memWf ht) ?_
  dsimp only
  split
  · exact raiseAt_memWf ht
  · split
    next e => exact raiseAt_memWf ((postShard_memWf ht).of_eq e)
    next e' => exact stall_memWf ((postShard_memWf ht).of_eq e')
    next e'' =>
      have hu := (postShard_memWf ht).of_eq e''
      exact ite_wf (stall_memWf hu) (OutWf.next (insertRec_memWf (modLaunch_memWf (useAll_memWf hu))))

theorem execHandUnit_memWf {part : Fin 16} (h : s.memWf) : OutWf (execHandUnit part s) := by
  unfold execHandUnit
  dsimp only
  split
  · exact OutWf.next h
  · split
    · exact OutWf.next h
    · exact OutWf.next (startUnit_memWf (modWindow_memWf (modLaunch_memWf h)))

theorem execResumeRecord_memWf {core : Fin 512} (h : s.memWf) : OutWf (execResumeRecord core s) := by
  unfold execResumeRecord
  dsimp only
  split
  · exact OutWf.next h
  · split
    · exact OutWf.next h
    · refine ite_wf (OutWf.next h) ?_
      split
      · exact OutWf.next (startUnit_memWf (putCluster_memWf h))
      · exact OutWf.next (putCluster_memWf h)

theorem execOverflowRefill_memWf {cluster : Fin 64} (h : s.memWf) : OutWf (execOverflowRefill cluster s) := by
  unfold execOverflowRefill
  dsimp only
  split
  · exact ite_wf (OutWf.next (putCluster_memWf h)) (OutWf.next h)
  · exact OutWf.next h

theorem readWaitWord_memWf {k : Fin 64} {r : CRec} (h : s.memWf) : FstWf (readWaitWord s k r) := by
  unfold readWaitWord
  dsimp only
  split
  · exact h
  · exact h
  · split
    · exact h
    · refine ite_wf h ?_
      refine ite_wf h ?_
      split
      next e => exact (globRead_memWf h).of_eq e
      next e' => exact (globRead_memWf h).of_eq e'
      next e'' => exact (globRead_memWf h).of_eq e''
  · exact h

theorem putRec_memWf {k : Fin 64} {i : Nat} {r : CRec} (h : s.memWf) : (putRec s k i r).memWf := putCluster_memWf h

theorem askWaitWord_memWf {k : Fin 64} {i : Nat} {r : CRec} (h : s.memWf) : (askWaitWord s k i r).memWf := putRec_memWf (send_memWf h)

theorem failRec_memWf {k : Fin 64} {i : Nat} {r : CRec} {c : Cause} (h : s.memWf) : (failRec s k i r c).memWf :=
  workDone_memWf (faultLaunch_memWf (putCluster_memWf h))

theorem execShardWatch_memWf {cluster : Fin 64} {idx : Fin 1024} (h : s.memWf) : OutWf (execShardWatch cluster idx s) := by
  unfold execShardWatch
  dsimp only
  split
  · exact OutWf.next h
  · refine ite_wf (OutWf.next h) ?_
    split
    next e => exact OutWf.next (putRec_memWf ((readWaitWord_memWf h).of_eq e))
    next e' => exact OutWf.next (failRec_memWf ((readWaitWord_memWf h).of_eq e'))
    next e'' =>
      have hu := (readWaitWord_memWf h).of_eq e''
      exact ite_wf (OutWf.next (askWaitWord_memWf hu)) (OutWf.next hu)

theorem execRampWindow_memWf {core : Fin 512} (h : s.memWf) : OutWf (execRampWindow core s) :=
  ite_wf (OutWf.next h) (OutWf.next (putCore_memWf h))

/-! ### What a unit takes at a bundle boundary (R315) -/

theorem modPend_memWf {c : Fin 512} {f : Pend → Pend} (h : s.memWf) : (modPend s c f).memWf := putCore_memWf h

theorem boundaryTrap_memWf {c : Fin 512} (h : s.memWf) : OptWf (boundaryTrap s c) := by
  unfold boundaryTrap
  dsimp only
  split
  · exact OptWf.some (takeDeferred_memWf h)
  · split
    · exact OptWf.some (startTrap_memWf (modPend_memWf (atBoundary_memWf h)))
    · refine ite_wf (OptWf.some (startTrap_memWf (modPend_memWf (atBoundary_memWf h)))) ?_
      refine ite_wf OptWf.none ?_
      split
      · exact OptWf.some (startTrap_memWf (atBoundary_memWf h))
      · exact ite_wf (OptWf.some (startTrap_memWf (modPend_memWf (atBoundary_memWf h)))) OptWf.none

theorem endTrap_memWf {c : Fin 512} (h : s.memWf) : (endTrap s c).memWf := by
  unfold endTrap
  split
  · exact ite_wf (takeTrap_memWf h) h
  · exact h

theorem execTakeTrap_memWf {core : Fin 512} (h : s.memWf) : OutWf (execTakeTrap core s) :=
  ite_wf (OutWf.next (discardUnit_memWf h)) (ite_wf (OutWf.next (endTrap_memWf h))
    (ite_wf (OutWf.next h) (OutWf.next (OptWf.getD (boundaryTrap_memWf h) h))))

theorem execWatchdog_memWf {core : Fin 512} (h : s.memWf) : OutWf (execWatchdog core s) :=
  ite_wf (OutWf.next (modPend_memWf h)) (OutWf.next h)

/-! ### Issuing a bundle (R28, R55, R90) -/

theorem enter_memWf {since : Nat} {regs : Regs} {last : Nat} {w : Slot} (h : s.memWf) : (enter s since regs last w).memWf := update_memWf h

theorem leave_memWf (h : s.memWf) : (leave s).memWf := update_memWf h

theorem runWord_memWf {run : Instr → State → Out} {since : Nat} {regs : Regs} {last : Nat} {ws : List Slot} {w : Slot}
    (hrun : ∀ (i : Instr) (t : State), t.memWf → OutWf (run i t)) (h : s.memWf) : OutWf (runWord run s since regs last ws w) :=
  ite_wf (raise_memWf (enter_memWf h)) (hrun _ _ (enter_memWf h))

theorem firstStop_memWf {run : Instr → State → Out} {last : Nat} {all l : List Slot} {x : Out}
    (hrun : ∀ (i : Instr) (t : State), t.memWf → OutWf (run i t)) (h : s.memWf) (e : firstStop run s last all l = some x) : OutWf x := by
  induction l with
  | nil => cases e
  | cons w l ih =>
    have hw : OutWf (runWord run s s.serial s.ctx.regs last all w) := runWord_memWf hrun h
    unfold firstStop at e
    split at e
    next he =>
      split at e
      · exact ih e
      · cases e
        exact .next (hw.of_eq he)
    · cases e
      exact hw

theorem runAll_memWf {run : Instr → State → Out} {since : Nat} {regs : Regs} {last : Nat} {all l : List Slot}
    (hrun : ∀ (i : Instr) (t : State), t.memWf → OutWf (run i t)) (h : s.memWf) : OutWf (runAll run since regs last all l s) := by
  induction l generalizing s with
  | nil => exact .next h
  | cons w l ih =>
    unfold runAll
    split
    next e =>
      have ht := (runWord_memWf hrun h).of_eq e
      exact ite_wf (ih ht) (.next ht)
    · exact runWord_memWf hrun h

theorem keepLater_memWf {since : Nat} {live : List Slot} (h : s.memWf) : (keepLater s since live).memWf := setCtx_memWf h

theorem keepWritten_memWf {w : Slot} {live : List Slot} (ht : t.memWf) : (keepWritten s w live t).memWf :=
  foldl_wf ht (fun _ _ ht => wrS_memWf ht)

theorem runLast_memWf {run : Instr → State → Out} {since : Nat} {regs : Regs} {last : Nat} {all l : List Slot}
    (hrun : ∀ (i : Instr) (t : State), t.memWf → OutWf (run i t)) (h : s.memWf) : OutWf (runLast run since regs last all l s) := by
  induction l generalizing s with
  | nil => exact .next h
  | cons w l ih =>
    unfold runLast
    split
    next e =>
      have ht := (runWord_memWf hrun h).of_eq e
      exact ite_wf (ih (keepWritten_memWf ht)) (.next ht)
    · exact runWord_memWf hrun h

theorem closeBundle_memWf (h : s.memWf) : (closeBundle s).memWf := ite_wf (setCtx_memWf h) (advance_memWf h)

theorem countIssue_memWf {ws : List Slot} (h : s.memWf) : (countIssue s ws).memWf := ite_wf (setCur_memWf h) (count_memWf (setCur_memWf h))

theorem waitAt_memWf {place : Nat} (h : s.memWf) : (waitAt s place).memWf := setCtx_memWf h

theorem closeEnded_memWf {ws : List Slot} (h : s.memWf) : (closeEnded s ws).memWf :=
  ite_wf (waitAt_memWf (countIssue_memWf h)) (countIssue_memWf h)

theorem finish_memWf {ws : List Slot} {o : Out} (ho : OutWf o) : OutWf (finish ws o) := by
  unfold finish
  split
  · split
    · exact OutWf.next (leave_memWf (countIssue_memWf (closeBundle_memWf (ho.of_eq rfl))))
    · exact OutWf.next (leave_memWf (waitAt_memWf (ho.of_eq rfl)))
    · exact OutWf.next (leave_memWf (ho.of_eq rfl))
    · exact OutWf.next (leave_memWf (closeEnded_memWf (ho.of_eq rfl)))
  · exact ho

theorem runBundle_memWf {run : Instr → State → Out} {last : Nat} {ws : List Slot}
    (hrun : ∀ (i : Instr) (t : State), t.memWf → OutWf (run i t)) (h : s.memWf) : OutWf (runBundle run s last ws) := by
  unfold runBundle
  split
  · exact finish_memWf (runWord_memWf hrun h)
  · split
    next e => exact finish_memWf (firstStop_memWf hrun h e)
    · dsimp only
      split
      next e =>
        have ht := (runAll_memWf hrun h).of_eq e
        refine ite_wf (.next (leave_memWf (waitAt_memWf h))) (ite_wf (finish_memWf (.next ht)) ?_)
        split
        next e' =>
          have ht' := (runLast_memWf hrun (keepLater_memWf ht)).of_eq e'
          exact ite_wf (.next (leave_memWf (waitAt_memWf h))) (finish_memWf (.next ht'))
        · exact runLast_memWf hrun (keepLater_memWf ht)
      · exact runAll_memWf hrun h

theorem fetchFault_memWf {k : Cause} (h : s.memWf) : OutWf (fetchFault s k) := finish_memWf (raiseAt_memWf (update_memWf h))

theorem issueFrom_memWf {run : Instr → State → Out} {ws : List (BitVec 32)} (hrun : ∀ (i : Instr) (t : State), t.memWf → OutWf (run i t))
    (h : s.memWf) : OutWf (issueFrom run s ws) := by
  unfold issueFrom
  dsimp only
  split
  · exact finish_memWf (raise_memWf (update_memWf h))
  · split
    · exact OutWf.next (waitAt_memWf h)
    · exact runBundle_memWf hrun h

theorem fetchIssue_memWf {run : Instr → State → Out} (hrun : ∀ (i : Instr) (t : State), t.memWf → OutWf (run i t)) (h : s.memWf) :
    OutWf (fetchIssue run s) := by
  unfold fetchIssue
  refine ite_wf (fetchFault_memWf h) ?_
  split
  next e => exact issueFrom_memWf hrun ((fetchPacket_memWf h).of_eq e)
  next e' => exact fetchFault_memWf ((fetchPacket_memWf h).of_eq e')
  next e'' => exact OutWf.next ((fetchPacket_memWf h).of_eq e'')

theorem packetEnd_memWf (h : s.memWf) : OptWf (packetEnd s) := ite_wf (OptWf.some h) (ite_wf OptWf.none (OptWf.some (setCtx_memWf h)))

theorem streamsReady_memWf (h : s.memWf) : FstWf (streamsReady s) := ite_wf h (reissueAll_memWf h)

theorem trapOrDone_memWf {run : Instr → State → Out} (hrun : ∀ (i : Instr) (t : State), t.memWf → OutWf (run i t)) (h : s.memWf)
    (ht : t.memWf) : OutWf (trapOrDone run s t) := by
  unfold trapOrDone
  refine ite_wf ?_ (OutWf.next (leave_memWf ht))
  split
  next e => exact ite_wf (OutWf.next ((fetchIssue_memWf hrun h).of_eq e)) (OutWf.next (leave_memWf ht))
  · exact fetchIssue_memWf hrun h

theorem issueNow_memWf {run : Instr → State → Out} (hrun : ∀ (i : Instr) (t : State), t.memWf → OutWf (run i t)) (h : s.memWf) :
    OutWf (issueNow run s) := by
  unfold issueNow
  split
  · exact OutWf.next h
  next e =>
    have hu := (packetEnd_memWf h).of_eq e
    refine ite_wf ?_ ?_
    · split
      · exact OutWf.next (leave_memWf (fwFault_memWf hu))
      · exact fetchIssue_memWf hrun hu
    · refine ite_wf (OutWf.next (leave_memWf (discardUnit_memWf hu))) ?_
      split
      next e' => exact trapOrDone_memWf hrun hu (OptWf.of_eq (ite_wf OptWf.none (boundaryTrap_memWf hu)) e')
      · split
        next e'' => exact fetchIssue_memWf hrun ((streamsReady_memWf hu).of_eq e'')
        next e3 => exact OutWf.next ((streamsReady_memWf hu).of_eq e3)

theorem shareWindow_memWf (h : s.memWf) : (shareWindow s).memWf := ite_wf (setCur_memWf h) h

theorem issue_memWf {run : Instr → State → Out} (hrun : ∀ (i : Instr) (t : State), t.memWf → OutWf (run i t)) (h : s.memWf) :
    OutWf (issue run s) :=
  ite_wf (OutWf.next (finishEnding_memWf h)) (ite_wf (OutWf.next h)
    (ite_wf (OutWf.next (shareWindow_memWf h)) (issueNow_memWf hrun (shareWindow_memWf h))))

/-! ### The matrix words (R174 to R195) -/

theorem startMma_memWf {c : Fin 512} {fw nest : Bool} {m : MmaArgs} (h : s.memWf) : (startMma s c fw nest m).memWf :=
  update_memWf (putCore_memWf h)

theorem issueMma_memWf {remote : Bool} {hd : Head} {d a b : BitVec 4} {k : MmaTy} (h : s.memWf) : OutWf (issueMma remote hd d a b k s) := by
  unfold issueMma
  refine guarded_memWf h fun _ ht => ?_
  dsimp only
  split
  · exact raiseAt_memWf ht
  · exact ite_wf (stall_memWf ht) (OutWf.next (startMma_memWf ht))

theorem execMmaDesc_memWf {hd : Head} {d a b : BitVec 4} {k : MmaTy} (h : s.memWf) : OutWf (execMmaDesc hd d a b k s) := issueMma_memWf h

theorem execMmaRmt_memWf {hd : Head} {d a b : BitVec 4} {k : MmaTy} (h : s.memWf) : OutWf (execMmaRmt hd d a b k s) := issueMma_memWf h

theorem execMmaReg_memWf {hd : Head} {d : BitVec 4} {a b : BitVec 3} {k : MmaTy} (h : s.memWf) : OutWf (execMmaReg hd d a b k s) :=
  guarded_memWf h (fun _ ht => ite_wf (stall_memWf ht) (ite_wf (stall_memWf (rampWaits_memWf ht)) (OutWf.next (wrA_memWf (rampStart_memWf ht)))))

theorem execMmaTileFetch_memWf {core : Fin 512} {fw : Bool} (h : s.memWf) : OutWf (execMmaTileFetch core fw s) := by
  unfold execMmaTileFetch
  dsimp only
  split
  · refine ite_wf (OutWf.next (runOwn_memWf h)) ?_
    split
    · exact OutWf.next (ite_wf (rampStart_memWf (mmaTurn_memWf h)) (rampWaits_memWf h))
    · exact OutWf.next (mmaTurn_memWf h)
  · exact OutWf.next h

theorem execMmaAccumulate_memWf {core : Fin 512} {fw : Bool} (h : s.memWf) : OutWf (execMmaAccumulate core fw s) := by
  unfold execMmaAccumulate
  split
  · exact OutWf.next (mmaFinish_memWf h)
  · exact OutWf.next h

theorem imageBlock_memWf {ea : Word} {raw : Bool} {i : Intent} {f : Nat → Out} (h : s.memWf) (hf : ∀ (n : Nat), OutWf (f n)) :
    OutWf (imageBlock s ea raw i f) := by
  unfold imageBlock
  refine ite_wf (raiseAt_memWf h) ?_
  split
  · exact raiseAt_memWf h
  · exact ite_wf (hf _) (raiseAt_memWf h)

theorem issueMld_memWf {raw : Bool} {hd : Head} {d : BitVec 4} {a : BitVec 5} (h : s.memWf) : OutWf (issueMld raw hd d a s) :=
  guarded_memWf h (fun _ ht => imageBlock_memWf ht (fun _ => ite_wf (stall_memWf ht) (OutWf.next (pushEnt_memWf ht))))

theorem execMldF32_memWf {hd : Head} {d : BitVec 4} {a : BitVec 5} (h : s.memWf) : OutWf (execMldF32 hd d a s) := issueMld_memWf h

theorem execMldRaw_memWf {hd : Head} {d : BitVec 4} {a : BitVec 5} (h : s.memWf) : OutWf (execMldRaw hd d a s) := issueMld_memWf h

theorem issueMst_memWf {raw : Bool} {hd : Head} {d : BitVec 5} {a : BitVec 4} (h : s.memWf) : OutWf (issueMst raw hd d a s) :=
  guarded_memWf h (fun _ ht => imageBlock_memWf ht (fun _ => ite_wf (stall_memWf ht) (OutWf.next (pushEnt_memWf ht))))

theorem execMstF32_memWf {hd : Head} {d : BitVec 5} {a : BitVec 4} (h : s.memWf) : OutWf (execMstF32 hd d a s) := issueMst_memWf h

theorem execMstRaw_memWf {hd : Head} {d : BitVec 5} {a : BitVec 4} (h : s.memWf) : OutWf (execMstRaw hd d a s) := issueMst_memWf h

theorem execMzero_memWf {hd : Head} {d : BitVec 4} (h : s.memWf) : OutWf (execMzero hd d s) :=
  guarded_memWf h (fun _ ht => ite_wf (stall_memWf ht) (OutWf.next (wrA_memWf ht)))

theorem execMread_memWf {hd : Head} {d : BitVec 5} {a : BitVec 4} {b : BitVec 2} (h : s.memWf) : OutWf (execMread hd d a b s) :=
  guarded_memWf h (fun _ ht => ite_wf (stall_memWf ht) (OutWf.next (wrV_memWf ht)))

theorem execMwrite_memWf {hd : Head} {d : BitVec 4} {a : BitVec 5} {b : BitVec 2} (h : s.memWf) : OutWf (execMwrite hd d a b s) :=
  guarded_memWf h (fun _ ht => ite_wf (stall_memWf ht) (OutWf.next (wrA_memWf ht)))

theorem execMsmax_memWf {hd : Head} {d : BitVec 3} (h : s.memWf) : OutWf (execMsmax hd d s) :=
  guarded_memWf h (fun _ ht => ite_wf (stall_memWf ht) (OutWf.next (wrA_memWf (wrA_memWf ht))))

theorem issueQuant_memWf {ea : Word} {f : QFmt} {t : BitVec 3} {vecs : List Vec} {acc : Option (BitVec 4)} (h : s.memWf) :
    OutWf (issueQuant s ea f t vecs acc) := by
  unfold issueQuant
  refine ite_wf (raiseAt_memWf h) ?_
  dsimp only
  split
  · exact raiseAt_memWf h
  · exact ite_wf (raiseAt_memWf h) (ite_wf (raise_memWf h) (ite_wf (stall_memWf h) (OutWf.next (update_memWf (setCur_memWf h)))))

theorem execVqrec_memWf {hd : Head} {t a : BitVec 3} {b : BitVec 5} {f : QFmt} (h : s.memWf) : OutWf (execVqrec hd t a b f s) :=
  guarded_memWf h (fun _ ht => issueQuant_memWf ht)

theorem execMqnt_memWf {hd : Head} {d : BitVec 4} {a : BitVec 5} {k : QFmt} {t : BitVec 3} (h : s.memWf) : OutWf (execMqnt hd d a k t s) :=
  guarded_memWf h (fun _ ht => issueQuant_memWf ht)

theorem execQuantBlockWritten_memWf {core : Fin 512} {fw : Bool} (h : s.memWf) : OutWf (execQuantBlockWritten core fw s) := by
  unfold execQuantBlockWritten
  dsimp only
  split
  · exact OutWf.next h
  · exact ite_wf (OutWf.next h) (OutWf.next (quantStep_memWf h))

/-! ### Barrier words and the nest engine (R155 to R173) -/

theorem barrierWord_memWf {hd : Head} {a : BitVec 5} {f : State → Nat → Out} (h : s.memWf)
    (hf : ∀ (t : State), t.memWf → ∀ (n : Nat), OutWf (f t n)) : OutWf (barrierWord hd a s f) :=
  guarded_memWf h (fun _ ht => ite_wf (raise_memWf ht) (ite_wf (stall_memWf ht) (hf _ ht _)))

theorem liveBarrier_memWf {n : Nat} {f : Bar → Out} (h : s.memWf) (hf : ∀ (x : Bar), OutWf (f x)) : OutWf (liveBarrier s n f) :=
  ite_wf (hf _) (raise_memWf h)

theorem execBinit_memWf {hd : Head} {a b : BitVec 5} (h : s.memWf) : OutWf (execBinit hd a b s) :=
  barrierWord_memWf h (fun _ ht _ => ite_wf (raise_memWf ht) (ite_wf (stall_memWf ht) (OutWf.next (putBar_memWf ht))))

theorem execBexp_memWf {hd : Head} {a b : BitVec 5} (h : s.memWf) : OutWf (execBexp hd a b s) :=
  barrierWord_memWf h (fun _ ht _ => liveBarrier_memWf ht (fun _ => OutWf.next (barEvent_memWf ht)))

theorem execBarrv_memWf {hd : Head} {a b : BitVec 5} (h : s.memWf) : OutWf (execBarrv hd a b s) :=
  barrierWord_memWf h (fun _ ht _ => liveBarrier_memWf ht (fun _ => OutWf.next (barEvent_memWf ht)))

theorem execBwait_memWf {hd : Head} {a b : BitVec 5} (h : s.memWf) : OutWf (execBwait hd a b s) :=
  barrierWord_memWf h (fun _ ht _ => liveBarrier_memWf ht (fun _ => ite_wf (OutWf.next ht) (stall_memWf ht)))

theorem execBtest_memWf {hd : Head} {d : BitVec 3} {a b : BitVec 5} (h : s.memWf) : OutWf (execBtest hd d a b s) :=
  barrierWord_memWf h (fun _ ht _ => liveBarrier_memWf ht (fun _ => OutWf.next (wrP_memWf ht)))

theorem setNest_memWf {n : Nest} (h : s.memWf) : (setNest s n).memWf := setCtx_memWf h

theorem execNestLd_memWf {hd : Head} {a : BitVec 5} (h : s.memWf) : OutWf (execNestLd hd a s) :=
  guarded_memWf h (fun _ ht => tmBlock_memWf ht (fun _ => ite_wf (stall_memWf ht)
    (ite_wf (raise_memWf ht) (ite_wf (raise_memWf ht) (ite_wf (raise_memWf ht) (OutWf.next (setNest_memWf ht)))))))

theorem execNestGo_memWf {hd : Head} (h : s.memWf) : OutWf (execNestGo hd s) :=
  guarded_memWf h (fun _ ht => ite_wf (stall_memWf ht) (ite_wf (raise_memWf ht)
    (ite_wf (raise_memWf ht) (OutWf.next (update_memWf (setNest_memWf ht))))))

theorem execNestWait_memWf {hd : Head} (h : s.memWf) : OutWf (execNestWait hd s) :=
  guarded_memWf h (fun _ ht => ite_wf (stall_memWf ht) (OutWf.next ht))

theorem putNest_memWf {c : Fin 512} {fw : Bool} {n : Nest} (h : s.memWf) : (putNest s c fw n).memWf := putCore_memWf h

theorem nestAdvance_memWf {c : Fin 512} {fw : Bool} (h : s.memWf) : (nestAdvance s c fw).memWf := putNest_memWf h

theorem nestStop_memWf {c : Fin 512} {fw : Bool} {k : Cause} {a : Word} (h : s.memWf) : (nestStop s c fw k a).memWf := putNest_memWf h

theorem emitCopy_memWf {c : Fin 512} {fw : Bool} {n : Nest} {v : Variant} (h : s.memWf) : (emitCopy s c fw n v).memWf := by
  unfold emitCopy
  refine ite_wf (nestStop_memWf h) ?_
  dsimp only
  split
  · exact nestStop_memWf h
  · exact h
  · split
    next e => exact nestAdvance_memWf ((startCopy_memWf h).of_eq e)
    · exact h

theorem emitMma_memWf {c : Fin 512} {fw : Bool} {n : Nest} {ty : MmaTy} {remote : Bool} (h : s.memWf) :
    (emitMma s c fw n ty remote).memWf := by
  unfold emitMma
  dsimp only
  split
  · exact nestStop_memWf h
  · exact ite_wf h (nestAdvance_memWf (startMma_memWf (update_memWf h)))

theorem execNestEmit_memWf {core : Fin 512} {fw : Bool} (h : s.memWf) : OutWf (execNestEmit core fw s) := by
  unfold execNestEmit
  refine ite_wf (OutWf.next h) ?_
  split
  · exact OutWf.next (emitCopy_memWf h)
  · exact OutWf.next (emitMma_memWf h)
  · exact OutWf.next h

/-! ### The command rings, SAVE and RESTORE (R249, R324 to R327, R376) -/

theorem onHead_memWf {r : Option (List Byte)} {f : List Byte → Out} (h : s.memWf) (hf : ∀ (bs : List Byte), OutWf (f bs)) :
    OutWf (onHead s r f) := by
  unfold onHead
  split
  · exact hf _
  · exact OutWf.next h

theorem ringDone_memWf {ring status : Nat} (h : s.memWf) : (ringDone s ring status).memWf := devWrite_memWf (devWrite_memWf h)

theorem partCommand_memWf {p : Fin 16} {cmd : Nat} {f : List Byte → Out} (h : s.memWf) (hf : ∀ (bs : List Byte), OutWf (f bs)) :
    OutWf (partCommand s p cmd f) :=
  onHead_memWf h (fun _ => ite_wf (hf _) (OutWf.next h))

theorem partDone_memWf {p : Fin 16} {status : Nat} (h : s.memWf) : OutWf (partDone s p status) := OutWf.next (ringDone_memWf h)

theorem execAbandon_memWf {part : Fin 16} (h : s.memWf) : OutWf (execAbandon part s) := by
  unfold execAbandon
  refine partCommand_memWf h fun _ => ?_
  dsimp only
  split
  · exact partDone_memWf h
  · exact ite_wf (partDone_memWf h) (ite_wf (partDone_memWf h) (partDone_memWf (workDone_memWf (discardUnit_memWf (faultLaunch_memWf h)))))

theorem execSave_memWf {part : Fin 16} (h : s.memWf) : OutWf (execSave part s) := by
  unfold execSave
  refine partCommand_memWf h fun _ => ?_
  dsimp only
  split
  · exact partDone_memWf h
  · exact ite_wf (partDone_memWf h) (ite_wf (OutWf.next h) (ite_wf (partDone_memWf h) (OutWf.next (devWrite_memWf (putCore_memWf h)))))

theorem writeSlot_memWf {c : Fin 512} {p : Fin 16} {slot : Word} (h : s.memWf) : (writeSlot s c p slot).memWf :=
  freeCore_memWf (putCore_memWf (putPart_memWf (devWrite_memWf (devWrite_memWf h))))

theorem failSave_memWf {c : Fin 512} {p : Fin 16} (h : s.memWf) : (failSave s c p).memWf :=
  ringDone_memWf (unitRecord_memWf (putCore_memWf h))

theorem execSaveWrite_memWf {core : Fin 512} (h : s.memWf) : OutWf (execSaveWrite core s) := by
  unfold execSaveWrite
  dsimp only
  split
  · refine ite_wf (OutWf.next h) ?_
    split
    · exact OutWf.next (putCore_memWf h)
    · exact ite_wf (OutWf.next (failSave_memWf h)) (ite_wf (OutWf.next h) (OutWf.next (ringDone_memWf (writeSlot_memWf h))))
  · exact OutWf.next h

theorem restoreArgs_memWf {c : Fin 512} {p : Fin 16} {e : WinEnt} {bs : List Byte} (h : s.memWf) : (restoreArgs s c p e bs).memWf :=
  ite_wf (writeArgs_memWf h) (store_memWf _ _ (writeArgs_memWf h))

theorem loadSlot_memWf {c : Fin 512} {p : Fin 16} {e : WinEnt} {bs : List Byte} {kept : SavedUnit} (h : s.memWf) :
    (loadSlot s c p e bs kept).memWf :=
  returnFromTrap_memWf (restoreArgs_memWf (store_memWf _ _ (store_memWf _ _
    (store_memWf _ _ (update_memWf (putCore_memWf (settleHold_memWf h)))))))

theorem freeSlot_memWf {p : Fin 16} {a : Nat} (h : s.memWf) : (freeSlot s p a).memWf := putPart_memWf h

theorem dropSaved_memWf {p : Fin 16} {launch : BitVec 32} (h : s.memWf) : (dropSaved s p launch).memWf :=
  foldl_wf h (fun _ _ ht => freeSlot_memWf ht)

theorem execRestore_memWf {part : Fin 16} (h : s.memWf) : OutWf (execRestore part s) := by
  unfold execRestore
  refine partCommand_memWf h fun _ => ?_
  dsimp only
  split
  · exact partDone_memWf h
  · refine ite_wf (partDone_memWf h) ?_
    split
    · exact ite_wf (partDone_memWf h) (partDone_memWf (loadSlot_memWf (freeSlot_memWf h)))
    · exact partDone_memWf h

/-! ### Commands to a translation slice (R307 to R312) -/

theorem sliceCommand_memWf {d : Fin 4} {cmd : Nat} {f : List Byte → Out} (h : s.memWf) (hf : ∀ (bs : List Byte), OutWf (f bs)) :
    OutWf (sliceCommand s d cmd f) :=
  onHead_memWf h (fun _ => ite_wf (hf _) (OutWf.next h))

theorem sliceDone_memWf {d : Fin 4} {status : Nat} (h : s.memWf) : OutWf (sliceDone s d status) := OutWf.next (ringDone_memWf h)

theorem dropLines_memWf {d : Fin 4} {pa n : Nat} (h : s.memWf) : (dropLines s d pa n).memWf := update_memWf h

theorem execInval_memWf {die : Fin 4} (h : s.memWf) : OutWf (execInval die s) :=
  onHead_memWf h (fun _ => ite_wf (sliceDone_memWf h) (ite_wf (OutWf.next h)
    (ite_wf (OutWf.next (putDie_memWf h)) (sliceDone_memWf (putDie_memWf h)))))

theorem execInvalAll_memWf {die : Fin 4} (h : s.memWf) : OutWf (execInvalAll die s) :=
  sliceCommand_memWf h (fun _ => ite_wf (OutWf.next (putDie_memWf h)) (sliceDone_memWf (putDie_memWf h)))

theorem evictNow_memWf {d : Fin 4} {g : Page} (h : s.memWf) : (evictNow s d g).memWf := by
  unfold evictNow
  refine putDie_memWf ?_
  split
  · exact dropLines_memWf h
  · exact h

theorem evictPage_memWf {die : Fin 4} {g : Page} (h : s.memWf) : OutWf (evictPage s die g) :=
  ite_wf (ite_wf (sliceDone_memWf (putDie_memWf h)) (OutWf.next h)) (ite_wf (OutWf.next (evictNow_memWf h)) (sliceDone_memWf (evictNow_memWf h)))

theorem execEvictComplete_memWf {die : Fin 4} (h : s.memWf) : OutWf (execEvictComplete die s) := by
  unfold execEvictComplete
  dsimp only
  split
  · exact OutWf.next h
  · exact ite_wf (OutWf.next (evictNow_memWf h)) (OutWf.next (tell_memWf (putDie_memWf (evictNow_memWf h))))

theorem execMigrate_memWf {die : Fin 4} (h : s.memWf) : OutWf (execMigrate die s) :=
  sliceCommand_memWf h (fun _ => ite_wf (OutWf.next h) (ite_wf (sliceDone_memWf h) (ite_wf (OutWf.next (putDie_memWf h)) (OutWf.next h))))

theorem readdress_memWf {d : Fin 4} {slot to_ : Nat} (h : s.memWf) : (readdress s d slot to_).memWf := devWrite_memWf h

theorem execMigrateMove_memWf {die : Fin 4} (h : s.memWf) : OutWf (execMigrateMove die s) := by
  unfold execMigrateMove
  refine sliceCommand_memWf h fun _ => ?_
  extract_lets g e
  split
  · have hmoved {a b : Nat} : (if a = b then dropLines s die a g.bytes else copyPage (dropLines s die a g.bytes) die a b g.bytes).memWf :=
      ite_wf (dropLines_memWf h) (copyPage_memWf _ _ _ _ (dropLines_memWf h))
    exact ite_wf (.next h) (sliceDone_memWf (putDie_memWf (readdress_memWf hmoved)))
  · exact sliceDone_memWf (putDie_memWf h)
  · exact .next h

theorem mapAsked_memWf {die : Fin 4} {g : Page} {f : WinEnt → Nat → WinEnt} (h : s.memWf) : (mapAsked s die g f).memWf := modWindow_memWf h

theorem execPresent_memWf {die : Fin 4} (h : s.memWf) : OutWf (execPresent die s) :=
  sliceCommand_memWf h (fun _ => sliceDone_memWf (mapAsked_memWf (putDie_memWf h)))

theorem execRefuse_memWf {die : Fin 4} (h : s.memWf) : OutWf (execRefuse die s) :=
  sliceCommand_memWf h (fun _ => sliceDone_memWf (mapAsked_memWf (putDie_memWf h)))

/-! ### The task window (R238 to R256) -/

theorem fillUndefined_memWf {p : Fin 16} {va : Word} {n : Nat} (h : s.memWf) : (fillUndefined s p va n).memWf := by
  unfold fillUndefined
  refine update_memWf (foldl_wf h fun _ _ ht => ?_)
  dsimp only
  split
  · exact store_memWf _ _ ht
  · exact ht

theorem newVersion_memWf {p : Fin 16} {b : Buf} {writer : Nat} {committed : Bool} (h : s.memWf) :
    OptFstWf (newVersion s p b writer committed) :=
  ite_wf OptFstWf.none (optMap_wf OptFstWf.none (fun _ _ => OptFstWf.some (fillUndefined_memWf (modWindow_memWf h))))

theorem slotVersion_memWf {p : Fin 16} {b : Buf} {mode : BitVec 2} {serial : Nat} (h : s.memWf) :
    OptFstWf (slotVersion s p b mode serial) := by
  unfold slotVersion
  refine ite_wf (OptFstWf.some h) ?_
  refine ite_wf (optMap_wf OptFstWf.none (fun _ e => OptFstWf.some ((newVersion_memWf h).of_eq e))) ?_
  split
  · exact OptFstWf.some h
  · exact optMap_wf OptFstWf.none (fun _ e' => OptFstWf.some ((newVersion_memWf h).of_eq e'))

theorem makeOperand_memWf {p : Fin 16} {serial slot : Nat} {mode : BitVec 2} {buf : BitVec 12} {off len : Nat} (h : s.memWf) :
    OptFstWf (makeOperand s p serial slot mode buf off len) := by
  unfold makeOperand
  dsimp only
  split
  · exact OptFstWf.none
  · exact optMap_wf OptFstWf.none (fun _ e => OptFstWf.some ((slotVersion_memWf h).of_eq e))

theorem makeOperands_memWf {p : Fin 16} {serial : Nat} {r : WTaskRec} (h : s.memWf) : OptFstWf (makeOperands s p serial r) := by
  unfold makeOperands
  dsimp only
  split
  · exact OptFstWf.none
  next e =>
    split
    · exact OptFstWf.none
    · refine optMap_wf OptFstWf.none fun _ e' => ?_
      refine OptFstWf.some ?_
      refine OptFstWf.of_eq ?_ e'
      refine makeOperand_memWf ?_
      refine OptFstWf.of_eq ?_ e
      refine optFoldlM_wf OptFstWf.none (OptFstWf.some h) fun _ _ ht => ?_
      refine ite_wf (OptFstWf.some (ht.of_eq rfl)) ?_
      split
      · exact OptFstWf.none
      · exact optMap_wf OptFstWf.none (fun _ e'' => OptFstWf.some ((makeOperand_memWf (ht.of_eq rfl)).of_eq e''))

theorem enterTask_memWf {p : Fin 16} {t : NewTask} (h : s.memWf) : OptWf (enterTask s p t) := by
  unfold enterTask
  refine ite_wf OptWf.none ?_
  dsimp only
  split
  · exact OptWf.none
  next e => exact ite_wf OptWf.none (OptWf.some (modWindow_memWf ((makeOperands_memWf h).of_eq e)))

theorem rangePages_memWf {p : Fin 16} {va : Word} {len : Nat} {write : Bool} (h : s.memWf) : FstWf (rangePages s p va len write) := by
  unfold rangePages
  refine foldl_wf h fun _ _ ht => ?_
  dsimp only
  split
  · refine ite_wf ht ?_
    split
    · exact ite_wf ht ht
    · exact reportAbsent_memWf ht
    · exact reportBad_memWf ht
    · exact ht
  · exact ht

theorem pinPage_memWf {x : Fin 4 × Page × Word} (h : s.memWf) : (pinPage s x).memWf := fillSlice_memWf (putDie_memWf h)

theorem addLease_memWf {p : Fin 16} {serial : Nat} {o : Operand} (h : s.memWf) : (addLease s p serial o).memWf := putPart_memWf h

theorem askRemote_memWf {p : Fin 16} {va : Word} (h : s.memWf) : FstWf (askRemote s p va) := by
  unfold askRemote
  refine ite_wf h ?_
  dsimp only
  split <;> exact update_memWf h

theorem decideLease_memWf {p : Fin 16} {serial : Nat} {o : Operand} (h : s.memWf) : FstWf (decideLease s p serial o) := by
  unfold decideLease
  refine ite_wf h ?_
  refine ite_wf ?_ ?_
  · split
    next e => exact addLease_memWf ((askRemote_memWf h).of_eq e)
    · exact askRemote_memWf h
  · split
    next e' =>
      have hu := (rangePages_memWf h).of_eq e'
      exact ite_wf hu (fstWf_mk (foldl_wf (addLease_memWf hu) (fun _ _ ht => pinPage_memWf ht)))
    next e'' => exact (rangePages_memWf h).of_eq e''
    next e3 => exact (rangePages_memWf h).of_eq e3

theorem noteLease_memWf {p : Fin 16} {serial i : Nat} {o : Operand} {r : Res Unit} (h : s.memWf) : (noteLease s p serial i o r).memWf :=
  modWindow_memWf h

theorem grantLeases_memWf {part : Fin 16} (h : s.memWf) : (grantLeases s part).memWf :=
  foldl_wf h (fun _ _ ht => ite_wf (noteLease_memWf (decideLease_memWf ht)) ht)

theorem execLeaseGrant_memWf {part : Fin 16} (h : s.memWf) : OutWf (execLeaseGrant part s) := OutWf.next (grantLeases_memWf h)

theorem execEvict_memWf {die : Fin 4} (h : s.memWf) : OutWf (execEvict die s) :=
  sliceCommand_memWf h (fun _ => evictPage_memWf (grantLeases_memWf h))

theorem unpin_memWf {p : Fin 16} {l : Lease} (h : s.memWf) : (unpin s p l).memWf := ite_wf h (putDie_memWf h)

theorem releaseLeases_memWf {p : Fin 16} {serial : Nat} (h : s.memWf) : (releaseLeases s p serial).memWf :=
  update_memWf (putPart_memWf (foldl_wf h (fun _ _ ht => unpin_memWf ht)))

theorem markReady_memWf {p : Fin 16} (h : s.memWf) : (markReady s p).memWf := modWindow_memWf h

theorem settleWindows_memWf (h : s.memWf) : (settleWindows s).memWf := foldl_wf h (fun _ _ ht => ite_wf ht (markReady_memWf ht))

theorem codeBytes_memWf {p : Fin 16} {va : Word} {n : Nat} (h : s.memWf) : FstWf (codeBytes s p va n) :=
  ite_wf (globRead_memWf h) (hubRead_memWf h)

theorem selectVariant_memWf {p : Fin 16} {e : WinEnt} {l : List (List Byte)} (h : s.memWf) : FstWf (selectVariant s p e l) := by
  induction l generalizing s with
  | nil => exact h
  | cons v l ih =>
    unfold selectVariant
    refine ite_wf (ih h) (ite_wf h ?_)
    split
    next he =>
      have ht := (codeBytes_memWf h).of_eq he
      split
      · exact ht
      · exact ih ht
    next he => exact (codeBytes_memWf h).of_eq he
    next he => exact (codeBytes_memWf h).of_eq he

theorem nativePackets_memWf {p : Fin 16} {e : WinEnt} (h : s.memWf) : FstWf (nativePackets s p e) := by
  unfold nativePackets
  dsimp only
  split
  next e => exact (codeBytes_memWf h).of_eq e
  next e' => exact (codeBytes_memWf h).of_eq e'
  next e'' => exact (codeBytes_memWf h).of_eq e''

theorem selectCode_memWf {p : Fin 16} {e : WinEnt} (h : s.memWf) : FstWf (selectCode s p e) := by
  unfold selectCode
  dsimp only
  split
  next e =>
    have hu := (codeBytes_memWf h).of_eq e
    refine ite_wf ?_ ?_
    · split
      next e' => exact (nativePackets_memWf hu).of_eq e'
      next e'' => exact (nativePackets_memWf hu).of_eq e''
      next e3 => exact (nativePackets_memWf hu).of_eq e3
    · refine ite_wf hu ?_
      split
      next e4 => exact selectVariant_memWf ((codeBytes_memWf hu).of_eq e4)
      next e5 => exact (codeBytes_memWf hu).of_eq e5
      next e6 => exact (codeBytes_memWf hu).of_eq e6
  next e7 => exact (codeBytes_memWf h).of_eq e7
  next e8 => exact (codeBytes_memWf h).of_eq e8

theorem issueEntry_memWf {p : Fin 16} {e : WinEnt} (h : s.memWf) : (issueEntry s p e).memWf := by
  unfold issueEntry
  dsimp only
  split
  next e => exact modLaunch_memWf (update_memWf (dropAsks_memWf ((selectCode_memWf h).of_eq e)))
  next e' => exact modLaunch_memWf (dropAsks_memWf ((selectCode_memWf h).of_eq e'))
  next e'' => exact (selectCode_memWf h).of_eq e''

theorem execIssueLaunch_memWf {part : Fin 16} (h : s.memWf) : OutWf (execIssueLaunch part s) := by
  unfold execIssueLaunch
  dsimp only
  split
  · exact OutWf.next (ite_wf (issueEntry_memWf (markReady_memWf h)) (markReady_memWf h))
  · exact OutWf.next (markReady_memWf h)

theorem removeEntry_memWf {p : Fin 16} {e : WinEnt} (h : s.memWf) : (removeEntry s p e).memWf := modWindow_memWf (releaseLeases_memWf h)

theorem retireOldest_memWf {part : Fin 16} (h : s.memWf) : (retireOldest s part).memWf := by
  unfold retireOldest
  dsimp only
  split
  · exact ite_wf (count_memWf (modWindow_memWf (removeEntry_memWf (modWindow_memWf (modWindow_memWf h))))) (modWindow_memWf h)
  · exact modWindow_memWf h

theorem execRetire_memWf {part : Fin 16} (h : s.memWf) : OutWf (execRetire part s) := OutWf.next (retireOldest_memWf h)

theorem retireDue_memWf {n : Nat} {p : Fin 16} (h : s.memWf) : (retireDue n s p).memWf := by
  induction n generalizing s with
  | zero => exact h
  | succ n ih =>
    unfold retireDue
    split
    · exact ite_wf (ih (retireOldest_memWf h)) h
    · exact h

theorem reportFault_memWf {p : Fin 16} {e : WinEnt} (h : s.memWf) : (reportFault s p e).memWf := by
  unfold reportFault
  dsimp only
  split
  · exact modWindow_memWf (modWindow_memWf (putAux_memWf (count_memWf (windowRecord_memWf h))))
  · exact modWindow_memWf (putAux_memWf (count_memWf (windowRecord_memWf h)))

theorem stopAtFault_memWf {p : Fin 16} {x : WinStop} (h : s.memWf) : (stopAtFault s p x).memWf := vfRaise_memWf (putAux_memWf h)

theorem execFaultReport_memWf {part : Fin 16} (h : s.memWf) : OutWf (execFaultReport part s) := by
  unfold execFaultReport
  dsimp only
  split
  · exact OutWf.next (stopAtFault_memWf h)
  · exact ite_wf (OutWf.next (reportFault_memWf h)) (OutWf.next h)
  · exact OutWf.next h

theorem cancelEntry_memWf {p : Fin 16} {e : WinEnt} (h : s.memWf) : (cancelEntry s p e).memWf := by
  have ht : (dropSaved (dropRecords ((launchCores s p e.launch).foldl discardUnit s) p e.launch) p e.launch).memWf :=
    dropSaved_memWf (dropRecords_memWf (foldl_wf h fun _ _ ht => discardUnit_memWf ht))
  generalize hd : dropSaved (dropRecords ((launchCores s p e.launch).foldl discardUnit s) p e.launch) p e.launch = t at ht
  have hr : (removeEntry (modWindow t p fun y => dropVersions y e.serial) p e).memWf := removeEntry_memWf (modWindow_memWf ht)
  rw [cancelEntry_eq hd, leaveEntry_eq]
  exact ite_wf ht (ite_wf (modWindow_memWf hr) hr)

theorem execCancel_memWf {part : Fin 16} (h : s.memWf) : OutWf (execCancel part s) :=
  OutWf.next (foldl_wf h (fun _ _ ht => cancelEntry_memWf ht))

/-! ### The records of a stream (R220 to R236) -/

theorem modFront_memWf {p : Fin 16} {f : Front → Front} (h : s.memWf) : (modFront s p f).memWf := putAux_memWf h

theorem streamReadFor_memWf {key : Nat} {p : Fin 16} {va : Word} {n : Nat} {out : Option Cause} (h : s.memWf) :
    FstWf (streamReadFor key s p va n out) := by
  unfold streamReadFor
  refine ite_wf h ?_
  refine ite_wf h ?_
  refine ite_wf (globRead_memWf h) ?_
  split
  next e => exact (hubRead_memWf h).of_eq e
  · exact hubRead_memWf h

theorem streamRead_memWf {p : Fin 16} {va : Word} {n : Nat} {out : Option Cause} (h : s.memWf) : FstWf (streamRead s p va n out) :=
  streamReadFor_memWf h

theorem execFetchBlock_memWf {part : Fin 16} (h : s.memWf) : OutWf (execFetchBlock part s) := by
  unfold execFetchBlock
  refine ite_wf (OutWf.next h) ?_
  dsimp only
  split
  · exact OutWf.next h
  · split
    next e => exact OutWf.next (modFront_memWf (dropAsks_memWf ((streamReadFor_memWf h).of_eq e)))
    next e' => exact OutWf.next (modFront_memWf ((streamReadFor_memWf h).of_eq e'))
    next e'' => exact OutWf.next ((streamReadFor_memWf h).of_eq e'')

theorem frontBytes_memWf {p : Fin 16} {va : Word} {n : Nat} (h : s.memWf) : FstWf (frontBytes s p va n) := by
  unfold frontBytes
  split
  · exact h
  · exact streamRead_memWf h

theorem streamErr_memWf {k : Cause} {wop : BitVec 8} (h : s.memWf) : OutWf (streamErr s k wop) := OutWf.next (modFront_memWf h)

theorem streamGoto_memWf {pos : Word} (h : s.memWf) : (streamGoto s pos).memWf := modFront_memWf h

theorem nextRec_memWf {units : Nat} (h : s.memWf) : OutWf (nextRec s units) := OutWf.next (streamGoto_memWf h)

theorem onStream_memWf {α : Type} {r : State × Res α} {wop : BitVec 8} {f : State → α → Out} (hr : FstWf r)
    (hf : ∀ (t : State), t.memWf → ∀ (x : α), OutWf (f t x)) : OutWf (onStream r wop f) := by
  unfold onStream
  split
  · exact hf _ hr _
  · exact streamErr_memWf hr
  · exact stall_memWf hr

theorem bufRead_memWf {id : BitVec 12} {off n : Nat} (h : s.memWf) : FstWf (bufRead s id off n) := by
  unfold bufRead
  dsimp only
  split
  · exact h
  · exact ite_wf (streamRead_memWf h) h

theorem execWnop_memWf {units : BitVec 2} (h : s.memWf) : OutWf (execWnop units s) := nextRec_memWf h

theorem addBuf_memWf {p : Fin 16} {id : BitVec 12} {fixed : Bool} {depth size : Nat} {base : Word} {arena : Bool} (h : s.memWf) :
    (addBuf s p id fixed depth size base arena).memWf :=
  modWindow_memWf h

theorem declareBuf_memWf {p : Fin 16} {fixed : Bool} {depth : BitVec 3} {buf : BitVec 12} {size : Word} {base : BitVec 128} {tag : Bool}
    (h : s.memWf) : ResWf (declareBuf s p fixed depth buf size base tag) := by
  unfold declareBuf
  refine ite_wf ResWf.fail ?_
  refine ite_wf (ResWf.ok (addBuf_memWf h)) ?_
  refine ite_wf ?_ ?_
  · dsimp only
    split
    · exact ResWf.ok (update_memWf (addBuf_memWf h))
    · exact ite_wf ResWf.wait ResWf.fail
  · split
    · exact ResWf.fail
    · exact ite_wf ResWf.fail (ite_wf ResWf.fail (ResWf.ok (addBuf_memWf h)))

theorem execWbuf_memWf {fixed : Bool} {depth : BitVec 3} {buf : BitVec 12} {size : BitVec 64} {base : BitVec 128} (h : s.memWf) :
    OutWf (execWbuf fixed depth buf size base s) := by
  unfold execWbuf
  split
  next e => exact nextRec_memWf ((declareBuf_memWf h).of_eq e)
  · exact streamErr_memWf h
  · exact stall_memWf h

theorem execWfree_memWf {buf : BitVec 12} (h : s.memWf) : OutWf (execWfree buf s) := by
  unfold execWfree
  split
  · exact streamErr_memWf h
  · exact nextRec_memWf (modWindow_memWf h)

theorem taskParams_memWf {r : WTaskRec} (h : s.memWf) : FstWf (taskParams s r) := by
  unfold taskParams
  refine ite_wf h ?_
  split
  next e => exact (frontBytes_memWf h).of_eq e
  next e' => exact (frontBytes_memWf h).of_eq e'
  next e'' => exact (frontBytes_memWf h).of_eq e''

theorem execWtask_memWf {r : WTaskRec} (h : s.memWf) : OutWf (execWtask r s) := by
  unfold execWtask
  refine ite_wf (streamErr_memWf h) ?_
  refine onStream_memWf (taskParams_memWf h) fun _ ht _ => ?_
  split
  next e => exact nextRec_memWf ((enterTask_memWf ht).of_eq e)
  · exact stall_memWf ht

theorem pushLevel_memWf {target : Word} {n : Nat} (h : s.memWf) : OutWf (pushLevel s target n) :=
  OutWf.next (modFront_memWf (streamGoto_memWf h))

theorem execWcall_memWf {bufForm : Bool} {buf : BitVec 12} {length : BitVec 32} {target : BitVec 64} (h : s.memWf) :
    OutWf (execWcall bufForm buf length target s) := by
  unfold execWcall
  refine ite_wf (streamErr_memWf h) ?_
  refine ite_wf ?_ (ite_wf (pushLevel_memWf h) (streamErr_memWf h))
  split
  · exact pushLevel_memWf h
  · exact streamErr_memWf h

theorem popLevel_memWf (h : s.memWf) : OutWf (popLevel s) := OutWf.next (modFront_memWf h)

theorem execWret_memWf (h : s.memWf) : OutWf (execWret s) := ite_wf (streamErr_memWf h) (popLevel_memWf h)

theorem execWpred_memWf {cond : WCond} {buf : BitVec 12} {skip : BitVec 32} {offset value mask : BitVec 64} (h : s.memWf) :
    OutWf (execWpred cond buf skip offset value mask s) :=
  ite_wf (streamErr_memWf h) (onStream_memWf (bufRead_memWf h) (fun _ ht _ => OutWf.next (streamGoto_memWf ht)))

theorem setLoops_memWf {ls : List WLoopEnt} (h : s.memWf) : (setLoops s ls).memWf := modFront_memWf h

theorem execWloop_memWf {count endoff : BitVec 32} (h : s.memWf) : OutWf (execWloop count endoff s) :=
  ite_wf (streamErr_memWf h) (ite_wf (ite_wf (streamErr_memWf h) (OutWf.next (streamGoto_memWf h)))
    (ite_wf (streamErr_memWf h) (nextRec_memWf (setLoops_memWf h))))

theorem execWend_memWf (h : s.memWf) : OutWf (execWend s) := by
  unfold execWend
  dsimp only
  split
  · exact streamErr_memWf h
  · exact ite_wf (streamErr_memWf h) (ite_wf (nextRec_memWf (setLoops_memWf h)) (OutWf.next (streamGoto_memWf (setLoops_memWf h))))

theorem dropBlocks_memWf {p : Fin 16} (h : s.memWf) : (dropBlocks s p).memWf := modFront_memWf h

theorem execWfence_memWf (h : s.memWf) : OutWf (execWfence s) := ite_wf (stall_memWf h) (nextRec_memWf (dropBlocks_memWf h))

theorem loadTable_memWf {p : Fin 16} {good : Bool} {img : List Byte} (h : s.memWf) : SndWf (loadTable s p good img) := by
  unfold loadTable
  dsimp only
  split <;> exact sndWf_mk (ite_wf (putPart_memWf h) h)

theorem execWfenceT_memWf {buf : BitVec 12} {offset : BitVec 64} (h : s.memWf) : OutWf (execWfenceT buf offset s) := by
  unfold execWfenceT
  refine ite_wf (streamErr_memWf h) ?_
  refine ite_wf (stall_memWf h) ?_
  refine onStream_memWf (bufRead_memWf h) fun _ ht _ => ?_
  split
  next e => exact nextRec_memWf (dropBlocks_memWf ((loadTable_memWf ht).of_eq e))
  next e' => exact streamErr_memWf ((loadTable_memWf ht).of_eq e')

theorem execWwait_memWf {cond : WCond} {buf : BitVec 12} {limit : BitVec 32} {offset value mask : BitVec 64} (h : s.memWf) :
    OutWf (execWwait cond buf limit offset value mask s) := by
  unfold execWwait
  dsimp only
  split
  · exact streamErr_memWf h
  · exact OutWf.next (modFront_memWf h)

theorem wwaitRead_memWf {p : Fin 16} {late : Bool} (h : s.memWf) : OutWf (wwaitRead s p late) := by
  unfold wwaitRead
  dsimp only
  split
  · split
    next e =>
      have hu := (streamRead_memWf h).of_eq e
      exact ite_wf (OutWf.next (modFront_memWf (dropAsks_memWf hu)))
        (ite_wf (OutWf.next (modFront_memWf (dropAsks_memWf hu))) (OutWf.next (dropAsks_memWf hu)))
    next e' => exact OutWf.next (modFront_memWf ((streamRead_memWf h).of_eq e'))
    next e'' => exact OutWf.next ((streamRead_memWf h).of_eq e'')
  · exact OutWf.next h

theorem execWwaitReread_memWf {part : Fin 16} (h : s.memWf) : OutWf (execWwaitReread part s) := ite_wf (wwaitRead_memWf h) (OutWf.next h)

theorem execWwaitLimit_memWf {part : Fin 16} (h : s.memWf) : OutWf (execWwaitLimit part s) := by
  unfold execWwaitLimit
  dsimp only
  split
  · exact ite_wf (wwaitRead_memWf h) (OutWf.next h)
  · exact OutWf.next h

theorem wsignal_memWf {add irq : Bool} {buf : BitVec 12} {vector : BitVec 8} {offset value : Word} (h : s.memWf) :
    OutWf (wsignal add irq buf vector offset value s) := by
  unfold wsignal
  dsimp only
  split
  · exact streamErr_memWf h
  · exact nextRec_memWf (modFront_memWf h)

theorem execWsignalSt_memWf {irq : Bool} {buf : BitVec 12} {vector : BitVec 8} {offset value : BitVec 64} (h : s.memWf) :
    OutWf (execWsignalSt irq buf vector offset value s) :=
  wsignal_memWf h

theorem execWsignalAdd_memWf {irq : Bool} {buf : BitVec 12} {vector : BitVec 8} {offset value : BitVec 64} (h : s.memWf) :
    OutWf (execWsignalAdd irq buf vector offset value s) :=
  wsignal_memWf h

theorem signalWrite_memWf {p : Fin 16} {x : Signal} (h : s.memWf) : FstWf (signalWrite s p x) := by
  unfold signalWrite
  refine ite_wf h ?_
  dsimp only
  split
  · exact reportAbsent_memWf h
  · split
    next e => exact (hubWrite_memWf h).of_eq e
    · exact hubWrite_memWf h

theorem signalVector_memWf {p : Fin 16} {x : Signal} (h : s.memWf) : (signalVector s p x).memWf :=
  ite_wf h (ite_wf (vfRaise_memWf h) (modFront_memWf h))

theorem execWsignalEffect_memWf {part : Fin 16} (h : s.memWf) : OutWf (execWsignalEffect part s) := by
  unfold execWsignalEffect
  dsimp only
  split
  · exact OutWf.next h
  · refine ite_wf (OutWf.next h) ?_
    split
    next e => exact OutWf.next (signalVector_memWf (modFront_memWf ((signalWrite_memWf h).of_eq e)))
    next e' =>
      have hu := (signalWrite_memWf h).of_eq e'
      exact ite_wf (OutWf.next hu) (OutWf.next (frontRecord_memWf (modFront_memWf hu)))
    next e'' => exact OutWf.next ((signalWrite_memWf h).of_eq e'')

theorem execWphase_memWf {job : Bool} {id : BitVec 16} (h : s.memWf) : OutWf (execWphase job id s) :=
  nextRec_memWf (ite_wf (modWindow_memWf (modWindow_memWf h)) (modWindow_memWf h))

theorem cancelWhere_memWf {p : Fin 16} {chosen : Window → WinEnt → Bool} (h : s.memWf) : (cancelWhere s p chosen).memWf :=
  modWindow_memWf (retireDue_memWf h)

theorem wcancel_memWf {chosen : Window → WinEnt → Bool} (h : s.memWf) : OutWf (wcancel s chosen) := nextRec_memWf (cancelWhere_memWf h)

theorem execWcancelLaunch_memWf {tag : BitVec 16} (h : s.memWf) : OutWf (execWcancelLaunch tag s) := wcancel_memWf h

theorem execWcancelGraph_memWf {id : BitVec 16} (h : s.memWf) : OutWf (execWcancelGraph id s) := wcancel_memWf h

theorem execWcancelPhase_memWf {id : BitVec 16} (h : s.memWf) : OutWf (execWcancelPhase id s) := wcancel_memWf h

theorem execWcancelJob_memWf {id : BitVec 16} (h : s.memWf) : OutWf (execWcancelJob id s) := wcancel_memWf h

theorem execWhalt_memWf {code : BitVec 16} (h : s.memWf) : OutWf (execWhalt code s) := OutWf.next (modFront_memWf h)

/-! ### Graph binaries (R267 to R273) -/

theorem planEntry_memWf {r : List Byte} {tag : Bool} {old : Option Nat} (h : s.memWf) : ResFstWf (planEntry s r tag old) := by
  unfold planEntry
  split
  · split
    · exact ite_wf (ResFstWf.ok (modWindow_memWf h)) ResFstWf.fail
    · split
      next e => exact ResFstWf.ok ((declareBuf_memWf h).of_eq e)
      · exact ResFstWf.fail
      · exact ResFstWf.wait
  · exact ResFstWf.fail

theorem declarePlan_memWf {at_ : Word} {bin : List Byte} {x : Section} {old : List Nat} {n : Nat} (h : s.memWf) :
    ResFstWf (declarePlan at_ bin x old n s) := by
  induction n with
  | zero => exact .ok h
  | succ n ih =>
    unfold declarePlan
    split
    next e =>
      split
      next e' => exact .ok ((planEntry_memWf (ih.of_eq e)).of_eq e')
      · exact .fail
      · exact .wait
    · exact ih

theorem hashEntry_memWf {e : List Byte} (h : s.memWf) : FstWf (hashEntry s e) := by
  unfold hashEntry
  refine ite_wf h ?_
  split
  next e => exact (bufRead_memWf h).of_eq e
  next e' => exact (bufRead_memWf h).of_eq e'
  next e'' => exact (bufRead_memWf h).of_eq e''

theorem checkHashes_memWf {bin : List Byte} {x : Section} (h : s.memWf) : FstWf (checkHashes s bin x) := by
  unfold checkHashes
  refine foldl_wf h fun _ _ ht => ?_
  split
  · exact hashEntry_memWf ht
  · exact ht

theorem applyPatch_memWf {p : List Byte} {nodes : List (List Byte)} (h : s.memWf) : FstWf (applyPatch s p nodes) := by
  unfold applyPatch
  refine ite_wf h ?_
  split
  next e => exact (bufRead_memWf h).of_eq e
  next e' => exact (bufRead_memWf h).of_eq e'
  next e'' => exact (bufRead_memWf h).of_eq e''

theorem applyPatches_memWf {bin : List Byte} {x : Section} {nodes : List (List Byte)} (h : s.memWf) :
    FstWf (applyPatches s bin x nodes) := by
  unfold applyPatches
  refine foldl_wf h fun _ _ ht => ?_
  split
  · exact applyPatch_memWf ht
  · exact ht

theorem buildGraph_bothWf {pre : Bool} {base : Word} {bin : List Byte} (h : s.memWf) : BothWf (buildGraph s pre base bin) := by
  unfold buildGraph
  dsimp only
  split
  · refine ite_wf ⟨h, .fail⟩ ?_
    split
    · exact ⟨h, .fail⟩
    · exact ⟨h, .wait⟩
    next e =>
      have ht := (declarePlan_memWf h).of_eq e
      split
      · exact ⟨h, .fail⟩
      · exact ⟨putAux_memWf h, .wait⟩
      next e' =>
        have ht' := (checkHashes_memWf ht).of_eq e'
        split
        · exact ⟨h, .fail⟩
        · exact ⟨putAux_memWf h, .wait⟩
        next e'' =>
          have ht'' := (applyPatches_memWf ht').of_eq e''
          split
          · exact ⟨h, .fail⟩
          · exact ite_wf ⟨h, .fail⟩ ⟨h, .ok (modFront_memWf (modWindow_memWf ht''))⟩
  · exact ⟨h, .fail⟩

/-- The state that an answer brings is the one the stream goes on with. -/
theorem onStream_next_memWf {x : State × Res State} {op : BitVec 8} (h : BothWf x) : OutWf (onStream x op fun _ t => .next t) := by
  unfold onStream
  split
  · exact .next (h.snd.of_eq rfl)
  · exact streamErr_memWf h.fst
  · exact stall_memWf h.fst

theorem execWgraph_memWf {pre : Bool} {buf : BitVec 12} {offset : BitVec 64} (h : s.memWf) : OutWf (execWgraph pre buf offset s) := by
  unfold execWgraph
  refine ite_wf (streamErr_memWf h) ?_
  split
  · exact streamErr_memWf h
  · refine onStream_memWf (bufRead_memWf h) fun _ ht _ => ite_wf (streamErr_memWf ht) ?_
    exact onStream_memWf (bufRead_memWf ht) fun _ ht' _ => onStream_next_memWf (buildGraph_bothWf ht')

theorem endGraph_memWf {p : Fin 16} {g : GraphRun} (h : s.memWf) : (endGraph s p g).memWf := modFront_memWf (modWindow_memWf h)

theorem graphTurn_memWf {g : GraphRun} (h : s.memWf) : OutWf (graphTurn s g) := by
  unfold graphTurn
  dsimp only
  split
  · exact nextRec_memWf (endGraph_memWf h)
  · split
    next e => exact OutWf.next (modFront_memWf ((enterTask_memWf h).of_eq e))
    · exact stall_memWf h

/-! ### The stream front end at run time (R280 to R296) -/

theorem takeQueue_memWf {p : Fin 16} {q : Fin 4} {slice : Nat} (h : s.memWf) : (takeQueue s p q slice).memWf := by
  unfold takeQueue
  dsimp only
  split
  · exact putAux_memWf h
  · exact count_memWf (putAux_memWf h)

theorem defaultPick_memWf {p : Fin 16} (h : s.memWf) : (defaultPick s p).memWf := by
  unfold defaultPick
  split
  · exact takeQueue_memWf h
  · exact modFront_memWf h

theorem answerPick_memWf {p : Fin 16} {q slice : Nat} (h : s.memWf) : (answerPick s p q slice).memWf :=
  ite_wf (takeQueue_memWf h) (defaultPick_memWf h)

theorem raisePick_memWf {p : Fin 16} {park : Bool} (h : s.memWf) : (raisePick s p park).memWf := putAux_memWf (tell_memWf h)

theorem makePick_memWf {p : Fin 16} {park : Bool} (h : s.memWf) : (makePick s p park).memWf :=
  ite_wf (defaultPick_memWf h) (raisePick_memWf h)

theorem execPick_memWf {part : Fin 16} (h : s.memWf) : OutWf (execPick part s) := by
  unfold execPick
  refine ite_wf (OutWf.next h) ?_
  split
  · exact OutWf.next (modFront_memWf h)
  · exact OutWf.next (makePick_memWf h)

theorem execPickTimeout_memWf {part : Fin 16} (h : s.memWf) : OutWf (execPickTimeout part s) := by
  unfold execPickTimeout
  split
  · exact ite_wf (OutWf.next (defaultPick_memWf h)) (OutWf.next h)
  · exact OutWf.next h

theorem execPickq_memWf {part : Fin 16} (h : s.memWf) : OutWf (execPickq part s) :=
  onHead_memWf h (fun _ => ite_wf (partDone_memWf h) (ite_wf (OutWf.next h)
    (ite_wf (partDone_memWf h) (ite_wf (partDone_memWf h) (ite_wf (OutWf.next h) (OutWf.next (ringDone_memWf (answerPick_memWf h))))))))

theorem execSliceExpire_memWf {part : Fin 16} (h : s.memWf) : OutWf (execSliceExpire part s) := by
  unfold execSliceExpire
  dsimp only
  split
  · exact OutWf.next h
  · exact ite_wf (OutWf.next h) (OutWf.next (makePick_memWf (tell_memWf (putAux_memWf h))))

theorem endEntry_memWf {p : Fin 16} {status : BitVec 16} (h : s.memWf) : (endEntry s p status).memWf := modFront_memWf h

theorem levelEnd_memWf (h : s.memWf) : OutWf (levelEnd s) :=
  ite_wf (streamErr_memWf h) (ite_wf (popLevel_memWf h) (OutWf.next (endEntry_memWf h)))

theorem recordBytesAt_memWf (h : s.memWf) : FstWf (recordBytesAt s) := by
  unfold recordBytesAt
  dsimp only
  split
  next e =>
    have hu := (frontBytes_memWf h).of_eq e
    exact ite_wf hu (frontBytes_memWf hu)
  · exact frontBytes_memWf h

theorem skipLength_memWf {p : Fin 16} {l : Level} (h : s.memWf) : FstWf (skipLength s p l) := by
  unfold skipLength
  split
  next e => exact (streamRead_memWf h).of_eq e
  next e' => exact (streamRead_memWf h).of_eq e'
  next e'' => exact (streamRead_memWf h).of_eq e''

theorem skipTurn_memWf (h : s.memWf) : OutWf (skipTurn s) := by
  unfold skipTurn
  split
  next e => exact OutWf.next (modFront_memWf (streamGoto_memWf ((skipLength_memWf h).of_eq e)))
  next e' => exact stall_memWf ((skipLength_memWf h).of_eq e')

theorem recordTurn_memWf {run : Instr → State → Out} (hrun : ∀ (i : Instr) (t : State), t.memWf → OutWf (run i t)) (h : s.memWf) :
    OutWf (recordTurn run s) := by
  unfold recordTurn
  dsimp only
  split
  next e => exact stall_memWf ((recordBytesAt_memWf h).of_eq e)
  next e' => exact streamErr_memWf ((recordBytesAt_memWf h).of_eq e')
  next e'' =>
    have hu := (recordBytesAt_memWf h).of_eq e''
    refine ite_wf (streamErr_memWf hu) ?_
    split
    · exact hrun _ _ hu
    · exact streamErr_memWf hu

theorem decodeTurn_memWf {run : Instr → State → Out} (hrun : ∀ (i : Instr) (t : State), t.memWf → OutWf (run i t)) (h : s.memWf) :
    OutWf (decodeTurn run s) := by
  unfold decodeTurn
  refine ite_wf (skipTurn_memWf h) ?_
  split
  · exact graphTurn_memWf h
  · exact ite_wf (levelEnd_memWf h) (ite_wf (ite_wf (stall_memWf h) (OutWf.next (modFront_memWf h)))
      (ite_wf (stall_memWf h) (recordTurn_memWf hrun h)))

theorem streamTurn_memWf {run : Instr → State → Out} (hrun : ∀ (i : Instr) (t : State), t.memWf → OutWf (run i t)) (h : s.memWf) :
    OutWf (streamTurn run s) := by
  unfold streamTurn
  refine ite_wf (OutWf.next h) ?_
  dsimp only
  split
  next e =>
    have hu := (decodeTurn_memWf hrun h).of_eq e
    exact OutWf.next (update_memWf (ite_wf hu (dropAsks_memWf hu)))
  · exact decodeTurn_memWf hrun h

theorem execHaltEffect_memWf {part : Fin 16} (h : s.memWf) : OutWf (execHaltEffect part s) := by
  unfold execHaltEffect
  dsimp only
  split
  · exact ite_wf (OutWf.next h) (OutWf.next (vfRaise_memWf (modFront_memWf (endEntry_memWf h))))
  · exact OutWf.next h

theorem execStreamFault_memWf {part : Fin 16} (h : s.memWf) : OutWf (execStreamFault part s) := by
  unfold execStreamFault
  dsimp only
  split
  · exact ite_wf (OutWf.next h) (OutWf.next (vfRaise_memWf (modFront_memWf (frontRecord_memWf h))))
  · exact OutWf.next h

theorem execEntryComplete_memWf {part : Fin 16} (h : s.memWf) : OutWf (execEntryComplete part s) := by
  unfold execEntryComplete
  dsimp only
  split
  · exact OutWf.next h
  · exact OutWf.next (ite_wf (vfRaise_memWf (ite_wf (modFront_memWf h) (count_memWf (store_memWf _ _ (modFront_memWf h)))))
      (ite_wf (modFront_memWf h) (count_memWf (store_memWf _ _ (modFront_memWf h)))))

theorem vfRefuse_memWf {p : Fin 16} (h : s.memWf) : (vfRefuse s p).memWf := ite_wf (modFront_memWf h) (vfRaise_memWf (modFront_memWf h))

theorem enableStream_memWf {p : Fin 16} (h : s.memWf) : (enableStream s p).memWf := modFront_memWf (modWindow_memWf h)

theorem dropGraph_memWf {p : Fin 16} (h : s.memWf) : (dropGraph s p).memWf := by
  unfold dropGraph
  dsimp only
  split
  · refine modFront_memWf ?_
    refine modWindow_memWf ?_
    split
    · exact endGraph_memWf h
    · exact h
  · split
    · exact endGraph_memWf h
    · exact h

theorem restartStream_memWf {p : Fin 16} (h : s.memWf) : (restartStream s p).memWf := by
  unfold restartStream
  dsimp only
  split
  · exact modFront_memWf h
  · exact ite_wf (count_memWf (modFront_memWf h)) (modFront_memWf h)

theorem skipRecord_memWf {p : Fin 16} (h : s.memWf) : (skipRecord s p).memWf := by
  unfold skipRecord
  dsimp only
  split
  · exact modFront_memWf h
  · refine ite_wf (modFront_memWf (endEntry_memWf h)) ?_
    split
    · exact restartStream_memWf (modFront_memWf h)
    · split
      next e => exact restartStream_memWf (modFront_memWf (dropAsks_memWf ((skipLength_memWf (dropGraph_memWf h)).of_eq e)))
      next e' => exact modFront_memWf (restartStream_memWf ((skipLength_memWf (dropGraph_memWf h)).of_eq e'))
    · exact restartStream_memWf h

theorem dropEntry_memWf {p : Fin 16} (h : s.memWf) : (dropEntry s p).memWf :=
  ite_wf (modFront_memWf h) (modFront_memWf (endEntry_memWf (dropGraph_memWf h)))

theorem stopStream_memWf {p : Fin 16} (h : s.memWf) : (stopStream s p).memWf := ite_wf h (vfRaise_memWf (dropAsks_memWf (putAux_memWf h)))

theorem strCtl_memWf {p : Fin 16} {x : Word} (h : s.memWf) : (strCtl s p x).memWf := by
  unfold strCtl
  refine ite_wf (vfRefuse_memWf h) ?_
  dsimp only
  split
  · exact enableStream_memWf (ite_wf (modFront_memWf h) h)
  · exact restartStream_memWf (ite_wf (modFront_memWf h) h)
  · exact skipRecord_memWf (ite_wf (modFront_memWf h) h)
  · exact dropEntry_memWf (ite_wf (modFront_memWf h) h)
  · exact stopStream_memWf (ite_wf (modFront_memWf h) h)
  · exact ite_wf (modFront_memWf h) h

theorem writeTail_memWf {p : Fin 16} {q : Fin 4} {t : BitVec 32} (h : s.memWf) : (writeTail s p q t).memWf :=
  ite_wf (ite_wf (modFront_memWf h) (tell_memWf (modFront_memWf h))) (vfRefuse_memWf h)

theorem writeCfg_memWf {p : Fin 16} {q : Fin 4} {x : Word} (h : s.memWf) : (writeCfg s p q x).memWf :=
  ite_wf (vfRefuse_memWf h) (modFront_memWf h)

theorem writeBase_memWf {p : Fin 16} {q : Fin 4} {x : Word} (h : s.memWf) : (writeBase s p q x).memWf :=
  ite_wf (vfRefuse_memWf h) (modFront_memWf h)

theorem writeAper_memWf {p : Fin 16} {x : Word} (h : s.memWf) : (writeAper s p x).memWf := ite_wf (modFront_memWf h) (vfRefuse_memWf h)

theorem writeCntsel_memWf {p : Fin 16} {x : Word} (h : s.memWf) : (writeCntsel s p x).memWf := ite_wf (modFront_memWf h) (vfRefuse_memWf h)

theorem writeJobcan_memWf {p : Fin 16} {x : Word} (h : s.memWf) : (writeJobcan s p x).memWf :=
  ite_wf (vfRefuse_memWf h) (cancelWhere_memWf h)

theorem writeMsix_memWf {p : Fin 16} {o : Nat} {wide : Bool} {x : Word} (h : s.memWf) : (writeMsix s p o wide x).memWf :=
  ite_wf (vfRaise_memWf (modFront_memWf (modFront_memWf h))) (modFront_memWf h)

theorem writeQueue_memWf {p : Fin 16} {q : Fin 4} {o : Nat} {wide : Bool} {x : Word} (h : s.memWf) : (writeQueue s p q o wide x).memWf :=
  ite_wf (writeBase_memWf h) (ite_wf (writeCfg_memWf h) (ite_wf (writeTail_memWf h) (ite_wf (modFront_memWf h) h)))

theorem vfWrite_memWf {p : Fin 16} {offset : Nat} {wide : Bool} {x : Word} (h : s.memWf) : (vfWrite s p offset wide x).memWf :=
  ite_wf (vfRefuse_memWf h) (ite_wf (writeMsix_memWf h) (ite_wf (writeQueue_memWf h)
    (ite_wf (strCtl_memWf h) (ite_wf (strCtl_memWf h) (ite_wf (writeCntsel_memWf h)
    (ite_wf (writeJobcan_memWf h) (ite_wf (writeAper_memWf h) h)))))))

theorem strCommand_memWf {part : Fin 16} {x : Word} (h : s.memWf) : OutWf (strCommand part x s) := OutWf.next (vfWrite_memWf h)

theorem execEnable_memWf {part : Fin 16} (h : s.memWf) : OutWf (execEnable part s) := strCommand_memWf h

theorem execRestart_memWf {part : Fin 16} (h : s.memWf) : OutWf (execRestart part s) := strCommand_memWf h

theorem execSkip_memWf {part : Fin 16} (h : s.memWf) : OutWf (execSkip part s) := strCommand_memWf h

theorem execDrop_memWf {part : Fin 16} (h : s.memWf) : OutWf (execDrop part s) := strCommand_memWf h

theorem execStop_memWf {part : Fin 16} (h : s.memWf) : OutWf (execStop part s) := strCommand_memWf h

theorem execClrerr_memWf {part : Fin 16} (h : s.memWf) : OutWf (execClrerr part s) := strCommand_memWf h

theorem execQtailWrite_memWf {part : Fin 16} {queue : Fin 4} {tail : BitVec 32} (h : s.memWf) : OutWf (execQtailWrite part queue tail s) :=
  OutWf.next (vfWrite_memWf h)

theorem execJobcan_memWf {part : Fin 16} {value : BitVec 64} (h : s.memWf) : OutWf (execJobcan part value s) := OutWf.next (vfWrite_memWf h)

theorem streamReset_memWf {p : Fin 16} (h : s.memWf) : (streamReset s p).memWf := putAux_memWf h

theorem bar2Fault_memWf {p : Fin 16} {k : Cause} {a : Word} (h : s.memWf) : (bar2Fault s p k a).memWf := hubRecord_memWf h

theorem answerHost_memWf {bs : List Byte} (h : s.memWf) : (answerHost s bs).memWf := update_memWf h

theorem vfRead_memWf {p : Fin 16} {o n : Nat} (h : s.memWf) : (vfRead s p o n).memWf :=
  ite_wf (answerHost_memWf h) (answerHost_memWf (vfRefuse_memWf h))

theorem sealHost_memWf {p : Fin 16} {a : Word} (h : s.memWf) : OptWf (sealHost s p a) := by
  unfold sealHost
  split
  · exact ite_wf (OptWf.some h) (ite_wf (OptWf.some (useAll_memWf h)) OptWf.none)
  · exact OptWf.some h

theorem execBar2Read_memWf {part : Fin 16} {offset : BitVec 34} {size : MemSize} (h : s.memWf) :
    OutWf (execBar2Read part offset size s) := by
  unfold execBar2Read
  dsimp only
  split
  · exact OutWf.next (answerHost_memWf h)
  · split
    · exact stall_memWf h
    next e =>
      have hu := (sealHost_memWf h).of_eq e
      split
      next e' =>
        exact OutWf.next (count_memWf (answerHost_memWf (dropAsks_memWf (FstWf.of_eq (ite_wf (globRead_memWf hu) (hubRead_memWf h)) e'))))
      next e'' => exact OutWf.next (answerHost_memWf (bar2Fault_memWf (FstWf.of_eq (ite_wf (globRead_memWf hu) (hubRead_memWf h)) e'')))
      next e3 => exact stall_memWf (ite_wf h (FstWf.of_eq (ite_wf (globRead_memWf hu) (hubRead_memWf h)) e3))

theorem execBar2Write_memWf {part : Fin 16} {offset : BitVec 34} {size : MemSize} {value : BitVec 64} (h : s.memWf) :
    OutWf (execBar2Write part offset size value s) := by
  unfold execBar2Write
  dsimp only
  split
  · exact OutWf.next h
  · split
    · exact stall_memWf h
    next e =>
      have hu := (sealHost_memWf h).of_eq e
      split
      next e' => exact OutWf.next (count_memWf (FstWf.of_eq (ite_wf (globWrite_memWf hu) (hubWrite_memWf h)) e'))
      next e'' => exact OutWf.next (bar2Fault_memWf (FstWf.of_eq (ite_wf (globWrite_memWf hu) (hubWrite_memWf h)) e''))
      next e3 => exact stall_memWf (ite_wf h (FstWf.of_eq (ite_wf (globWrite_memWf hu) (hubWrite_memWf h)) e3))

/-! ### Topiary policies (R379 to R382) -/

theorem loadPolicy_memWf {p : Fin 16} {ops : List (BitVec 16)} (h : s.memWf) : (loadPolicy s p ops).memWf := ite_wf (putAux_memWf h) h

theorem postRun_memWf {p : Fin 16} {choice slice : Nat} (h : s.memWf) : (postRun s p choice slice).memWf :=
  putAux_memWf (ite_wf (answerPick_memWf h) h)

theorem abandonRun_memWf (h : s.memWf) : (abandonRun s).memWf := postRun_memWf h

theorem goOn_memWf {r : TopRun} {pc : Nat} (h : s.memWf) : (goOn s r pc).memWf := by
  unfold goOn
  refine ite_wf (putAux_memWf h) ?_
  dsimp only
  split <;> exact postRun_memWf (putAux_memWf h)

theorem stackOp_memWf {pops : Nat} {f : TopRun → List (BitVec 32) → List (BitVec 32)} (h : s.memWf) : OutWf (stackOp pops f s) := by
  unfold stackOp
  dsimp only
  split
  · exact OutWf.next h
  · exact ite_wf (OutWf.next (abandonRun_memWf h)) (OutWf.next (goOn_memWf h))

theorem binaryOp_memWf {g : BitVec 32 → BitVec 32 → BitVec 32} (h : s.memWf) : OutWf (binaryOp g s) := stackOp_memWf h

theorem popOp_memWf {f : TopRun → BitVec 32 → State} (hf : ∀ (x : TopRun) (y : BitVec 32), (f x y).memWf) (h : s.memWf) :
    OutWf (popOp f s) := by
  unfold popOp
  split
  · exact OutWf.next h
  · split
    · exact OutWf.next (abandonRun_memWf h)
    · exact OutWf.next (hf _ _)

theorem jump_memWf {r : TopRun} {pc : Nat} (h : s.memWf) : (jump s r pc).memWf := goOn_memWf h

theorem execTopiaryLit_memWf {k : BitVec 8} (h : s.memWf) : OutWf (execTopiaryLit k s) := stackOp_memWf h

theorem execTopiaryDup_memWf (h : s.memWf) : OutWf (execTopiaryDup s) := stackOp_memWf h

theorem execTopiaryDrop_memWf (h : s.memWf) : OutWf (execTopiaryDrop s) := stackOp_memWf h

theorem execTopiarySwap_memWf (h : s.memWf) : OutWf (execTopiarySwap s) := stackOp_memWf h

theorem execTopiaryLdq_memWf {f : BitVec 8} (h : s.memWf) : OutWf (execTopiaryLdq f s) := stackOp_memWf h

theorem execTopiaryLdl_memWf {n : BitVec 8} (h : s.memWf) : OutWf (execTopiaryLdl n s) := stackOp_memWf h

theorem execTopiaryStl_memWf {n : BitVec 8} (h : s.memWf) : OutWf (execTopiaryStl n s) :=
  popOp_memWf (fun _ _ => ite_wf (goOn_memWf (putAux_memWf h)) (goOn_memWf h)) h

theorem execTopiaryAdd_memWf (h : s.memWf) : OutWf (execTopiaryAdd s) := binaryOp_memWf h

theorem execTopiarySub_memWf (h : s.memWf) : OutWf (execTopiarySub s) := binaryOp_memWf h

theorem execTopiaryMul_memWf (h : s.memWf) : OutWf (execTopiaryMul s) := binaryOp_memWf h

theorem execTopiaryMin_memWf (h : s.memWf) : OutWf (execTopiaryMin s) := binaryOp_memWf h

theorem execTopiaryMax_memWf (h : s.memWf) : OutWf (execTopiaryMax s) := binaryOp_memWf h

theorem execTopiaryAnd_memWf (h : s.memWf) : OutWf (execTopiaryAnd s) := binaryOp_memWf h

theorem execTopiaryOr_memWf (h : s.memWf) : OutWf (execTopiaryOr s) := binaryOp_memWf h

theorem execTopiaryLt_memWf (h : s.memWf) : OutWf (execTopiaryLt s) := binaryOp_memWf h

theorem execTopiaryEq_memWf (h : s.memWf) : OutWf (execTopiaryEq s) := binaryOp_memWf h

theorem execTopiaryJz_memWf {d : BitVec 8} (h : s.memWf) : OutWf (execTopiaryJz d s) :=
  popOp_memWf (fun _ _ => ite_wf (jump_memWf h) (goOn_memWf h)) h

theorem execTopiaryJmp_memWf {d : BitVec 8} (h : s.memWf) : OutWf (execTopiaryJmp d s) := by
  unfold execTopiaryJmp
  split
  · exact OutWf.next h
  · exact OutWf.next (jump_memWf h)

theorem execTopiaryForq_memWf {n : BitVec 8} (h : s.memWf) : OutWf (execTopiaryForq n s) := by
  unfold execTopiaryForq
  split
  · exact OutWf.next h
  · exact OutWf.next (goOn_memWf h)

theorem execTopiaryNextq_memWf (h : s.memWf) : OutWf (execTopiaryNextq s) := by
  unfold execTopiaryNextq
  split
  · exact OutWf.next h
  · split
    · exact OutWf.next (abandonRun_memWf h)
    · exact ite_wf (OutWf.next (goOn_memWf h)) (OutWf.next (goOn_memWf h))

theorem execTopiaryPick_memWf (h : s.memWf) : OutWf (execTopiaryPick s) := popOp_memWf (fun _ _ => goOn_memWf h) h

theorem execTopiarySlice_memWf (h : s.memWf) : OutWf (execTopiarySlice s) := popOp_memWf (fun _ _ => goOn_memWf h) h

theorem execTopiaryRet_memWf (h : s.memWf) : OutWf (execTopiaryRet s) := by
  unfold execTopiaryRet
  split
  · exact OutWf.next h
  · exact OutWf.next (goOn_memWf h)

theorem topiaryTurn_memWf {run : Instr → State → Out} (hrun : ∀ (i : Instr) (t : State), t.memWf → OutWf (run i t)) (h : s.memWf) :
    OutWf (topiaryTurn run s) := by
  unfold topiaryTurn
  dsimp only
  split
  · refine ite_wf (OutWf.next h) ?_
    split
    · exact hrun _ _ h
    · exact OutWf.next (abandonRun_memWf h)
  · exact OutWf.next h

/-! ### Messages that arrive (R356, R357, R363 to R365) -/

theorem toEnt_memWf {c : Fin 512} {addr : Word} {f : QEnt → Bool} {st : Stage} (h : s.memWf) : OptWf (toEnt s c addr f st) := by
  unfold toEnt
  split
  · exact OptWf.some (putEnt_memWf h)
  · exact OptWf.some (putEnt_memWf h)
  · exact OptWf.none

theorem toMwait_memWf {c : Fin 512} {addr : Word} {st : Stage} (h : s.memWf) : OptWf (toMwait s c addr st) := by
  unfold toMwait
  refine findSome_wf OptWf.none fun _ _ => ?_
  split
  · exact ite_wf (OptWf.some (putMwait_memWf h)) OptWf.none
  · exact OptWf.none

theorem toCopy_memWf {c : Fin 512} {f : Fin 256 → Copy → Option State} (hf : ∀ (x : Fin 256) (k : Copy), OptWf (f x k)) :
    OptWf (toCopy s c f) :=
  findSome_wf OptWf.none (fun _ _ => optBind_wf OptWf.none (fun _ _ => hf _ _))

theorem copyGot_memWf {c : Fin 512} {addr : Word} {bs : List Byte} (h : s.memWf) : OptWf (copyGot s c addr bs) :=
  toCopy_memWf (fun _ _ => optMap_wf OptWf.none (fun _ _ => OptWf.some (putCopy_memWf h)))

theorem copyAck_memWf {c : Fin 512} {addr : Word} (h : s.memWf) : OptWf (copyAck s c addr) :=
  toCopy_memWf (fun _ _ => optMap_wf OptWf.none (fun _ _ => OptWf.some (putCopy_memWf h)))

theorem copyErr_memWf {c : Fin 512} {addr : Word} {e : Cause} (h : s.memWf) : OptWf (copyErr s c addr e) :=
  toCopy_memWf (fun _ _ => optMap_wf OptWf.none (fun _ _ => OptWf.some (ite_wf (putCopy_memWf h) (copyFault_memWf h))))

theorem toMma_memWf {c : Fin 512} {addr : Word} {st : Stage} (h : s.memWf) : OptWf (toMma s c addr st) := by
  unfold toMma
  refine findSome_wf OptWf.none fun _ _ => ?_
  split
  · exact OptWf.some (putMma_memWf h)
  · exact OptWf.none

theorem toRecord_memWf {c : Fin 512} {addr : Word} {st : Stage} (h : s.memWf) : OptWf (toRecord s c addr st) := by
  unfold toRecord
  dsimp only
  split
  · exact optMap_wf OptWf.none (fun _ _ => OptWf.some (putRec_memWf h))
  · exact OptWf.none

theorem firstOf_memWf {l : List (Unit → Option State)} (h : s.memWf) (hl : ∀ f ∈ l, OptWf (f ())) : (firstOf s l).memWf := by
  unfold firstOf
  exact OptWf.getD (findSome_wf .none hl) h

theorem toQst_memWf {c : Fin 512} {addr : Word} {k : Cause} (h : s.memWf) : OptWf (toQst s c addr k) := by
  unfold toQst
  refine optBind_wf OptWf.none fun _ _ => ?_
  refine optBind_wf OptWf.none fun _ _ => ?_
  split
  · exact OptWf.some (failAway_memWf h)
  · exact OptWf.none

theorem failRequest_memWf {p : Option (Fin 16)} {c : Fin 512} {addr : Word} {k : Cause} (h : s.memWf) : (failRequest s p c addr k).memWf :=
  firstOf_memWf h (tries_cons (toEnt_memWf h) (tries_cons (toMwait_memWf h)
    (tries_cons (copyErr_memWf h) (tries_cons (toMma_memWf h) (tries_cons (toRecord_memWf h)
    (tries_cons (toQst_memWf h) (tries_cons (optBind_wf OptWf.none (fun _ _ => toHub_memWf h)) tries_nil)))))))

theorem unknownKind_memWf {m : Msg} (h : s.memWf) : (unknownKind m s).memWf := update_memWf h

theorem sealFailed_memWf {p : Fin 16} {m : Msg} (h : s.memWf) : (sealFailed s p m).memWf :=
  ite_wf (errAnswer_memWf h) (ite_wf (failRequest_memWf h) h)

theorem arriving_memWf {k : BitVec 5} {m : Msg} {f : Fin 16 → Msg → State → Out} (h : s.memWf)
    (hf : ∀ (p : Fin 16) (m : Msg) (t : State), t.memWf → OutWf (f p m t)) : OutWf (arriving k m s f) := by
  unfold arriving
  refine ite_wf (OutWf.next (unknownKind_memWf h)) ?_
  refine ite_wf (OutWf.next (update_memWf h)) ?_
  dsimp only
  split
  · exact ite_wf (OutWf.next (sealFailed_memWf (ite_wf h (noteAnswer_memWf h))))
      (ite_wf (hf _ _ _ (count_memWf (ite_wf h (noteAnswer_memWf h))))
      (ite_wf (hf _ _ _ (count_memWf (useIv_memWf (ite_wf h (noteAnswer_memWf h))))) (stall_memWf h)))
  · exact ite_wf (OutWf.next h) (OutWf.next (sendFor_memWf h))

theorem request_memWf {k : BitVec 5} {m : Msg} (h : s.memWf) : OutWf (request k m s) := by
  unfold request
  refine arriving_memWf h fun _ _ _ ht => ?_
  split
  next e => exact OutWf.next ((enterInward_memWf ht).of_eq e)
  · exact stall_memWf h

theorem execRd_memWf {m : Msg} (h : s.memWf) : OutWf (execRd m s) := request_memWf h

theorem execWr_memWf {m : Msg} (h : s.memWf) : OutWf (execWr m s) := request_memWf h

theorem execAmoMessage_memWf {m : Msg} (h : s.memWf) : OutWf (execAmoMessage m s) := request_memWf h

theorem execVamoMessage_memWf {m : Msg} (h : s.memWf) : OutWf (execVamoMessage m s) := request_memWf h

theorem execRed_memWf {m : Msg} (h : s.memWf) : OutWf (execRed m s) := request_memWf h

theorem execTile_memWf {m : Msg} (h : s.memWf) : OutWf (execTile m s) := request_memWf h

theorem execRdrsp_memWf {m : Msg} (h : s.memWf) : OutWf (execRdrsp m s) :=
  arriving_memWf h (fun _ _ _ ht => OutWf.next (firstOf_memWf ht (tries_cons (toEnt_memWf ht)
    (tries_cons (toMwait_memWf ht) (tries_cons (copyGot_memWf ht) (tries_cons (toRecord_memWf ht) (tries_cons (toHub_memWf ht) tries_nil)))))))

theorem execWrack_memWf {m : Msg} (h : s.memWf) : OutWf (execWrack m s) :=
  arriving_memWf h (fun _ _ _ ht => OutWf.next (firstOf_memWf ht (tries_cons (toEnt_memWf ht)
    (tries_cons (copyAck_memWf ht) (tries_cons (toHub_memWf ht) tries_nil)))))

theorem execAmorsp_memWf {m : Msg} (h : s.memWf) : OutWf (execAmorsp m s) :=
  arriving_memWf h (fun _ _ _ ht => OutWf.next (firstOf_memWf ht (tries_cons (toEnt_memWf ht) (tries_cons (toHub_memWf ht) tries_nil))))

theorem execTilersp_memWf {m : Msg} (h : s.memWf) : OutWf (execTilersp m s) :=
  arriving_memWf h (fun _ _ _ ht => OutWf.next (firstOf_memWf ht (tries_cons (toMma_memWf ht) tries_nil)))

theorem execErr_memWf {m : Msg} (h : s.memWf) : OutWf (execErr m s) := by
  unfold execErr
  refine arriving_memWf h fun _ _ _ ht => ?_
  split
  · exact OutWf.next (failRequest_memWf ht)
  · exact OutWf.next ht

theorem execQstMessage_memWf {m : Msg} (h : s.memWf) : OutWf (execQstMessage m s) := by
  unfold execQstMessage
  refine arriving_memWf h fun _ _ _ ht => ?_
  split
  next e => exact OutWf.next ((arriveQst_memWf ht).of_eq e)
  · exact stall_memWf h

theorem execLand_memWf {m : Msg} (h : s.memWf) : OutWf (execLand m s) := arriving_memWf h (fun _ _ _ ht => OutWf.next (landToken_memWf ht))

theorem execRel_memWf {m : Msg} (h : s.memWf) : OutWf (execRel m s) := arriving_memWf h (fun _ _ _ ht => OutWf.next (arriveRel_memWf ht))

theorem execHoldfull_memWf {m : Msg} (h : s.memWf) : OutWf (execHoldfull m s) :=
  arriving_memWf h (fun _ _ _ ht => OutWf.next (holdFull_memWf ht))

theorem execHoldExpire_memWf {entry : Fin 1024} (h : s.memWf) : OutWf (execHoldExpire entry s) := by
  unfold execHoldExpire
  dsimp only
  split
  · exact OutWf.next h
  · exact ite_wf (OutWf.next (releaseHolds_memWf h)) (ite_wf (OutWf.next h) (OutWf.next (releaseHolds_memWf (hubRecord_memWf (update_memWf h)))))

theorem execEscapeRoute_memWf {idx : Fin 256} (h : s.memWf) : OutWf (execEscapeRoute idx s) := by
  unfold execEscapeRoute
  dsimp only
  split
  · exact OutWf.next h
  · exact ite_wf (OutWf.next h) (OutWf.next (update_memWf h))

theorem refuseUndeliverable_memWf (h : s.memWf) : (refuseUndeliverable s).memWf :=
  foldl_wf (update_memWf h) (fun _ _ ht => ite_wf (failAway_memWf ht) (failRequest_memWf ht))

/-! ### Links and fabric registers (R355 to R362) -/

theorem execHfcfgWrite_memWf {reg : BitVec 13} {value : BitVec 64} (h : s.memWf) : OutWf (execHfcfgWrite reg value s) :=
  ite_wf (OutWf.next h) (OutWf.next (update_memWf h))

theorem modLink_memWf {k : Fin 6} {f : Link → Link} (h : s.memWf) : (modLink s k f).memWf := update_memWf h

theorem reportLink_memWf (h : s.memWf) : (reportLink s).memWf :=
  logRecord_memWf (foldl_wf (update_memWf h) (fun _ _ ht => ite_wf (hubRecord_memWf ht) ht))

theorem execLinkTrain_memWf {link : Fin 6} {k : BitVec 8} (h : s.memWf) : OutWf (execLinkTrain link k s) :=
  ite_wf (OutWf.next h) (OutWf.next (reportLink_memWf (modLink_memWf h)))

theorem execLinkDown_memWf {link : Fin 6} (h : s.memWf) : OutWf (execLinkDown link s) :=
  ite_wf (OutWf.next (reportLink_memWf (modLink_memWf h))) (OutWf.next h)

theorem execFlitReceive_memWf {link : Fin 6} {flit : Flit} (h : s.memWf) : OutWf (execFlitReceive link flit s) := by
  unfold execFlitReceive
  refine ite_wf (OutWf.next h) ?_
  refine ite_wf (OutWf.next (reportLink_memWf (update_memWf (modLink_memWf h)))) ?_
  refine ite_wf (OutWf.next (modLink_memWf h)) ?_
  split
  · exact OutWf.next (modLink_memWf h)
  · exact OutWf.next (reportLink_memWf (modLink_memWf h))

theorem execPoolStopGo_memWf {link : Fin 6} {pool : Fin 33} (h : s.memWf) : OutWf (execPoolStopGo link pool s) :=
  ite_wf (OutWf.next h) (OutWf.next (modLink_memWf (update_memWf h)))

/-! ### TDISP and SPDM (R351 to R353, R366, R400) -/

theorem reply_memWf {r : Request} {stated : List Byte} (h : s.memWf) : (reply s r stated).memWf := update_memWf (answerHost_memWf h)

theorem replyError_memWf (h : s.memWf) : OutWf (replyError s) := OutWf.next (reply_memWf h)

theorem tdiRequest_memWf {p : Fin 16} {f : State → Out} (h : s.memWf) (hf : ∀ (t : State), t.memWf → OutWf (f t)) :
    OutWf (tdiRequest p s f) :=
  ite_wf (hf _ h) (replyError_memWf h)

theorem execGetTdispVersion_memWf {part : Fin 16} (h : s.memWf) : OutWf (execGetTdispVersion part s) :=
  tdiRequest_memWf h (fun _ ht => OutWf.next (reply_memWf ht))

theorem execGetTdispCapabilities_memWf {part : Fin 16} (h : s.memWf) : OutWf (execGetTdispCapabilities part s) :=
  tdiRequest_memWf h (fun _ ht => OutWf.next (reply_memWf ht))

theorem execLockInterfaceRequest_memWf {part : Fin 16} (h : s.memWf) : OutWf (execLockInterfaceRequest part s) :=
  tdiRequest_memWf h (fun _ ht => ite_wf (OutWf.next (reply_memWf (putPart_memWf ht))) (replyError_memWf ht))

theorem execGetDeviceInterfaceReport_memWf {part : Fin 16} (h : s.memWf) : OutWf (execGetDeviceInterfaceReport part s) :=
  tdiRequest_memWf h (fun _ ht => OutWf.next (reply_memWf ht))

theorem execGetDeviceInterfaceState_memWf {part : Fin 16} (h : s.memWf) : OutWf (execGetDeviceInterfaceState part s) :=
  tdiRequest_memWf h (fun _ ht => OutWf.next (reply_memWf ht))

theorem execStartInterfaceRequest_memWf {part : Fin 16} (h : s.memWf) : OutWf (execStartInterfaceRequest part s) :=
  tdiRequest_memWf h (fun _ ht => ite_wf (OutWf.next (reply_memWf (putPart_memWf ht))) (replyError_memWf ht))

theorem streamOff_memWf {p : Fin 16} (h : s.memWf) : (streamOff s p).memWf := putAux_memWf h

theorem unlockTdi_memWf {p : Fin 16} (h : s.memWf) : (unlockTdi s p).memWf :=
  ite_wf h (putPart_memWf (destroyKeys_memWf (streamOff_memWf (cancelWindow_memWf h))))

theorem execStopInterfaceRequest_memWf {part : Fin 16} (h : s.memWf) : OutWf (execStopInterfaceRequest part s) :=
  tdiRequest_memWf h (fun _ ht => OutWf.next (reply_memWf (unlockTdi_memWf ht)))

theorem execSetSealSecret_memWf {part : Fin 16} {secret : BitVec 512} (h : s.memWf) : OutWf (execSetSealSecret part secret s) :=
  tdiRequest_memWf h (fun _ ht => ite_wf (OutWf.next (reply_memWf (putPart_memWf ht))) (replyError_memWf ht))

theorem execTdiError_memWf {part : Fin 16} (h : s.memWf) : OutWf (execTdiError part s) := OutWf.next (ite_wf (tdiToError_memWf h) h)

theorem vfReset_memWf {p : Fin 16} (h : s.memWf) : (vfReset s p).memWf :=
  ite_wf (tdiToError_memWf (streamReset_memWf h)) (streamReset_memWf h)

theorem execVfFlr_memWf {part : Fin 16} (h : s.memWf) : OutWf (execVfFlr part s) := OutWf.next (vfReset_memWf h)

theorem execGetMeasurements_memWf {index : BitVec 8} {nonce : BitVec 256} (h : s.memWf) : OutWf (execGetMeasurements index nonce s) :=
  ite_wf (replyError_memWf h) (OutWf.next (reply_memWf h))

theorem execGetVersion_memWf (h : s.memWf) : OutWf (execGetVersion s) := OutWf.next (reply_memWf h)

theorem execGetCapabilities_memWf (h : s.memWf) : OutWf (execGetCapabilities s) := OutWf.next (reply_memWf h)

theorem execNegotiateAlgorithms_memWf (h : s.memWf) : OutWf (execNegotiateAlgorithms s) := OutWf.next (reply_memWf h)

theorem execGetDigests_memWf (h : s.memWf) : OutWf (execGetDigests s) := OutWf.next (reply_memWf h)

theorem execGetCertificate_memWf {offset length : BitVec 16} (h : s.memWf) : OutWf (execGetCertificate offset length s) :=
  OutWf.next (reply_memWf h)

theorem execChallenge_memWf {nonce : BitVec 256} (h : s.memWf) : OutWf (execChallenge nonce s) :=
  ite_wf (OutWf.next (reply_memWf h)) (replyError_memWf h)

theorem execKeyExchange_memWf {peer : Option (BitVec 12)} {share : BitVec 768} (h : s.memWf) : OutWf (execKeyExchange peer share s) := by
  unfold execKeyExchange
  refine ite_wf (replyError_memWf h) ?_
  dsimp only
  split
  · exact replyError_memWf h
  · exact OutWf.next (reply_memWf (update_memWf h))

theorem restartPair_memWf {peer : Pkg} (h : s.memWf) : (restartPair s peer).memWf := update_memWf h

theorem execFinish_memWf {session : BitVec 16} (h : s.memWf) : OutWf (execFinish session s) := by
  unfold execFinish
  dsimp only
  split
  · exact replyError_memWf h
  · refine OutWf.next ?_
    refine reply_memWf ?_
    split
    · exact restartPair_memWf (update_memWf h)
    · exact update_memWf h

theorem execEndSession_memWf {session : BitVec 16} (h : s.memWf) : OutWf (execEndSession session s) :=
  ite_wf (OutWf.next (reply_memWf (update_memWf h))) (replyError_memWf h)

/-! ### The admin ring, meters, power and the PF (R392 to R406) -/

theorem modPf_memWf {f : Pf → Pf} (h : s.memWf) : (modPf s f).memWf := update_memWf h

theorem countHbm_memWf {p : Fin 16} (h : s.memWf) : (countHbm s p).memWf := update_memWf (putAux_memWf h)

theorem execRegintBoundary_memWf (h : s.memWf) : OutWf (execRegintBoundary s) :=
  ite_wf (OutWf.next h) (OutWf.next (modPf_memWf (foldl_wf h (fun _ _ ht => count_memWf ht))))

theorem writeUse_memWf {p : Fin 16} {reason : BitVec 8} (h : s.memWf) : (writeUse s p reason).memWf :=
  pfRaise_memWf (modPf_memWf (putAux_memWf (store_memWf _ _ (countHbm_memWf h))))

theorem cutUse_memWf {p : Fin 16} {reason : BitVec 8} (h : s.memWf) : (cutUse s p reason).memWf :=
  ite_wf (putAux_memWf h) (writeUse_memWf h)

theorem releaseUse_memWf (h : s.memWf) : (releaseUse s).memWf := by
  unfold releaseUse
  refine foldl_wf h fun _ _ ht => ?_
  split
  · exact ite_wf ht (writeUse_memWf ht)
  · exact ht

theorem nextInterval_memWf {p : Fin 16} (h : s.memWf) : (nextInterval s p).memWf := putAux_memWf h

theorem execIntervalCut_memWf {part : Fin 16} (h : s.memWf) : OutWf (execIntervalCut part s) :=
  ite_wf (OutWf.next h) (OutWf.next (nextInterval_memWf (cutUse_memWf h)))

theorem copyAdmin_memWf {n : Nat} (h : s.memWf) : (copyAdmin n s).memWf := by
  induction n generalizing s with
  | zero => exact h
  | succ n ih =>
    unfold copyAdmin
    exact ih (modPf_memWf (devWrite_memWf (devWrite_memWf h)))

theorem pfRefuse_memWf (h : s.memWf) : (pfRefuse s).memWf := modPf_memWf h

theorem writeAdmtail_memWf {t : BitVec 32} (h : s.memWf) : (writeAdmtail s t).memWf := ite_wf (copyAdmin_memWf h) (pfRefuse_memWf h)

theorem execAdmtailWrite_memWf {tail : BitVec 32} (h : s.memWf) : OutWf (execAdmtailWrite tail s) := OutWf.next (writeAdmtail_memWf h)

theorem adminDone_memWf {status : Nat} (h : s.memWf) : OutWf (adminDone s status) :=
  OutWf.next (pfRaise_memWf (modPf_memWf (ringDone_memWf (store_memWf _ _ h))))

theorem adminCommand_memWf {cmd : Nat} {arg : Bool} {f : Fin 16 → Nat → Out} (h : s.memWf) (hf : ∀ (p : Fin 16) (n : Nat), OutWf (f p n)) :
    OutWf (adminCommand s cmd arg f) :=
  onHead_memWf h (fun _ => ite_wf (OutWf.next h) (ite_wf (adminDone_memWf h) (hf _ _)))

theorem execMeter_memWf (h : s.memWf) : OutWf (execMeter s) :=
  ite_wf (adminDone_memWf h) (adminCommand_memWf h (fun _ _ => ite_wf (adminDone_memWf h)
    (adminDone_memWf (ite_wf (nextInterval_memWf (cutUse_memWf h)) (cutUse_memWf h)))))

theorem writePwrcmd_memWf {x : Word} (h : s.memWf) : (writePwrcmd s x).memWf := ite_wf (pfRefuse_memWf h) (modPf_memWf h)

theorem execPwrcmdWrite_memWf {value : BitVec 64} (h : s.memWf) : OutWf (execPwrcmdWrite value s) := OutWf.next (writePwrcmd_memWf h)

theorem writeThermclr_memWf {x : Word} (h : s.memWf) : (writeThermclr s x).memWf := ite_wf (modPf_memWf h) h

theorem execThermclr_memWf {value : BitVec 64} (h : s.memWf) : OutWf (execThermclr value s) := OutWf.next (writeThermclr_memWf h)

theorem logTrip_memWf (h : s.memWf) : (logTrip s).memWf := logRecord_memWf (update_memWf h)

theorem setTrip1_memWf (h : s.memWf) : (setTrip1 s).memWf := ite_wf h (pfRaise_memWf (logTrip_memWf (modPf_memWf h)))

theorem execThermalTrip1_memWf {temp : BitVec 8} (h : s.memWf) : OutWf (execThermalTrip1 temp s) := OutWf.next (ite_wf (setTrip1_memWf h) h)

theorem execThermalTrip2_memWf {temp : BitVec 8} (h : s.memWf) : OutWf (execThermalTrip2 temp s) :=
  ite_wf (OutWf.next h) (OutWf.next (pfRaise_memWf (logTrip_memWf (modPf_memWf (setTrip1_memWf h)))))

theorem writeUpdreq_memWf {x : Word} (h : s.memWf) : (writeUpdreq s x).memWf := ite_wf (pfRefuse_memWf h) (deliver_memWf h)

theorem execUpdreqWrite_memWf {value : BitVec 64} (h : s.memWf) : OutWf (execUpdreqWrite value s) := OutWf.next (writeUpdreq_memWf h)

theorem execPfidRead_memWf (h : s.memWf) : OutWf (execPfidRead s) := OutWf.next (modPf_memWf (answerHost_memWf h))

theorem writePfMsix_memWf {o : Nat} {wide : Bool} {x : Word} (h : s.memWf) : (writePfMsix s o wide x).memWf :=
  ite_wf (pfRaise_memWf (modPf_memWf (modPf_memWf h))) (modPf_memWf h)

theorem writeBaseIf_memWf {empty : Bool} {f : Pf → Pf} (h : s.memWf) : (writeBaseIf s empty f).memWf :=
  ite_wf (modPf_memWf h) (pfRefuse_memWf h)

theorem pfWrite_memWf {offset : Nat} {wide : Bool} {x : Word} (h : s.memWf) : (pfWrite s offset wide x).memWf :=
  ite_wf (pfRefuse_memWf h) (ite_wf (writePfMsix_memWf h) (ite_wf (ite_wf (pfRefuse_memWf h) (writeBaseIf_memWf h))
    (ite_wf (writeAdmtail_memWf h) (ite_wf (modPf_memWf h) (ite_wf (writePwrcmd_memWf h)
    (ite_wf (writeThermclr_memWf h) (ite_wf (writeUpdreq_memWf h)
    (ite_wf (writeBaseIf_memWf h) (ite_wf (releaseLog_memWf (modPf_memWf h))
    (ite_wf (releaseLog_memWf (modPf_memWf h)) (ite_wf (writeBaseIf_memWf h)
    (ite_wf (releaseUse_memWf (modPf_memWf h)) (ite_wf (releaseUse_memWf (modPf_memWf h)) h)))))))))))))

theorem pfRead_memWf {o n : Nat} (h : s.memWf) : (pfRead s o n).memWf :=
  ite_wf (answerHost_memWf (pfRefuse_memWf h)) (ite_wf (modPf_memWf (answerHost_memWf h)) (answerHost_memWf h))

theorem barRead_memWf {fn : Option (Fin 16)} {o n : Nat} (h : s.memWf) : (barRead s fn o n).memWf := by
  unfold barRead
  split
  · exact vfRead_memWf h
  · exact pfRead_memWf h

theorem barWrite_memWf {fn : Option (Fin 16)} {o n : Nat} {x : Word} (h : s.memWf) : (barWrite s fn o n x).memWf := by
  unfold barWrite
  split
  · exact ite_wf (vfWrite_memWf h) (vfRefuse_memWf h)
  · exact ite_wf (pfWrite_memWf h) (pfRefuse_memWf h)

theorem execRegWrite_memWf {vf : Option (Fin 16)} {offset : BitVec 16} {wide : Bool} {value : BitVec 64} (h : s.memWf) :
    OutWf (execRegWrite vf offset wide value s) := by
  unfold execRegWrite
  refine OutWf.next ?_
  split
  · exact vfWrite_memWf h
  · exact pfWrite_memWf h

theorem pfBar2Read_memWf {o n : Nat} (h : s.memWf) : (pfBar2Read s o n).memWf := answerHost_memWf h

theorem execPfBar2Write_memWf {offset : BitVec 21} {size : MemSize} {value : BitVec 64} (h : s.memWf) :
    OutWf (execPfBar2Write offset size value s) :=
  ite_wf (OutWf.next h) (OutWf.next (modImages_memWf (store_memWf _ _ h)))

/-! ### Partitions made and unmade, and reset (R395 to R400) -/

theorem writeTables_memWf {p : Fin 16} {d : Fin 4} {l : List NewLeaf} {regs : List Nat} (h : s.memWf) : (writeTables s p d l regs).memWf :=
  ite_wf h (putDie_memWf (foldl_wf h (fun _ _ ht => devWrite_memWf ht)))

theorem buildTables_memWf {p : Fin 16} (h : s.memWf) : (buildTables s p).memWf := foldl_wf h (fun _ _ ht => writeTables_memWf ht)

theorem claimAll_memWf {p : Fin 16} {d : List Byte} {maps : List (BitVec 128)} (h : s.memWf) : OptWf (claimAll s p d maps) :=
  optFoldlM_wf OptWf.none (OptWf.some h) (fun _ _ ht => optMap_wf OptWf.none (fun _ _ => OptWf.some (putDie_memWf (ht.of_eq rfl))))

theorem installPair_memWf {p : Fin 16} (h : s.memWf) : OptWf (installPair s p) := by
  unfold installPair
  split
  · exact OptWf.some (installKey_memWf (installKey_memWf h))
  · exact OptWf.none

theorem measurePart_memWf {p : Fin 16} (h : s.memWf) : (measurePart s p).memWf :=
  extendPart_memWf (extendPart_memWf (extendPart_memWf (extendPart_memWf (extendPart_memWf (update_memWf h)))))

theorem joinDomain_memWf {p : Fin 16} {fdid : BitVec 16} (h : s.memWf) : (joinDomain s p fdid).memWf := update_memWf h

theorem setFree_memWf {groups : BitVec 16} {on : Bool} (h : s.memWf) : (setFree s groups on).memWf := modPf_memWf h

theorem setOwner_memWf {groups : BitVec 16} {o : Option (Fin 16)} (h : s.memWf) : (setOwner s groups o).memWf := update_memWf h

theorem createPart_memWf {p : Fin 16} {d : List Byte} (h : s.memWf) : ExWf (createPart s p d) := by
  unfold createPart
  refine ite_wf ExWf.error ?_
  dsimp only
  split
  · exact ExWf.error
  next e =>
    have hu := (claimAll_memWf h).of_eq e
    refine ite_wf ExWf.error ?_
    refine ite_wf ExWf.error ?_
    split
    · exact ExWf.error
    next e' =>
      exact ite_wf ExWf.error (ExWf.ok (measurePart_memWf (OptWf.of_eq
        (ite_wf (installPair_memWf (joinDomain_memWf (buildTables_memWf
        (update_memWf (putAux_memWf (putPart_memWf (setOwner_memWf (setFree_memWf hu))))))))
        (OptWf.some (joinDomain_memWf (buildTables_memWf (update_memWf
        (putAux_memWf (putPart_memWf (setOwner_memWf (setFree_memWf hu))))))))) e')))

theorem markFree_memWf (h : s.memWf) : (markFree s).memWf := setFree_memWf h

theorem execCreate_memWf (h : s.memWf) : OutWf (execCreate s) := by
  unfold execCreate
  refine adminCommand_memWf h fun _ _ => ?_
  refine ite_wf (adminDone_memWf h) ?_
  refine ite_wf (adminDone_memWf h) ?_
  dsimp only
  split
  · exact adminDone_memWf (markFree_memWf h)
  next e => exact adminDone_memWf (update_memWf ((createPart_memWf (markFree_memWf h)).of_eq e))

theorem wipeCore_memWf {c : Fin 512} (h : s.memWf) : (wipeCore s c).memWf := settleHold_memWf (scrubCore_memWf (putCore_memWf h))

theorem scrubPart_memWf {p : Fin 16} (h : s.memWf) : (scrubPart s p).memWf :=
  foldl_wf h (fun _ _ ht => foldl_wf ht (fun _ _ ht' => scrubRegion_memWf ht'))

theorem dropHolds_memWf {p : Fin 16} (h : s.memWf) : (dropHolds s p).memWf := update_memWf h

theorem clearPart_memWf {p : Fin 16} (h : s.memWf) : (clearPart s p).memWf :=
  putPart_memWf (scrubPart_memWf (dropHolds_memWf (update_memWf (foldl_wf
    (putAux_memWf (foldl_wf (destroyKeys_memWf (unlockTdi_memWf (streamReset_memWf h))) (fun _ _ ht => wipeCore_memWf ht)))
    (fun _ _ ht' => putCluster_memWf (scrubCluster_memWf ht'))))))

theorem setScrubbing_memWf {groups : BitVec 16} {on : Bool} (h : s.memWf) : (setScrubbing s groups on).memWf := modPf_memWf h

theorem freePart_memWf {p : Fin 16} (h : s.memWf) : (freePart s p).memWf :=
  putAux_memWf (putPart_memWf (setOwner_memWf (setFree_memWf (setScrubbing_memWf
    (update_memWf (update_memWf (update_memWf (update_memWf h))))))))

theorem execDestroy_memWf (h : s.memWf) : OutWf (execDestroy s) := by
  unfold execDestroy
  refine adminCommand_memWf h fun _ _ => ?_
  dsimp only
  split
  · exact ite_wf (OutWf.next (setScrubbing_memWf (putPart_memWf (cutUse_memWf (clearPart_memWf h)))))
      (adminDone_memWf (freePart_memWf (cutUse_memWf (clearPart_memWf h))))
  · exact ite_wf (OutWf.next h) (adminDone_memWf (freePart_memWf h))
  · exact adminDone_memWf h

theorem execWipe_memWf (h : s.memWf) : OutWf (execWipe s) :=
  adminCommand_memWf h (fun _ _ => ite_wf (adminDone_memWf h) (adminDone_memWf
    (ite_wf (OptWf.getD (installPair_memWf (buildTables_memWf (cutUse_memWf (clearPart_memWf h))))
    (buildTables_memWf (cutUse_memWf (clearPart_memWf h)))) (buildTables_memWf (cutUse_memWf (clearPart_memWf h))))))

/-- What a reset sets up lies below what it keeps, so the two together are in canonical form. -/
theorem wf_resetMem_append_kept (h : s.memWf) : Memory.wf (State.reset.mem ++ kept s) = true := by
  obtain ⟨hreset, hresetListed⟩ := (wf_iff _).1 reset_memWf
  obtain ⟨hs, hsListed⟩ := (wf_iff _).1 h
  refine (wf_iff _).2 ⟨List.pairwise_append.2 ⟨hreset, hs.filter _, fun c hc d hd => ?_⟩, fun c hc => ?_⟩
  · obtain ⟨-, hlt⟩ := resetMem_range c hc
    have hle : 2 ^ 44 ≤ d.1 := of_decide_eq_true (List.mem_filter.1 hd).2
    simp only [hbmAddr] at hlt
    omega
  · rcases List.mem_append.1 hc with hc | hc
    · exact hresetListed c hc
    · exact hsListed c (List.mem_filter.1 hc).1

theorem execReset_memWf (h : s.memWf) : OutWf (execReset s) := by
  unfold execReset
  exact .next (foldl_wf (wf_resetMem_append_kept h) fun _ _ ht => bootFw_memWf ht)

/-! ### The vector memory words (R116 to R131) -/

theorem contiguous_memWf {m : Mask} {ea : Word} {i : Intent} {f : Nat → Nat → Loc → Out} (h : s.memWf)
    (hf : ∀ (n m : Nat) (x : Loc), OutWf (f n m x)) : OutWf (contiguous s m ea i f) := by
  unfold contiguous
  split
  · exact OutWf.next h
  · exact ite_wf (raiseAt_memWf h) (onRes_memWf h (fun _ => hf _ _ _))

theorem execVld_memWf {hd : Head} {m : BitVec 3} {d a x : BitVec 5} (h : s.memWf) : OutWf (execVld hd m d a x s) :=
  guarded_memWf h (fun _ ht => contiguous_memWf ht (fun _ _ _ => ite_wf (stall_memWf ht) (OutWf.next (pushEnt_memWf ht))))

theorem issueVst_memWf {m : Mask} {ea : Word} {v : Vec} {after : State → State} (h : s.memWf)
    (hafter : ∀ (t : State), t.memWf → (after t).memWf) : OutWf (issueVst s m ea v after) :=
  contiguous_memWf h (fun _ _ _ => ite_wf (stall_memWf h) (OutWf.next (hafter _ (pushEnt_memWf h))))

theorem execVst_memWf {hd : Head} {m : BitVec 3} {d a x : BitVec 5} (h : s.memWf) : OutWf (execVst hd m d a x s) :=
  guarded_memWf h (fun _ ht => issueVst_memWf ht (fun _ ht' => ht'))

theorem issueElemLoad_memWf {d : BitVec 5} {m : Mask} {base : Word} {offs : Bool} {stride : Word} {v : Vec} (h : s.memWf) :
    OutWf (issueElemLoad s d m base offs stride v) :=
  ite_wf (stall_memWf h) (OutWf.next (pushEnt_memWf h))

theorem issueElemStore_memWf {m : Mask} {base : Word} {offs : Bool} {stride : Word} {v data : Vec} (h : s.memWf) :
    OutWf (issueElemStore s m base offs stride v data) :=
  ite_wf (stall_memWf h) (OutWf.next (pushEnt_memWf h))

theorem execVlds_memWf {hd : Head} {m : BitVec 3} {d a b : BitVec 5} (h : s.memWf) : OutWf (execVlds hd m d a b s) :=
  guarded_memWf h (fun _ ht => issueElemLoad_memWf ht)

theorem execVgather_memWf {hd : Head} {m : BitVec 3} {d a b : BitVec 5} (h : s.memWf) : OutWf (execVgather hd m d a b s) :=
  guarded_memWf h (fun _ ht => issueElemLoad_memWf ht)

theorem execVsts_memWf {hd : Head} {m : BitVec 3} {d a b : BitVec 5} (h : s.memWf) : OutWf (execVsts hd m d a b s) :=
  guarded_memWf h (fun _ ht => issueElemStore_memWf ht)

theorem execVscatter_memWf {hd : Head} {m : BitVec 3} {d a b : BitVec 5} (h : s.memWf) : OutWf (execVscatter hd m d a b s) :=
  guarded_memWf h (fun _ ht => issueElemStore_memWf ht)

theorem setStream_memWf {q : BitVec 2} {x : Option StreamReg} (h : s.memWf) : (s.setStream q x).memWf := setCtx_memWf h

theorem usePos_memWf {q : BitVec 2} {sr : StreamReg} (h : s.memWf) : (usePos s q sr).memWf :=
  ite_wf (releaseStream_memWf h) (setStream_memWf h)

theorem execVldq_memWf {hd : Head} {m : BitVec 3} {d : BitVec 5} {q : BitVec 2} (h : s.memWf) : OutWf (execVldq hd m d q s) := by
  unfold execVldq
  refine guarded_memWf h fun _ ht => ?_
  dsimp only
  split
  · exact raise_memWf ht
  · refine ite_wf (raise_memWf ht) ?_
    split
    · exact raiseAt_memWf ht
    · exact ite_wf (stall_memWf ht) (OutWf.next (wrV_memWf (ite_wf (issueRead_memWf (usePos_memWf ht)) (usePos_memWf ht))))
    · exact ite_wf (stall_memWf ht) (stall_memWf (issueRead_memWf ht))

theorem execVstq_memWf {hd : Head} {m : BitVec 3} {d : BitVec 5} {q : BitVec 2} (h : s.memWf) : OutWf (execVstq hd m d q s) := by
  unfold execVstq
  refine guarded_memWf h fun _ ht => ?_
  split
  · exact raise_memWf ht
  · refine ite_wf (raise_memWf ht) ?_
    split
    · exact OutWf.next (usePos_memWf ht)
    · exact issueVst_memWf ht (fun _ ht' => usePos_memWf ht')

theorem firstReads_memWf {q : BitVec 2} {d : List Byte} (h : s.memWf) : OptWf (firstReads s q d) := by
  unfold firstReads
  refine ite_wf (OptWf.some h) ?_
  refine foldl_wf (OptWf.some h) fun _ _ ht => ?_
  split
  · exact ite_wf (OptWf.some (issueRead_memWf (ht.of_eq rfl))) OptWf.none
  · exact OptWf.none

theorem execVbind_memWf {hd : Head} {d : BitVec 2} {a : BitVec 5} (h : s.memWf) : OutWf (execVbind hd d a s) := by
  unfold execVbind
  refine guarded_memWf h fun _ ht => ?_
  refine ite_wf (raiseAt_memWf ht) ?_
  refine ite_wf (raiseAt_memWf ht) ?_
  refine ite_wf (stall_memWf ht) ?_
  dsimp only
  split
  · exact raiseAt_memWf ht
  · split
    next e => exact OutWf.next ((firstReads_memWf (setStream_memWf (releaseStream_memWf ht))).of_eq e)
    · exact stall_memWf ht

theorem execVunbind_memWf {hd : Head} {d : BitVec 2} (h : s.memWf) : OutWf (execVunbind hd d s) :=
  guarded_memWf h (fun _ ht => OutWf.next (releaseStream_memWf ht))

theorem execStreamRead_memWf {core : Fin 512} {fw : Bool} (h : s.memWf) : OutWf (execStreamRead core fw s) := by
  unfold execStreamRead
  split
  · split
    · exact OutWf.next (turnEnt_memWf h)
    · exact OutWf.next h
  · exact OutWf.next h

theorem issueVamo_memWf {b16 : Bool} {hd : Head} {m : BitVec 3} {d a : BitVec 5} (h : s.memWf) : OutWf (issueVamo b16 hd m d a s) := by
  unfold issueVamo
  refine guarded_memWf h fun _ ht => ?_
  refine aligned_memWf ht ?_
  dsimp only
  split
  · exact onRes_memWf ht (fun _ => ite_wf (stall_memWf ht) (OutWf.next (pushEnt_memWf ht)))
  · exact OutWf.next ht

theorem execVamoAddF32_memWf {hd : Head} {m : BitVec 3} {d a : BitVec 5} (h : s.memWf) : OutWf (execVamoAddF32 hd m d a s) :=
  issueVamo_memWf h

theorem execVamoAddBf16_memWf {hd : Head} {m : BitVec 3} {d a : BitVec 5} (h : s.memWf) : OutWf (execVamoAddBf16 hd m d a s) :=
  issueVamo_memWf h

theorem execVqst_memWf {hd : Head} {m : BitVec 3} {d a b : BitVec 5} {t o : Bool} (h : s.memWf) : OutWf (execVqst hd m d a b t o s) := by
  unfold execVqst
  refine guarded_memWf h fun _ ht => ?_
  refine aligned_memWf ht ?_
  split
  · exact ite_wf (emptyQst_memWf ht) (raiseAt_memWf ht)
  · exact qstChecks_memWf ht (issueQst_memWf ht)

/-! ### Events (R4) -/

theorem runEvent_memWf {e : Event} (h : s.memWf) : OutWf (runEvent e s) := by
  unfold runEvent
  split
  · exact execMwaitReread_memWf h
  · exact execStreamRead_memWf h
  · exact execMmaTileFetch_memWf h
  · exact execMmaAccumulate_memWf h
  · exact execNestEmit_memWf h
  · exact execDeferredFault_memWf h
  · exact execLoadReturn_memWf h
  · exact execStorePerform_memWf h
  · exact execLeaseLookup_memWf h
  · exact execTranslate_memWf h
  · exact execCounterWrite_memWf h
  · exact execQuantBlockWritten_memWf h
  · exact execCopyBox_memWf h
  · exact execCopyStamp_memWf h
  · exact execResumeRecord_memWf h
  · exact execTakeTrap_memWf h
  · exact execTokenExpire_memWf h
  · exact execWatchdog_memWf h
  · exact execRampWindow_memWf h
  · exact execSaveWrite_memWf h
  · exact execShardWatch_memWf h
  · exact execOverflowRefill_memWf h
  · exact execBankRequest_memWf h
  · exact execAtomicEngineRequest_memWf h
  · exact execNodeWriteback_memWf h
  · exact execInval_memWf h
  · exact execInvalAll_memWf h
  · exact execEvict_memWf h
  · exact execEvictComplete_memWf h
  · exact execMigrate_memWf h
  · exact execMigrateMove_memWf h
  · exact execPresent_memWf h
  · exact execRefuse_memWf h
  · exact execKeyDrained_memWf h
  · exact execMemSweep_memWf h
  · exact execHandUnit_memWf h
  · exact execWwaitReread_memWf h
  · exact execWwaitLimit_memWf h
  · exact execWsignalEffect_memWf h
  · exact execHaltEffect_memWf h
  · exact execStreamFault_memWf h
  · exact execFetchBlock_memWf h
  · exact execLeaseGrant_memWf h
  · exact execIssueLaunch_memWf h
  · exact execRetire_memWf h
  · exact execFaultReport_memWf h
  · exact execCancel_memWf h
  · exact execPick_memWf h
  · exact execPickTimeout_memWf h
  · exact execSliceExpire_memWf h
  · exact execEntryComplete_memWf h
  · exact execPickq_memWf h
  · exact execAbandon_memWf h
  · exact execSave_memWf h
  · exact execRestore_memWf h
  · exact execIntervalCut_memWf h
  · exact execRegintBoundary_memWf h
  · exact execCreate_memWf h
  · exact execDestroy_memWf h
  · exact execWipe_memWf h
  · exact execMeter_memWf h
  · exact execHeartbeatMissed_memWf h
  · exact execHoldExpire_memWf h
  · exact execEscapeRoute_memWf h
  · exact execInward_memWf h

theorem nextTurn_memWf {n : Nat} (h : s.memWf) : (nextTurn s n).memWf := update_memWf h

theorem endStep_memWf (h : s.memWf) : (endStep s).memWf :=
  nextTurn_memWf (ite_wf (settleWindows_memWf (update_memWf h)) (flushOut_memWf
    (refuseUndeliverable_memWf (settleWindows_memWf (update_memWf h)))))

/-! ### The capability words (R343 to R346) -/

theorem capWord_memWf {hd : Head} {f : State → Fin 16 → Out} (h : s.memWf) (hf : ∀ (t : State), t.memWf → ∀ (p : Fin 16), OutWf (f t p)) :
    OutWf (capWord hd s f) := by
  unfold capWord
  refine guarded_memWf h fun _ ht => ?_
  split
  · exact ite_wf (hf _ ht _) (raise_memWf ht)
  · exact raise_memWf ht

theorem execCapld_memWf {hd : Head} {d : BitVec 4} {a n : BitVec 5} (h : s.memWf) : OutWf (execCapld hd d a n s) := by
  unfold execCapld
  refine capWord_memWf h fun _ ht _ => ?_
  refine onRes_memWf ht fun _ => ?_
  refine ite_wf (stall_memWf ht) ?_
  split
  · exact raiseAt_memWf ht
  · exact OutWf.next (pushEnt_memWf ht)

theorem execCapchk_memWf {hd : Head} {d : BitVec 3} {a : BitVec 5} {b : BitVec 4} (h : s.memWf) : OutWf (execCapchk hd d a b s) :=
  capWord_memWf h (fun _ ht _ => onRes_memWf ht (fun _ => ite_wf (stall_memWf ht) (OutWf.next (pushEnt_memWf ht))))

theorem pushCap_memWf {k : QKind} {ea : Word} {todo : List Piece} {data : List Byte} (h : s.memWf) : (pushCap s k ea todo data).memWf :=
  pushEnt_memWf h

theorem execCapdrv_memWf {hd : Head} {d a : BitVec 5} {b : BitVec 4} (h : s.memWf) : OutWf (execCapdrv hd d a b s) := by
  unfold execCapdrv
  refine capWord_memWf h fun _ ht _ => ?_
  refine ite_wf (onRes_memWf ht (fun _ => ite_wf (stall_memWf ht) (ite_wf (raise_memWf ht) (OutWf.next (pushCap_memWf ht))))) ?_
  refine onRes_memWf ht fun _ => ?_
  refine onRes_memWf ht fun _ => ?_
  refine ite_wf (stall_memWf ht) ?_
  split
  · exact raiseAt_memWf ht
  · exact OutWf.next (pushCap_memWf ht)

theorem execCapst_memWf {hd : Head} {d a : BitVec 5} (h : s.memWf) : OutWf (execCapst hd d a s) := by
  unfold execCapst
  refine capWord_memWf h fun _ ht _ => ?_
  refine onRes_memWf ht fun _ => ?_
  refine onRes_memWf ht fun _ => ?_
  refine ite_wf (stall_memWf ht) ?_
  split
  · exact raiseAt_memWf ht
  · exact OutWf.next (pushCap_memWf ht)

/-! ### Every instruction -/

/-- A word that only computes writes a register, so the memory is as it was. -/
theorem exec_onlyDest_memWf {i : Instr} {d : Dest} (hd : onlyDest i = some d) (h : s.memWf) : OutWf (exec i s) := by
  obtain ⟨hd, t, hw, he⟩ := exec_onlyDest s hd
  rw [he]
  refine ite_wf (.next ?_) (.next h)
  cases d <;> (obtain ⟨x, rfl⟩ := hw; exact h)

theorem exec_memWf {i : Instr} (h : s.memWf) : OutWf (exec i s) := by
  cases hd : onlyDest i with
  | some d => exact exec_onlyDest_memWf hd h
  | none =>
    unfold exec
    cases i with
    | br => exact execBr_memWf h
    | call => exact execCall_memWf h
    | jr => exact execJr_memWf h
    | loop => exact execLoop_memWf h
    | crd => exact execCrd_memWf h
    | cwr => exact execCwr_memWf h
    | fenceCore => exact execFenceCore_memWf h
    | fenceCluster => exact execFenceCluster_memWf h
    | fenceDie => exact execFenceDie_memWf h
    | fencePkg => exact execFencePkg_memWf h
    | fenceSys => exact execFenceSys_memWf h
    | done => exact execDone_memWf h
    | suspend => exact execSuspend_memWf h
    | post => exact execPost_memWf h
    | trap => exact execTrap_memWf h
    | tret => exact execTret_memWf h
    | ld => exact execLd_memWf h
    | ldAcq => exact execLdAcq_memWf h
    | st => exact execSt_memWf h
    | stRel => exact execStRel_memWf h
    | lsaln => exact execLsaln_memWf h
    | amoAdd => exact execAmoAdd_memWf h
    | amoAnd => exact execAmoAnd_memWf h
    | amoOr => exact execAmoOr_memWf h
    | amoXor => exact execAmoXor_memWf h
    | amoMin => exact execAmoMin_memWf h
    | amoMax => exact execAmoMax_memWf h
    | amoMinu => exact execAmoMinu_memWf h
    | amoMaxu => exact execAmoMaxu_memWf h
    | amoSwap => exact execAmoSwap_memWf h
    | amoCas => exact execAmoCas_memWf h
    | qst => exact execQst_memWf h
    | mwaitNe => exact execMwaitNe_memWf h
    | mwaitEq => exact execMwaitEq_memWf h
    | mwaitReread => exact execMwaitReread_memWf h
    | vqrec => exact execVqrec_memWf h
    | vld => exact execVld_memWf h
    | vlds => exact execVlds_memWf h
    | vgather => exact execVgather_memWf h
    | vldq => exact execVldq_memWf h
    | vst => exact execVst_memWf h
    | vsts => exact execVsts_memWf h
    | vscatter => exact execVscatter_memWf h
    | vstq => exact execVstq_memWf h
    | vbind => exact execVbind_memWf h
    | vunbind => exact execVunbind_memWf h
    | streamRead => exact execStreamRead_memWf h
    | vamoAddF32 => exact execVamoAddF32_memWf h
    | vamoAddBf16 => exact execVamoAddBf16_memWf h
    | vqst => exact execVqst_memWf h
    | mmaDesc => exact execMmaDesc_memWf h
    | mmaReg => exact execMmaReg_memWf h
    | mmaRmt => exact execMmaRmt_memWf h
    | mmaTileFetch => exact execMmaTileFetch_memWf h
    | mmaAccumulate => exact execMmaAccumulate_memWf h
    | mldF32 => exact execMldF32_memWf h
    | mldRaw => exact execMldRaw_memWf h
    | mstF32 => exact execMstF32_memWf h
    | mstRaw => exact execMstRaw_memWf h
    | mzero => exact execMzero_memWf h
    | msmax => exact execMsmax_memWf h
    | mread => exact execMread_memWf h
    | mwrite => exact execMwrite_memWf h
    | mqnt => exact execMqnt_memWf h
    | cpy2d => exact execCpy2d_memWf h
    | cpy2dCvtRelay => exact execCpy2dCvtRelay_memWf h
    | cpy2dCvtQnt => exact execCpy2dCvtQnt_memWf h
    | cpy2dCvtZexp => exact execCpy2dCvtZexp_memWf h
    | cpy2dRedAddF32 => exact execCpy2dRedAddF32_memWf h
    | cpy2dRedAddBf16 => exact execCpy2dRedAddBf16_memWf h
    | cpy2dRedMaxF32 => exact execCpy2dRedMaxF32_memWf h
    | cpy2dRedMinF32 => exact execCpy2dRedMinF32_memWf h
    | cpy2dStamp => exact execCpy2dStamp_memWf h
    | copyBox => exact execCopyBox_memWf h
    | copyStamp => exact execCopyStamp_memWf h
    | cpycan => exact execCpycan_memWf h
    | nestLd => exact execNestLd_memWf h
    | nestGo => exact execNestGo_memWf h
    | nestWait => exact execNestWait_memWf h
    | nestEmit => exact execNestEmit_memWf h
    | binit => exact execBinit_memWf h
    | bexp => exact execBexp_memWf h
    | barrv => exact execBarrv_memWf h
    | bwait => exact execBwait_memWf h
    | btest => exact execBtest_memWf h
    | krotInstall => exact execKrotInstall_memWf h
    | krotQuery => exact execKrotQuery_memWf h
    | krotRetire => exact execKrotRetire_memWf h
    | krotDestroy => exact execKrotDestroy_memWf h
    | sealChunks => exact execSealChunks_memWf h
    | unsealChunks => exact execUnsealChunks_memWf h
    | scrubRegions => exact execScrubRegions_memWf h
    | scrubCluster => exact execScrubCluster_memWf h
    | scrubCore => exact execScrubCore_memWf h
    | capdrv => exact execCapdrv_memWf h
    | capchk => exact execCapchk_memWf h
    | capld => exact execCapld_memWf h
    | capst => exact execCapst_memWf h
    | sigchk => exact execSigchk_memWf h
    | mext => exact execMext_memWf h
    | slotswQuery => exact execSlotswQuery_memWf h
    | slotswQuiesce => exact execSlotswQuiesce_memWf h
    | slotswSwitch => exact execSlotswSwitch_memWf h
    | slotswBeat => exact execSlotswBeat_memWf h
    | slotswResume => exact execSlotswResume_memWf h
    | heartbeatMissed => exact execHeartbeatMissed_memWf h
    | fwFault => exact execFwFault_memWf h
    | handUnit => exact execHandUnit_memWf h
    | resumeRecord => exact execResumeRecord_memWf h
    | shardWatch => exact execShardWatch_memWf h
    | overflowRefill => exact execOverflowRefill_memWf h
    | takeTrap => exact execTakeTrap_memWf h
    | deferredFault => exact execDeferredFault_memWf h
    | tokenExpire => exact execTokenExpire_memWf h
    | watchdog => exact execWatchdog_memWf h
    | loadReturn => exact execLoadReturn_memWf h
    | storePerform => exact execStorePerform_memWf h
    | bankRequest => exact execBankRequest_memWf h
    | atomicEngineRequest => exact execAtomicEngineRequest_memWf h
    | leaseLookup => exact execLeaseLookup_memWf h
    | translate => exact execTranslate_memWf h
    | counterWrite => exact execCounterWrite_memWf h
    | nodeWriteback => exact execNodeWriteback_memWf h
    | memSweep => exact execMemSweep_memWf h
    | keyDrained => exact execKeyDrained_memWf h
    | rampWindow => exact execRampWindow_memWf h
    | inval => exact execInval_memWf h
    | invalAll => exact execInvalAll_memWf h
    | evict => exact execEvict_memWf h
    | evictComplete => exact execEvictComplete_memWf h
    | migrate => exact execMigrate_memWf h
    | migrateMove => exact execMigrateMove_memWf h
    | present => exact execPresent_memWf h
    | refuse => exact execRefuse_memWf h
    | wnop => exact execWnop_memWf h
    | wbuf => exact execWbuf_memWf h
    | wfree => exact execWfree_memWf h
    | wtask => exact execWtask_memWf h
    | wcall => exact execWcall_memWf h
    | wret => exact execWret_memWf h
    | wpred => exact execWpred_memWf h
    | wloop => exact execWloop_memWf h
    | wend => exact execWend_memWf h
    | wfence => exact execWfence_memWf h
    | wfenceT => exact execWfenceT_memWf h
    | wwait => exact execWwait_memWf h
    | wwaitReread => exact execWwaitReread_memWf h
    | wwaitLimit => exact execWwaitLimit_memWf h
    | wsignalSt => exact execWsignalSt_memWf h
    | wsignalAdd => exact execWsignalAdd_memWf h
    | wsignalEffect => exact execWsignalEffect_memWf h
    | wgraph => exact execWgraph_memWf h
    | wphase => exact execWphase_memWf h
    | wcancelLaunch => exact execWcancelLaunch_memWf h
    | wcancelGraph => exact execWcancelGraph_memWf h
    | wcancelPhase => exact execWcancelPhase_memWf h
    | wcancelJob => exact execWcancelJob_memWf h
    | whalt => exact execWhalt_memWf h
    | haltEffect => exact execHaltEffect_memWf h
    | streamFault => exact execStreamFault_memWf h
    | fetchBlock => exact execFetchBlock_memWf h
    | leaseGrant => exact execLeaseGrant_memWf h
    | issueLaunch => exact execIssueLaunch_memWf h
    | retire => exact execRetire_memWf h
    | faultReport => exact execFaultReport_memWf h
    | cancel => exact execCancel_memWf h
    | pick => exact execPick_memWf h
    | pickTimeout => exact execPickTimeout_memWf h
    | sliceExpire => exact execSliceExpire_memWf h
    | entryComplete => exact execEntryComplete_memWf h
    | enable => exact execEnable_memWf h
    | restart => exact execRestart_memWf h
    | skip => exact execSkip_memWf h
    | drop => exact execDrop_memWf h
    | stop => exact execStop_memWf h
    | clrerr => exact execClrerr_memWf h
    | qtailWrite => exact execQtailWrite_memWf h
    | jobcan => exact execJobcan_memWf h
    | regWrite => exact execRegWrite_memWf h
    | vfFlr => exact execVfFlr_memWf h
    | bar2Read => exact execBar2Read_memWf h
    | bar2Write => exact execBar2Write_memWf h
    | pickq => exact execPickq_memWf h
    | abandon => exact execAbandon_memWf h
    | save => exact execSave_memWf h
    | saveWrite => exact execSaveWrite_memWf h
    | restore => exact execRestore_memWf h
    | topiaryLit => exact execTopiaryLit_memWf h
    | topiaryDup => exact execTopiaryDup_memWf h
    | topiaryDrop => exact execTopiaryDrop_memWf h
    | topiarySwap => exact execTopiarySwap_memWf h
    | topiaryLdq => exact execTopiaryLdq_memWf h
    | topiaryLdl => exact execTopiaryLdl_memWf h
    | topiaryStl => exact execTopiaryStl_memWf h
    | topiaryAdd => exact execTopiaryAdd_memWf h
    | topiarySub => exact execTopiarySub_memWf h
    | topiaryMul => exact execTopiaryMul_memWf h
    | topiaryMin => exact execTopiaryMin_memWf h
    | topiaryMax => exact execTopiaryMax_memWf h
    | topiaryAnd => exact execTopiaryAnd_memWf h
    | topiaryOr => exact execTopiaryOr_memWf h
    | topiaryLt => exact execTopiaryLt_memWf h
    | topiaryEq => exact execTopiaryEq_memWf h
    | topiaryJz => exact execTopiaryJz_memWf h
    | topiaryJmp => exact execTopiaryJmp_memWf h
    | topiaryForq => exact execTopiaryForq_memWf h
    | topiaryNextq => exact execTopiaryNextq_memWf h
    | topiaryPick => exact execTopiaryPick_memWf h
    | topiarySlice => exact execTopiarySlice_memWf h
    | topiaryRet => exact execTopiaryRet_memWf h
    | rd => exact execRd_memWf h
    | rdrsp => exact execRdrsp_memWf h
    | wr => exact execWr_memWf h
    | wrack => exact execWrack_memWf h
    | qstMessage => exact execQstMessage_memWf h
    | land => exact execLand_memWf h
    | rel => exact execRel_memWf h
    | amoMessage => exact execAmoMessage_memWf h
    | amorsp => exact execAmorsp_memWf h
    | vamoMessage => exact execVamoMessage_memWf h
    | red => exact execRed_memWf h
    | tile => exact execTile_memWf h
    | tilersp => exact execTilersp_memWf h
    | holdfull => exact execHoldfull_memWf h
    | err => exact execErr_memWf h
    | holdExpire => exact execHoldExpire_memWf h
    | escapeRoute => exact execEscapeRoute_memWf h
    | flitReceive => exact execFlitReceive_memWf h
    | poolStopGo => exact execPoolStopGo_memWf h
    | linkTrain => exact execLinkTrain_memWf h
    | hfcfgWrite => exact execHfcfgWrite_memWf h
    | getTdispVersion => exact execGetTdispVersion_memWf h
    | getTdispCapabilities => exact execGetTdispCapabilities_memWf h
    | lockInterfaceRequest => exact execLockInterfaceRequest_memWf h
    | getDeviceInterfaceReport => exact execGetDeviceInterfaceReport_memWf h
    | getDeviceInterfaceState => exact execGetDeviceInterfaceState_memWf h
    | startInterfaceRequest => exact execStartInterfaceRequest_memWf h
    | stopInterfaceRequest => exact execStopInterfaceRequest_memWf h
    | setSealSecret => exact execSetSealSecret_memWf h
    | tdiError => exact execTdiError_memWf h
    | getVersion => exact execGetVersion_memWf h
    | getCapabilities => exact execGetCapabilities_memWf h
    | negotiateAlgorithms => exact execNegotiateAlgorithms_memWf h
    | getDigests => exact execGetDigests_memWf h
    | getCertificate => exact execGetCertificate_memWf h
    | challenge => exact execChallenge_memWf h
    | getMeasurements => exact execGetMeasurements_memWf h
    | keyExchange => exact execKeyExchange_memWf h
    | finish => exact execFinish_memWf h
    | endSession => exact execEndSession_memWf h
    | uncorrectableError => exact execUncorrectableError_memWf h
    | correctableError => exact execCorrectableError_memWf h
    | admtailWrite => exact execAdmtailWrite_memWf h
    | create => exact execCreate_memWf h
    | destroy => exact execDestroy_memWf h
    | wipe => exact execWipe_memWf h
    | meter => exact execMeter_memWf h
    | intervalCut => exact execIntervalCut_memWf h
    | pwrcmdWrite => exact execPwrcmdWrite_memWf h
    | thermclr => exact execThermclr_memWf h
    | thermalTrip1 => exact execThermalTrip1_memWf h
    | thermalTrip2 => exact execThermalTrip2_memWf h
    | updreqWrite => exact execUpdreqWrite_memWf h
    | pfidRead => exact execPfidRead_memWf h
    | pfBar2Write => exact execPfBar2Write_memWf h
    | reset => exact execReset_memWf h
    | linkDown => exact execLinkDown_memWf h
    | quantBlockWritten => exact execQuantBlockWritten_memWf h
    | regintBoundary => exact execRegintBoundary_memWf h
    | _ => cases hd

/-! ### A turn (R4) -/

theorem changeLeases_memWf {p : Fin 16} {l : List Lease} {next : Nat} (h : s.memWf) : (changeLeases s p l next).memWf :=
  tdiToError_memWf (putPart_memWf h)

theorem plainAnswer_memWf {n : Nat} {x : Option Word} (h : s.memWf) : (plainAnswer s n x).memWf := by
  unfold plainAnswer
  split
  · exact answerHost_memWf h
  · exact h

theorem outside_memWf {x : Input} (h : s.memWf) : (outside s x).memWf := by
  unfold outside
  dsimp only
  split
  · exact h
  · exact store_memWf _ _ h
  · exact barRead_memWf h
  · exact barWrite_memWf h
  · refine ite_wf (plainAnswer_memWf h) ?_
    split
    · exact barRead_memWf h
    · exact barWrite_memWf h
  · exact h
  · exact reply_memWf h
  · exact pfBar2Read_memWf h
  · exact update_memWf h
  · exact loadPolicy_memWf h
  · exact ite_wf (putDie_memWf h) h
  · exact ite_wf (changeLeases_memWf h) h
  · exact update_memWf (changeLeases_memWf h)

theorem endInput_memWf {x : Out} (hx : OutWf x) : OutWf (endInput s x) := by
  unfold endInput
  split
  · exact ite_wf (OutWf.next (update_memWf (hx.of_eq rfl))) (OutWf.next (update_memWf (hx.of_eq rfl)))
  · exact hx

theorem takeInput_memWf (h : s.memWf) : OutWf (takeInput s) := by
  unfold takeInput
  dsimp only
  split
  · exact OutWf.next h
  · exact ite_wf (OutWf.next (update_memWf h)) (endInput_memWf (exec_memWf (update_memWf h)))
  · refine ite_wf (OutWf.next (plainAnswer_memWf (update_memWf h))) ?_
    refine endInput_memWf ?_
    split
    · exact execBar2Read_memWf (update_memWf h)
    · exact execBar2Write_memWf (update_memWf h)
  · exact OutWf.next (outside_memWf (update_memWf h))

theorem watchUpdstat_memWf {old : State} (hs : s.memWf) : (watchUpdstat old s).memWf := ite_wf hs (pfRaise_memWf hs)

theorem runTurn_memWf (h : s.memWf) : OutWf (runTurn s) := by
  unfold runTurn
  split
  · exact ite_wf (OutWf.next h) (issue_memWf (fun _ _ ht => exec_memWf ht) h)
  · exact streamTurn_memWf (fun _ _ ht' => exec_memWf ht') h
  · exact topiaryTurn_memWf (fun _ _ ht'' => exec_memWf ht'') h
  · exact runEvent_memWf h
  · exact takeInput_memWf h

theorem afterTurn_memWf {x : Out} (hx : OutWf x) : OutWf (afterTurn s x) := by
  unfold afterTurn
  split
  · exact OutWf.next (endStep_memWf (watchUpdstat_memWf (hx.of_eq rfl)))
  · exact hx

/-! ### A step -/

theorem step_memWf (h : s.memWf) : OutWf (step s) := afterTurn_memWf (runTurn_memWf h)

/-- Settles O47: what a step goes on with has its memory in canonical form. -/
theorem memoryKeepsItsForm : Obligations.MemoryKeepsItsForm := fun _ _ h e => (step_memWf h).of_eq e

end Sys2Proof.Machine
end

section
/-! PROOFS. The tile words (R51 to R66): what an encoding puts at each bit, and that decoding and encoding are inverse. -/

namespace Sys2Proof

/-! ### Fields of a word (R52) -/

/-- The bits of a word from bit `lo` up are those of `x`. -/
def At (w : BitVec 32) (lo : Nat) {n : Nat} (x : BitVec n) : Prop := fld w lo n = x

theorem at_self {w : BitVec 32} : At w 0 w := by simp [At, fld]

theorem At.eq {w v : BitVec 32} (h : At w 0 v) : v = w := h.symm.trans at_self

theorem at_fld {w : BitVec 32} {lo n : Nat} : At w lo (fld w lo n) ↔ True := iff_true_intro rfl

/-- A field of two parts: the first part stands above the second. -/
theorem at_append {w : BitVec 32} {lo n m : Nat} {x : BitVec n} {y : BitVec m} :
    At w lo (x ++ y) ↔ At w (lo + m) x ∧ At w lo y := by
  have hsplit : fld w lo (n + m) = fld w (lo + m) n ++ fld w lo m := by
    apply BitVec.eq_of_getLsbD_eq
    intro i hi
    simp only [fld, BitVec.getLsbD_append, BitVec.getLsbD_extractLsb']
    by_cases hm : i < m
    · simp [hm, hi]
    · simp [hm, hi, show i - m < n by omega, show lo + m + (i - m) = lo + i by omega]
  rw [At, hsplit]
  constructor
  · intro h
    refine ⟨?_, ?_⟩
    · simpa [At, BitVec.extractLsb'_append_eq_left] using congrArg (BitVec.extractLsb' m n) h
    · simpa [At, BitVec.extractLsb'_append_eq_right] using congrArg (BitVec.extractLsb' 0 m) h
  · rintro ⟨rfl, rfl⟩
    rfl

theorem at_ofNat {w : BitVec 32} {lo n k : Nat} : At w lo (BitVec.ofNat n k) ↔ (fld w lo n).toNat = k % 2 ^ n := by
  simp [At, BitVec.toNat_eq]

theorem fld_eq_zero {w : BitVec 32} {lo n : Nat} : fld w lo n = 0 ↔ (fld w lo n).toNat = 0 := by
  simp [BitVec.toNat_eq]

theorem fld_toNat (w : BitVec 32) (lo n : Nat) : (fld w lo n).toNat = w.toNat / 2 ^ lo % 2 ^ n := by
  simp [fld, BitVec.extractLsb'_toNat, Nat.shiftRight_eq_div_pow]

/-- A field that holds a constant holds the bits of the constant in each of its parts. -/
theorem at_ofNat_parts {w : BitVec 32} {lo n k : Nat} : At w lo (BitVec.ofNat n k) ↔
    ∀ l m, lo ≤ l → l + m ≤ lo + n → fld w l m = BitVec.ofNat m (k / 2 ^ (l - lo) % 2 ^ m) := by
  constructor
  · intro h l m hl hm
    apply BitVec.eq_of_getLsbD_eq
    intro i hi
    have hbit := congrArg (fun x => x.getLsbD (l - lo + i)) h
    have hpos : lo + (l - lo + i) = l + i := by omega
    simpa only [fld, BitVec.getLsbD_extractLsb', BitVec.getLsbD_ofNat, Nat.testBit_mod_two_pow, Nat.testBit_div_two_pow, hi, hpos,
      show l - lo + i < n by omega, Nat.add_comm i, decide_true, Bool.true_and] using hbit
  · intro h
    have hself := h lo n le_rfl le_rfl
    rw [At, hself]
    simp [BitVec.toNat_eq]

/-! ### Codes of operands (R60 to R64) -/

theorem elemTy?_eq_some {x : BitVec 3} {t : ElemTy} : elemTy? x = some t ↔ elemTyCode t = x := by
  cases t <;> revert x <;> decide

theorem qFmt?_eq_some {x : BitVec 3} {t : QFmt} : qFmt? x = some t ↔ qFmtCode3 t = x := by
  cases t <;> revert x <;> decide

theorem conv?_eq_some {x : BitVec 5} {t : Conv} : conv? x = some t ↔ convCode t = x := by
  cases t <;> revert x <;> decide

theorem rmode?_eq_some {x : BitVec 3} {t : RMode} : rmode? x = some t ↔ rModeCode t = x := by
  cases t <;> revert x <;> decide

theorem mmaTy?_eq_some {x : BitVec 3} {t : MmaTy} : mmaTy? x = some t ↔ mmaTyCode t = x := by
  cases t <;> revert x <;> decide

theorem ldForm?_eq_some {x : BitVec 3} {t : LdForm} : ldForm? x = some t ↔ ldFormCode t = x := by
  cases t <;> revert x <;> decide

theorem amoSize?_eq_some {x : BitVec 2} {t : AmoSize} : amoSize? x = some t ↔ amoSizeCode t = x := by
  cases t <;> revert x <;> decide

theorem memSize_memSizeCode (z : MemSize) : memSize (memSizeCode z) = z := by
  cases z <;> rfl

theorem memSizeCode_memSize (x : BitVec 2) : memSizeCode (memSize x) = x := by
  revert x; decide

theorem ofBool_beq_one (b : Bool) : (BitVec.ofBool b == 1#1) = b := by
  cases b <;> rfl

theorem ofBool_fld_beq_one (w : BitVec 32) (k : Nat) : BitVec.ofBool (fld w k 1 == 1) = fld w k 1 := by
  generalize fld w k 1 = x
  revert x; decide

/-! ### From a word that decodes to its encoding -/

/-- What a decoder answers for a word is encoded as that word. -/
def Encodes (w : BitVec 32) (o : Option Instr) : Prop := ∀ i, o = some i → encodeTile i = some w

theorem encodes_none (w : BitVec 32) : Encodes w none := by simp [Encodes]

theorem encodes_bind {α : Type} {w : BitVec 32} {o : Option α} {f : α → Option Instr} :
    Encodes w (o.bind f) ↔ ∀ a, o = some a → Encodes w (f a) := by
  cases o <;> simp [Encodes]

/-- A row of the table decodes its words: the fields of its encoding stand at their places. -/
theorem encodes_some {w v : BitVec 32} {i : Instr} (h : encodeTile i = some v) (hv : At w 0 v) : Encodes w (some i) := by
  rintro j ⟨⟩
  rw [h, hv.eq]

/-- Each row of the table checks the bits that its encoding fixes and reads its operands where the encoding puts them. -/
theorem encodes_decodeRaw (w : BitVec 32) : Encodes w (decodeRaw w) := by
  unfold decodeRaw
  split
  all_goals simp only [
    decodeOp00, decodeOp01, decodeOp02, decodeOp03, decodeOp04, decodeOp05, decodeOp06, decodeOp07, decodeOp08, decodeOp09, decodeOp0A, decodeOp0B,
    decodeOp0C, decodeOp0D, decodeOp10, decodeOp11, decodeOp12, decodeOp13, decodeOp18, decodeOp19, decodeOp1A, decodeOp1B, decodeOp1C, decodeOp1D,
    decodeOp30, decodeOp31, decodeOp32, decodeOp33, decodeOp34, decodeOp35, decodeOp36, decodeOp37, decodeOp40, decodeOp41, decodeOp42, decodeOp43,
    decodeOp44, decodeOp45, decodeOp46, decodeOp47, decodeOp48, decodeOp49, decodeOp4A, decodeOp4B, decodeOp4C, decodeOp4D, decodeOp4E, decodeOp4F,
    decodeOp50, decodeOp51, decodeOp52, decodeOp53, decodeOp54, decodeOp55, decodeOp56, decodeOp57, decodeOp58, decodeOp59, decodeOp5A, decodeOp5B,
    decodeOp5C, decodeOp60, decodeOp61, decodeOp62, decodeOp63, decodeOp64, decodeOp65, decodeOp66, decodeOp67, decodeOp70, decodeOp71, decodeOp72,
    decodeOp73, decodeOp78, decodeOp79, decodeOp7A, decodeOp7B, decodeOp7C, decodeOp7D]
  -- One goal for each row, with its selector, its reserved bits and its operand codes as hypotheses.
  all_goals (repeat' split)
  all_goals try simp only [encodes_none, encodes_bind]
  all_goals intros
  all_goals apply encodes_some rfl
  all_goals try simp only [fld_eq_zero, elemTy?_eq_some, qFmt?_eq_some, conv?_eq_some, rmode?_eq_some, mmaTy?_eq_some, ldForm?_eq_some,
    amoSize?_eq_some] at *
  all_goals simp only [↓at_append, at_fld, at_ofNat, ofBool_fld_beq_one, memSizeCode_memSize, Nat.zero_add, Nat.reduceAdd, Nat.reduceMod,
    Nat.reducePow, and_self, true_and, *]
  -- What is left are the rows whose encoding joins a selector and reserved bits into one constant.
  all_goals simp only [fld_toNat] at *
  all_goals omega

/-! ### From an instruction to its word -/

/-- The decoders of the major opcodes (R58). -/
def majorDecoders : List (BitVec 7 × (Head → BitVec 32 → Option Instr)) :=
  [(0x00, decodeOp00), (0x01, decodeOp01), (0x02, decodeOp02), (0x03, decodeOp03), (0x04, decodeOp04), (0x05, decodeOp05), (0x06, decodeOp06),
    (0x07, decodeOp07), (0x08, decodeOp08), (0x09, decodeOp09), (0x0A, decodeOp0A), (0x0B, decodeOp0B), (0x0C, decodeOp0C), (0x0D, decodeOp0D),
    (0x10, decodeOp10), (0x11, decodeOp11), (0x12, decodeOp12), (0x13, decodeOp13), (0x18, decodeOp18), (0x19, decodeOp19), (0x1A, decodeOp1A),
    (0x1B, decodeOp1B), (0x1C, decodeOp1C), (0x1D, decodeOp1D), (0x30, decodeOp30), (0x31, decodeOp31), (0x32, decodeOp32), (0x33, decodeOp33),
    (0x34, decodeOp34), (0x35, decodeOp35), (0x36, decodeOp36), (0x37, decodeOp37), (0x40, decodeOp40), (0x41, decodeOp41), (0x42, decodeOp42),
    (0x43, decodeOp43), (0x44, decodeOp44), (0x45, decodeOp45), (0x46, decodeOp46), (0x47, decodeOp47), (0x48, decodeOp48), (0x49, decodeOp49),
    (0x4A, decodeOp4A), (0x4B, decodeOp4B), (0x4C, decodeOp4C), (0x4D, decodeOp4D), (0x4E, decodeOp4E), (0x4F, decodeOp4F), (0x50, decodeOp50),
    (0x51, decodeOp51), (0x52, decodeOp52), (0x53, decodeOp53), (0x54, decodeOp54), (0x55, decodeOp55), (0x56, decodeOp56), (0x57, decodeOp57),
    (0x58, decodeOp58), (0x59, decodeOp59), (0x5A, decodeOp5A), (0x5B, decodeOp5B), (0x5C, decodeOp5C), (0x60, decodeOp60), (0x61, decodeOp61),
    (0x62, decodeOp62), (0x63, decodeOp63), (0x64, decodeOp64), (0x65, decodeOp65), (0x66, decodeOp66), (0x67, decodeOp67), (0x70, decodeOp70),
    (0x71, decodeOp71), (0x72, decodeOp72), (0x73, decodeOp73), (0x78, decodeOp78), (0x79, decodeOp79), (0x7A, decodeOp7A), (0x7B, decodeOp7B),
    (0x7C, decodeOp7C), (0x7D, decodeOp7D)]

theorem head_eq {w : BitVec 32} {h : Head} (hc : At w 31 (BitVec.ofBool h.c)) (hg : At w 21 h.g) :
    (⟨fld w 31 1 == 1, fld w 21 3⟩ : Head) = h := by
  rw [At] at hc hg
  rw [hc, hg, BitVec.ofNat_eq_ofNat, ofBool_beq_one]

/-- R58: a word is decoded by its major opcode. -/
theorem decodeRaw_of_major {w : BitVec 32} {h : Head} {op : BitVec 7} {f : Head → BitVec 32 → Option Instr}
    (hc : At w 31 (BitVec.ofBool h.c)) (hop : At w 24 op) (hg : At w 21 h.g) (hf : majorDecoders.lookup op = some f) :
    decodeRaw w = f h w := by
  have table : majorDecoders.Forall fun e => At w 24 e.1 → decodeRaw w = e.2 h w := by
    and_intros
    all_goals
      intro hop
      rw [decodeRaw, head_eq hc hg, hop]
      rfl
  obtain ⟨_, _, hl, -⟩ := List.lookup_eq_some_iff.1 hf
  exact List.forall_iff_forall_mem.1 table (op, f) (by simp [hl]) hop

/-- Each row's encoding fixes the selector and the reserved bits that its decoder checks; TRET's decoder checks the guard too (R60). -/
theorem decodeRaw_of_encodeTile {i : Instr} {w : BitVec 32} (hwf : WellFormed i = true) (hs : sharesWord i = false)
    (hw : encodeTile i = some w) : decodeRaw w = some i := by
  obtain ⟨v, hv, hat⟩ : ∃ v, encodeTile i = some v ∧ At w 0 v := ⟨w, hw, at_self⟩
  clear hw
  cases i <;> cases hv <;> cases hs
  case tret.refl.refl h =>
    simp only [↓at_append, and_assoc, Nat.zero_add, Nat.reduceAdd] at hat
    obtain ⟨hc, hop, hg, hz⟩ := hat
    have hguard : h.g = 0#3 := by simpa [WellFormed] using hwf
    have hall : fld w 0 24 = 0#3 ++ 0#21 := at_append.2 ⟨hguard ▸ hg, hz⟩
    rw [decodeRaw_of_major hc hop hg rfl, decodeOp1D, hall]
    rfl
  all_goals
    simp only [↓at_append, and_assoc, Nat.zero_add, Nat.reduceAdd] at hat
    obtain ⟨hc, hop, hg, hf⟩ := hat
    rw [decodeRaw_of_major hc hop hg rfl]
    clear hc hop hg
    delta decodeOp00 decodeOp01 decodeOp02 decodeOp03 decodeOp04 decodeOp05 decodeOp06 decodeOp07 decodeOp08 decodeOp09 decodeOp0A decodeOp0B
      decodeOp0C decodeOp0D decodeOp10 decodeOp11 decodeOp12 decodeOp13 decodeOp18 decodeOp19 decodeOp1A decodeOp1B decodeOp1C decodeOp1D decodeOp30
      decodeOp31 decodeOp32 decodeOp33 decodeOp34 decodeOp35 decodeOp36 decodeOp37 decodeOp40 decodeOp41 decodeOp42 decodeOp43 decodeOp44 decodeOp45
      decodeOp46 decodeOp47 decodeOp48 decodeOp49 decodeOp4A decodeOp4B decodeOp4C decodeOp4D decodeOp4E decodeOp4F decodeOp50 decodeOp51 decodeOp52
      decodeOp53 decodeOp54 decodeOp55 decodeOp56 decodeOp57 decodeOp58 decodeOp59 decodeOp5A decodeOp5B decodeOp5C decodeOp60 decodeOp61 decodeOp62
      decodeOp63 decodeOp64 decodeOp65 decodeOp66 decodeOp67 decodeOp70 decodeOp71 decodeOp72 decodeOp73 decodeOp78 decodeOp79 decodeOp7A decodeOp7B
      decodeOp7C decodeOp7D
    -- The decoder of the opcode, as a function of the fields of the word.
    simp only [↓at_ofNat_parts, At] at hf
    generalize fld w = f at hf ⊢
    simp only [hf, Nat.reduceMod, Nat.reduceLeDiff, Nat.reduceAdd, Nat.reduceSub, Nat.reducePow, Nat.reduceDiv,
      BitVec.ofNat_eq_ofNat, BitVec.reduceToNat, and_self, if_true, memSize_memSizeCode, ofBool_beq_one, Option.bind_some,
      elemTy?_eq_some.2 rfl, qFmt?_eq_some.2 rfl, conv?_eq_some.2 rfl, rmode?_eq_some.2 rfl, mmaTy?_eq_some.2 rfl, ldForm?_eq_some.2 rfl,
      amoSize?_eq_some.2 rfl]

/-! ### The round trips -/

theorem decodeWord_eq_some {w : BitVec 32} {i : Instr} : decodeWord w = some i ↔ decodeRaw w = some i ∧ WellFormed i = true := by
  unfold decodeWord
  cases decodeRaw w with
  | none => simp
  | some j =>
    by_cases hwf : WellFormed j = true
    · simp only [hwf, if_true, Option.some.injEq, iff_self_and]
      rintro rfl
      exact hwf
    · simp only [hwf, Bool.false_eq_true, if_false, Option.some.injEq, reduceCtorEq, false_iff, not_and]
      rintro rfl
      exact hwf

/-- Settles O2: an encoding puts each operand at its field, where the decoder of its opcode reads it. -/
theorem tileEncodeThenDecode : Obligations.TileEncodeThenDecode := by
  intro i w hwf hs hw
  exact decodeWord_eq_some.2 ⟨decodeRaw_of_encodeTile hwf hs hw, hwf⟩

/-- Settles O3: a row decodes only the words that have its fixed bits, and reads every other bit into an operand. -/
theorem tileDecodeThenEncode : Obligations.TileDecodeThenEncode := by
  intro w i hd
  obtain ⟨hraw, hwf⟩ := decodeWord_eq_some.1 hd
  exact ⟨encodes_decodeRaw w i hraw, hwf⟩

/-- Settles O1: each of the words, by evaluation. -/
theorem tableWordsDecode : Obligations.TableWordsDecode := by
  unfold Obligations.TableWordsDecode
  and_intros <;> rfl

end Sys2Proof
end

section
/-! PROOFS. Branches (R86) and the checks of a packet (R55). -/

namespace Sys2Proof.Machine

/-! ### The checks of a packet, in their order (R55) -/

theorem find_first {f : Nat → Bool} {n i : Nat} (hi : i < n ∧ f i = true ∧ ∀ j < i, f j = false) : (List.range n).find? f = some i := by
  obtain ⟨hlt, hf, hbefore⟩ := hi
  exact List.find?_range_eq_some.2 ⟨hf, List.mem_range.2 hlt, fun j hj => by simp [hbefore j hj]⟩

theorem find_clear {f : Nat → Bool} {n : Nat} (hclear : ∀ j < n, f j = false) : (List.range n).find? f = none :=
  List.find?_range_eq_none.2 fun j hj => by simp [hclear j hj]

section
variable {fw : Bool} {ws : List (BitVec 32)} {i : Nat}

theorem packetFault_illegal (h : (List.range 3).find? (fun j => !wordLegal fw (ws.getD j 0)) = some i) :
    packetFault fw ws = some (i, .illegalOp) := by
  rw [packetFault, h]

variable (hlegal : (List.range 3).find? (fun j => !wordLegal fw (ws.getD j 0)) = none)
include hlegal

theorem packetFault_chain (hc : chainedAt ws 2 = true) : packetFault fw ws = some (2, .illegalChain) := by
  simp only [packetFault, hlegal, hc, if_true]

variable (hc : chainedAt ws 2 = false)
include hc

theorem packetFault_clash (h : (List.range 3).find? (pipeClash ws) = some i) : packetFault fw ws = some (i, .pipeClash) := by
  simp only [packetFault, hlegal, hc, h, Bool.false_eq_true, if_false]

theorem packetFault_priv (hp : (List.range 3).find? (pipeClash ws) = none)
    (h : (List.range 3).find? (fun j => wordPriv fw (ws.getD j 0)) = some i) : packetFault fw ws = some (i, .priv) := by
  simp only [packetFault, hlegal, hc, hp, h, Bool.false_eq_true, if_false]

theorem packetFault_none (hp : (List.range 3).find? (pipeClash ws) = none)
    (h : (List.range 3).find? (fun j => wordPriv fw (ws.getD j 0)) = none) : packetFault fw ws = none := by
  simp only [packetFault, hlegal, hc, hp, h, Bool.false_eq_true, if_false]

end

theorem wordPriv_fw (w : BitVec 32) : wordPriv true w = false := by
  unfold wordPriv
  split <;> rfl

/-- Settles O42: the checks of R55 one after the other; the fault found ends the packet. -/
theorem packetChecks : Obligations.PacketChecks := by
  intro run s ws i k fw bad first clear
  refine ⟨?illegal, ?chain, ?clash, ?priv, ?clean, wordPriv_fw, ?fault⟩
  case illegal => exact fun h => packetFault_illegal (find_first h)
  case chain => exact fun hl hc => packetFault_chain (find_clear hl) hc
  case clash => exact fun hl hc h => packetFault_clash (find_clear hl) hc (find_first h)
  case priv => exact fun hl hc hp h => packetFault_priv (find_clear hl) hc (find_clear hp) (find_first h)
  case clean => exact fun hl hc hp h => packetFault_none (find_clear hl) hc (find_clear hp) (find_clear h)
  case fault => intro h; rw [issueFrom, h]

/-! ### Branches and their targets (R86) -/

/-- A JR to an address of more than 32 bits faults where its packet is fetched. -/
theorem fetchIssue_jrTooFar (run : Instr → State → Out) {s : State} {v : Word} (hj : s.ctx.viaJr = some v) (hv : v.extractLsb' 32 32 ≠ 0) :
    fetchIssue run s = finish [] (raiseAt { s with word := s.ctx.word % 3 } .unmapped v) := by
  have hfar : ¬ v.toNat < 2 ^ 32 := fun hlt => hv <| BitVec.eq_of_toNat_eq <| by
    rw [BitVec.extractLsb'_toNat, Nat.shiftRight_eq_div_pow, Nat.div_eq_of_lt hlt]
    rfl
  have hany : (s.ctx.viaJr.any fun a => a.toNat / 2 ^ 32 != 0) = true := by
    simpa [hj] using hfar
  rw [fetchIssue, if_pos hany, fetchFault, hj, Option.getD_some]

/-- Settles O15: what a branch leaves for the end of its bundle, where the context then stands, and the fault of a JR too far. -/
theorem branchesAndTheirTargets : Obligations.BranchesAndTheirTargets := by
  intro s h a o run x i v last
  refine ⟨fun g => ⟨?br, ?call, ?jr⟩, ?packet, ?register, ?far⟩
  case br => rw [exec_br, execBr, guarded_true _ g]; rfl
  case call => rw [exec_call, execCall, guarded_true _ g]; rfl
  case jr => rw [exec_jr, execJr, guarded_true _ g]
  case packet => rfl
  case register => simp [Ctx.advance, BitVec.setWidth_eq_extractLsb']
  case far => exact fetchIssue_jrTooFar run

end Sys2Proof.Machine
end

section
/-! PROOFS. The scalar memory words, the AMOs and the VAMOs at issue (R68, R77 to R81, R130): one entry joins the queues. -/

namespace Sys2Proof.Machine

/-! ### An entry joins the queues (R79) -/

/-- Nothing but the queues of the acting context and the next serial number changes when an entry joins. -/
theorem queued_pushEnt {s : State} {e : QEnt} (hid : e.id = s.serial) (hstage : e.stage = .waiting) : Queued s (pushEnt s e) e := by
  refine ⟨?_, ⟨fun _ => rfl, rfl⟩, ⟨rfl, rfl, rfl, rfl, rfl, rfl, rfl⟩, ?_, ?_, rfl, rfl, rfl, hid, hstage⟩
  · exact setCtx_ctx s _
  · intro c hc
    exact vput_other _ _ _ _ (Ne.symm hc)
  · exact (setCtx_cur s _).trans (by rw [← setCtx_ctx s { s.ctx with mq := s.ctx.mq ++ [e] }]; rfl)

/-- A word that issues as an entry. -/
def Joins (s : State) (o : Out) (e : QEnt) : Prop := ∃ t, o = .next t ∧ Queued s t e

theorem joins_pushEnt {s : State} {e : QEnt} (hid : e.id = s.serial) (hstage : e.stage = .waiting) :
    Joins s (.next (pushEnt s e)) e :=
  ⟨_, rfl, queued_pushEnt hid hstage⟩

theorem aligned_of_dvd {s : State} {ea : Word} {n : Nat} (hd : n ∣ ea.toNat) (f : Out) : aligned s ea n f = f := by
  simp [aligned, Nat.mod_eq_zero_of_dvd hd]

/-! ### Loads, stores and AMOs that wait for nothing (R71, R80, R114) -/

section
variable {s : State} {ea : Word} {n : Nat} {l : Loc}

theorem joins_issueLoad (kind : QKind) (pieces : Loc → List Piece) (ha : checkAddr s ea n .read = .ok l) (hcap : captureFull s = false)
    (hrec : recordMeets s l n = false) : Joins s (issueLoad s kind ea n pieces) (newEnt s kind true false ea (pieces l)) := by
  simp only [issueLoad, ha, onRes_ok, hcap, hrec, Bool.or_self, Bool.false_eq_true, if_false]
  exact joins_pushEnt rfl rfl

variable (ha : checkAddr s ea n .write = .ok l) (hguard : guardStalls s l n = false) (hrec : recordMeets s l n = false)
include ha hguard hrec

theorem joins_issueStore (kind : QKind) (data : List Byte) :
    Joins s (issueStore s kind ea n data) { newEnt s kind false true ea (piecesOf l n) with data := data } := by
  simp only [issueStore, ha, onRes_ok, hguard, hrec, Bool.or_self, Bool.false_eq_true, if_false]
  exact joins_pushEnt rfl rfl

end

theorem joins_issueAmo {s : State} {h : Head} {a : BitVec 5} {z : AmoSize} {l : Loc} (g : s.rp h.g = true) (hcap : captureFull s = false)
    (hd : amoBytes z ∣ (s.rs a).toNat) (ha : checkAddr s (s.rs a) (amoBytes z) .write = .ok l)
    (hguard : guardStalls s l (amoBytes z) = false) (hrec : recordMeets s l (amoBytes z) = false) (op : BitVec 4) (d b : BitVec 5) :
    Joins s (issueAmo op h d a b z s)
      { newEnt s (.amo d op z) true true (s.rs a) [⟨l, 0, amoBytes z, none⟩] with opa := s.rs b, opb := s.rs d } := by
  simp only [issueAmo, guarded_true _ g, aligned_of_dvd hd, ha, onRes_ok, hcap, hguard, hrec, Bool.or_self, Bool.false_eq_true, if_false]
  exact joins_pushEnt rfl rfl

theorem joins_exec {s : State} {h : Head} {i : Instr} {f : State → Out} {e : QEnt} (g : s.rp h.g = true) (hi : exec i s = guarded h s f)
    (hf : Joins s (f s) e) : Joins s (exec i s) e := by
  rwa [hi, guarded_true f g]

/-- Settles O22: each word is its queue's issue behind its guard, with the checks that its form makes. -/
theorem scalarMemoryWordsIssue : Obligations.ScalarMemoryWordsIssue := by
  intro s h d a o f z l g at_ joins
  refine ⟨?ld, ?ldAcq, ?st, ?stRel, ?lsaln⟩
  case ld =>
    intro ha hcap hrec
    exact joins_exec g (exec_ld h d a f o s) (joins_issueLoad (.ld d f) (piecesOf · (ldBytes f)) ha hcap hrec)
  case ldAcq =>
    intro hd ha hcap hrec
    refine joins_exec g (exec_ldAcq h d a z o s) ?_
    exact (aligned_of_dvd hd _).symm ▸ joins_issueLoad (.ldAcq d z) (piecesOf · (memBytes z)) ha hcap hrec
  case st =>
    intro ha hguard hrec
    exact joins_exec g (exec_st h d a z o s) (joins_issueStore ha hguard hrec _ _)
  case stRel =>
    intro hd ha hguard hrec
    refine joins_exec g (exec_stRel h d a z o s) ?_
    exact (aligned_of_dvd hd _).symm ▸ joins_issueStore ha hguard hrec _ _
  case lsaln => exact joins_exec g (exec_lsaln h s) (joins_pushEnt rfl rfl)

/-! ### The active elements of a VAMO (R116, R130) -/

/-- The numbers below a bound that hold a property, from the first to the last of them. -/
theorem head?_filter_range {p : Nat → Bool} {n i : Nat} (hi : i < n ∧ p i = true) (hfirst : ∀ k, k < n ∧ p k = true → i ≤ k) :
    ((List.range n).filter p).head? = some i := by
  rw [List.head?_filter, List.find?_range_eq_some]
  refine ⟨hi.2, List.mem_range.2 hi.1, fun k hk => ?_⟩
  have hnot : p k ≠ true := fun hp => Nat.not_le.2 hk (hfirst k ⟨Nat.lt_trans hk hi.1, hp⟩)
  simpa using hnot

theorem getLast?_filter_range {p : Nat → Bool} {n j : Nat} (hj : j < n ∧ p j = true) (hlast : ∀ k, k < n ∧ p k = true → k ≤ j) :
    ((List.range n).filter p).getLast? = some j := by
  obtain ⟨hjn, hpj⟩ := hj
  obtain ⟨m, rfl⟩ := Nat.exists_eq_add_of_lt hjn
  have hrest : ((List.range m).map (j + 1 + ·)).filter p = [] := by
    simp only [List.filter_eq_nil_iff, List.mem_map, List.mem_range]
    rintro _ ⟨k, hk, rfl⟩ hp
    exact absurd (hlast _ ⟨by omega, hp⟩) (by omega)
  rw [Nat.add_right_comm, List.range_add, List.range_succ, List.filter_append, hrest, List.append_nil, List.filter_append,
    List.filter_singleton, hpj, cond_true, List.getLast?_concat]

/-- The active elements of a VAMO's line. -/
def vamoActive (b16 : Bool) (mask : Mask) : List Nat :=
  (List.range (128 / if b16 then 2 else 4)).filter fun k => mask.getLsbD ((if b16 then 2 else 4) * k)

section
variable {b16 : Bool} {s : State} {h : Head} {m : BitVec 3} {a : BitVec 5}

theorem issueVamo_none (g : s.rp h.g = true) (hd : 128 ∣ (s.rs a).toNat) (hnone : vamoActive b16 (s.rm m) = []) (d : BitVec 5) :
    issueVamo b16 h m d a s = .next s := by
  simp only [vamoActive] at hnone
  simp only [issueVamo, guarded_true _ g, aligned_of_dvd hd, hnone, List.head?_nil]

theorem joins_issueVamo {i j n : Nat} {first : Word} {l line : Loc} (g : s.rp h.g = true) (hd : 128 ∣ (s.rs a).toNat)
    (hi : (vamoActive b16 (s.rm m)).head? = some i) (hj : (vamoActive b16 (s.rm m)).getLast? = some j)
    (hfirst : first = s.rs a + BitVec.ofNat 64 ((if b16 then 2 else 4) * i)) (hn : n = (if b16 then 2 else 4) * (j + 1 - i))
    (hcap : captureFull s = false) (ha : checkAddr s first n .write = .ok l) (hguard : guardStalls s l n = false)
    (hrec : recordMeets s l n = false) (hline : relocate s s.core (s.rs a) = some line) (d : BitVec 5) :
    Joins s (issueVamo b16 h m d a s)
      { newEnt s (.vamo b16) false true (s.rs a) [⟨line, 0, 128, none⟩] with vec := s.rv d, mask := s.rm m } := by
  subst hfirst hn
  simp only [vamoActive] at hi hj
  simp only [issueVamo, guarded_true _ g, aligned_of_dvd hd, hi, hj, ha, onRes_ok, hcap, hguard, hrec, hline, Option.getD_some, Bool.or_self,
    Bool.false_eq_true, if_false]
  exact joins_pushEnt rfl rfl

end

/-- Settles O23: an AMO by its operation, a VAMO by the first and the last of its active elements. -/
theorem atomicWordsIssue : Obligations.AtomicWordsIssue := by
  intro s h d a b m z l line w i j b16 g ea joins amo vamo word active first n
  refine ⟨?amo, ?vamo⟩
  case amo =>
    intro hcap hd ha hguard hrec
    have each := fun op => joins_issueAmo g hcap hd ha hguard hrec op d b
    exact ⟨each 0, each 1, each 2, each 3, each 4, each 5, each 6, each 7, each 8, each 9⟩
  case vamo =>
    intro hw hd
    have hword : exec word s = issueVamo b16 h m d a s := by cases b16 <;> rfl
    subst hw
    refine ⟨?some, ?none⟩
    case some =>
      intro hcap hi hj hbetween ha hguard hrec hline
      simp only [joins, hword]
      exact joins_issueVamo g hd (head?_filter_range hi fun k hk => (hbetween k hk).1) (getLast?_filter_range hj fun k hk => (hbetween k hk).2)
        rfl rfl hcap ha hguard hrec hline d
    case none =>
      intro hnone
      rw [hword]
      refine issueVamo_none g hd (List.filter_eq_nil_iff.2 fun k hk hp => hnone k ⟨List.mem_range.1 hk, hp⟩) d

end Sys2Proof.Machine
end

section
/-! PROOFS. A load, a store or an AMO of tile memory that is at the head of its queue and in its turn (R77, R78, R80, R81, R208). -/

namespace Sys2Proof.Machine

/-! ### An entry leaves its queues; its result is written -/

/-- The registers of a unit's context. -/
def unitRegs (s : State) (c : Fin 512) : Regs := (s.cores[c].ctx false).regs

@[simp] theorem unitRegs_dropEnt (s : State) (c : Fin 512) (id : Nat) : unitRegs (dropEnt s c false id) c = unitRegs s c := by
  simp [unitRegs, dropEnt]

/-- Of a context's entries none has the number of the one that has left. -/
theorem dropEnt_left (s : State) (c : Fin 512) (id : Nat) : ∀ g ∈ ((dropEnt s c false id).cores[c].ctx false).mq, g.id ≠ id := by
  simp only [dropEnt, Fin.getElem_fin, putCore_same, core_setCtx_ctx, List.mem_map, List.mem_filter, bne_iff_ne]
  rintro _ ⟨g, ⟨-, hg⟩, rfl⟩
  exact hg

/-- A unit's entry writes its scalar result and leaves its queues. -/
def QEnt.answer (e : QEnt) (s : State) (c : Fin 512) (d : BitVec 5) (x : Word) : State :=
  dropEnt (e.result s c false d.toNat fun r => r.setS d x) c false e.id

/-- A result is registers alone: memory and its tags stay. -/
theorem result_memory (e : QEnt) (s : State) (c : Fin 512) (fw : Bool) (r : Nat) (f : Regs → Regs) :
    (e.result s c fw r f).mem = s.mem ∧ (e.result s c fw r f).caps = s.caps := by
  unfold QEnt.result
  split <;> exact ⟨rfl, rfl⟩

@[simp] theorem answer_mem (e : QEnt) (s : State) (c : Fin 512) (d : BitVec 5) (x : Word) : (e.answer s c d x).mem = s.mem :=
  (result_memory e s c false _ _).1

@[simp] theorem answer_caps (e : QEnt) (s : State) (c : Fin 512) (d : BitVec 5) (x : Word) : (e.answer s c d x).caps = s.caps :=
  (result_memory e s c false _ _).2

/-- R57: the register takes the result, but not where a later word of the bundle has written it. -/
theorem unitRegs_answer (e : QEnt) (s : State) (c : Fin 512) (d : BitVec 5) (x : Word) :
    unitRegs (e.answer s c d x) c = if e.keep.contains d.toNat then unitRegs s c else (unitRegs s c).setS d x := by
  rw [QEnt.answer, unitRegs_dropEnt]
  unfold QEnt.result
  split
  · rfl
  · simp [unitRegs, modRegs]

/-! ### The turn of an entry with one part, at its core's TM -/

/-- A part of a unit's access at its core's TM. -/
def tmPart (off n : Nat) : Piece := ⟨.tm off, 0, n, none⟩

section
variable {s t : State} {c : Fin 512} {e e' : QEnt} {off n : Nat}

/-- The one part is the next, in whatever order the entry's parts go. -/
theorem nextPiece_one (p : Piece) (htodo : e.todo = [p]) : nextPiece s c false e = some (.ok p) := by
  simp [nextPiece, htodo, pickFrom]

/-- R333: a waiting entry asks for its one part at the TM, which never lies beyond the edge. -/
theorem entReqs_tm (hst : e.stage = .waiting) (htodo : e.todo = [tmPart off n]) :
    entReqs s c false e = [⟨.ent c false e, tmPart off n⟩] := by
  have hfront : frontParts s c false e = [tmPart off n] := by simp [frontParts, htodo]
  simp [entReqs, entParts, hst, hfront, beyondEdge, tmPart]

/-- R208: a request at the TM whose turn it is runs. -/
theorem runOwn_tm (q : Req) (htm : q.inTm = true) (hturn : q ∈ tmRequests s c) : runOwn s c [q] = q.run s := by
  simp [runOwn, ownTurns, htm, hturn, pickFrom]

/-- In its turn at the TM the entry performs its part. -/
theorem turnEnt_tm (mem : Bool) (hst : e.stage = .waiting) (htodo : e.todo = [tmPart off n])
    (hturn : ⟨.ent c false e, tmPart off n⟩ ∈ tmRequests s c) : turnEnt s c false e mem = runPart s c false e (tmPart off n) := by
  have htm : (⟨.ent c false e, tmPart off n⟩ : Req).inTm = true := rfl
  simp only [turnEnt, hst, nextPiece_one _ htodo, entReqs_tm hst htodo, List.filter_cons, htm, Bool.true_or, if_true, List.filter_nil]
  exact runOwn_tm _ htm hturn

/-- R70: an entry of one part is not stopped by another of its parts. -/
theorem wholeFault_one (p : Piece) (htodo : e.todo = [p]) : wholeFault s c false e = none := by
  simp [wholeFault, htodo]

/-- An entry whose last part is performed, with the bytes it then holds. -/
def QEnt.served (e : QEnt) (bs : List Byte) : QEnt := { e with data := bs, todo := [], sure := true }

/-- An entry whose last part performs takes effect and leaves. -/
theorem runPart_last (htodo : e.todo = [tmPart off n])
    (hp : performPart s c false e (tmPart off n) (.flat (tmAddr c off)) = .ok (t, e')) (hdone : entDone { e' with sure := true } = true) :
    runPart s c false e (tmPart off n) = dropEnt (finishEnt t c false { e' with sure := true }) c false e'.id := by
  have htarget : partTarget s c false (tmPart off n) = .flat (tmAddr c off) := rfl
  simp only [runPart, wholeFault_one _ htodo, htarget, hp, settleEnt, hdone, if_true]

/-- The turn of an entry whose one part performs. -/
theorem turnEnt_performs {bs : List Byte} (mem : Bool) (hst : e.stage = .waiting) (htodo : e.todo = [tmPart off n])
    (hturn : ⟨.ent c false e, tmPart off n⟩ ∈ tmRequests s c) (hdone : entDone (e.served bs) = true)
    (hp : performPart s c false e (tmPart off n) (.flat (tmAddr c off)) = .ok (t, { e with data := bs, todo := [] })) :
    turnEnt s c false e mem = dropEnt (finishEnt t c false (e.served bs)) c false e.id := by
  rw [turnEnt_tm mem hst htodo hturn, runPart_last htodo hp hdone]
  rfl

/-! ### Tile memory below the trap area -/

/-- R317: below the trap area a store clears no reserved byte. -/
theorem targetWrite_tm (bs : List Byte) (hoff : off + bs.length ≤ 0x7C000) :
    targetWrite s (.flat (tmAddr c off)) bs = .ok (s.store (tmAddr c off) bs) := by
  have hplace : tmAddr c off % 2 ^ 20 = off := by unfold tmAddr; omega
  simp only [targetWrite, clearGaps, hplace]
  rw [if_neg (by simp; omega)]

/-- A store leaves every byte outside it. -/
theorem sameOutside_store (a : Nat) (bs : List Byte) (h : s.memWf) : SameOutside s (s.store a bs) a bs.length :=
  fun _ hx => readByte_store_other _ _ _ h hx

end

/-! ### What a part performs -/

section
variable {s : State} {c : Fin 512} {e : QEnt} {off n : Nat}

/-- R77, R78: a load takes the bytes of its part. -/
theorem performPart_load (htodo : e.todo = [tmPart off n]) (hdata : e.data = [])
    (hk : (∃ d f, e.kind = .ld d f) ∨ ∃ d z, e.kind = .ldAcq d z) :
    performPart s c false e (tmPart off n) (.flat (tmAddr c off)) = .ok (s, { e with data := s.load (tmAddr c off) n, todo := [] }) := by
  rcases hk with ⟨d, f, hk⟩ | ⟨d, z, hk⟩ <;> simp [performPart, hk, targetRead, hdata, htodo, patch, tmPart, Except.map]

/-- R80: a store writes its bytes. -/
theorem performPart_store {rel : Bool} (hoff : off + n ≤ 0x7C000) (htodo : e.todo = [tmPart off n]) (hk : e.kind = .st rel)
    (hmask : e.mask = 0) (hdata : e.data.length = n) :
    performPart s c false e (tmPart off n) (.flat (tmAddr c off)) = .ok (s.store (tmAddr c off) e.data, { e with data := e.data, todo := [] }) := by
  have hbytes : (e.data.drop 0).take n = e.data := by simp [← hdata]
  have hmates : blockMates e.todo e.whole (tmPart off n) = [] := rfl
  simp only [performPart, hk, storePart, hmates, writeMates, hmask, if_true]
  rw [show (tmPart off n).off = 0 from rfl, show (tmPart off n).len = n from rfl, hbytes, targetWrite_tm _ (hdata ▸ hoff)]
  simp [Except.map, writtenTm, htodo]

/-- R81: an AMO reads the old value and writes what its operation makes of it. -/
theorem performPart_amo {d : BitVec 5} {op : BitVec 4} {y : AmoSize} (hoff : off + n ≤ 0x7C000) (htodo : e.todo = [tmPart off n])
    (hk : e.kind = .amo d op y) (hn : n = amoBytes y) :
    performPart s c false e (tmPart off n) (.flat (tmAddr c off)) =
      .ok (s.store (tmAddr c off)
          (leBytes n (amoNew op n (s.loadNat (tmAddr c off) n) (e.opa.toNat % 2 ^ (8 * n)) (e.opb.toNat % 2 ^ (8 * n)))),
        { e with data := s.load (tmAddr c off) n, todo := [] }) := by
  subst hn
  simp only [performPart, hk, targetRead]
  rw [targetWrite_tm _ (by simpa using hoff)]
  simp [Except.map, writtenTm, htodo, State.loadNat]

end

/-! ### What an entry of one part leaves -/

/-- R77: the head of the load queue goes on. -/
theorem exec_loadReturn_head {s : State} {c : Fin 512} {e : QEnt} (hhead : headOf s c false (·.ld) = some e)
    (hk : ∀ q x, e.kind ≠ .streamRead q x) : exec (.loadReturn c false) s = .next (turnEnt s c false e true) := by
  simp only [exec, execLoadReturn, hhead]

/-- R80: the head of the store queue goes on. -/
theorem exec_storePerform_head {s : State} {c : Fin 512} {e : QEnt} (hhead : headOf s c false (·.st) = some e) :
    exec (.storePerform c false) s = .next (turnEnt s c false e false) := by
  simp only [exec, execStorePerform, hhead]

/-- Settles O28: in its turn the entry's one part is performed; the entry then writes its result and leaves. -/
theorem tileMemoryAccessesPerform : Obligations.TileMemoryAccessesPerform := by
  intro s c e off n d f op z y rel hst hoff part htodo hturn place regs takes left
  have turn {t bs} (mem : Bool) := turnEnt_performs (t := t) (bs := bs) mem hst htodo hturn
  refine ⟨fun hhead hdata => ⟨fun hk _ => ?ld, fun hk _ => ?ldAcq⟩, fun hhead hk hmask hlen hwf => ?st, fun hhead hk hn hwf => ?amo⟩
  case ld =>
    have hexec : exec (.loadReturn c false) s = .next (e.answer s c d (ldValue f (s.load place n))) := by
      rw [exec_loadReturn_head hhead (by simp [hk]), turn true (by simp [entDone, QEnt.served, hk])
        (performPart_load htodo hdata (.inl ⟨d, f, hk⟩))]
      simp only [finishEnt, QEnt.served, hk]
      rfl
    exact ⟨_, hexec, unitRegs_answer _ _ _ _ _, by simp [SameMemory], dropEnt_left _ _ _⟩
  case ldAcq =>
    have hexec : exec (.loadReturn c false) s = .next (e.answer s c d (BitVec.ofNat 64 (s.loadNat place n))) := by
      rw [exec_loadReturn_head hhead (by simp [hk]), turn true (by simp [entDone, QEnt.served, hk])
        (performPart_load htodo hdata (.inr ⟨d, z, hk⟩))]
      simp only [finishEnt, QEnt.served, hk]
      rfl
    exact ⟨_, hexec, unitRegs_answer _ _ _ _ _, by simp [SameMemory], dropEnt_left _ _ _⟩
  case st =>
    have hexec : exec (.storePerform c false) s = .next (dropEnt (s.store place e.data) c false e.id) := by
      rw [exec_storePerform_head hhead, turn false (by simp [entDone, QEnt.served, hk]) (performPart_store hoff htodo hk hmask hlen)]
      simp only [finishEnt, QEnt.served, hk]
      rfl
    subst hlen
    exact ⟨_, hexec, unitRegs_dropEnt _ _ _, load_store _ _ hwf, sameOutside_store _ _ hwf, dropEnt_left _ _ _⟩
  case amo =>
    intro old
    generalize hnew : amoNew op n old (e.opa.toNat % 2 ^ (8 * n)) (e.opb.toNat % 2 ^ (8 * n)) = new
    have hexec : exec (.loadReturn c false) s = .next (e.answer (s.store place (leBytes n new)) c d (BitVec.ofNat 64 old)) := by
      rw [exec_loadReturn_head hhead (by simp [hk]), turn true (by simp [entDone, QEnt.served, hk]) (performPart_amo hoff htodo hk hn), ← hnew]
      simp only [finishEnt, QEnt.served, hk]
      rfl
    have hload := load_store place (leBytes n new) hwf
    have hsame := sameOutside_store place (leBytes n new) hwf
    rw [length_leBytes] at hload hsame
    refine ⟨_, hexec, unitRegs_answer _ _ _ _ _, ?_, fun x hx => ?_, dropEnt_left _ _ _⟩
    · rw [State.load, answer_mem]
      exact hload
    · rw [answer_mem]
      exact hsame x hx

end Sys2Proof.Machine
end

section
/-! PROOFS. The scalar register words (R72 to R76): each function of the model against the value of the spec's table. -/

namespace Sys2Proof.Machine

/-! ### A word that computes (R56) -/

/-- A word with a true guard writes what it computes. -/
theorem setS2_true {h : Head} {s : State} (g : s.rp h.g = true) (d : BitVec 5) (x y : State → Word) (f : Word → Word → Word) :
    setS2 h d x y f s = .next (s.wrS d (f (x s) (y s))) :=
  guarded_true _ g

theorem setP1_true {h : Head} {s : State} (g : s.rp h.g = true) (d : BitVec 3) (f : State → Bool) :
    setP1 h d f s = .next (s.wrP d (f s)) :=
  guarded_true _ g

/-! ### Shifts (R72) -/

theorem toNat_shiftField (y : Word) : (y.extractLsb' 0 6).toNat = y.toNat % 64 := by simp

theorem aluSll_eq (x y : Word) : aluSll x y = x <<< (y.extractLsb' 0 6) := by
  rw [BitVec.shiftLeft_eq', toNat_shiftField, aluSll]

theorem aluSrl_eq (x y : Word) : aluSrl x y = x >>> (y.extractLsb' 0 6) := by
  rw [BitVec.ushiftRight_eq', toNat_shiftField, aluSrl]

/-- An arithmetic shift divides the signed value, rounding down. -/
theorem sshiftRight_eq_div (x : Word) (n : Nat) : x.sshiftRight n = BitVec.ofInt 64 (x.toInt / 2 ^ n) := by
  rw [BitVec.sshiftRight, Int.shiftRight_eq_div_pow]
  norm_cast

theorem aluSra_eq (x y : Word) : aluSra x y = BitVec.ofInt 64 (x.toInt / 2 ^ (y.extractLsb' 0 6).toNat) := by
  rw [aluSra, sshiftRight_eq_div, toNat_shiftField]

/-! ### The lesser and the greater (R72) -/

theorem aluMin_eq (x y : Word) : aluMin x y = BitVec.ofInt 64 (min x.toInt y.toInt) := by
  simp only [aluMin, min_def, BitVec.sle_iff_toInt_le]
  split <;> exact BitVec.ofInt_toInt.symm

theorem aluMax_eq (x y : Word) : aluMax x y = BitVec.ofInt 64 (max x.toInt y.toInt) := by
  simp only [aluMax, max_def, BitVec.sle_iff_toInt_le]
  split <;> exact BitVec.ofInt_toInt.symm

theorem aluMinu_eq (x y : Word) : aluMinu x y = BitVec.ofNat 64 (min x.toNat y.toNat) := by
  simp only [aluMinu, min_def, BitVec.ule_iff_toNat_le]
  split <;> simp

theorem aluMaxu_eq (x y : Word) : aluMaxu x y = BitVec.ofNat 64 (max x.toNat y.toNat) := by
  simp only [aluMaxu, max_def, BitVec.ule_iff_toNat_le]
  split <;> simp

/-! ### Products and quotients (R72) -/

/-- The upper half of a number of 128 bits. -/
theorem extractUpper_ofInt (p : Int) : (BitVec.ofInt 128 p).extractLsb' 64 64 = BitVec.ofInt 64 (p / 2 ^ 64) := by
  refine BitVec.eq_of_toNat_eq ?_
  rw [BitVec.extractLsb'_toNat, BitVec.toNat_ofInt, BitVec.toNat_ofInt, Nat.shiftRight_eq_div_pow]
  omega

/-- The upper half of the exact signed product. -/
theorem aluMulh_eq (x y : Word) : aluMulh x y = (x.signExtend 128 * y.signExtend 128).extractLsb' 64 64 := by
  have hprod : x.signExtend 128 * y.signExtend 128 = BitVec.ofInt 128 (x.toInt * y.toInt) := by
    rw [BitVec.ofInt_mul]; rfl
  rw [hprod, extractUpper_ofInt, aluMulh]

/-- The upper half of the exact unsigned product. -/
theorem aluMulhu_eq (x y : Word) : aluMulhu x y = (x.setWidth 128 * y.setWidth 128).extractLsb' 64 64 := by
  refine BitVec.eq_of_toNat_eq ?_
  have hx := x.isLt
  have hy := y.isLt
  have hprod : x.toNat * y.toNat < 2 ^ 128 := by
    calc x.toNat * y.toNat < 2 ^ 64 * 2 ^ 64 := Nat.mul_lt_mul'' hx hy
      _ = 2 ^ 128 := by norm_num
  rw [BitVec.extractLsb'_toNat, BitVec.toNat_mul, BitVec.toNat_setWidth_of_le (by omega), BitVec.toNat_setWidth_of_le (by omega),
    Nat.mod_eq_of_lt hprod, Nat.shiftRight_eq_div_pow, aluMulhu, BitVec.toNat_ofNat]

theorem aluDiv_eq (x y : Word) : aluDiv x y = if y = 0 then BitVec.allOnes 64 else x.sdiv y := by
  rw [aluDiv, BitVec.eq_of_toInt_eq ((BitVec.toInt_ofInt _).trans (BitVec.toInt_sdiv x y).symm)]

theorem aluDivu_eq (x y : Word) : aluDivu x y = if y = 0 then BitVec.allOnes 64 else x / y := by
  rw [aluDivu, BitVec.udiv_def]

theorem aluRem_eq (x y : Word) : aluRem x y = if y = 0 then x else x.srem y := by
  rw [aluRem, ← BitVec.toInt_srem, BitVec.ofInt_toInt]

theorem aluRemu_eq (x y : Word) : aluRemu x y = if y = 0 then x else x % y := by
  rw [aluRemu, BitVec.umod_def]

section
variable {x y : Word} (hx : -(2 : Int) ^ 63 = x.toInt) (hy : y = -1)
include hx hy

/-- The quotient that overflows is the dividend. -/
theorem aluDiv_overflow : aluDiv x y = x := by
  obtain rfl : x = BitVec.intMin 64 := BitVec.eq_of_toInt_eq (hx.symm.trans (by decide))
  subst hy
  decide

theorem aluRem_overflow : aluRem x y = 0 := by
  obtain rfl : x = BitVec.intMin 64 := BitVec.eq_of_toInt_eq (hx.symm.trans (by decide))
  subst hy
  decide

end

/-! ### Counts of bits (R72) -/

/-- The first number below a bound that holds a property, or the bound. -/
theorem find_getD_first (p : Nat → Bool) (n : Nat) :
    let k := ((List.range n).find? p).getD n
    k ≤ n ∧ (∀ i < k, p i = false) ∧ (k < n → p k = true) := by
  cases hf : (List.range n).find? p with
  | none => exact ⟨le_rfl, fun i hi => by simpa using List.find?_range_eq_none.1 hf i hi, fun h => absurd h (lt_irrefl n)⟩
  | some k =>
    obtain ⟨hk, hlt, hbefore⟩ := List.find?_range_eq_some.1 hf
    exact ⟨(List.mem_range.1 hlt).le, fun i hi => by simpa using hbefore i hi, fun _ => hk⟩

theorem aluPopc_eq (x : Word) : aluPopc x = BitVec.ofNat 64 ((List.range 64).countP fun i => x.getLsbD i) := by
  rw [List.countP_eq_length_filter, aluPopc, popCount]

/-- What an ALU word of two registers writes, by the function of its row. -/
theorem alu_writes {h : Head} {s : State} {d : BitVec 5} {x y : State → Word} {f : Word → Word → Word} {o : Out} {v : Word}
    (g : s.rp h.g = true) (ho : o = setS2 h d x y f s) (hv : f (x s) (y s) = v) : o = .next (s.wrS d v) := by
  rw [ho, setS2_true g, hv]

/-- Settles O9: each row of the table by its function. -/
theorem scalarArithmetic : Obligations.ScalarArithmetic := by
  intro s h d a b g x y
  have leading := find_getD_first (fun i => x.getMsbD i) 64
  have trailing := find_getD_first (fun i => x.getLsbD i) 64
  refine ⟨?add, ?sub, ?and, ?or, ?xor, ?sll, ?srl, ?sra, ?min, ?max, ?minu, ?maxu, ?mul, ?mulh, ?mulhu, ?div, ?divu, ?rem, ?remu,
    ⟨_, ?clz, leading⟩, ⟨_, ?ctz, trailing⟩, ?popc, ?andn, ?orn, fun hx hy => ⟨?divMin, ?remMin⟩⟩
  case add => exact alu_writes g (exec_add ..) (BitVec.eq_of_toNat_eq (by simp [x, y]))
  case sub => exact alu_writes g (exec_sub ..) (BitVec.eq_of_toInt_eq (by simp [x, y]))
  case and => exact alu_writes g (exec_and ..) rfl
  case or => exact alu_writes g (exec_or ..) rfl
  case xor => exact alu_writes g (exec_xor ..) rfl
  case sll => exact alu_writes g (exec_sll ..) (aluSll_eq x y)
  case srl => exact alu_writes g (exec_srl ..) (aluSrl_eq x y)
  case sra => exact alu_writes g (exec_sra ..) (aluSra_eq x y)
  case min => exact alu_writes g (exec_min ..) (aluMin_eq x y)
  case max => exact alu_writes g (exec_max ..) (aluMax_eq x y)
  case minu => exact alu_writes g (exec_minu ..) (aluMinu_eq x y)
  case maxu => exact alu_writes g (exec_maxu ..) (aluMaxu_eq x y)
  case mul => exact alu_writes g (exec_mul ..) (BitVec.eq_of_toInt_eq (by simp [x, y]))
  case mulh => exact alu_writes g (exec_mulh ..) (aluMulh_eq x y)
  case mulhu => exact alu_writes g (exec_mulhu ..) (aluMulhu_eq x y)
  case div => exact alu_writes g (exec_div ..) (aluDiv_eq x y)
  case divu => exact alu_writes g (exec_divu ..) (aluDivu_eq x y)
  case rem => exact alu_writes g (exec_rem ..) (aluRem_eq x y)
  case remu => exact alu_writes g (exec_remu ..) (aluRemu_eq x y)
  case clz => exact alu_writes g (exec_clz ..) rfl
  case ctz => exact alu_writes g (exec_ctz ..) rfl
  case popc => exact alu_writes g (exec_popc ..) (aluPopc_eq x)
  case andn => exact alu_writes g (exec_andn ..) rfl
  case orn => exact alu_writes g (exec_orn ..) rfl
  case divMin => exact alu_writes g (exec_div ..) (aluDiv_overflow hx hy)
  case remMin => exact alu_writes g (exec_rem ..) (aluRem_overflow hx hy)

/-! ### Immediates, constants, select and scaled add (R73, R74, R76) -/

theorem toNat_shiftImmediate (n : BitVec 6) : (n.setWidth 64).toNat % 64 = n.toNat := by
  rw [BitVec.toNat_setWidth_of_le (by decide)]
  exact Nat.mod_eq_of_lt n.isLt

/-- Settles O10: each word is the ALU's function of the register and the extended immediate. -/
theorem scalarImmediates : Obligations.ScalarImmediates := by
  intro s h d a i n g x
  refine ⟨?add, ?and, ?or, ?xor, ?sll, ?srl, ?sra, ?low⟩
  case add => exact alu_writes g (exec_addi ..) rfl
  case and => exact alu_writes g (exec_andi ..) rfl
  case or => exact alu_writes g (exec_ori ..) rfl
  case xor => exact alu_writes g (exec_xori ..) rfl
  case sll => exact alu_writes g (exec_slli ..) (by rw [aluSll, toNat_shiftImmediate]; rfl)
  case srl => exact alu_writes g (exec_srli ..) (by rw [aluSrl, toNat_shiftImmediate]; rfl)
  case sra => exact alu_writes g (exec_srai ..) (by rw [aluSra, toNat_shiftImmediate])
  case low => exact alu_writes g (exec_andi ..) (congrArg (x &&& ·) (by decide))

/-- Sixteen bits put in: each bit is the constant's where it falls into it, and the register's elsewhere. -/
theorem getLsbD_insert16 (x : Word) (u : BitVec 16) (lo i : Nat) (hi : i < 64) :
    (insert16 x u lo).getLsbD i = if lo ≤ i ∧ i < lo + 16 then u.getLsbD (i - lo) else x.getLsbD i := by
  have hones : (0xFFFF : Word).getLsbD (i - lo) = decide (i - lo < 16) := by
    rw [show (0xFFFF : Word) = (BitVec.allOnes 16).setWidth 64 from rfl, BitVec.getLsbD_setWidth, BitVec.getLsbD_allOnes]
    simp; omega
  have hlow : (u.setWidth 64).getLsbD (i - lo) = u.getLsbD (i - lo) := by
    rw [BitVec.getLsbD_setWidth]; simp; omega
  simp only [insert16, BitVec.getLsbD_or, BitVec.getLsbD_and, BitVec.getLsbD_not, BitVec.getLsbD_shiftLeft, hones, hlow, hi]
  split
  next hin => simp [show i - lo < 16 by omega, show ¬ i < lo by omega]
  next hout =>
    by_cases hlo : i < lo
    · simp [hlo]
    · have := BitVec.getLsbD_of_ge u (i - lo) (by omega)
      simp [hlo, this, show ¬ i - lo < 16 by omega]

/-- The constant stands between the bits above it and the bits below it. -/
theorem insert16_append {up lo : Nat} (hw : up + 16 + lo = 64) (x : Word) (u : BitVec 16) :
    insert16 x u lo = (x.extractLsb' (lo + 16) up ++ u ++ x.extractLsb' 0 lo).cast hw := by
  refine BitVec.eq_of_getLsbD_eq fun i hi => ?_
  simp only [getLsbD_insert16 x u lo i hi, BitVec.getLsbD_cast, BitVec.getLsbD_append, BitVec.getLsbD_extractLsb']
  by_cases hbelow : i < lo
  · simp [hbelow]
  · by_cases hin : i - lo < 16
    · simp [hbelow, hin, show lo ≤ i ∧ i < lo + 16 by omega]
    · simp [hbelow, hin, show ¬ i < lo + 16 by omega, show lo + 16 + (i - lo - 16) = i by omega, show i - lo - 16 < up by omega]

theorem insert16_top (x : Word) (u : BitVec 16) : insert16 x u 48 = u ++ x.extractLsb' 0 48 := by
  rw [insert16_append (up := 0) (lo := 48) rfl]
  exact congrArg (· ++ x.extractLsb' 0 48) (BitVec.zero_width_append _ u)

/-- Settles O11: a constant is put in between the bits above it and the bits below it. -/
theorem scalarConstants : Obligations.ScalarConstants := by
  intro s h d u g x
  refine ⟨?li, ?li16, ?li32, ?li48, fun hx => ?second, fun hx => ?third⟩
  case li => exact alu_writes g (exec_li ..) rfl
  case li16 => exact alu_writes g (exec_li16 ..) (insert16_append (up := 32) (lo := 16) rfl x u)
  case li32 => exact alu_writes g (exec_li32 ..) (insert16_append (up := 16) (lo := 32) rfl x u)
  case li48 => exact alu_writes g (exec_li48 ..) (insert16_top x u)
  case second => exact alu_writes g (exec_li16 ..) (by show insert16 x _ _ = _; rw [hx]; decide)
  case third => exact alu_writes g (exec_li32 ..) (by show insert16 x _ _ = _; rw [hx]; decide)

/-- Settles O13: the register that SEL's predicate chooses, and the sum that wraps. -/
theorem selectAndScaledAdd : Obligations.SelectAndScaledAdd := by
  intro s h d a b p n g
  have hsel : exec (.sel h d a b p) s = .next (s.wrS d (if s.rp p then s.rs a else s.rs b)) := (exec_sel ..).trans (guarded_true _ g)
  refine ⟨fun hp => ?yes, fun hp => ?no, ?sum⟩
  case yes => rw [hsel, if_pos hp]
  case no => rw [hsel, if_neg (by simp [hp])]
  case sum => exact alu_writes g (exec_addsh ..) (BitVec.eq_of_toNat_eq (by simp [Nat.shiftLeft_eq]))

/-! ### Predicates (R75) -/

/-- What a predicate word writes, by its test. -/
theorem test_writes {h : Head} {s : State} {d : BitVec 3} {f : State → Bool} {o : Out} {v : Bool} (g : s.rp h.g = true)
    (ho : o = setP1 h d f s) (hv : f s = v) : o = .next (s.wrP d v) := by
  rw [ho, setP1_true g, hv]

section
variable (x y : Word)

theorem relHolds_eq : relHolds .eq x y = decide (x = y) := rfl
theorem relHolds_ne : relHolds .ne x y = decide (x ≠ y) := by rw [relHolds, decide_not]; rfl
theorem relHolds_lt : relHolds .lt x y = decide (x.toInt < y.toInt) := rfl
theorem relHolds_le : relHolds .le x y = decide (x.toInt ≤ y.toInt) := rfl
theorem relHolds_ltu : relHolds .ltu x y = decide (x.toNat < y.toNat) := rfl
theorem relHolds_leu : relHolds .leu x y = decide (x.toNat ≤ y.toNat) := rfl
theorem relHolds_ge : relHolds .ge x y = decide (y.toInt ≤ x.toInt) := rfl
theorem relHolds_geu : relHolds .geu x y = decide (y.toNat ≤ x.toNat) := rfl

/-- As an unsigned value, −1 is greater than every other. -/
theorem relHolds_ltu_ones {x : Word} (hx : x ≠ BitVec.allOnes 64) : relHolds .ltu x (imm8 (BitVec.allOnes 8)) = true := by
  have hne : x.toNat ≠ 2 ^ 64 - 1 := fun h => hx (BitVec.eq_of_toNat_eq h)
  have hlt := x.isLt
  rw [relHolds_ltu, show (imm8 (BitVec.allOnes 8)).toNat = 2 ^ 64 - 1 from rfl, decide_eq_true_eq]
  omega

end

/-- Settles O12: each relation on the two values, and the operations on two predicates. -/
theorem predicateWords : Obligations.PredicateWords := by
  intro s h d p q a b i g x y k
  refine ⟨?eq, ?ne, ?lt, ?le, ?ltu, ?leu, ?eqI, ?neI, ?ltI, ?geI, ?ltuI, ?geuI, ?and, ?or, ?xor, ?andn, ?not, fun hx => ?ltuOnes⟩
  case eq => exact test_writes g (exec_cmpEq ..) (relHolds_eq x y)
  case ne => exact test_writes g (exec_cmpNe ..) (relHolds_ne x y)
  case lt => exact test_writes g (exec_cmpLt ..) (relHolds_lt x y)
  case le => exact test_writes g (exec_cmpLe ..) (relHolds_le x y)
  case ltu => exact test_writes g (exec_cmpLtu ..) (relHolds_ltu x y)
  case leu => exact test_writes g (exec_cmpLeu ..) (relHolds_leu x y)
  case eqI => exact test_writes g (exec_cmpiEq ..) (relHolds_eq x k)
  case neI => exact test_writes g (exec_cmpiNe ..) (relHolds_ne x k)
  case ltI => exact test_writes g (exec_cmpiLt ..) (relHolds_lt x k)
  case geI => exact test_writes g (exec_cmpiGe ..) (relHolds_ge x k)
  case ltuI => exact test_writes g (exec_cmpiLtu ..) (relHolds_ltu x k)
  case geuI => exact test_writes g (exec_cmpiGeu ..) (relHolds_geu x k)
  case and => exact test_writes g (exec_pand ..) rfl
  case or => exact test_writes g (exec_por ..) rfl
  case xor => exact test_writes g (exec_pxor ..) (congrFun (congrFun Bool.bne_eq_xor _) _)
  case andn => exact test_writes g (exec_pandn ..) rfl
  case not => exact test_writes g (exec_pandn ..) (by rw [rp_zero, Bool.true_and])
  case ltuOnes => exact test_writes g (exec_cmpiLtu ..) (relHolds_ltu_ones hx)

end Sys2Proof.Machine
end

section
/-! PROOFS. LOOP (R87), FENCE (R89), and the words that must be aligned (R68). -/

namespace Sys2Proof.Machine

/-! ### LOOP (R87) -/

section
variable {l : BitVec 32} {stack above below : List LoopEnt} {own : LoopEnt}

/-- A stack with no entry of an origin stands. -/
theorem popOrigin_absent (h : ∀ e ∈ stack, e.origin ≠ l) : popOrigin l stack = stack :=
  if_neg (by simpa using h)

/-- An entry of an origin is popped with all that lies above it. -/
theorem popOrigin_present (habove : ∀ e ∈ above, e.origin ≠ l) (hown : own.origin = l) : popOrigin l (above ++ own :: below) = below := by
  have hdrop : (above ++ own :: below).dropWhile (fun t => t.origin != l) = own :: below := by
    rw [List.dropWhile_append_of_pos (by simpa using habove), List.dropWhile_cons_of_neg (by simp [hown])]
  rw [popOrigin, if_pos (by simp [hown]), hdrop, List.drop_one, List.tail_cons]

end

section
variable {s : State} {h : Head} {a : BitVec 5} {o : BitVec 16} (g : s.rp h.g = true)
include g

theorem exec_loop_zero (ha : s.rs a = 0) : exec (.loop h a o) s = .next (goto s (s.ctx.pc + o.setWidth 32 + 1)) := by
  rw [exec_loop, execLoop, guarded_true _ g, if_pos ha]

/-- With a count, the loop is pushed on what is left of the stack, which must have room for it. -/
theorem exec_loop_count {left : List LoopEnt} (ha : s.rs a ≠ 0) (hl : popOrigin s.ctx.pc s.ctx.loops = left) :
    exec (.loop h a o) s = if left.length = 4 then raise s .illegalOp else
      .next (goto (s.setCtx { s.ctx with loops := ⟨s.ctx.pc, s.ctx.pc + 1, s.ctx.pc + o.setWidth 32, a⟩ :: left }) (s.ctx.pc + 1)) := by
  subst hl
  rw [exec_loop, execLoop, guarded_true _ g, if_neg ha]

end

/-- Settles O16: what is left of the stack once the loop's own entry is popped, and whether it has room. -/
theorem loopWord : Obligations.LoopWord := by
  intro s h a o above below own g l pushed
  refine ⟨fun ha => ?zero, fun ha habsent hroom => ?first, fun ha hstack habove hown hroom => ?again, fun ha habsent hfull hu => ?fifth⟩
  case zero => exact exec_loop_zero g ha
  case first =>
    rw [exec_loop_count g ha (popOrigin_absent habsent), if_neg (Nat.ne_of_lt hroom)]
    rfl
  case again =>
    rw [exec_loop_count g ha (hstack ▸ popOrigin_present habove hown), if_neg (Nat.ne_of_lt hroom)]
    rfl
  case fifth => rw [exec_loop_count g ha (popOrigin_absent habsent), if_pos hfull, raise, raiseAt_unit _ _ hu]

/-! ### FENCE (R89) -/

/-- R28: whether an entry of an earlier bundle is still in the context's queues. -/
theorem olderEnts_ne_nil {s : State} : olderEnts s ≠ [] ↔ ∃ e ∈ s.ctx.mq, s.snap.isSome = true → e.id < s.since := by
  unfold olderEnts
  split
  next hs => simp [hs, List.filter_eq_nil_iff]
  next hs => simp [hs, List.eq_nil_iff_forall_not_mem]

/-- R89, R80: whether a token of the core is still to land, by its entry of the table. -/
theorem tokenOut_iff {c : Core} {fw : Bool} {before : Nat} {f : TokEnt → Bool} : tokenOut c fw before f = true ↔
    ∃ (i : Fin 256) (e : TokEnt), c.tokens[i] = some e ∧ e.fw = fw ∧ e.notify = false ∧ e.serial < before ∧ f e = true := by
  simp only [tokenOut, List.any_eq_true, Vector.mem_toList_iff, Vector.mem_iff_getElem]
  constructor
  · rintro ⟨t, ⟨i, hi, rfl⟩, h⟩
    split at h
    next e he => exact ⟨⟨i, hi⟩, e, he, by simpa [and_assoc] using h⟩
    next => cases h
  · rintro ⟨i, e, he, h⟩
    exact ⟨some e, ⟨i, i.isLt, he⟩, by simpa [and_assoc] using h⟩

section
variable {s : State} {h : Head} {z : Scope}

/-- A FENCE waits for the entries of earlier bundles and for the earlier tokens in its scope. -/
theorem fenceScope_eq (g : s.rp h.g = true) : fenceScope z h s =
    if olderEnts s ≠ [] ∨ tokenOut s.cur s.fw (sinceNow s) (inScope s z) = true then stall s else .next s := by
  simp only [fenceScope, guarded_true _ g, Bool.or_eq_true, Bool.not_eq_true', List.isEmpty_eq_false_iff]

/-- A FENCE whose scope is a property of tokens goes on once nothing of it is out, and waits until then. -/
theorem fence_of_scope {i : Instr} {inZ : TokEnt → Prop} (g : s.rp h.g = true) (hi : exec i s = fenceScope z h s)
    (hz : ∀ e, inScope s z e = true ↔ inZ e) :
    let entries : Prop := ∃ e ∈ s.ctx.mq, s.snap.isSome = true → e.id < s.since
    let out : Prop := ∃ (i : Fin 256) (e : TokEnt),
      s.cur.tokens[i] = some e ∧ e.fw = s.fw ∧ e.notify = false ∧ e.serial < sinceNow s ∧ inZ e
    (¬entries → ¬out → exec i s = .next s) ∧ (entries ∨ out → exec i s = .next { s with mark := .stall }) := by
  intro entries out
  have howes : olderEnts s ≠ [] ∨ tokenOut s.cur s.fw (sinceNow s) (inScope s z) = true ↔ entries ∨ out :=
    or_congr olderEnts_ne_nil (by simp only [tokenOut_iff, hz, out])
  rw [hi, fenceScope_eq g]
  exact ⟨fun he ho => if_neg (mt howes.1 (not_or.2 ⟨he, ho⟩)), fun h => if_pos (howes.2 h)⟩

theorem inScope_core (e : TokEnt) : inScope s .core e = true ↔ False := by simp [inScope]

/-- The die of a core has a number of two bits. -/
theorem inScope_die (e : TokEnt) : inScope s .die e = true ↔ e.pkg = ownPkg s ∧ e.die.toNat = s.core.val / 128 := by
  have hdie : s.core.val / 128 < 2 ^ 2 := Nat.div_lt_of_lt_mul s.core.isLt
  simp only [inScope, Bool.and_eq_true, beq_iff_eq, ← BitVec.toNat_inj, BitVec.toNat_ofNat, Nat.mod_eq_of_lt hdie]

theorem inScope_pkg (e : TokEnt) : inScope s .pkg e = true ↔ e.pkg = ownPkg s := by simp [inScope]

theorem inScope_sys (e : TokEnt) : inScope s .sys e = true ↔ True := by simp [inScope]

end

/-- Settles O20: each form is the fence of its scope. -/
theorem fenceCompletes : Obligations.FenceCompletes := by
  intro s h g since entries out fence
  exact ⟨fence_of_scope g (exec_fenceCore ..) inScope_core, fence_of_scope g (exec_fenceCluster ..) inScope_core,
    fence_of_scope g (exec_fenceDie ..) inScope_die, fence_of_scope g (exec_fencePkg ..) inScope_pkg,
    fence_of_scope g (exec_fenceSys ..) inScope_sys⟩

/-! ### Alignment (R68 step 1, R69) -/

/-- A misaligned access is a fault before any other check. -/
theorem aligned_misaligned {s : State} {ea : Word} {n : Nat} (hn : ea.toNat % n ≠ 0) (f : Out) : aligned s ea n f = raiseAt s .misalign ea :=
  if_pos hn

section
variable {s : State} {h : Head} (g : s.rp h.g = true)
include g

/-- A word that checks an alignment first, and fails the check. -/
theorem guarded_misaligned {o rest : Out} {ea : Word} {n : Nat} {f : State → Out} (hn : ea.toNat % n ≠ 0) (ho : o = guarded h s f)
    (hf : f s = aligned s ea n rest) : o = raiseAt s .misalign ea := by
  rw [ho, guarded_true _ g, hf, aligned_misaligned hn]

theorem issueAmo_misaligned {a : BitVec 5} {z : AmoSize} (hn : (s.rs a).toNat % amoBytes z ≠ 0) (op : BitVec 4) (d b : BitVec 5) :
    issueAmo op h d a b z s = raiseAt s .misalign (s.rs a) :=
  guarded_misaligned g hn rfl rfl

theorem issueMwait_misaligned {a : BitVec 5} (hn : (s.rs a).toNat % 8 ≠ 0) (eq : Bool) (d b : BitVec 5) :
    issueMwait eq h d a b s = raiseAt s .misalign (s.rs a) :=
  guarded_misaligned g hn rfl rfl

theorem issueVamo_misaligned {a : BitVec 5} (hn : (s.rs a).toNat % 128 ≠ 0) (b16 : Bool) (m : BitVec 3) (d : BitVec 5) :
    issueVamo b16 h m d a s = raiseAt s .misalign (s.rs a) :=
  guarded_misaligned g hn rfl rfl

end

/-- Settles O27: behind its guard each of the words begins with its check of alignment. -/
theorem misalignedWordsTrap : Obligations.MisalignedWordsTrap := by
  intro s h d a b m o z y t q g trap off ea
  refine ⟨fun hn => ⟨?ldAcq, ?stRel⟩, fun hn => ?amo, fun hn => ?qst, fun hn => ?vqst, fun hn => ⟨?mwaitEq, ?mwaitNe⟩,
    fun hn => ⟨?vamoF32, ?vamoBf16⟩⟩
  case ldAcq => exact guarded_misaligned g hn (exec_ldAcq ..) rfl
  case stRel => exact guarded_misaligned g hn (exec_stRel ..) rfl
  case amo =>
    have each := fun op => issueAmo_misaligned g hn op d b
    simp only [List.forall_mem_cons, List.not_mem_nil, false_implies, implies_true, and_true]
    exact ⟨each 0, each 1, each 2, each 3, each 4, each 5, each 6, each 7, each 8, each 9⟩
  case qst => exact guarded_misaligned g hn (exec_qst ..) rfl
  case vqst => exact guarded_misaligned g hn (exec_vqst ..) rfl
  case mwaitEq => exact issueMwait_misaligned g hn true d b
  case mwaitNe => exact issueMwait_misaligned g hn false d b
  case vamoF32 => exact issueVamo_misaligned g hn false m d
  case vamoBf16 => exact issueVamo_misaligned g hn true m d

/-! ### Read-modify-write (R81) -/

section
variable {n : Nat} (x b k : BitVec (8 * n))

/-- AMO's comparisons read an operand as the signed value of its bits. -/
theorem signed_eq_toInt : (if 2 * x.toNat < 2 ^ (8 * n) then (x.toNat : Int) else (x.toNat : Int) - (2 ^ (8 * n) : Nat)) = x.toInt :=
  (BitVec.toInt_eq_toNat_cond x).symm

/-- Of equal values either may stand: a strict comparison chooses as the other does. -/
theorem ite_lt_eq_ite_le {α β : Type} [LinearOrder α] {f : β → α} (hf : Function.Injective f) (x b : β) :
    (if f x < f b then x else b) = (if f x ≤ f b then x else b) ∧ (if f x < f b then b else x) = (if f x ≤ f b then b else x) := by
  rcases lt_trichotomy (f x) (f b) with hlt | heq | hgt
  · simp [hlt, hlt.le]
  · simp [hf heq]
  · simp [hgt.not_gt, hgt.not_ge]

theorem amoNew_min : amoNew 4 n x.toNat b.toNat k.toNat = (if x.toInt ≤ b.toInt then x else b).toNat := by
  rw [← (ite_lt_eq_ite_le (fun _ _ => BitVec.eq_of_toInt_eq) x b).1, apply_ite BitVec.toNat, ← signed_eq_toInt x, ← signed_eq_toInt b]
  rfl

theorem amoNew_max : amoNew 5 n x.toNat b.toNat k.toNat = (if x.toInt ≤ b.toInt then b else x).toNat := by
  rw [← (ite_lt_eq_ite_le (fun _ _ => BitVec.eq_of_toInt_eq) x b).2, apply_ite BitVec.toNat, ← signed_eq_toInt x, ← signed_eq_toInt b]
  rfl

theorem amoNew_cas : amoNew 9 n x.toNat b.toNat k.toNat = (if x = k then b else x).toNat := by
  simp only [apply_ite BitVec.toNat, ← BitVec.toNat_inj]
  rfl

end

/-- Settles O29: each operation by its code, for operands of any number of bytes. -/
theorem atomicOperations : Obligations.AtomicOperations := by
  intro z x b k n r
  refine ⟨?add, ?and, ?or, ?xor, amoNew_min x b k, amoNew_max x b k, ?minu, ?maxu, rfl, amoNew_cas x b k⟩
  case add => exact (BitVec.toNat_add x b).symm
  case and => exact (BitVec.toNat_and x b).symm
  case or => exact (BitVec.toNat_or x b).symm
  case xor => exact (BitVec.toNat_xor x b).symm
  case minu => rw [apply_ite BitVec.toNat, ← min_def]; rfl
  case maxu => rw [apply_ite BitVec.toNat, ← max_def]; rfl

end Sys2Proof.Machine
end

section
/-! PROOFS. The vector memory words at issue (R117, R118): one entry joins a queue, or nothing happens. -/

namespace Sys2Proof.Machine

/-! ### Contiguous words (R117) -/

/-- A mask with no active byte has no span. -/
theorem maskSpan_zero : maskSpan 0 = none := by
  have hnone : (List.range 256).find? (fun i => (0 : Mask).getLsbD i) = none := List.find?_range_eq_none.2 fun i _ => by simp
  rw [maskSpan, hnone]

section
variable {s : State} {m : Mask} {ea : Word} {lo n : Nat} {l : Loc}

theorem contiguous_zero (i : Intent) (f : Nat → Nat → Loc → Out) : contiguous s 0 ea i f = .next s := by
  rw [contiguous, maskSpan_zero]

/-- An aligned word whose active bytes pass their check issues. -/
theorem contiguous_passes {i : Intent} (f : Nat → Nat → Loc → Out) (hm : maskSpan m = some (lo, n)) (hd : 4 ∣ ea.toNat)
    (ha : checkAddr s (ea + BitVec.ofNat 64 lo) n i = .ok l) : contiguous s m ea i f = f lo n l := by
  simp only [contiguous, hm, ha, onRes_ok, Nat.mod_eq_zero_of_dvd hd, ne_eq, not_true_eq_false, if_false]

variable (hm : maskSpan m = some (lo, n)) (hd : 4 ∣ ea.toNat)
include hm hd

theorem joins_issueVst (v : Vec) (ha : checkAddr s (ea + BitVec.ofNat 64 lo) n .write = .ok l) (hguard : guardStalls s l n = false)
    (hrec : recordMeets s l n = false) :
    Joins s (issueVst s m ea v id) { newEnt s .vst false true ea (maskedPieces l lo n m) with mask := m, data := vecBytes v } := by
  simp only [issueVst, contiguous_passes _ hm hd ha, hguard, hrec, Bool.or_self, Bool.false_eq_true, if_false, id]
  exact joins_pushEnt rfl rfl

end

section
variable {s : State} {h : Head} {m : BitVec 3} {a : BitVec 5} {lo n : Nat} {l : Loc} (g : s.rp h.g = true)
include g

theorem exec_vld_zero (hm : s.rm m = 0) (d b : BitVec 5) : exec (.vld h m d a b) s = .next s := by
  rw [exec_vld, execVld, guarded_true _ g, hm, contiguous_zero]

theorem exec_vst_zero (hm : s.rm m = 0) (d b : BitVec 5) : exec (.vst h m d a b) s = .next s := by
  rw [exec_vst, execVst, guarded_true _ g, hm, issueVst, contiguous_zero]

theorem joins_vld (hm : maskSpan (s.rm m) = some (lo, n)) (hd : 4 ∣ (s.rs a).toNat)
    (ha : checkAddr s (s.rs a + BitVec.ofNat 64 lo) n .read = .ok l) (hcap : captureFull s = false) (hrec : recordMeets s l n = false)
    (d b : BitVec 5) : Joins s (exec (.vld h m d a b) s)
      { newEnt s (.vld d) true false (s.rs a) (maskedPieces l lo n (s.rm m)) with mask := s.rm m } := by
  simp only [exec_vld, execVld, guarded_true _ g, contiguous_passes _ hm hd ha, hcap, hrec, Bool.or_self, Bool.false_eq_true, if_false]
  exact joins_pushEnt rfl rfl

end

/-! ### Words by elements (R118) -/

/-- The entry of a word by elements: its base, its stride or its offsets, and its mask. -/
def elemEnt (s : State) (k : QKind) (ld offs : Bool) (m : Mask) (base stride : Word) (v : Vec) : QEnt :=
  { newEnt s k ld (!ld) base [] with opa := if offs then 1 else 0, opb := stride, vec := v, mask := m }

section
variable {s : State} (hcap : captureFull s = false) {m : Mask} {base stride : Word} {offs : Bool} {v : Vec}
include hcap

theorem joins_issueElemLoad {d : BitVec 5}
    (hrec : anyElem s (elemEnt s (.vldElems d) true offs m base stride v) false (fun l => recordMeets s l 4) = false) :
    Joins s (issueElemLoad s d m base offs stride v) (elemEnt s (.vldElems d) true offs m base stride v) := by
  have hgo : issueElemLoad s d m base offs stride v = .next (pushEnt s (elemEnt s (.vldElems d) true offs m base stride v)) :=
    if_neg (by rw [hcap, Bool.false_or]; exact ne_true_of_eq_false hrec)
  exact hgo ▸ joins_pushEnt rfl rfl

theorem joins_issueElemStore {data : Vec}
    (hmeets : anyElem s { elemEnt s .vstElems false offs m base stride v with data := vecBytes data } true
      (fun l => guardStalls s l 4 || recordMeets s l 4) = false) :
    Joins s (issueElemStore s m base offs stride v data)
      { elemEnt s .vstElems false offs m base stride v with data := vecBytes data } := by
  have hgo : issueElemStore s m base offs stride v data =
      .next (pushEnt s { elemEnt s .vstElems false offs m base stride v with data := vecBytes data }) :=
    if_neg (by rw [hcap, Bool.false_or]; exact ne_true_of_eq_false hmeets)
  exact hgo ▸ joins_pushEnt rfl rfl

end

/-- Settles O24: a contiguous word by the span of its mask, a word by elements with its base, its stride or its offsets. -/
theorem vectorMemoryWordsIssue : Obligations.VectorMemoryWordsIssue := by
  intro s h m d a b lo n l g ea first joins byElem store
  refine ⟨fun hm => ⟨exec_vld_zero g hm d b, exec_vst_zero g hm d b⟩, fun hm hd ha hcap hrec => joins_vld g hm hd ha hcap hrec d b,
    fun hm hd ha hguard hrec => joins_exec g (exec_vst ..) (joins_issueVst hm hd _ ha hguard hrec),
    fun hcap => ⟨fun hrec => ?vlds, fun hrec => ?vgather, fun hmeets => ?vsts, fun hmeets => ?vscatter⟩⟩
  case vlds => exact joins_exec g (exec_vlds ..) (joins_issueElemLoad hcap hrec)
  case vgather => exact joins_exec g (exec_vgather ..) (joins_issueElemLoad hcap hrec)
  case vsts => exact joins_exec g (exec_vsts ..) (joins_issueElemStore hcap hmeets)
  case vscatter => exact joins_exec g (exec_vscatter ..) (joins_issueElemStore hcap hmeets)

end Sys2Proof.Machine
end

section
/-! PROOFS. MWAIT (R85): the word at issue, and the reads of its word in tile memory. -/

namespace Sys2Proof.Machine

/-! ### The word at issue (R79, R85, R114) -/

section
variable {s : State} {h : Head} {a b : BitVec 5} {l : Loc} {eq : Bool} (g : s.rp h.g = true) (hd : 8 ∣ (s.rs a).toNat)
  (ha : checkAddr s (s.rs a) 8 .watch = .ok l)
include g hd ha

/-- MWAIT waits for the accesses of earlier bundles and for the records before it. -/
theorem issueMwait_waits (hw : olderEnts s ≠ [] ∨ recordMeets s l 8 = true) (d : BitVec 5) : issueMwait eq h d a b s = stall s := by
  have hcond : (!(olderEnts s).isEmpty || recordMeets s l 8) = true := by simpa using hw
  simp only [issueMwait, guarded_true _ g, aligned_of_dvd hd, ha, onRes_ok, hcond, if_true]

variable (hq : olderEnts s = []) (hrec : recordMeets s l 8 = false)
include hq hrec

theorem issueMwait_starts (hm : s.ctx.mwait = none) (d : BitVec 5) : issueMwait eq h d a b s =
    stall (s.setCtx { s.ctx with mwait := some ⟨s.rs a, s.rs b, eq, s.clk, .waiting, none, s.clk, none⟩ }) := by
  simp [issueMwait, guarded_true _ g, aligned_of_dvd hd, ha, hq, hrec, hm]

/-- A kept value ends the wait of its own word. -/
theorem issueMwait_ends {w : MWait} {v : Word} (hm : s.ctx.mwait = some w) (hea : w.ea = s.rs a) (hcmp : w.cmp = s.rs b) (heq : w.eq = eq)
    (hst : w.stage = .waiting) (hfound : w.found = some v) (d : BitVec 5) :
    issueMwait eq h d a b s = .next ((s.setCtx { s.ctx with mwait := none }).wrS d v) := by
  simp [issueMwait, guarded_true _ g, aligned_of_dvd hd, ha, hq, hrec, hm, hea, hcmp, heq, hst, hfound]

end

/-! ### The reads of the word (R85, R208) -/

/-- The part of an MWAIT's read of tile memory. -/
def watchPart (w : MWait) : Piece := tmPart w.ea.toNat 8

section
variable {s : State} {c : Fin 512} {fw : Bool} {w : MWait}

theorem relocate_general (ht : w.ea.toNat < 0x78000) : relocate s c w.ea = some (.tm w.ea.toNat) := by
  rw [relocate, (rowOf_general _).2 ht]

/-- A read of tile memory is not translated and passes no edge. -/
theorem xlateAll_tm {pin write : Bool} {p : Option (Fin 16)} (off n : Nat) :
    xlateAll s pin fw p write [tmPart off n] = (s, .ok [tmPart off n]) := rfl

theorem crossParts_tm (off n : Nat) : crossParts s c fw [tmPart off n] = some s := by
  cases fw <;> rfl

theorem askWatch_tm (ht : w.ea.toNat < 0x78000) :
    askWatch s c fw w = putMwait s c fw { w with part := some (watchPart w), arrival := s.clk } := by
  have hx := xlateAll_tm (s := s) (fw := fw) (pin := false) (write := false) (p := s.partOf c) w.ea.toNat 8
  have hc := crossParts_tm (s := s) (c := c) (fw := fw) w.ea.toNat 8
  rw [tmPart] at hx hc
  simp only [askWatch, relocate_general ht, hx, hc]
  rfl

theorem runWatch_tm : runWatch s c fw w (watchPart w) = mwaitRead s c fw w (BitVec.ofNat 64 (s.loadNat (tmAddr c w.ea.toNat) 8)) := rfl

/-- R85: NE is satisfied by another value, EQ by the value. -/
theorem satisfies_iff {v : Word} : ((v == w.cmp) == w.eq) = true ↔ (v = w.cmp ↔ w.eq = true) := by
  rw [beq_iff_eq, Bool.eq_iff_iff, beq_iff_eq]

section
variable (hst : w.stage = .waiting)
include hst

theorem mwaitRead_satisfies {v : Word} (hv : v = w.cmp ↔ w.eq = true) :
    mwaitRead s c fw w v = putMwait s c fw { w with part := none, found := some v } := by
  rw [mwaitRead, if_pos (satisfies_iff.2 hv), ← hst]

theorem mwaitRead_goesOn {v : Word} (hv : ¬(v = w.cmp ↔ w.eq = true)) :
    mwaitRead s c fw w v = putMwait s c fw { w with part := none, due := s.clk + 4096 } := by
  rw [mwaitRead, if_neg (mt satisfies_iff.1 hv), ← hst]

variable (hm : (s.cores[c].ctx fw).mwait = some w) (hfound : w.found = none)
include hm hfound

theorem exec_mwaitReread_asks (hpart : w.part = none) : exec (.mwaitReread c fw) s = .next (askWatch s c fw w) := by
  simp only [exec_mwaitReread, execMwaitReread, hm, hst, hfound, hpart]

/-- In its turn at the TM the read is performed. -/
theorem exec_mwaitReread_reads (hpart : w.part = some (watchPart w)) (hturn : ⟨.watch c fw w, watchPart w⟩ ∈ tmRequests s c) :
    exec (.mwaitReread c fw) s = .next (mwaitRead s c fw w (BitVec.ofNat 64 (s.loadNat (tmAddr c w.ea.toNat) 8))) := by
  have hreqs : watchReqs s c fw = [⟨.watch c fw w, watchPart w⟩] := by
    simp only [watchReqs, hm, hpart]
    rfl
  simp only [exec_mwaitReread, execMwaitReread, hm, hst, hfound, hpart, hreqs, runOwn_tm _ rfl hturn]
  rfl

end

end

/-- Settles O26: the word at issue by what it waits for, and each read of its word by the stage of the wait. -/
theorem monitorWaitCompletes : Obligations.MonitorWaitCompletes := by
  intro s h d a b l w c fw ea word part
  refine ⟨fun eq g hd ha => ?issue, fun hm hst hfound ht => ?reread⟩
  case issue =>
    have hword : exec (word eq) s = issueMwait eq h d a b s := by cases eq <;> rfl
    rw [hword]
    refine ⟨fun hw => issueMwait_waits g hd ha hw d, fun hq hrec => ⟨fun hm => issueMwait_starts g hd ha hq hrec hm d, fun v hm => ?_⟩⟩
    exact issueMwait_ends g hd ha hq hrec hm rfl rfl rfl rfl rfl d
  case reread =>
    intro v
    refine ⟨fun hpart => ?asks, fun hpart hturn => ⟨fun hv => ?kept, fun hv => ?again⟩⟩
    case asks => rw [exec_mwaitReread_asks hst hm hfound hpart, askWatch_tm ht]; rfl
    case kept => rw [exec_mwaitReread_reads hst hm hfound hpart hturn, mwaitRead_satisfies hst hv]
    case again => rw [exec_mwaitReread_reads hst hm hfound hpart hturn, mwaitRead_goesOn hst hv]

end Sys2Proof.Machine
end

section
/-! PROOFS. The Quickset stores at issue (R82, R83, R131, R363): the token that a store takes, and what its carried tokens do to it. -/

namespace Sys2Proof.Machine

/-! ### What the carried tokens leave alone (R363) -/

/-- What a carried token changes: the class of stores that wait, and the tokens of the acting core; nothing that the store itself reads. -/
structure CarryKeeps (s t : State) : Prop where
  core : t.core = s.core
  fw : t.fw = s.fw
  memory : SameMemory s t
  others : SameOtherCores s t
  regs : t.ctx.regs = s.ctx.regs
  gens : t.cur.gens = s.cur.gens

theorem SameMemory.trans {s t u : State} (h : SameMemory s t) (h' : SameMemory t u) : SameMemory s u :=
  ⟨fun a => (h'.1 a).trans (h.1 a), h'.2.trans h.2⟩

theorem SameOtherCores.trans {s t u : State} (h : SameOtherCores s t) (hc : t.core = s.core) (h' : SameOtherCores t u) :
    SameOtherCores s u :=
  fun c hne => (h' c (hc ▸ hne)).trans (h c hne)

theorem CarryKeeps.refl (s : State) : CarryKeeps s s := ⟨rfl, rfl, ⟨fun _ => rfl, rfl⟩, fun _ _ => rfl, rfl, rfl⟩

theorem CarryKeeps.trans {s t u : State} (h : CarryKeeps s t) (h' : CarryKeeps t u) : CarryKeeps s u where
  core := h'.core.trans h.core
  fw := h'.fw.trans h.fw
  memory := h.memory.trans h'.memory
  others := h.others.trans h.core h'.others
  regs := h'.regs.trans h.regs
  gens := h'.gens.trans h.gens

/-- The acting core is replaced by one with the same registers and generations. -/
theorem carryKeeps_setCur {s : State} {c : Core} {f : Fabric} (hr : (c.ctx s.fw).regs = s.ctx.regs) (hg : c.gens = s.cur.gens) :
    CarryKeeps s { s.setCur c with fabric := f } where
  core := rfl
  fw := rfl
  memory := ⟨fun _ => rfl, rfl⟩
  others := fun d hd => setCur_other s c d (Ne.symm hd)
  regs := (congrArg (fun x : Core => (x.ctx s.fw).regs) (setCur_cur s c)).trans hr
  gens := (congrArg Core.gens (setCur_cur s c)).trans hg

theorem carryKeeps_makeOrdered (s : State) (t : BitVec 16) : CarryKeeps s (makeOrdered s t) := by
  unfold makeOrdered
  dsimp only
  split
  next => exact .refl s
  next =>
    refine carryKeeps_setCur ?_ ?_
    · rw [core_setCtx_ctx]; cases hf : s.fw <;> simp [State.ctx, Core.ctx, hf]
    · cases s.fw <;> rfl

theorem carryKeeps_addWaiter (s : State) (t : BitVec 16) (dst : Pkg) : CarryKeeps s (addWaiter s t dst) := by
  unfold addWaiter
  dsimp only
  split
  next =>
    split
    next => exact .refl s
    next => exact carryKeeps_setCur (f := s.fabric) (by cases hf : s.fw <;> simp [State.ctx, Core.ctx, hf]) rfl
  next => exact .refl s

theorem carryKeeps_applyCarry (s : State) (t : BitVec 16) (dst : Pkg) (k : Carry) : CarryKeeps s (applyCarry s t dst k) := by
  cases k with
  | nothing | wait => exact .refl s
  | ordered => exact carryKeeps_makeOrdered s t
  | waiter => exact carryKeeps_addWaiter s t dst

/-- A token that is not live asks for nothing. -/
theorem carryCase_dead {s : State} {t : BitVec 16} (h : liveTok s.cur t = none) (dst : Pkg) : carryCase s t dst = .nothing := by
  rw [carryCase, h]

/-- The state in which a store that carries tokens takes its own. -/
def carried (s : State) (cs : BitVec 16 × BitVec 16) (dst : Pkg) : State :=
  applyCarry (applyCarry s cs.1 dst (carryCase s cs.1 dst)) cs.2 dst (carryCase s cs.2 dst)

theorem carryKeeps_carried (s : State) (cs : BitVec 16 × BitVec 16) (dst : Pkg) : CarryKeeps s (carried s cs dst) :=
  (carryKeeps_applyCarry s _ _ _).trans (carryKeeps_applyCarry _ _ _ _)

theorem carried_dead {s : State} {cs : BitVec 16 × BitVec 16} (h0 : liveTok s.cur cs.1 = none) (h1 : liveTok s.cur cs.2 = none) (dst : Pkg) :
    carried s cs dst = s := by
  rw [carried, carryCase_dead h0, carryCase_dead h1]; rfl

/-! ### The token and its entry (R82, R83) -/

/-- R82: no generation is 0. -/
theorem nextGen_ne_zero (g : BitVec 8) : nextGen g ≠ 0 := by
  unfold nextGen
  split
  · decide
  · bv_omega

theorem pushEnt_ctx (s : State) (e : QEnt) : (pushEnt s e).ctx = { s.ctx with mq := s.ctx.mq ++ [e] } := setCtx_ctx s _

theorem pushEnt_cur (s : State) (e : QEnt) : (pushEnt s e).cur = s.cur.setCtx s.fw { s.ctx with mq := s.ctx.mq ++ [e] } := setCtx_cur s _

theorem pushEnt_other (s : State) (e : QEnt) {c : Fin 512} (hc : s.core ≠ c) : (pushEnt s e).cores[c] = s.cores[c] := setCur_other s _ c hc

theorem wrS_other (s : State) (d : BitVec 5) (x : Word) {c : Fin 512} (hc : s.core ≠ c) : (s.wrS d x).cores[c] = s.cores[c] :=
  setCur_other s _ c hc

/-- The core with entry i of its token table taken. -/
def Core.takeToken (c : Core) (i : Fin 256) (k : TokEnt) : Core :=
  { c with tokens := vput c.tokens i (some k), gens := vput c.gens i (nextGen c.gens[i]) }

@[simp] theorem takeToken_ctx (c : Core) (i : Fin 256) (k : TokEnt) (fw : Bool) : (c.takeToken i k).ctx fw = c.ctx fw := by
  cases fw <;> rfl

@[simp] theorem setCtx_tokens (c : Core) (fw : Bool) (x : Ctx) : (c.setCtx fw x).tokens = c.tokens := by cases fw <;> rfl

@[simp] theorem setCtx_gens (c : Core) (fw : Bool) (x : Ctx) : (c.setCtx fw x).gens = c.gens := by cases fw <;> rfl

/-- The store takes entry i of the table, joins the queue, and answers its token in sD. -/
def qstTaken (s : State) (i : Fin 256) (k : TokEnt) (e : QEnt) (d : BitVec 5) (x : Word) : State :=
  (pushEnt (s.setCur (s.cur.takeToken i k)) e).wrS d x

/-- R83: the answer of a Quickset store: its token in sD and no other register, and the entry's next generation. -/
def TokenAnswer (s t : State) (i : Fin 256) (d : BitVec 5) : Prop :=
  (d ≠ 0 → t.ctx.regs.getS d = BitVec.setWidth 64 (nextGen s.cur.gens[i] ++ BitVec.ofNat 8 i.val)) ∧
    (∀ r, r ≠ d → t.ctx.regs.getS r = s.ctx.regs.getS r) ∧ t.cur.gens[i] = nextGen s.cur.gens[i] ∧ nextGen s.cur.gens[i] ≠ 0

section
variable (s : State) (i : Fin 256) (k : TokEnt) (e : QEnt) (d : BitVec 5) (x : Word)

theorem qstTaken_ctx : (qstTaken s i k e d x).ctx = { s.ctx with regs := s.ctx.regs.setS d x, mq := s.ctx.mq ++ [e] } := by
  have hctx : (s.setCur (s.cur.takeToken i k)).ctx = s.ctx := by
    rw [State.ctx, setCur_cur, State.setCur_fw, takeToken_ctx, State.ctx]
  rw [qstTaken, State.wrS, setRegs_ctx, pushEnt_ctx, hctx]

theorem qstTaken_cur : (qstTaken s i k e d x).cur = (s.cur.takeToken i k).setCtx s.fw (qstTaken s i k e d x).ctx := by
  rw [qstTaken, State.wrS, State.setRegs, setCtx_cur, setCtx_ctx, pushEnt_cur, setCur_cur]
  exact core_setCtx_setCtx _ _ _ _

theorem qstTaken_tokens : (qstTaken s i k e d x).cur.tokens[i] = some k := by
  rw [qstTaken_cur, setCtx_tokens]
  exact vput_same _ _ _

theorem qstTaken_gens : (qstTaken s i k e d x).cur.gens[i] = nextGen s.cur.gens[i] := by
  rw [qstTaken_cur, setCtx_gens]
  exact vput_same _ _ _

theorem qstTaken_frame : SameMemory s (qstTaken s i k e d x) ∧ SameRest s (qstTaken s i k e d x) ∧ SameOtherCores s (qstTaken s i k e d x) := by
  refine ⟨⟨fun _ => rfl, rfl⟩, ⟨rfl, rfl, rfl, rfl, rfl, rfl, rfl⟩, fun c hc => ?_⟩
  rw [qstTaken, wrS_other, pushEnt_other, setCur_other] <;> exact Ne.symm hc

end

/-- Of a store with what it carries, the answer is that of its own token. -/
theorem tokenAnswer_taken {s u : State} (hu : CarryKeeps s u) (i : Fin 256) (k : TokEnt) (e : QEnt) (d : BitVec 5) :
    TokenAnswer s (qstTaken u i k e d ((nextGen s.cur.gens[i] ++ BitVec.ofNat 8 i.val).setWidth 64)) i d := by
  refine ⟨fun hd => ?_, fun r hr => ?_, ?_, nextGen_ne_zero _⟩
  · rw [qstTaken_ctx, getS_setS, if_pos ⟨rfl, hd⟩]
  · rw [qstTaken_ctx, getS_setS, if_neg (fun h => hr h.1), hu.regs]
  · rw [qstTaken_gens, hu.gens]

/-! ### The store at issue (R83, R363) -/

section
variable {s : State} {i : Fin 256} {cs : BitVec 16 × BitVec 16} {ea : Word} (hfree : freeTok s.cur = some i) (hcap : captureFull s = false)
include hfree hcap

/-- A store with a case that waits, waits. -/
theorem issueQst_waits (hw : carryCase s cs.1 (pkgOf ea) = .wait ∨ carryCase s cs.2 (pkgOf ea) = .wait) (d : BitVec 5) (o : Bool) (lo n : Nat)
    (m : Mask) (data : List Byte) (opa : Word) : issueQst s d cs o ea lo n m data opa = stall s := by
  simp only [issueQst, hfree, hcap]
  rcases hw with hw | hw <;> simp [hw]

/-- A store that does not wait takes its token in the state that its carried tokens leave. -/
theorem issueQst_takes (h0 : carryCase s cs.1 (pkgOf ea) ≠ .wait) (h1 : carryCase s cs.2 (pkgOf ea) ≠ .wait) (d : BitVec 5) (o : Bool)
    (lo n : Nat) (m : Mask) (data : List Byte) (opa : Word) :
    let u := carried s cs (pkgOf ea)
    let tok := nextGen u.cur.gens[i] ++ BitVec.ofNat 8 i.val
    ∃ k e ord, issueQst s d cs o ea lo n m data opa = .next (qstTaken u i k e d (tok.setWidth 64)) ∧
      k.serial = u.serial ∧ k.notify = false ∧ (∀ p, u.curPart = some p → k.limit = u.clk + u.parts[p].toklim.toNat) ∧
      e.st = true ∧ e.ld = false ∧ e.data = data ∧ e.ea = ea ∧
      e.kind = .qst tok ord (if carryCase s cs.1 (pkgOf ea) = .waiter then cs.1 else 0)
        (if carryCase s cs.2 (pkgOf ea) = .waiter then cs.2 else 0) ∧
      (o = true ∨ carryCase s cs.1 (pkgOf ea) ≠ .nothing ∨ carryCase s cs.2 (pkgOf ea) ≠ .nothing → ord = true) := by
  intro u tok
  have hgo : ¬(captureFull s || carryCase s cs.1 (pkgOf ea) == .wait || carryCase s cs.2 (pkgOf ea) == .wait) = true := by
    simp [hcap, h0, h1]
  simp only [issueQst, hfree]
  rw [if_neg hgo]
  refine ⟨_, _, _, rfl, rfl, rfl, fun p hp => ?limit, rfl, rfl, rfl, rfl, rfl, fun hord => ?ord⟩
  case limit => exact congrArg (fun q : Option (Fin 16) => u.clk + (match q with | some p => u.parts[p].toklim.toNat | none => 0x100000)) hp
  case ord =>
    rcases hord with hord | hord | hord <;> simp [hord]

section
variable (d : BitVec 5) (o : Bool) (lo n : Nat) (m : Mask) (data : List Byte) (opa : Word)

/-- R83: a store none of whose carried tokens is live takes its token, joins the store queue, and changes nothing else. -/
theorem issueQst_uncarried {p : Fin 16} (h0 : liveTok s.cur cs.1 = none) (h1 : liveTok s.cur cs.2 = none) (hp : s.curPart = some p) :
    ∃ t e k, issueQst s d cs o ea lo n m data opa = .next t ∧ t.ctx.mq = s.ctx.mq ++ [e] ∧ e.st = true ∧ e.ld = false ∧ e.data = data ∧
      e.ea = ea ∧ t.cur.tokens[i] = some k ∧ k.serial = s.serial ∧ k.notify = false ∧ k.limit = s.clk + s.parts[p].toklim.toNat ∧
      TokenAnswer s t i d ∧ SameMemory s t ∧ SameRest s t ∧ SameOtherCores s t := by
  have hnothing0 := carryCase_dead h0 (pkgOf ea)
  have hnothing1 := carryCase_dead h1 (pkgOf ea)
  obtain ⟨k, e, ord, hgo, hserial, hnotify, hlimit, hst, hld, hdata, hea, -, -⟩ :=
    issueQst_takes (cs := cs) (ea := ea) hfree hcap (by simp [hnothing0]) (by simp [hnothing1]) d o lo n m data opa
  rw [carried_dead h0 h1] at hgo hserial hlimit
  obtain ⟨hmem, hrest, hothers⟩ := qstTaken_frame s i k e d (BitVec.setWidth 64 (nextGen s.cur.gens[i] ++ BitVec.ofNat 8 i.val))
  exact ⟨_, e, k, hgo, by rw [qstTaken_ctx], hst, hld, hdata, hea, qstTaken_tokens .., hserial, hnotify, hlimit p hp,
    tokenAnswer_taken (.refl s) i k e d, hmem, hrest, hothers⟩

/-- R363: a store whose carried tokens do not make it wait takes its token too, in the class and with the waits that they ask for. -/
theorem issueQst_carries (h0 : carryCase s cs.1 (pkgOf ea) ≠ .wait) (h1 : carryCase s cs.2 (pkgOf ea) ≠ .wait) :
    ∃ t e ord, issueQst s d cs o ea lo n m data opa = .next t ∧ t.ctx.mq.getLast? = some e ∧
      e.kind = .qst (nextGen s.cur.gens[i] ++ BitVec.ofNat 8 i.val) ord (if carryCase s cs.1 (pkgOf ea) = .waiter then cs.1 else 0)
        (if carryCase s cs.2 (pkgOf ea) = .waiter then cs.2 else 0) ∧
      e.data = data ∧ e.ea = ea ∧ TokenAnswer s t i d ∧ SameMemory s t ∧ SameOtherCores s t ∧
      (o = true ∨ carryCase s cs.1 (pkgOf ea) ≠ .nothing ∨ carryCase s cs.2 (pkgOf ea) ≠ .nothing → ord = true) := by
  have hu := carryKeeps_carried s cs (pkgOf ea)
  obtain ⟨k, e, ord, hgo, -, -, -, -, -, hdata, hea, hkind, hord⟩ := issueQst_takes hfree hcap h0 h1 d o lo n m data opa
  rw [hu.gens] at hgo hkind
  have hframe := qstTaken_frame (carried s cs (pkgOf ea)) i k e d (BitVec.setWidth 64 (nextGen s.cur.gens[i] ++ BitVec.ofNat 8 i.val))
  obtain ⟨hmem, -, hothers⟩ := hframe
  exact ⟨_, e, ord, hgo, by rw [qstTaken_ctx, List.getLast?_concat], hkind, hdata, hea, tokenAnswer_taken hu i k e d,
    hu.memory.trans hmem, hu.others.trans hu.core hothers, hord⟩

end

end

/-- A store past its checks issues. -/
theorem qstChecks_pass {s : State} {ea : Word} {lo n : Nat} {l : Loc} {f : Out} (hglob : ea.getLsbD 63 = true)
    (hhole : holeWindow s (ea + BitVec.ofNat 64 lo) = false) (ha : checkAddr s (ea + BitVec.ofNat 64 lo) n .write = .ok l) :
    qstChecks s ea lo n f = f := by
  simp only [qstChecks, hglob, hhole, ha, onRes_ok, Bool.not_true, Bool.or_self, Bool.false_eq_true, if_false]

/-! ### A store that moves no byte (R131) -/

/-- The state in which only the generation of an entry has gone on, and sD is written. -/
def qstLanded (s : State) (i : Fin 256) (d : BitVec 5) (x : Word) : State :=
  (s.setCur { s.cur with gens := vput s.cur.gens i (nextGen s.cur.gens[i]) }).wrS d x

section
variable (s : State) (i : Fin 256) (d : BitVec 5) (x : Word)

theorem qstLanded_ctx : (qstLanded s i d x).ctx = { s.ctx with regs := s.ctx.regs.setS d x } := by
  have hctx : (s.setCur { s.cur with gens := vput s.cur.gens i (nextGen s.cur.gens[i]) }).ctx = s.ctx := by
    rw [State.ctx, setCur_cur, State.setCur_fw]
    cases hf : s.fw <;> simp [State.ctx, Core.ctx, hf]
  rw [qstLanded, State.wrS, setRegs_ctx, hctx]

theorem qstLanded_cur : (qstLanded s i d x).cur =
    Core.setCtx { s.cur with gens := vput s.cur.gens i (nextGen s.cur.gens[i]) } s.fw (qstLanded s i d x).ctx := by
  rw [qstLanded, State.wrS, State.setRegs, setCtx_cur, setCtx_ctx, setCur_cur, State.setCur_fw]

theorem qstLanded_frame : SameMemory s (qstLanded s i d x) ∧ SameRest s (qstLanded s i d x) ∧ SameOtherCores s (qstLanded s i d x) := by
  refine ⟨⟨fun _ => rfl, rfl⟩, ⟨rfl, rfl, rfl, rfl, rfl, rfl, rfl⟩, fun c hc => ?_⟩
  rw [qstLanded, wrS_other, setCur_other] <;> exact Ne.symm hc

end

/-- A token that has landed at once: its entry stays free, under the generation that it answers. -/
theorem emptyQst_answers {s : State} {i : Fin 256} (hfree : freeTok s.cur = some i) (d : BitVec 5) :
    ∃ t, emptyQst s d = .next t ∧ TokenAnswer s t i d ∧ t.cur.tokens = s.cur.tokens ∧ t.ctx.mq = s.ctx.mq ∧ SameMemory s t ∧
      SameRest s t ∧ SameOtherCores s t := by
  have hgo : emptyQst s d = .next (qstLanded s i d (BitVec.setWidth 64 (nextGen s.cur.gens[i] ++ BitVec.ofNat 8 i.val))) := by
    rw [emptyQst, hfree]; rfl
  refine ⟨_, hgo, ⟨fun hd => ?named, fun r hr => ?others, ?gen, nextGen_ne_zero _⟩, ?tokens, ?queue, qstLanded_frame ..⟩
  case named => rw [qstLanded_ctx, getS_setS, if_pos ⟨rfl, hd⟩]
  case others => rw [qstLanded_ctx, getS_setS, if_neg (fun h => hr h.1)]
  case gen =>
    rw [qstLanded_cur, setCtx_gens]
    exact vput_same _ _ _
  case tokens => rw [qstLanded_cur, setCtx_tokens]
  case queue => rw [qstLanded_ctx]

/-- Settles O25: both words issue the store of their checked bytes; a mask with no byte takes a token that has landed. -/
theorem quicksetStoreTakesAToken : Obligations.QuicksetStoreTakesAToken := by
  intro s h d a b m c o z l i lo n p g hfree hp ea gen tok carry case_ answers takes carries both hglob
  have hcs : carriedTokens c (s.rs d) = (carry 0, carry 1) := by cases c <;> rfl
  have issues {w : Instr} {lo n : Nat} {m : Mask} {data : List Byte} {opa : Word} (hcap : captureFull s = false)
      (hw : exec w s = issueQst s d (carriedTokens c (s.rs d)) o ea lo n m data opa) : both w data := by
    rw [hcs] at hw
    refine ⟨fun hdead => ?takes, fun h0 h1 => ?carries, fun hwait => ?waits⟩
    case takes => exact hw ▸ issueQst_uncarried hfree hcap d o lo n m data opa (hdead 0 (by decide)) (hdead 1 (by decide)) hp
    case carries =>
      obtain ⟨t, e, ord, hgo, hlast, hkind, hdata, hea, hans, hmem, hothers, hord⟩ :=
        issueQst_carries (cs := (carry 0, carry 1)) hfree hcap d o lo n m data opa h0 h1
      exact ⟨t, e, ord, _, _, hw.trans hgo, hlast, hkind, hdata, hea, hans, hmem, hothers, hord, rfl, rfl⟩
    case waits => exact hw.trans (issueQst_waits hfree hcap hwait d o lo n m data opa)
  refine ⟨fun hcap hd hhole ha => ?qst, fun hcap hd hm hhole ha => ?vqst, fun hd hm => ?empty⟩
  case qst =>
    have hzero : ea + BitVec.ofNat 64 0 = ea := BitVec.add_zero ea
    refine issues hcap (lo := 0) (n := memBytes z) (m := 0) (opa := s.rs b) ?_
    rw [exec_qst, execQst, guarded_true _ g, aligned_of_dvd hd, qstChecks_pass hglob (by rwa [hzero]) (by rwa [hzero])]
  case vqst =>
    refine issues hcap (lo := lo) (n := n) (m := s.rm m) (opa := 0) ?_
    rw [exec_vqst, execVqst, guarded_true _ g, aligned_of_dvd hd, hm]
    exact qstChecks_pass hglob hhole ha
  case empty =>
    have hgo : exec (.vqst h m d a b c o) s = emptyQst s d := by
      rw [exec_vqst, execVqst, guarded_true _ g, aligned_of_dvd hd, hm, maskSpan_zero]
      exact if_pos hglob
    exact hgo ▸ emptyQst_answers hfree d

end Sys2Proof.Machine
end

section
/-! PROOFS. WATCHDOG (R320), TOKEN_EXPIRE (R84), and where a firmware context starts (R383). -/

namespace Sys2Proof.Machine

/-! ### WATCHDOG (R320) -/

section
variable {s : State} {c : Fin 512}

theorem exec_watchdog_due (hst : s.cores[c].st = .running) (hlong : 2 ^ 31 ≤ s.clk - s.cores[c].issued) :
    exec (.watchdog c) s = .next (modPend s c fun p => { p with watchdog := true }) :=
  if_pos ⟨hst, hlong⟩

theorem exec_watchdog_early (h : s.cores[c].st ≠ .running ∨ s.clk - s.cores[c].issued < 2 ^ 31) : exec (.watchdog c) s = .next s :=
  if_neg fun hdue => h.elim (· hdue.1) (Nat.not_lt.2 hdue.2)

/-- A core that is not put stays as it is. -/
theorem putCore_other (s : State) {c d : Fin 512} (x : Core) (hd : d ≠ c) : (s.putCore c x).cores[d] = s.cores[d] :=
  vput_other _ _ _ _ (Ne.symm hd)

/-! ### TOKEN_EXPIRE (R84) -/

/-- Whether the store of an entry of a core's token table has passed its limit. -/
def tokenDue (s : State) (c : Fin 512) (i : Fin 256) : Bool :=
  (s.cores[c].tokens[i]).any fun k => !k.notify && !k.expired && decide (k.limit ≤ s.clk)

/-- With no store to be sent again, the turn of the token table sends none. -/
theorem resendAll_none (h : ∀ i : Fin 256, (s.cores[c].tokens[i]).all (fun k => !k.resend) = true) : resendAll s c = s := by
  refine List.foldl_fixed' (fun i => ?_) _
  have hi := h i
  split
  next k hk => rw [hk] at hi; exact if_neg (by simpa using hi)
  next => rfl

/-- The core whose token entry i is marked as expired. -/
def Core.expire (x : Core) (i : Fin 256) (k : TokEnt) : Core := { x with tokens := vput x.tokens i (some { k with expired := true }) }

section
variable (hres : ∀ i : Fin 256, (s.cores[c].tokens[i]).all (fun k => !k.resend) = true)
include hres

/-- What the turn of the token table does once no store is to be sent again, by the first entry that is due. -/
theorem execTokenExpire_find {o : Option (Fin 256)} (ho : (List.finRange 256).find? (tokenDue s c) = o) : execTokenExpire c s =
    match (generalizing := false) o with
    | none => .next s
    | some i => match s.cores[c].tokens[i] with
      | some k =>
        if k.fw then .next (fwFault (s.putCore c (s.cores[c].expire i k)) c .tokenExpire)
        else if s.cores[c].st = .none then .next (settleHold (s.putCore c (s.cores[c].expire i k)) c)
        else .next (s.putCore c { s.cores[c].expire i k with
          pend := { s.cores[c].pend with tokens := s.cores[c].pend.tokens ++ [BitVec.ofNat 8 i.val] } })
      | none => .next s := by
  unfold execTokenExpire
  extract_lets t r due
  have ht : t = s := resendAll_none hres
  clear_value t
  subst ht
  have hdue : due = tokenDue t c := by
    funext i
    simp only [due, tokenDue]
    cases t.cores[c].tokens[i] <;> rfl
  rw [hdue, ho]
  cases o <;> rfl

/-- With no store that is due, the turn of the token table changes nothing. -/
theorem exec_tokenExpire_none (hnone : ∀ i, tokenDue s c i = false) : exec (.tokenExpire c) s = .next s :=
  execTokenExpire_find hres (Fin.find?_eq_find?_finRange.symm.trans (Fin.find?_eq_none_iff.2 hnone))

section
variable {i : Fin 256} {k : TokEnt} (hk : s.cores[c].tokens[i] = some k) (hdue : tokenDue s c i = true) (hfirst : ∀ j < i, tokenDue s c j = false)
include hk hdue hfirst

/-- The first store that is due is a fault of the firmware context, or its token is pending for the unit. -/
theorem exec_tokenExpire_first : exec (.tokenExpire c) s =
    if k.fw then .next (fwFault (s.putCore c (s.cores[c].expire i k)) c .tokenExpire)
    else if s.cores[c].st = .none then .next (settleHold (s.putCore c (s.cores[c].expire i k)) c)
    else .next (s.putCore c { s.cores[c].expire i k with
      pend := { s.cores[c].pend with tokens := s.cores[c].pend.tokens ++ [BitVec.ofNat 8 i.val] } }) := by
  rw [exec_tokenExpire,
    execTokenExpire_find hres (Fin.find?_eq_find?_finRange.symm.trans (Fin.find?_eq_some_iff.2 ⟨hdue, hfirst⟩))]
  simp only [hk]

end

end

end

/-! ### Where a firmware context starts (R383) -/

/-- The registers that a restarted firmware context finds. -/
def bootRegs (s : State) (c : Fin 512) (reason : Nat) : Regs :=
  (((Regs.zero.setS 1 (if reason = 0 then 0 else s.hub.images.handover)).setS 2 (BitVec.ofNat 64 reason)).setS 3 dirAddr).setS 4
    (BitVec.ofNat 64 c.val)

theorem bootFw_fw (s : State) (c : Fin 512) (reason : Nat) : (bootFw s c reason).cores[c].fw =
    { Ctx.zero with regs := bootRegs s c reason, pc := BitVec.ofNat 32 (imageEntry s) } :=
  congrArg Core.fw (putCore_same s c _)

theorem zero_getS (r : BitVec 5) : Regs.zero.getS r = 0 := by simp [Regs.getS, Regs.zero]

theorem zero_getP {p : BitVec 3} (hp : p ≠ 0) : Regs.zero.getP p = false := by
  have hp' : p ≠ 0#3 := hp
  simp [Regs.getP, Regs.zero, hp']

theorem zero_getV (v : BitVec 5) : Regs.zero.getV v = 0 := by simp [Regs.getV, Regs.zero]

theorem zero_getA (a : BitVec 4) : Regs.zero.getA a = Acc.zero := by simp [Regs.getA, Regs.zero]

section
variable (s : State) (c : Fin 512) (reason : Nat)

theorem bootRegs_getS_handover : (bootRegs s c reason).getS 1 = if reason = 0 then 0 else s.hub.images.handover := rfl
theorem bootRegs_getS_reason : (bootRegs s c reason).getS 2 = BitVec.ofNat 64 reason := rfl
theorem bootRegs_getS_dir : (bootRegs s c reason).getS 3 = dirAddr := rfl
theorem bootRegs_getS_core : (bootRegs s c reason).getS 4 = BitVec.ofNat 64 c.val := rfl
theorem bootRegs_getP (p : BitVec 3) : (bootRegs s c reason).getP p = Regs.zero.getP p := by simp [bootRegs]

/-- Every register but s1 to s4 is zero. -/
theorem bootRegs_getS_other {r : BitVec 5} (hr : r = 0 ∨ 4 < r) :
    (bootRegs s c reason).getS r = 0 := by
  have h1 : r ≠ 1 := by rintro rfl; exact absurd hr (by decide)
  have h2 : r ≠ 2 := by rintro rfl; exact absurd hr (by decide)
  have h3 : r ≠ 3 := by rintro rfl; exact absurd hr (by decide)
  have h4 : r ≠ 4 := by rintro rfl; exact absurd hr (by decide)
  simp only [bootRegs, getS_setS, h1, h2, h3, h4, false_and, if_false, zero_getS]

end

/-- Settles O43: the watchdog by the time since the last issue, the token table by its first entry due, and the start of firmware by its registers. -/
theorem tokenLimitsAndWatchdog : Obligations.TokenLimitsAndWatchdog := by
  intro s c reason
  refine ⟨fun hst hlong => ?watchdog, exec_watchdog_early, fun hres hst => ⟨fun i k hk hu hdue hfirst => ?unit,
    fun i k hk hf hdue hfirst => ?firmware, exec_tokenExpire_none hres⟩, ?boot⟩
  case watchdog =>
    exact ⟨_, exec_watchdog_due hst hlong, putCore_same _ _ _, ⟨fun _ => rfl, rfl⟩, ⟨rfl, rfl, rfl, rfl, rfl, rfl, rfl⟩,
      fun d hd => putCore_other _ _ hd⟩
  case unit =>
    rw [exec_tokenExpire_first hres hk hdue hfirst, if_neg (by simp [hu]), if_neg (hst ▸ by decide)]
    refine ⟨_, rfl, ?pending, ?marked, ?same, ⟨fun _ => rfl, rfl⟩⟩
    case pending => exact congrArg (fun x : Core => x.pend.tokens) (putCore_same _ _ _)
    case marked =>
      refine (congrArg (fun x : Core => x.tokens[i]) (putCore_same _ _ _)).trans ?_
      exact vput_same _ _ _
    case same => exact (congrArg Core.unit (putCore_same _ _ _)).trans rfl
  case firmware => rw [exec_tokenExpire_first hres hk hdue hfirst, if_pos hf]; rfl
  case boot =>
    rw [bootFw_fw]
    exact ⟨rfl, rfl, rfl, rfl, rfl, bootRegs_getS_handover s c reason, bootRegs_getS_reason s c reason, bootRegs_getS_dir s c reason,
      bootRegs_getS_core s c reason, fun r => bootRegs_getS_other s c reason, fun p hp => (bootRegs_getP s c reason p).trans (zero_getP hp),
      zero_getV, zero_getA⟩

end Sys2Proof.Machine
end

section
/-! PROOFS. TRAP (R95) and TRET (R96): what a trap and the return from it leave of the unit. -/

namespace Sys2Proof.Machine

/-! ### What is told leaves the stopped unit as it is (R316, R321, R374) -/

namespace Untold
variable {α : Type} {f : State → α} (u : Untold f)
include u

theorem deliver (s : State) (c : Fin 512) (e : EventRec) : f (deliver s c e) = f s := by
  unfold Machine.deliver
  dsimp only
  split
  · exact (u.store _ _ _).trans (u.store _ _ _)
  · exact u.hold _ _ _

theorem trapEvent (s : State) (c : Fin 512) : f (trapEvent s c) = f s := u.deliver _ _ _

/-- What does not see a held record either stands through the report of a unit's trap. -/
theorem unitRecord (held : ∀ (s : State) (c : Fin 512) r, f (s.putCore c { s.cores[c] with heldRec := r }) = f s) (s : State) (c : Fin 512)
    (r : FaultRec) : f (unitRecord s c r) = f s := by
  unfold Machine.unitRecord
  split
  · exact u.trapEvent _ _
  · split
    · exact held _ _ _
    · exact (u.trapEvent _ _).trans (u.enterRecord _ _ _)

theorem writeFrame (zero : ∀ (s : State) a n, f (s.zero a n) = f s) (s : State) (c : Fin 512) (t : TrapInfo) : f (writeFrame s c t) = f s :=
  (foldl (fun v _ => u.store v _ _) _ _).trans (zero s _ _)

end Untold

/-- What a core keeps of the trap of its unit: that it has stopped, and the control registers that name the trap. -/
def State.stopOf (c : Fin 512) (s : State) : UnitSt × Ctl := (s.cores[c].st, s.cores[c].ctl)

theorem stopOf_putCore {c : Fin 512} (s : State) (d : Fin 512) (x : Core) (hst : x.st = s.cores[d].st) (hctl : x.ctl = s.cores[d].ctl) :
    (s.putCore d x).stopOf c = s.stopOf c := by
  simp only [State.stopOf, State.putCore, vput_get]
  split_ifs with h
  · subst h; rw [hst, hctl]
  · rfl

theorem untold_stopOf (c : Fin 512) : Untold (State.stopOf c) :=
  ⟨fun _ _ _ => rfl, fun _ _ _ => rfl, fun _ _ _ => rfl, fun _ _ => rfl, fun _ _ => rfl, fun s d _ => stopOf_putCore s d _ rfl rfl⟩

theorem untold_core : Untold State.core :=
  ⟨fun _ _ _ => rfl, fun _ _ _ => rfl, fun _ _ _ => rfl, fun _ _ => rfl, fun _ _ => rfl, fun _ _ _ => rfl⟩

/-! ### The trap that is taken (R316) -/

theorem cur_eq {t : State} {c : Fin 512} : t.core = c → t.cur = t.cores[c] := congrArg fun d => t.cores[d]

theorem settleCopy_core (s : State) (c : Fin 512) (slot : Fin 256) : (settleCopy s c slot).core = s.core := by
  unfold settleCopy abandonCopy squashCopy freshNonce squash
  split
  · rfl
  · split_ifs
    · rfl
    · rfl
    · dsimp only; split <;> rfl
    · dsimp only; split <;> split <;> rfl

theorem writeRecords_core (s : State) (c : Fin 512) : (writeRecords s c).core = s.core := rfl

theorem settleCopies_core (s : State) (c : Fin 512) : (settleCopies s c).core = s.core := by
  rw [settleCopies, writeRecords_core, Untold.foldl (f := State.core) fun v slot => settleCopy_core v c slot]

/-- The core of a unit that a trap stops. -/
def Core.stop (x : Core) (t : TrapInfo) : Core :=
  { x with st := .stopped, trap := none, ctl := { x.ctl with tcause := t.cause.code, tpc := t.tpc, tword := t.tword } }

/-- The state in which a trap has stopped its unit, before the frame and the record are written. -/
def trapStopped (s : State) (c : Fin 512) (taken : Option Nat) (t : TrapInfo) : State :=
  let u := settleCopies (settleWords s c taken) c
  u.putCore c (u.cores[c].stop t)

/-- R316: the stop, the frame, and the event or the record. -/
theorem takeTrap_eq (s : State) (c : Fin 512) (taken : Option Nat) (t : TrapInfo) : takeTrap s c taken t =
    let v := writeFrame (trapStopped s c taken t) c t
    { (if t.cause = .preempt then trapEvent v c else unitRecord v c (unitFault v c t)) with mark := .trap } := by
  simp only [takeTrap, trapStopped, Core.stop]

/-- What sees neither the frame nor the record of a trap stands as the stop of the unit leaves it. -/
theorem Untold.takeTrap {α : Type} {f : State → α} (u : Untold f) (zero : ∀ (s : State) a n, f (s.zero a n) = f s)
    (held : ∀ (s : State) (c : Fin 512) r, f (s.putCore c { s.cores[c] with heldRec := r }) = f s)
    (marked : ∀ (s : State) m, f { s with mark := m } = f s) (s : State) (c : Fin 512) (taken : Option Nat) (t : TrapInfo) :
    f (takeTrap s c taken t) = f (trapStopped s c taken t) := by
  have frame := u.writeFrame zero (trapStopped s c taken t) c t
  rw [takeTrap_eq, marked]
  split
  · exact (u.trapEvent _ _).trans frame
  · exact (u.unitRecord held _ _ _).trans frame

section
variable (s : State) (c : Fin 512) (taken : Option Nat) (t : TrapInfo)

theorem takeTrap_core : (takeTrap s c taken t).core = s.core := by
  rw [untold_core.takeTrap (fun _ _ _ => rfl) (fun _ _ _ => rfl) (fun _ _ => rfl), trapStopped, State.putCore_core, settleCopies_core]
  rfl

theorem takeTrap_stopOf : (takeTrap s c taken t).stopOf c = (trapStopped s c taken t).stopOf c :=
  (untold_stopOf c).takeTrap (fun _ _ _ => rfl) (fun v d _ => stopOf_putCore v d _ rfl rfl) (fun _ _ => rfl) s c taken t

theorem trapStopped_cores : ∃ x : Core, (trapStopped s c taken t).cores[c] = x.stop t :=
  ⟨_, by rw [trapStopped]; exact putCore_same _ _ _⟩

/-- Of the acting core, a trap that is taken stops the unit under the control registers that name the trap. -/
theorem takeTrap_stops (hc : s.core = c) : (takeTrap s c taken t).cur.st = .stopped ∧ (takeTrap s c taken t).cur.ctl.tcause = t.cause.code ∧
    (takeTrap s c taken t).cur.ctl.tpc = t.tpc ∧ (takeTrap s c taken t).cur.ctl.tword = t.tword := by
  obtain ⟨x, hx⟩ := trapStopped_cores s c taken t
  have hstop := takeTrap_stopOf s c taken t
  simp only [State.stopOf, hx, Prod.mk.injEq] at hstop
  obtain ⟨hst, hctl⟩ := hstop
  rw [cur_eq ((takeTrap_core s c taken t).trans hc), hst, hctl]
  exact ⟨rfl, rfl, rfl, rfl⟩

end

/-! ### The return from a trap (R96) -/

/-- What TRET restores of a unit: that it runs, the word at which it stands, and that no word is captured. -/
def State.resumeOf (c : Fin 512) (s : State) : Fin 512 × UnitSt × BitVec 32 × Nat × List Replay :=
  (s.core, s.cores[c].st, s.cores[c].unit.pc, s.cores[c].unit.word, s.cores[c].replay)

section
variable {c : Fin 512}

theorem resumeOf_putCore (s : State) (d : Fin 512) (x : Core) (hst : x.st = s.cores[d].st) (hpc : x.unit.pc = s.cores[d].unit.pc)
    (hword : x.unit.word = s.cores[d].unit.word) (hreplay : x.replay = s.cores[d].replay) : (s.putCore d x).resumeOf c = s.resumeOf c := by
  simp only [State.resumeOf, State.putCore, vput_get]
  split_ifs with h
  · subst h; rw [hst, hpc, hword, hreplay]
  · rfl

theorem resumeOf_reinject (s : State) (d : Fin 512) (r : Replay) : (reinject s d r).resumeOf c = s.resumeOf c := by
  cases r <;> exact resumeOf_putCore _ _ _ rfl rfl rfl rfl

theorem resumeOf_putCopy (s : State) (d : Fin 512) (slot : Fin 256) (k : Option Copy) : (putCopy s d slot k).resumeOf c = s.resumeOf c :=
  resumeOf_putCore _ _ _ rfl rfl rfl rfl

theorem resumeOf_endCopy (s : State) (d : Fin 512) (slot : Fin 256) (k : Copy) : (endCopy s d slot k).resumeOf c = s.resumeOf c :=
  (resumeOf_putCore (putCopy s d slot none) d (dropGuard _ k.id) rfl rfl rfl rfl).trans (resumeOf_putCopy _ _ _ _)

theorem resumeOf_resumeCopies (s : State) (d : Fin 512) : (resumeCopies s d).resumeOf c = s.resumeOf c := by
  refine Untold.foldl (f := State.resumeOf c) (fun v slot => ?_) _ _
  split
  · split
    · rfl
    · split
      · exact resumeOf_endCopy _ _ _ _
      · exact resumeOf_putCopy _ _ _ _
  · rfl

theorem resumeOf_keepPos (s : State) (d : Fin 512) (q : BitVec 2) (k : Nat) (r : List Byte ⊕ Cause) :
    (keepPos s d false q k r).resumeOf c = s.resumeOf c := by
  unfold keepPos
  dsimp only
  split
  · exact resumeOf_putCore _ _ _ rfl rfl rfl rfl
  · rfl

theorem resumeOf_issueRead (s : State) (d : Fin 512) (q : BitVec 2) (desc : List Byte) (k : Nat) :
    (issueRead s d false q desc k).resumeOf c = s.resumeOf c := by
  unfold issueRead
  split
  · rfl
  · split
    · exact resumeOf_keepPos _ _ _ _ _
    · exact resumeOf_putCore s d _ rfl rfl rfl rfl

theorem resumeOf_reissueReads (s : State) (d : Fin 512) (q : BitVec 2) : (reissueReads s d false q).resumeOf c = s.resumeOf c := by
  unfold reissueReads
  split
  · refine Untold.foldl (f := State.resumeOf c) (fun v k => ?_) _ _
    split
    · exact resumeOf_issueRead _ _ _ _ _
    · rfl
  · rfl

theorem resumeOf_reissueAll (s : State) (d : Fin 512) : (reissueAll s d false).resumeOf c = s.resumeOf c :=
  Untold.foldl (f := State.resumeOf c) (fun v _ => resumeOf_reissueReads v d _) _ _

/-- The unit runs again, at the word that its control registers name, with no word captured. -/
theorem returnFromTrap_resumeOf (s : State) : (returnFromTrap s c).resumeOf c =
    (s.core, .running, s.cores[c].ctl.tpc, s.cores[c].ctl.tword.toNat, []) := by
  rw [returnFromTrap, resumeOf_reissueAll, resumeOf_resumeCopies,
    Untold.foldl (f := State.resumeOf c) fun v r => resumeOf_reinject v c r]
  simp only [State.resumeOf, State.putCore_core, Fin.getElem_fin, putCore_same]

theorem returnFromTrap_runs {s : State} {t : State} (ht : t = returnFromTrap s s.core) : t.cur.st = .running ∧
    t.cur.unit.pc = s.cur.ctl.tpc ∧ t.cur.unit.word = s.cur.ctl.tword.toNat ∧ t.cur.replay = [] := by
  have hresume := returnFromTrap_resumeOf (c := s.core) s
  rw [← ht] at hresume
  simp only [State.resumeOf, Prod.mk.injEq] at hresume
  obtain ⟨hcore, hst, hpc, hword, hreplay⟩ := hresume
  rw [cur_eq hcore]
  exact ⟨hst, hpc, hword, hreplay⟩

end

/-! ### TRAP (R95) and TRET (R96) -/

/-- The trap that TRAP starts names the bundle that would issue next. -/
def trapWordInfo (b : State) (k : BitVec 11) : TrapInfo := { TrapInfo.at .trapInsn b.ctx.pc (BitVec.ofNat 2 b.ctx.word) 0 with tcode := k }

section
variable {s : State} {h : Head} {k : BitVec 11} (g : s.rp h.g = true)
include g

theorem exec_trap_waits (hu : s.fw = false) (hw : s.redirect.isNone = true ∧ 2 ≤ s.last ∧ countPending s.ctx (olderEnts s) = true) :
    exec (.trap h k) s = .next { s with mark := .stall } := by
  rw [exec_trap, execTrap, guarded_true _ g, if_neg (by simp [hu]), if_pos hw]
  rfl

theorem exec_trap_ends (hu : s.fw = false) (hw : ¬(s.redirect.isNone = true ∧ 2 ≤ s.last ∧ countPending s.ctx (olderEnts s) = true)) :
    exec (.trap h k) s = .next { startTrap (atBoundary (advance s) s.core) s.core none
      (trapWordInfo (atBoundary (advance s) s.core) k) with mark := .ended } := by
  rw [exec_trap, execTrap, guarded_true _ g, if_neg (by simp [hu]), if_neg hw]
  rfl

theorem exec_trap_fw (hf : s.fw = true) : exec (.trap h k) s = .next (fwFault s s.core .trapInsn) := by
  rw [exec_trap, execTrap, guarded_true _ g, if_pos hf, raise, raiseAt_fw _ _ hf]

theorem exec_tret_unit (hu : s.fw = false) :
    exec (.tret h) s = .next (startTrap s s.core none (.at .priv s.ctx.pc (BitVec.ofNat 2 s.word) 0)) := by
  rw [exec_tret, execTret, guarded_true _ g, if_pos (by simp [hu]), raise, raiseAt_unit _ _ hu]

section
variable (hf : s.fw = true)
include hf

theorem exec_tret_notStopped (hst : s.cur.st ≠ .stopped) : exec (.tret h) s = .next (fwFault s s.core .illegalOp) := by
  rw [exec_tret, execTret, guarded_true _ g, if_neg (by simp [hf]), if_pos hst, raise, raiseAt_fw _ _ hf]

variable (hst : s.cur.st = .stopped)
include hst

theorem exec_tret_held (hr : s.cur.heldRec.isSome = true) : exec (.tret h) s = .next { s with mark := .stall } := by
  rw [exec_tret, execTret, guarded_true _ g, if_neg (by simp [hf]), if_neg (by simp [hst]), if_pos hr]
  rfl

theorem exec_tret_returns (hr : s.cur.heldRec = none) : exec (.tret h) s = .next (returnFromTrap s s.core) := by
  rw [exec_tret, execTret, guarded_true _ g, if_neg (by simp [hf]), if_neg (by simp [hst]), if_neg (by simp [hr])]

end

end

/-- Settles O40: TRAP by whether the end of its packet waits, TRET by the context and by the unit that it finds. -/
theorem trapWordAndReturn : Obligations.TrapWordAndReturn := by
  intro s h k g ends
  have hwaits : s.redirect.isNone = true ∧ 2 ≤ s.last ∧ countPending s.ctx (olderEnts s) = true ↔ ¬ends := by
    simp only [ends, not_or, Nat.not_lt, Bool.not_eq_true, Option.isNone_iff_eq_none, Option.isSome_eq_false_iff, Bool.not_eq_false]
  refine ⟨fun hu hend => ⟨exec_trap_ends g hu fun hw => hwaits.1 hw hend, fun hready => ?stops⟩,
    fun hu hend => exec_trap_waits g hu (hwaits.2 hend), exec_trap_fw g, fun hf hst hr => ⟨_, exec_tret_returns g hf hst hr, rfl, ?returns⟩,
    exec_tret_held g, exec_tret_notStopped g, exec_tret_unit g⟩
  case stops =>
    intro t
    have ht : t = takeTrap _ s.core none (trapWordInfo _ k) := startTrap_ready _ _ hready
    rw [ht]
    exact takeTrap_stops _ _ _ _ rfl
  case returns => exact returnFromTrap_runs rfl

end Sys2Proof.Machine
end

section
/-! PROOFS. The arithmetic vector words (R98 to R104): what each writes to an element. -/

namespace Sys2Proof.Machine

/-! ### A word that writes a vector register (R56, R98) -/

section
variable {h : Head} {s : State} {d : BitVec 5} (g : s.rp h.g = true)
include g

/-- Under a true guard the register gets what the word computes; of that value a property is known. -/
theorem setV_writes {f : State → Vec → Vec} {o : Out} {P : Vec → Prop} (ho : o = setV h d f s) (hp : P (f s (s.rv d))) :
    ∃ z, o = .next (s.wrV d z) ∧ P z :=
  ⟨_, ho.trans (guarded_true _ g), hp⟩

end

/-! ### Element operations (R99, R100, R102) -/

section
variable {t : ElemTy}

theorem elemFmt_of_isInt (h : t.isInt = true) : elemFmt t = none := by
  cases t <;> simp [ElemTy.isInt, elemFmt] at h ⊢

theorem apply_int (h : elemFmt t = none) (op : ElemOp) (a b d : BitVec t.bits) :
    op.apply t a b d = BitVec.ofInt t.bits (op.int a.toInt b.toInt d.toInt) := by
  simp only [ElemOp.apply, h]

theorem apply_float {f : FloatFmt} (h : elemFmt t = some f) (op : ElemOp) (a b d : BitVec t.bits) :
    op.apply t a b d = BitVec.ofNat t.bits (f.round .rne (op.float (f.value a.toNat) (f.value b.toNat) (f.value d.toNat))) := by
  simp only [ElemOp.apply, h]

theorem opAbs_int (x y z : Int) : opAbs.int x y z = |x| := Int.natCast_natAbs x

variable (m : Mask) (a b d : Vec)

theorem elem_vElem (op : ElemOp) (k : Nat) (hk : k < t.lanes) : elem t (vElem op t m a b d) k =
    if maskBit m t.bytes k then op.apply t (elem t a k) (elem t b k) (elem t d k) else elem t d k :=
  elem_mapElems t m d _ k hk

/-- R100: on integers the exact result is wrapped to the width. -/
theorem elem_vElem_int (ht : elemFmt t = none) (op : ElemOp) (k : Nat) (hk : k < t.lanes) : elem t (vElem op t m a b d) k =
    if maskBit m t.bytes k then BitVec.ofInt t.bits (op.int (elem t a k).toInt (elem t b k).toInt (elem t d k).toInt)
    else elem t d k := by
  rw [elem_vElem m a b d op k hk, apply_int ht]

/-- R99: on floats the exact result is rounded once to nearest even. -/
theorem elem_vElem_float {f : FloatFmt} (ht : elemFmt t = some f) (op : ElemOp) (k : Nat) (hk : k < t.lanes) :
    elem t (vElem op t m a b d) k = if maskBit m t.bytes k then
        BitVec.ofNat t.bits (f.round .rne (op.float (f.value (elem t a k).toNat) (f.value (elem t b k).toNat) (f.value (elem t d k).toNat)))
      else elem t d k := by
  rw [elem_vElem m a b d op k hk, apply_float ht]

/-- R104: the exact sum or difference between the bounds of the type. -/
theorem clampInt_eq (w : Nat) (z : Int) : clampInt w z = max (-(2 : Int) ^ (w - 1)) (min ((2 : Int) ^ (w - 1) - 1) z) := by
  have hpos : (0 : Int) < 2 ^ (w - 1) := by positivity
  simp only [clampInt, Nat.cast_pow, Nat.cast_ofNat]
  split
  · omega
  · split <;> omega

theorem elem_vSat (f : Int → Int → Int) (k : Nat) (hk : k < t.lanes) : elem t (vSat f t m a b d) k =
    if maskBit m t.bytes k then
      BitVec.ofInt t.bits (max (-(2 : Int) ^ (t.bits - 1)) (min ((2 : Int) ^ (t.bits - 1) - 1) (f (elem t a k).toInt (elem t b k).toInt)))
    else elem t d k := by
  rw [← clampInt_eq]
  exact elem_mapElems t m d _ k hk

end

/-- Settles O32: each word by its operation on the elements' integers. -/
theorem vectorIntegerElements : Obligations.VectorIntegerElements := by
  intro s h m d a b t g hint lo hi gives
  have each (y : Vec) := elem_vElem_int (s.rm m) (s.rv a) y (s.rv d) (elemFmt_of_isInt hint)
  have sat := elem_vSat (t := t) (s.rm m) (s.rv a) (s.rv b) (s.rv d)
  refine ⟨?add, ?sub, ?mul, ?fma, ?min, ?max, ?abs, ?neg, ?adds, ?subs⟩
  case add => exact setV_writes g (exec_vadd ..) (each _ opAdd)
  case sub => exact setV_writes g (exec_vsub ..) (each _ opSub)
  case mul => exact setV_writes g (exec_vmul ..) (each _ opMul)
  case fma => exact setV_writes g (exec_vfma ..) (each _ opFma)
  case min => exact setV_writes g (exec_vmin ..) (each _ opMin)
  case max => exact setV_writes g (exec_vmax ..) (each _ opMax)
  case abs =>
    refine setV_writes g (exec_vabs ..) fun k hk => ?_
    rw [each (s.rv a) opAbs k hk, opAbs_int]
  case neg => exact setV_writes g (exec_vneg ..) (each (s.rv a) opNeg)
  case adds => exact setV_writes g (exec_vadds ..) (sat (· + ·))
  case subs => exact setV_writes g (exec_vsubs ..) (sat (· - ·))

/-- Settles O33: each word by its operation on the elements' exact values. -/
theorem vectorFloatElements : Obligations.VectorFloatElements := by
  intro s h m d a b t f g gives v
  refine ⟨fun ht => ?rounded, ?div, ?sqrt, ?exp2⟩
  case rounded =>
    have each (y : Vec) := elem_vElem_float (s.rm m) (s.rv a) y (s.rv d) ht
    refine ⟨?add, ?sub, ?mul, ?fma, ?min, ?max, ?abs, ?neg⟩
    case add => exact setV_writes g (exec_vadd ..) (each _ opAdd)
    case sub => exact setV_writes g (exec_vsub ..) (each _ opSub)
    case mul => exact setV_writes g (exec_vmul ..) (each _ opMul)
    case fma => exact setV_writes g (exec_vfma ..) (each _ opFma)
    case min => exact setV_writes g (exec_vmin ..) (each _ opMin)
    case max => exact setV_writes g (exec_vmax ..) (each _ opMax)
    case abs => exact setV_writes g (exec_vabs ..) (each (s.rv a) opAbs)
    case neg => exact setV_writes g (exec_vneg ..) (each (s.rv a) opNeg)
  case div => exact setV_writes g (exec_vdiv ..) (elem_vElem_float (s.rm m) (s.rv a) (s.rv b) (s.rv d) rfl opDiv)
  case sqrt => exact setV_writes g (exec_vsqrt ..) fun k hk => lane_mapLanes (bytes := 4) _ _ _ k hk
  case exp2 => exact setV_writes g (exec_vexp2 ..) fun k hk => lane_mapLanes (bytes := 4) _ _ _ k hk

end Sys2Proof.Machine
end

section
/-! PROOFS. The vector words of bits and of places (R105, R126 to R129), lane by lane. -/

namespace Sys2Proof.Machine

/-! ### A lane of an operation on whole registers (R126) -/

section
variable (w : Nat) (a b : Vec) (k : Nat)

theorem lane_and : lane w (a &&& b) k = lane w a k &&& lane w b k := BitVec.extractLsb'_and ..

theorem lane_or : lane w (a ||| b) k = lane w a k ||| lane w b k := BitVec.extractLsb'_or ..

theorem lane_xor : lane w (a ^^^ b) k = lane w a k ^^^ lane w b k := BitVec.extractLsb'_xor ..

/-- The lanes of a complement, inside the register. -/
theorem lane_not {w k : Nat} (hk : w * k + w ≤ 2048) : lane w (~~~a) k = ~~~lane w a k := by
  refine BitVec.eq_of_getLsbD_eq fun i hi => ?_
  simp [lane, BitVec.getLsbD_extractLsb', hi, show w * k + i < 2048 by omega, -BitVec.getLsbD_eq_getElem]

end

/-- R126: a logic word acts on the bytes as its operation does. -/
theorem lane_vLogic {f : Vec → Vec → Vec} {f8 : BitVec 8 → BitVec 8 → BitVec 8} {a b : Vec}
    (hf : ∀ k, k < 256 → lane 8 (f a b) k = f8 (lane 8 a k) (lane 8 b k)) (m : Mask) (d : Vec) (k : Nat) (hk : k < 256 / 1) :
    lane 8 (vLogic f m a b d) k = if maskBit m 1 k then f8 (lane 8 a k) (lane 8 b k) else lane 8 d k := by
  rw [← hf k hk]
  exact lane_mapLanes (bytes := 1) m d _ k hk

/-! ### Shifts and counts (R126, R128) -/

theorem toNat_shiftCount (b : Vec) (k : Nat) : ((lane 32 b k).extractLsb' 0 5).toNat = vShiftCount b k := by
  simp [vShiftCount]

theorem lane_vShift (f : BitVec 32 → Nat → BitVec 32) (m : Mask) (a : Vec) (n : Nat → Nat) (d : Vec) (k : Nat) (hk : k < 256 / 4) :
    lane 32 (vShift f m a n d) k = if maskBit m 4 k then f (lane 32 a k) (n k) else lane 32 d k :=
  lane_mapLanes (bytes := 4) m d _ k hk

/-- The count of a lane is the low five bits of the count lane. -/
theorem lane_vShift_count (f : BitVec 32 → Nat → BitVec 32) (m : Mask) (a b d : Vec) (k : Nat) (hk : k < 256 / 4) :
    lane 32 (vShift f m a (vShiftCount b) d) k =
      if maskBit m 4 k then f (lane 32 a k) ((lane 32 b k).extractLsb' 0 5).toNat else lane 32 d k := by
  rw [toNat_shiftCount]
  exact lane_vShift f m a _ d k hk

theorem popCount_eq {w : Nat} (x : BitVec w) : popCount x = (List.range w).countP fun j => x.getLsbD j :=
  List.countP_eq_length_filter.symm

theorem lane_vPopc {bytes : Nat} (m : Mask) (a d : Vec) (k : Nat) (hk : k < 256 / bytes) : lane (8 * bytes) (vPopc bytes m a d) k =
    if maskBit m bytes k then BitVec.ofNat (8 * bytes) ((List.range (8 * bytes)).countP fun j => (lane (8 * bytes) a k).getLsbD j)
    else lane (8 * bytes) d k := by
  rw [← popCount_eq]
  exact lane_mapLanes m d _ k hk

/-- Settles O34: the logic words through the lanes of a whole register, the others by their function of a lane. -/
theorem vectorBitWords : Obligations.VectorBitWords := by
  intro s h m d a b n g gives
  have product (hi : Bool) : ∀ k < 256 / 8, lane 64 (vClmul hi (s.rm m) (s.rv a) (s.rv b) (s.rv d)) k = if maskBit (s.rm m) 8 k then
      (clmul (lane 64 (s.rv a) k) (lane 64 (s.rv b) k) 64).extractLsb' (if hi then 64 else 0) 64 else lane 64 (s.rv d) k :=
    lane_mapLanes (bytes := 8) _ _ _
  refine ⟨?and, ?or, ?xor, ?andn, ?sll, ?srl, ?sra, ?slli, ?srli, ?srai, ?clmulLo, ?clmulHi, ?popc32, ?popc64⟩
  case and => exact setV_writes g (exec_vand ..) (lane_vLogic (fun k _ => lane_and 8 _ _ k) _ _)
  case or => exact setV_writes g (exec_vor ..) (lane_vLogic (fun k _ => lane_or 8 _ _ k) _ _)
  case xor => exact setV_writes g (exec_vxor ..) (lane_vLogic (fun k _ => lane_xor 8 _ _ k) _ _)
  case andn =>
    exact setV_writes g (exec_vandn ..) (lane_vLogic (f := fun x y => x &&& ~~~y) (f8 := fun x y => x &&& ~~~y)
      (fun k hk => by rw [lane_and, lane_not _ (by omega)]) _ _)
  case sll => exact setV_writes g (exec_vsll ..) (lane_vShift_count (fun x n => x <<< n) _ _ _ _)
  case srl => exact setV_writes g (exec_vsrl ..) (lane_vShift_count (fun x n => x >>> n) _ _ _ _)
  case sra => exact setV_writes g (exec_vsra ..) (lane_vShift_count (fun x n => x.sshiftRight n) _ _ _ _)
  case slli => exact setV_writes g (exec_vslli ..) (lane_vShift (fun x n => x <<< n) _ _ _ _)
  case srli => exact setV_writes g (exec_vsrli ..) (lane_vShift (fun x n => x >>> n) _ _ _ _)
  case srai => exact setV_writes g (exec_vsrai ..) (lane_vShift (fun x n => x.sshiftRight n) _ _ _ _)
  case clmulLo => exact setV_writes g (exec_vclmulLo ..) (product false)
  case clmulHi => exact setV_writes g (exec_vclmulHi ..) (product true)
  case popc32 => exact setV_writes g (exec_vpopc32 ..) (lane_vPopc (bytes := 4) _ _ _)
  case popc64 => exact setV_writes g (exec_vpopc64 ..) (lane_vPopc (bytes := 8) _ _ _)

/-! ### Places (R105, R129) -/

section
variable {bytes : Nat} (m : Mask) (a b d : Vec)

/-- A distance past the last element moves every element out, so it may be cut to 256. -/
theorem lane_vSlideUp (x : Word) (k : Nat) (hk : k < 256 / bytes) : lane (8 * bytes) (vSlideUp bytes m a (slideBy x) d) k =
    if maskBit m bytes k then (if x.toNat ≤ k then lane (8 * bytes) a (k - x.toNat) else 0) else lane (8 * bytes) d k := by
  have hk' : k < 256 := hk.trans_le (Nat.div_le_self ..)
  rw [vSlideUp, lane_mapLanes _ _ _ _ hk, slideBy]
  by_cases hx : x.toNat ≤ 256
  · rw [Nat.min_eq_left hx]
  · rw [Nat.min_eq_right (by omega), if_neg (show ¬ 256 ≤ k by omega), if_neg (show ¬ x.toNat ≤ k by omega)]

theorem lane_vSlideDn (x : Word) (k : Nat) (hk : k < 256 / bytes) : lane (8 * bytes) (vSlideDn bytes m a (slideBy x) d) k =
    if maskBit m bytes k then laneOrZero bytes a (k + x.toNat) else lane (8 * bytes) d k := by
  have hlanes : 256 / bytes ≤ 256 := Nat.div_le_self ..
  rw [vSlideDn, lane_mapLanes _ _ _ _ hk, slideBy]
  by_cases hx : x.toNat ≤ 256
  · rw [Nat.min_eq_left hx]
  · rw [Nat.min_eq_right (by omega), laneOrZero, laneOrZero, if_neg (show ¬ k + 256 < _ by omega), if_neg (show ¬ k + x.toNat < _ by omega)]

theorem lane_vExpand (k : Nat) (hk : k < 256 / bytes) : lane (8 * bytes) (vExpand bytes m a d) k =
    if maskBit m bytes k then lane (8 * bytes) a ((List.range k).countP (maskBit m bytes)) else lane (8 * bytes) d k := by
  rw [vExpand, lane_mapLanes _ _ _ _ hk, selected, List.countP_eq_length_filter]

theorem lane_vCompress (k : Nat) (hk : k < 256 / bytes) : lane (8 * bytes) (vCompress bytes m a) k =
    match ((List.range (256 / bytes)).filter (maskBit m bytes))[k]? with
    | some j => lane (8 * bytes) a j
    | none => 0 := by
  refine (lane_ofLanes _ _ _ k hk ?_).trans rfl
  have := Nat.mul_div_le 256 bytes
  rw [Nat.mul_assoc]
  omega

end

/-- Settles O35: at any size of the elements each word by its function of a place. -/
theorem vectorMoveWords : Obligations.VectorMoveWords := by
  intro s h m d a b g gives pick all
  have sized {bytes : Nat} {perm up down bcast mov expand compress : Instr}
      (hperm : exec perm s = setV h d (fun s old => vPerm bytes (s.rm m) (s.rv a) (s.rv b) old) s)
      (hup : exec up s = setV h d (fun s old => vSlideUp bytes (s.rm m) (s.rv a) (slideBy (s.rs b)) old) s)
      (hdown : exec down s = setV h d (fun s old => vSlideDn bytes (s.rm m) (s.rv a) (slideBy (s.rs b)) old) s)
      (hbcast : exec bcast s = setV h d (fun s old => vBcast bytes (s.rm m) (s.rs a) old) s)
      (hmov : exec mov s = setV h d (fun s old => vMov bytes (s.rm m) (s.rv a) old) s)
      (hexpand : exec expand s = setV h d (fun s old => vExpand bytes (s.rm m) (s.rv a) old) s)
      (hcompress : exec compress s = setV h d (fun s _ => vCompress bytes (s.rm m) (s.rv a)) s) :
      all bytes perm up down bcast mov expand compress :=
    ⟨setV_writes g hperm (lane_mapLanes _ _ _), setV_writes g hup (lane_vSlideUp _ _ _ _), setV_writes g hdown (lane_vSlideDn _ _ _ _),
      setV_writes g hbcast (lane_mapLanes _ _ _), setV_writes g hmov (lane_mapLanes _ _ _), setV_writes g hexpand (lane_vExpand _ _ _),
      setV_writes g hcompress (lane_vCompress _ _)⟩
  exact ⟨sized (exec_vperm32 ..) (exec_vslideup32 ..) (exec_vslidedn32 ..) (exec_vbcast32 ..) (exec_vmov32 ..) (exec_vexpand32 ..)
      (exec_vcompress32 ..),
    sized (exec_vperm8 ..) (exec_vslideup8 ..) (exec_vslidedn8 ..) (exec_vbcast8 ..) (exec_vmov8 ..) (exec_vexpand8 ..)
      (exec_vcompress8 ..)⟩

end Sys2Proof.Machine
end

section
/-! PROOFS. The reductions, the scan and the conversions (R106 to R111): trees and doubling steps by the places of their nodes. -/

namespace Sys2Proof.Machine

/-! ### The pairwise tree by its nodes (R107) -/

section
variable {α : Type} (node : α → α → α)

/-- One level over an even number of nodes. -/
theorem treeLevel_range (y : Nat → α) (n : Nat) :
    treeLevel node ((List.range (2 * n)).map y) = (List.range n).map fun i => node (y (2 * i)) (y (2 * i + 1)) := by
  induction n generalizing y with
  | zero => rfl
  | succ n ih =>
    rw [show 2 * (n + 1) = 2 * n + 1 + 1 by omega]
    simp only [List.range_succ_eq_map, List.map_cons, List.map_map, treeLevel]
    exact congrArg _ (ih fun i => y (i + 2))

theorem treeReduce_singleton (x : α) (r : Nat) : treeReduce node r [x] = [x] := by
  induction r with
  | zero => rfl
  | succ r ih => exact ih

variable {node} {y : Nat → Nat → α} (hy : ∀ k i, y (k + 1) i = node (y k (2 * i)) (y k (2 * i + 1)))
include hy

theorem treeReduce_range (n j r : Nat) : treeReduce node (n + r) ((List.range (2 ^ n)).map (y j)) = [y (j + n) 0] := by
  induction n generalizing j with
  | zero => rw [Nat.zero_add]; exact treeReduce_singleton node _ r
  | succ n ih =>
    rw [Nat.add_right_comm, treeReduce, pow_succ', treeLevel_range, Nat.add_comm n 1, ← Nat.add_assoc]
    simp only [← hy]
    exact ih (j + 1)

/-- The root over 2^n leaves. The levels above it leave it alone. -/
theorem treeReduce_root {n : Nat} (hn : n ≤ 8) (x : α) : (treeReduce node 8 ((List.range (2 ^ n)).map (y 0))).headD x = y n 0 := by
  obtain ⟨r, hr⟩ := Nat.exists_eq_add_of_le hn
  rw [hr, treeReduce_range hy, Nat.zero_add, List.headD_cons]

end

/-! ### The doubling steps by their nodes (R108) -/

section
variable {α : Type} (node : α → α → α)

theorem scanStep_range (y : Nat → α) (n d : Nat) :
    scanStep node d ((List.range n).map y) = (List.range n).map fun i => if i < d then y i else node (y (i - d)) (y i) := by
  refine List.ext_getElem (by simp [scanStep]; omega) fun i _ hi => ?_
  have hi' : i < n := by simpa using hi
  by_cases hd : i < d
  · simp [scanStep, hd, hi']
  · have hmin : min d n = d := by omega
    simp [scanStep, List.getElem_append, hd, hmin, show d + (i - d) = i by omega]

variable {node} {y : Nat → Nat → α} (hy : ∀ k i, y (k + 1) i = if i < 2 ^ k then y k i else node (y k (i - 2 ^ k)) (y k i))
include hy

theorem scanSteps_range (l n j : Nat) : scanSteps node n (2 ^ j) ((List.range l).map (y j)) = (List.range l).map (y (j + n)) := by
  induction n generalizing j with
  | zero => rfl
  | succ n ih =>
    rw [scanSteps, scanStep_range, ← pow_succ']
    simp only [← hy]
    rw [ih, Nat.add_assoc, Nat.add_comm 1]

/-- Where the distance has passed a place, its value stands. -/
theorem scan_stands {n k i : Nat} (hi : i < 2 ^ n) (hk : n ≤ k) : y k i = y n i := by
  induction k, hk using Nat.le_induction with
  | base => rfl
  | succ k hk ih => rw [hy, if_pos (hi.trans_le (Nat.pow_le_pow_right (by omega) hk)), ih]

theorem scanSteps_getD {l n i : Nat} (hl : l ≤ 2 ^ n) (hn : n ≤ 8) (hi : i < l) (x : α) :
    (scanSteps node 8 1 ((List.range l).map (y 0))).getD i x = y n i := by
  rw [show (1 : Nat) = 2 ^ 0 from rfl, scanSteps_range hy, Nat.zero_add, ← scan_stands hy (hi.trans_le hl) hn]
  simp [hi]

end

/-! ### Codes fit their elements (R97, R132) -/

section
variable {f : FloatFmt} (hmax : f.maxCode + 1 < f.signBit)

theorem overflow_le (mode : RMode) (neg : Bool) : f.overflow mode neg ≤ f.maxCode + 1 := by
  unfold FloatFmt.overflow
  split
  · cases mode <;> cases neg <;> simp
  · omega

include hmax

theorem finish_lt (mode : RMode) (neg : Bool) (code : Nat) : f.finish mode neg code < 2 * f.signBit := by
  have hover := overflow_le (f := f) mode neg
  unfold FloatFmt.finish
  split_ifs <;> omega

theorem round_lt (hnan : f.canonNan < f.signBit) (mode : RMode) (v : Val) : f.round mode v < 2 * f.signBit := by
  cases v with
  | nan => simp only [FloatFmt.round]; omega
  | inf neg => simp only [FloatFmt.round]; split_ifs <;> omega
  | num neg mag =>
    simp only [FloatFmt.round, FloatFmt.roundMag]
    split_ifs <;> exact finish_lt hmax _ _ _

end

theorem round_lt_elem {t : ElemTy} {f : FloatFmt} (ht : elemFmt t = some f) (mode : RMode) (v : Val) : f.round mode v < 2 ^ t.bits := by
  cases t <;> cases ht
  case f32 => exact round_lt (f := .f32) (by decide) (by decide) mode v
  case bf16 => exact round_lt (f := .bf16) (by decide) (by decide) mode v
  case f16 => exact round_lt (f := .f16) (by decide) (by decide) mode v

/-! ### A value in element 0 (R107) -/

section
variable {t : ElemTy}

theorem bits_le (t : ElemTy) : t.bits ≤ 2048 := by cases t <;> decide

theorem elem_setWidth_zero (x : BitVec t.bits) : elem t (x.setWidth 2048) 0 = x := by
  have := bits_le t
  refine BitVec.eq_of_getLsbD_eq fun i hi => ?_
  simp only [elem, lane, Nat.mul_zero, BitVec.getLsbD_extractLsb', BitVec.getLsbD_setWidth, Nat.zero_add, hi, decide_true, Bool.true_and]
  simp [show i < 2048 by omega]

theorem elem_setWidth_other (x : BitVec t.bits) {k : Nat} (hk : 0 < k) : elem t (x.setWidth 2048) k = 0 := by
  refine BitVec.eq_of_getLsbD_eq fun i hi => ?_
  have hbeyond : t.bits ≤ t.bits * k + i := Nat.le_add_right_of_le (Nat.le_mul_of_pos_right _ hk)
  simp [elem, lane, BitVec.getLsbD_extractLsb', BitVec.getLsbD_setWidth, BitVec.getLsbD_of_ge _ _ hbeyond, -BitVec.getLsbD_eq_getElem]

/-- The number of lanes is a power of two, which the tree's eight levels reach. -/
theorem lanes_exponent {n : Nat} (hn : 2 ^ n = t.lanes) : n ≤ 8 :=
  (Nat.pow_le_pow_iff_right (a := 2) (by decide)).1 (hn.trans_le (by cases t <;> decide))

theorem lanes_pow (t : ElemTy) : ∃ n, 2 ^ n = t.lanes := by
  cases t
  case f32 | i32 => exact ⟨6, rfl⟩
  case bf16 | f16 | i16 => exact ⟨7, rfl⟩
  case i8 => exact ⟨8, rfl⟩

end

/-! ### Sums of integers (R106, R108) -/

section
variable (t : ElemTy) (m : Mask) (a : Vec)

/-- The sum of the active elements below a place. -/
def activeSum (n : Nat) : Int := ((List.range n).filter fun k => maskBit m t.bytes k).foldl (fun z k => z + (elem t a k).toInt) 0

/-- The same, wrapped to the width. -/
def wrappedSum (n : Nat) : BitVec t.bits := BitVec.ofInt t.bits (activeSum t m a n)

/-- A starting node of an integer reduction. -/
def intLeaf (op : RedOp) (i : Nat) : BitVec t.bits := if maskBit m t.bytes i then elem t a i else BitVec.ofInt t.bits (op.intId t.bits)

theorem intRedLeaves_eq (op : RedOp) : intRedLeaves op t m a = (List.range t.lanes).map (intLeaf t m a op) := rfl

theorem wrappedSum_succ (n : Nat) : wrappedSum t m a (n + 1) = wrappedSum t m a n + intLeaf t m a .sum n := by
  cases hact : maskBit m t.bytes n <;>
    simp [wrappedSum, activeSum, intLeaf, List.range_succ, hact, BitVec.ofInt_add, RedOp.intId]

theorem intRedNode_sum {w : Nat} (u v : BitVec w) : intRedNode .sum u v = u + v := by
  simp [intRedNode, RedOp.intNode, BitVec.ofInt_add]

/-- Node i of level k is the sum of its 2^k leaves. -/
def sumNode (k i : Nat) : BitVec t.bits := wrappedSum t m a ((i + 1) * 2 ^ k) - wrappedSum t m a (i * 2 ^ k)

theorem sumNode_zero (i : Nat) : sumNode t m a 0 i = intLeaf t m a .sum i := by
  rw [sumNode, pow_zero, Nat.mul_one, Nat.mul_one, wrappedSum_succ, add_sub_cancel_left]

theorem sumNode_succ (k i : Nat) : sumNode t m a (k + 1) i = intRedNode .sum (sumNode t m a k (2 * i)) (sumNode t m a k (2 * i + 1)) := by
  rw [intRedNode_sum, sumNode, sumNode, sumNode, show (i + 1) * 2 ^ (k + 1) = (2 * i + 1 + 1) * 2 ^ k by ring,
    show i * 2 ^ (k + 1) = 2 * i * 2 ^ k by ring]
  abel

/-- After k doubling steps place i holds the sum of the 2^k leaves that end there. -/
def windowSum (k i : Nat) : BitVec t.bits := wrappedSum t m a (i + 1) - wrappedSum t m a (i + 1 - 2 ^ k)

theorem windowSum_zero (i : Nat) : windowSum t m a 0 i = intLeaf t m a .sum i := by
  rw [windowSum, pow_zero, Nat.add_sub_cancel, wrappedSum_succ, add_sub_cancel_left]

theorem windowSum_succ (k i : Nat) : windowSum t m a (k + 1) i =
    if i < 2 ^ k then windowSum t m a k i else intRedNode .sum (windowSum t m a k (i - 2 ^ k)) (windowSum t m a k i) := by
  have hpow : 2 ^ (k + 1) = 2 ^ k + 2 ^ k := by ring
  split
  · rw [windowSum, windowSum, show i + 1 - 2 ^ (k + 1) = 0 by omega, show i + 1 - 2 ^ k = 0 by omega]
  · rw [intRedNode_sum, windowSum, windowSum, windowSum, show i - 2 ^ k + 1 = i + 1 - 2 ^ k by omega,
      show i + 1 - 2 ^ (k + 1) = i + 1 - 2 ^ k - 2 ^ k by omega]
    abel

end

/-! ### The greatest and the least of integers (R106) -/

section
variable {w : Nat}

/-- An order by which the nodes of an integer reduction pick one of two, and the operation's identity never against another. -/
structure Picks (op : RedOp) (R : BitVec w → BitVec w → Prop) : Prop where
  refl : ∀ u, R u u
  trans : ∀ u v x, R u v → R v x → R u x
  antisymm : ∀ u v, R u v → R v u → u = v
  node : ∀ u v, (intRedNode op u v = u ∨ intRedNode op u v = v) ∧ R u (intRedNode op u v) ∧ R v (intRedNode op u v)
  least : ∀ u, R (BitVec.ofInt w (op.intId w)) u

theorem toInt_intId_max (hw : 0 < w) : (BitVec.ofInt w (RedOp.intId w .max)).toInt = -(2 ^ (w - 1) : Nat) :=
  BitVec.toInt_ofInt_eq_self hw (by simp [RedOp.intId]) (by simp [RedOp.intId])

theorem toInt_intId_min (hw : 0 < w) : (BitVec.ofInt w (RedOp.intId w .min)).toInt = (2 ^ (w - 1) : Nat) - 1 :=
  BitVec.toInt_ofInt_eq_self hw (by simp [RedOp.intId]) (by simp [RedOp.intId])

theorem picks_max (hw : 0 < w) : Picks (w := w) .max fun u v => u.toInt ≤ v.toInt where
  refl _ := le_rfl
  trans _ _ _ := le_trans
  antisymm _ _ h h' := BitVec.eq_of_toInt_eq (le_antisymm h h')
  node u v := by
    simp only [intRedNode, RedOp.intNode]
    split <;> simp [BitVec.ofInt_toInt] <;> omega
  least u := by rw [toInt_intId_max hw]; exact_mod_cast BitVec.le_toInt u

theorem picks_min (hw : 0 < w) : Picks (w := w) .min fun u v => v.toInt ≤ u.toInt where
  refl _ := le_rfl
  trans _ _ _ h h' := le_trans h' h
  antisymm _ _ h h' := BitVec.eq_of_toInt_eq (le_antisymm h' h)
  node u v := by
    simp only [intRedNode, RedOp.intNode]
    split <;> simp [BitVec.ofInt_toInt] <;> omega
  least u := by
    rw [toInt_intId_min hw]
    have := BitVec.toInt_lt (x := u)
    push_cast
    omega

/-- The nodes of the tree over given leaves. -/
def treeNode {α : Type} (node : α → α → α) (leaf : Nat → α) : Nat → Nat → α
  | 0, i => leaf i
  | k + 1, i => node (treeNode node leaf k (2 * i)) (treeNode node leaf k (2 * i + 1))

variable {op : RedOp} {R : BitVec w → BitVec w → Prop} (hR : Picks op R)
include hR

/-- A node is one of the leaves under it, and none of them is beyond it. -/
theorem treeNode_picks (leaf : Nat → BitVec w) (k i : Nat) : (∃ j, j / 2 ^ k = i ∧ treeNode (intRedNode op) leaf k i = leaf j) ∧
    ∀ j, j / 2 ^ k = i → R (leaf j) (treeNode (intRedNode op) leaf k i) := by
  induction k generalizing i with
  | zero =>
    refine ⟨⟨i, by simp, rfl⟩, fun j hj => ?_⟩
    obtain rfl : j = i := by simpa using hj
    exact hR.refl _
  | succ k ih =>
    have hhalf (j : Nat) : j / 2 ^ (k + 1) = j / 2 ^ k / 2 := by rw [pow_succ, Nat.div_div_eq_div_mul]
    obtain ⟨hone, hl, hr⟩ := hR.node (treeNode (intRedNode op) leaf k (2 * i)) (treeNode (intRedNode op) leaf k (2 * i + 1))
    refine ⟨?_, fun j hj => ?_⟩
    · rcases hone with he | he
      · obtain ⟨j, hj, hleaf⟩ := (ih (2 * i)).1
        exact ⟨j, by rw [hhalf]; omega, he.trans hleaf⟩
      · obtain ⟨j, hj, hleaf⟩ := (ih (2 * i + 1)).1
        exact ⟨j, by rw [hhalf]; omega, he.trans hleaf⟩
    · rw [hhalf] at hj
      have hside : j / 2 ^ k = 2 * i ∨ j / 2 ^ k = 2 * i + 1 := by omega
      rcases hside with hside | hside
      · exact hR.trans _ _ _ ((ih _).2 j hside) hl
      · exact hR.trans _ _ _ ((ih _).2 j hside) hr

end

/-! ### What the reductions leave (R106, R107) -/

section
variable {t : ElemTy} (op : RedOp) (m : Mask) (a : Vec)

theorem vReduce_float {f : FloatFmt} (ht : elemFmt t = some f) : vReduce op t m a = (BitVec.ofNat t.bits (f.round .rne
    (FloatFmt.f32.value ((treeReduce (floatRedNode op) 8 (floatRedLeaves op f t m a)).headD 0)))).setWidth 2048 := by
  simp only [vReduce, ht]
  rw [BitVec.setWidth_ofNat_of_le_of_lt (bits_le t) (round_lt_elem ht _ _)]

theorem vReduce_int (ht : elemFmt t = none) :
    vReduce op t m a = ((treeReduce (intRedNode op) 8 (intRedLeaves op t m a)).headD 0).setWidth 2048 := by
  simp only [vReduce, ht]

theorem elem_vReduce_other {k : Nat} (hk : 0 < k) : elem t (vReduce op t m a) k = 0 := by
  cases ht : elemFmt t with
  | some f => rw [vReduce_float op m a ht, elem_setWidth_other _ hk]
  | none => rw [vReduce_int op m a ht, elem_setWidth_other _ hk]

/-- R107: a float reduction is the root of its tree of F32 nodes, rounded to the element's format. -/
theorem elem_vReduce_float {f : FloatFmt} (ht : elemFmt t = some f) {y : Nat → Nat → Nat} {n : Nat} (hn : 2 ^ n = t.lanes)
    (hleaf : floatRedLeaves op f t m a = (List.range t.lanes).map (y 0))
    (hnode : ∀ k i, y (k + 1) i = floatRedNode op (y k (2 * i)) (y k (2 * i + 1))) :
    elem t (vReduce op t m a) 0 = BitVec.ofNat t.bits (f.round .rne (FloatFmt.f32.value (y n 0))) := by
  rw [vReduce_float op m a ht, elem_setWidth_zero, hleaf, ← hn, treeReduce_root hnode (lanes_exponent hn)]

theorem elem_vReduce_int (ht : elemFmt t = none) {y : Nat → Nat → BitVec t.bits} {n : Nat} (hn : 2 ^ n = t.lanes)
    (hleaf : ∀ i, y 0 i = intLeaf t m a op i) (hnode : ∀ k i, y (k + 1) i = intRedNode op (y k (2 * i)) (y k (2 * i + 1))) :
    elem t (vReduce op t m a) 0 = y n 0 := by
  rw [vReduce_int op m a ht, elem_setWidth_zero, intRedLeaves_eq, ← funext hleaf, ← hn, treeReduce_root hnode (lanes_exponent hn)]

theorem elem_vReduce_sum (ht : elemFmt t = none) : elem t (vReduce .sum t m a) 0 = wrappedSum t m a t.lanes := by
  obtain ⟨n, hn⟩ := lanes_pow t
  rw [elem_vReduce_int .sum m a ht hn (sumNode_zero t m a) (sumNode_succ t m a), sumNode, Nat.zero_add, Nat.one_mul, Nat.zero_mul, hn]
  exact sub_zero _

/-- R106: the pick of the active elements, or the identity where there is none. -/
theorem elem_vReduce_picks (ht : elemFmt t = none) {R : BitVec t.bits → BitVec t.bits → Prop} (hR : Picks op R) :
    (∀ k < t.lanes, maskBit m t.bytes k = true → R (elem t a k) (elem t (vReduce op t m a) 0)) ∧
    ((∃ k < t.lanes, maskBit m t.bytes k = true ∧ elem t (vReduce op t m a) 0 = elem t a k) ∨
      ((∀ k < t.lanes, maskBit m t.bytes k = false) ∧ elem t (vReduce op t m a) 0 = BitVec.ofInt t.bits (op.intId t.bits))) := by
  obtain ⟨n, hn⟩ := lanes_pow t
  rw [elem_vReduce_int op m a ht hn (y := treeNode (intRedNode op) (intLeaf t m a op)) (fun _ => rfl) fun _ _ => rfl]
  obtain ⟨⟨j, hj, hroot⟩, hall⟩ := treeNode_picks hR (intLeaf t m a op) n 0
  have under (k : Nat) : k / 2 ^ n = 0 ↔ k < t.lanes := by rw [Nat.div_eq_zero_iff_lt (by positivity), hn]
  have hactive : ∀ k < t.lanes, maskBit m t.bytes k = true → R (elem t a k) (treeNode (intRedNode op) (intLeaf t m a op) n 0) := by
    intro k hk hact
    simpa [intLeaf, hact] using hall k ((under k).2 hk)
  refine ⟨hactive, ?_⟩
  by_cases hsome : ∃ k < t.lanes, maskBit m t.bytes k = true
  · left
    by_cases hjact : maskBit m t.bytes j = true
    · exact ⟨j, (under j).1 hj, hjact, by rw [hroot, intLeaf, if_pos hjact]⟩
    · obtain ⟨k, hk, hact⟩ := hsome
      refine ⟨k, hk, hact, hR.antisymm _ _ ?_ (hactive k hk hact)⟩
      rw [hroot, intLeaf, if_neg hjact]
      exact hR.least _
  · have hnone : ∀ k < t.lanes, maskBit m t.bytes k = false := by simpa using hsome
    exact .inr ⟨hnone, by rw [hroot, intLeaf, if_neg (by rw [hnone j ((under j).1 hj)]; decide)]⟩

end

/-! ### What the scan leaves (R108) -/

section
variable {t : ElemTy} (m : Mask) (a : Vec)

theorem bits_mul_lanes (t : ElemTy) : t.bits * t.lanes ≤ 2048 := by cases t <;> decide

theorem elem_vScan_float {f : FloatFmt} (ht : elemFmt t = some f) {y : Nat → Nat → Nat} {n : Nat} (hn : 2 ^ n = t.lanes)
    (hleaf : floatRedLeaves .sum f t m a = (List.range t.lanes).map (y 0))
    (hnode : ∀ k i, y (k + 1) i = if i < 2 ^ k then y k i else floatRedNode .sum (y k (i - 2 ^ k)) (y k i)) {i : Nat} (hi : i < t.lanes) :
    elem t (vScan t m a) i = BitVec.ofNat t.bits (f.round .rne (FloatFmt.f32.value (y n i))) := by
  simp only [vScan, ht]
  rw [elem, lane_ofLanes _ _ _ i hi (bits_mul_lanes t), hleaf, scanSteps_getD hnode hn.ge (lanes_exponent hn) hi]

theorem elem_vScan_int (ht : elemFmt t = none) {i : Nat} (hi : i < t.lanes) : elem t (vScan t m a) i = wrappedSum t m a (i + 1) := by
  obtain ⟨n, hn⟩ := lanes_pow t
  have hsum : windowSum t m a n i = wrappedSum t m a (i + 1) := by
    rw [windowSum, show i + 1 - 2 ^ n = 0 by omega]
    exact sub_zero _
  simp only [vScan, ht]
  rw [elem, lane_ofLanes _ _ _ i hi (bits_mul_lanes t), intRedLeaves_eq, ← funext (windowSum_zero t m a),
    scanSteps_getD (windowSum_succ t m a) hn.ge (lanes_exponent hn) hi, hsum]

end

/-! ### Conversions (R109) -/

theorem convDstBits_le (cv : Conv) : convDstBits cv * 64 ≤ 2048 := by cases cv <;> decide

/-- Above its last lane a vector built from lanes is zero. -/
theorem getLsbD_ofLanes_above {w n j : Nat} (f : Nat → BitVec w) (hj : w * n ≤ j) : (ofLanes w n f).getLsbD j = false := by
  simp [ofLanes, BitVec.getLsbD_ofNat, testBit_lanesNat, Nat.not_lt.2 hj, -BitVec.getLsbD_eq_getElem]

/-- Settles O37: the trees by the places of their nodes, the scan by the places of its steps, and the conversion lane by lane. -/
theorem vectorReductionsAndConversions : Obligations.VectorReductionsAndConversions := by
  intro s h m d a t cv r g act x sumTo toF32 val word ident node leaf
  have hnode (op : RedOp) (u v : Nat) : floatRedNode op u v = toF32 (node op (val u) (val v)) := by cases op <;> rfl
  have hleaf (op : RedOp) (f : FloatFmt) (y : Nat → Nat) (hy : ∀ i, y i = leaf op f i) :
      floatRedLeaves op f t (s.rm m) (s.rv a) = (List.range t.lanes).map y := by
    rw [funext hy]
    cases op <;> rfl
  have hbits : 0 < t.bits := by cases t <;> decide
  refine ⟨fun op => ?reduction, setV_writes g (exec_vscan ..) ⟨fun f y n ht hn h0 hs i hi => ?scanFloat, fun ht i hi => ?scanInt⟩,
    setV_writes g (exec_vcvt ..) ⟨fun k hk => ?lanes, fun j hj => ?above⟩⟩
  case reduction =>
    have hword : exec (word op) s = setV h d (fun s _ => vReduce op t (s.rm m) (s.rv a)) s := by cases op <;> rfl
    refine setV_writes g hword ⟨fun k hk _ => elem_vReduce_other op _ _ hk, fun f y n ht hn h0 hs => ?float,
      fun ht => ⟨?added, ?greatest, ?smallest⟩⟩
    case float => exact elem_vReduce_float op _ _ ht hn (hleaf op f _ h0) fun k i => (hs k i).trans (hnode op _ _).symm
    case added => rintro rfl; exact elem_vReduce_sum _ _ ht
    case greatest =>
      rintro rfl
      obtain ⟨hall, hone⟩ := elem_vReduce_picks .max (s.rm m) (s.rv a) ht (picks_max hbits)
      exact ⟨hall, hone.imp_right fun ⟨hnone, hid⟩ => ⟨hnone, by rw [hid, toInt_intId_max hbits]⟩⟩
    case smallest =>
      rintro rfl
      obtain ⟨hall, hone⟩ := elem_vReduce_picks .min (s.rm m) (s.rv a) ht (picks_min hbits)
      exact ⟨hall, hone.imp_right fun ⟨hnone, hid⟩ => ⟨hnone, by rw [hid, toInt_intId_min hbits]⟩⟩
  case scanFloat =>
    refine elem_vScan_float _ _ ht hn (hleaf .sum f _ h0) (fun k i => ?_) hi
    rw [hs k i, hnode]
  case scanInt => exact elem_vScan_int _ _ ht hi
  case lanes => exact lane_ofLanes _ _ _ k hk (convDstBits_le cv)
  case above => exact getLsbD_ofLanes_above _ (by rwa [Nat.mul_comm])

end Sys2Proof.Machine
end

section
/-! PROOFS. The matrix words and the quantiser words at issue (R112 to R115, R175 to R193). -/

namespace Sys2Proof.Machine

/-! ### Words on accumulators (R175, R190 to R193) -/

section
variable {s : State} {h : Head} (g : s.rp h.g = true)
include g

theorem exec_mzero_clears {d : BitVec 4} (hw : writeWaits s.olderCtx d = false) : exec (.mzero h d) s = .next (s.wrA d accCleared) := by
  rw [exec_mzero, execMzero, guarded_true _ g, if_neg (ne_true_of_eq_false hw)]

theorem exec_mwrite_writes {d : BitVec 4} (hw : writeWaits s.olderCtx d = false) (x : BitVec 5) (b : BitVec 2) :
    exec (.mwrite h d x b) s = .next (s.wrA d (writeRows (s.ctx.regs.getA d) (s.rv x) b.toNat)) := by
  rw [exec_mwrite, execMwrite, guarded_true _ g, if_neg (ne_true_of_eq_false hw)]

theorem exec_mread_reads {a : BitVec 4} (hw : readWaits s.olderCtx a = false) (y : BitVec 5) (b : BitVec 2) :
    exec (.mread h y a b) s = .next (s.wrV y (readRows (s.ra a) b.toNat)) := by
  rw [exec_mread, execMread, guarded_true _ g, if_neg (ne_true_of_eq_false hw)]

theorem exec_msmax_steps {e : BitVec 3} (he : writeWaits s.olderCtx (e ++ 0#1) = false) (ho : writeWaits s.olderCtx (e ++ 1#1) = false) :
    exec (.msmax h e) s = .next ((s.wrA (e ++ 0#1) (softmax (s.ra (e ++ 0#1)) (s.ra (e ++ 1#1))).1).wrA (e ++ 1#1)
      (softmax (s.ra (e ++ 0#1)) (s.ra (e ++ 1#1))).2) := by
  simp only [exec_msmax, execMsmax, guarded_true _ g, he, ho, Bool.or_self, Bool.false_eq_true, if_false]

end

theorem writeRows_sides (v : Acc) (w : Vec) (b : Nat) : (writeRows v w b).max = v.max ∧ (writeRows v w b).sum = v.sum := by
  unfold writeRows
  exact ⟨rfl, rfl⟩

theorem writeRows_elems (v : Acc) (w : Vec) (b : Nat) (j : Fin 256) : (writeRows v w b).elems[j] =
    if j.val / 64 = b then accOfF32 (lane 32 w (j.val % 64)).toNat else v.elems[j] := by
  simp [writeRows]

theorem mmaResult_sides (s : State) (c : Fin 512) (k : MmaTy) (v : Acc) (l : List (List Byte × List Byte)) :
    (mmaResult s c k v l).max = v.max ∧ (mmaResult s c k v l).sum = v.sum := by
  unfold mmaResult mmaSum
  exact ⟨rfl, rfl⟩

/-- R185: each element is one exact sum, rounded once. -/
theorem mmaResult_elems (s : State) (c : Fin 512) (k : MmaTy) (v : Acc) (l : List (List Byte × List Byte)) (j : Fin 256) :
    (mmaResult s c k v l).elems[j] = BitVec.ofNat 48 (FloatFmt.e8m39.round .rne (exactSum (FloatFmt.e8m39.value v.elems[j].toNat ::
      l.flatMap fun z => (List.range 16).map fun i => (tileValue s c k z.1 (j.val / 16) i).mul (tileValue s c k z.2 i (j.val % 16))))) := by
  simp [mmaResult, mmaSum]

/-! ### Images of accumulators (R188, R189) -/

/-- An access that ends within general use passes its local check. -/
theorem localCheck_general {a n : Nat} (hn : 0 < n) (hroom : a + n ≤ 0x78000) (s : State) (c : Fin 512) (fw : Bool) (i : Intent) :
    localCheck s c fw a n i = .ok (.tm a) :=
  localCheck_row ((rowOf_general a).2 (by omega)) ((rowOf_general _).2 (by omega)) (by simp)

theorem imageBytes_pos (raw : Bool) : 0 < imageBytes raw := by cases raw <;> decide

section
variable {s : State} {h : Head} {ea : Word} {raw : Bool} (hal : ea.toNat % 64 = 0) (hroom : ea.toNat + imageBytes raw ≤ 0x78000)
include hal hroom

theorem imageBlock_passes (i : Intent) (f : Nat → Out) : imageBlock s ea raw i f = f ea.toNat := by
  have hrow : rowOf ea.toNat = .general := (rowOf_general _).2 (by have := imageBytes_pos raw; omega)
  simp only [imageBlock, hal, localCheck_general (imageBytes_pos raw) hroom, hrow, ne_eq, not_true_eq_false, if_false, if_true]

end

section
variable {s : State} {h : Head} (g : s.rp h.g = true) {raw : Bool} {x : BitVec 5} (hal : (s.rs x).toNat % 64 = 0)
  (hroom : (s.rs x).toNat + imageBytes raw ≤ 0x78000)
include g hal hroom

theorem joins_issueMld {d : BitVec 4} (hw : writeWaits s.olderCtx d = false)
    (hrec : recordMeets s (.tm (s.rs x).toNat) (imageBytes raw) = false) (hcap : captureFull s = false) :
    Joins s (issueMld raw h d x s) (newEnt s (.mld d raw) true false (s.rs x) (piecesOf (.tm (s.rs x).toNat) (imageBytes raw))) := by
  simp only [issueMld, guarded_true _ g, imageBlock_passes hal hroom, hw, hrec, hcap, Bool.or_self, Bool.false_eq_true, if_false]
  exact joins_pushEnt rfl rfl

theorem joins_issueMst {a : BitVec 4} (hw : readWaits s.olderCtx a = false)
    (hguard : guardStalls s (.tm (s.rs x).toNat) (imageBytes raw) = false) :
    Joins s (issueMst raw h x a s) { newEnt s .mst false true (s.rs x) (piecesOf (.tm (s.rs x).toNat) (imageBytes raw)) with
      data := if raw then rawImage (s.ra a) else f32Image (s.ra a) } := by
  simp only [issueMst, guarded_true _ g, imageBlock_passes hal hroom, hw, hguard, Bool.or_self, Bool.false_eq_true, if_false]
  exact joins_pushEnt rfl rfl

end

/-! ### Quantisers at issue (R114, R115, R195) -/

section
variable (c : Core) (owner : Nat) (fw : Bool)

@[simp] theorem takeGuard_ctx (who : Bool) (rs : List (Nat × Nat × Bool)) : (takeGuard c owner who rs).ctx fw = c.ctx fw := by
  cases fw <;> rfl

@[simp] theorem dropGuard_ctx : (dropGuard c owner).ctx fw = c.ctx fw := by cases fw <;> rfl

@[simp] theorem setCtx_guard (x : Ctx) : (c.setCtx fw x).guard = c.guard := by cases fw <;> rfl

end

/-- The record that a quantiser in hand is to write. -/
def newQuant (s : State) (f : QFmt) (t : BitVec 3) (vs : List Vec) (acc : Option (BitVec 4)) (ea : Nat) : Quant :=
  ⟨s.serial, s.clk, f, t, vs, acc, ea, false, 0, s.ctx.pc, s.word, s.iword⟩

/-- A quantiser has joined those of the acting context, and its record is held in the guard. -/
def quantTaken (s : State) (q : Quant) : State :=
  { s.setCur (takeGuard (s.cur.setCtx s.fw { s.ctx with quants := s.ctx.quants ++ [q] }) s.serial s.fw
      [(tmAddr s.core q.addr, (qRecFmt q.fmt).size, true)]) with serial := s.serial + 1 }

section
variable (s : State) (q : Quant)

theorem quantTaken_cur : (quantTaken s q).cur = takeGuard (s.cur.setCtx s.fw { s.ctx with quants := s.ctx.quants ++ [q] }) s.serial s.fw
    [(tmAddr s.core q.addr, (qRecFmt q.fmt).size, true)] :=
  setCur_cur s _

theorem quantTaken_ctx : (quantTaken s q).ctx = { s.ctx with quants := s.ctx.quants ++ [q] } := by
  rw [State.ctx, quantTaken_cur, takeGuard_ctx]
  exact core_setCtx_ctx ..

theorem quantTaken_guard : (quantTaken s q).cur.guard = s.cur.guard ++ [⟨s.serial, s.fw, tmAddr s.core q.addr, (qRecFmt q.fmt).size, true⟩] := by
  rw [quantTaken_cur, takeGuard, setCtx_guard]
  rfl

theorem quantTaken_frame : SameMemory s (quantTaken s q) ∧ SameOtherCores s (quantTaken s q) :=
  ⟨⟨fun _ => rfl, rfl⟩, fun c hc => setCur_other s _ c hc.symm⟩

end

/-- A quantiser whose checks pass and whose accumulator, if it reads one, waits for nothing. -/
theorem issueQuant_takes {s : State} {ea : Word} {f : QFmt} {t : BitVec 3} {acc : Option (BitVec 4)} (hal : ea.toNat % 16 = 0)
    (hroom : ea.toNat + (qRecFmt f).size ≤ 0x78000) (htab : tableValid s s.core t.toNat = true) (hacq : acqWaits s = false)
    (hcap : captureFull s = false) (hguard : guardOk s.cur [(tmAddr s.core ea.toNat, (qRecFmt f).size, true)] = true)
    (hbusy : ∀ a, acc = some a → readWaits s.olderCtx a = false) (vs : List Vec) :
    issueQuant s ea f t vs acc = .next (quantTaken s (newQuant s f t vs acc ea.toNat)) := by
  have hsize : 0 < (qRecFmt f).size := by cases f <;> decide
  have hrow : rowOf ea.toNat = .general := (rowOf_general _).2 (by omega)
  cases acc with
  | none =>
    simp only [issueQuant, hal, localCheck_general hsize hroom, hrow, htab, hacq, hcap, hguard, ne_eq, not_true_eq_false, Bool.not_true,
      Bool.or_self, Bool.false_eq_true, if_false]
    rfl
  | some a =>
    simp only [issueQuant, hal, localCheck_general hsize hroom, hrow, htab, hacq, hcap, hguard, hbusy a rfl, ne_eq, not_true_eq_false,
      Bool.not_true, Bool.or_self, Bool.false_eq_true, if_false]
    rfl

/-! ### MMA at issue (R182, R184, R185) -/

/-- The operands that a descriptor form reads. -/
def descArgs (s : State) (remote : Bool) (d a b : BitVec 4) (k : MmaTy) : MmaArgs :=
  ⟨d, remote, k, s.rs (a ++ 0#1), s.rs (a ++ 1#1), s.rs (b ++ 0#1), s.rs (b ++ 1#1)⟩

section
variable {s : State} {h : Head} (g : s.rp h.g = true)
include g

theorem issueMma_starts {remote : Bool} {d a b : BitVec 4} {k : MmaTy} (hrun : matrixRun s.olderCtx = false) (hacq : acqWaits s = false)
    (hfault : mmaFault s s.core s.fw (descArgs s remote d a b k) = none)
    (hwait : mmaWaits s s.core s.fw (descArgs s remote d a b k) = false) :
    issueMma remote h d a b k s = .next (startMma s s.core s.fw false (descArgs s remote d a b k)) := by
  simp only [descArgs] at hfault hwait
  simp only [issueMma, guarded_true _ g, hfault, hrun, hacq, hwait, Bool.or_self, Bool.false_eq_true, if_false, descArgs]

theorem exec_mmaReg_eq {d : BitVec 4} (hacq : acqWaits s = false) (hw : writeWaits s.olderCtx d = false) (e f : BitVec 3) (k : MmaTy) :
    let steps := groupSteps k (groupBytes s.src e) (groupBytes s.src f)
    let ws := steps.map fun z => stepWeight k z.1 z.2
    exec (.mmaReg h d e f k) s = if rampAllows s.cur ws then
        .next ((rampStart s s.core s.fw ws).wrA d (mmaResult s s.core k (s.ra d) steps))
      else .next { rampWaits s s.core with mark := .stall } := by
  intro steps ws
  rw [exec_mmaReg, execMmaReg, guarded_true _ g]
  simp only [hacq, hw, Bool.or_self, Bool.false_eq_true, if_false]
  cases rampAllows s.cur ws <;> rfl

end

/-- The run joins those of its context, whose registers stand. -/
theorem startMma_ctx (s : State) (m : MmaArgs) : ((startMma s s.core s.fw false m).ctx) = { s.ctx with mmas := s.ctx.mmas ++
    [⟨s.serial, m.acc, false, m.remote, m.ty, m.aBase, m.aCtl, m.bBase, m.bCtl, 0, [], [], .waiting, none, [], [], s.clk, false, s.ctx.pc,
      s.word, s.iword⟩] } := by
  have hcur : (startMma s s.core s.fw false m).cur = _ := putCore_same s s.core _
  rw [State.ctx, hcur, takeGuard_ctx]
  exact core_setCtx_ctx ..

end Sys2Proof.Machine
end

section
/-! PROOFS. The events of the matrix unit and of the quantisers (R114, R115, R176, R183 to R185, R265). -/

namespace Sys2Proof.Machine

/-! ### The record of a quantiser, write by write (R114, R115) -/

section
variable (s : State) (c : Fin 512) (fw : Bool)

theorem modQuants_quants (f : List Quant → List Quant) : ((modQuants s c fw f).cores[c].ctx fw).quants = f (s.cores[c].ctx fw).quants := by
  simp [modQuants]

/-- Writes of memory leave every core as it is. -/
theorem foldl_store_cores (base : Nat) (ws : List (Nat × List Byte)) :
    (ws.foldl (fun s (x : Nat × List Byte) => s.store (tmAddr c (base + x.1)) x.2) s).cores = s.cores :=
  Untold.foldl (g := fun s x => s.store (tmAddr c (base + x.1)) x.2) (fun _ _ => rfl) ws s

variable {s c fw} {q : Quant} {rest : List Quant} (hq : (s.cores[c].ctx fw).quants = q :: rest)

section
include hq

theorem quantStep_header (hh : q.headed = false) : ((quantStep s c fw q).cores[c].ctx fw).quants.head? = some { q with headed := true } := by
  simp only [quantStep, hh, Bool.not_false, if_true, modQuants_quants, foldl_store_cores, hq, List.map_cons, List.head?_cons]

theorem quantStep_block (hh : q.headed = true) (hpix : q.pix < 8) :
    ((quantStep s c fw q).cores[c].ctx fw).quants.head? = some { q with pix := q.pix + 1 } := by
  simp only [quantStep, hh, hpix, Bool.not_true, Bool.false_eq_true, if_false, if_true, modQuants_quants, foldl_store_cores, hq, List.map_cons,
    List.head?_cons]

end

theorem quantStep_leaves (hh : q.headed = true) (hpix : 8 ≤ q.pix) :
    (∀ z ∈ ((quantStep s c fw q).cores[c].ctx fw).quants, z.id ≠ q.id) ∧ ∀ g ∈ (quantStep s c fw q).cores[c].guard, g.owner ≠ q.id := by
  simp only [quantStep, hh, Nat.not_lt.2 hpix, Bool.not_true, Bool.false_eq_true, if_false, Fin.getElem_fin, putCore_same, dropGuard_ctx]
  refine ⟨fun z hz => ?_, fun e he => ?_⟩
  · have hz' := modQuants_quants s c fw (fun l => l.filter fun r => r.id != q.id) ▸ hz
    simpa using (List.mem_filter.1 hz').2
  · simpa using (List.mem_filter.1 he).2

/-- The oldest quantiser goes on once the earlier stores and loads of its record are done. -/
theorem exec_quantBlockWritten_step (hq : (s.cores[c].ctx fw).quants = q :: rest)
    (hst : olderStores s c fw q.id q.addr (qRecFmt q.fmt).size = false)
    (hld : loadsMeet s c fw q.id (2 ^ 80 + tmAddr c q.addr) (qRecFmt q.fmt).size = false) :
    exec (.quantBlockWritten c fw) s = .next (quantStep s c fw q) := by
  rw [exec_quantBlockWritten, execQuantBlockWritten, hq]
  exact if_neg (by rw [hst, hld]; decide)

theorem exec_quantBlockWritten_idle (hq : (s.cores[c].ctx fw).quants = []) : exec (.quantBlockWritten c fw) s = .next s := by
  rw [exec_quantBlockWritten, execQuantBlockWritten, hq]

end

/-! ### The runs of a context (R176, R184) -/

/-- The runs of a core's context. -/
def mmasOf (c : Fin 512) (fw : Bool) (s : State) : List MmaRun := (s.cores[c].ctx fw).mmas

section
variable {s : State} {c : Fin 512} {fw : Bool}

theorem modMmas_mmas (s : State) (f : List MmaRun → List MmaRun) : mmasOf c fw (modMmas s c fw f) = f (mmasOf c fw s) := by
  simp [mmasOf, modMmas]

theorem putMma_mmas (s : State) (r : MmaRun) : mmasOf c fw (putMma s c fw r) = (mmasOf c fw s).map fun q => if q.id = r.id then r else q :=
  modMmas_mmas s _

/-- A run with both tiles of its step, at its next step. -/
def MmaRun.fetched (run : MmaRun) (ta tb : List Byte) : MmaRun :=
  { run with aTiles := run.aTiles ++ [ta], bTiles := run.bTiles ++ [tb], pix := run.pix + 1, bStage := .waiting, tile := none, parts := [],
             got := [] }

/-- R184: a run that takes its B tile is replaced as fetched. The guard that it may drop is not the runs'. -/
theorem mmaGot_mmas {run : MmaRun} {ta : List Byte} (tb : List Byte) (ht : run.tile = some ta) :
    mmasOf c fw (mmaGot s c fw run tb) = (mmasOf c fw s).map fun q => if q.id = run.id then run.fetched ta tb else q := by
  simp only [mmaGot, ht]
  split
  · rw [mmasOf, Fin.getElem_fin, putCore_same, dropGuard_ctx]
    exact putMma_mmas s _
  · exact putMma_mmas s _

/-- Every run of a number is at a step. -/
def StepsAt (c : Fin 512) (fw : Bool) (run : MmaRun) (s : State) : Prop := ∀ z ∈ mmasOf c fw s, z.id = run.id → z.pix = run.pix

theorem StepsAt.of_eq {t : State} {run : MmaRun} (h : StepsAt c fw run s) (he : mmasOf c fw t = mmasOf c fw s) : StepsAt c fw run t := by
  rwa [StepsAt, he]

/-- A run that is put replaces every run of its number. -/
theorem stepsAt_putMma {run r : MmaRun} (s : State) (hid : r.id = run.id) (hpix : r.pix = run.pix) : StepsAt c fw run (putMma s c fw r) := by
  intro z hz hzid
  rw [putMma_mmas, List.mem_map] at hz
  obtain ⟨q, -, rfl⟩ := hz
  by_cases hq : q.id = r.id
  · rw [if_pos hq]; exact hpix
  · rw [if_neg hq] at hzid; exact absurd (hzid.trans hid.symm) hq

end

/-! ### What the start of a fetch leaves alone (R183, R306, R310, R333) -/

/-- A part of the state that nothing told to firmware, to the host's log or to a slice changes. -/
structure Unlogged {α : Type} (f : State → α) : Prop extends Untold f where
  withPf : ∀ (s : State) x, f { s with pf := x } = f s

namespace Unlogged
variable {α : Type} {f : State → α} (u : Unlogged f)
include u

theorem pfRaise (s : State) (v : Fin 8) : f (pfRaise s v) = f s := by
  simp only [Machine.pfRaise]
  split
  · exact u.withPf s _
  · exact u.withHub s _

theorem logRecord (s : State) (r : FaultRec) : f (logRecord s r) = f s := by
  unfold Machine.logRecord
  split_ifs
  · exact (u.pfRaise _ _).trans ((u.withPf _ _).trans (u.store _ _ _))
  · exact u.withPf s _
  · rfl
  · exact u.withPf s _

theorem fillSlice (s : State) (d i : Fin 4) (l2 : Bool) (t : TlbEnt) : f (fillSlice s d i l2 t) = f s := u.putDie _ _ _

theorem translateUnit (s : State) (p : Fin 16) (va : Word) (write : Bool) : f (translateUnit s p va write).1 = f s := by
  have hit (e : Prop) [Decidable e] (t : State) (pa : Nat) : f (if e then (t, Res.ok pa) else (t, .fail .leaseOut)).1 = f t := by
    split <;> rfl
  simp only [Machine.translateUnit]
  split
  · rfl
  · split
    · exact hit _ _ _
    · split
      · exact (hit _ _ _).trans (u.fillSlice _ _ _ _ _)
      · split
        · exact (hit _ _ _).trans (u.fillSlice _ _ _ _ _)
        · split
          · exact (hit _ _ _).trans (u.fillSlice _ _ _ _ _)
          · unfold reportAbsent tell
            dsimp only
            split
            · rfl
            · exact (u.deliver _ _ _).trans (u.putDie _ _ _)
          · exact (u.logRecord _ _).trans (u.deliver _ _ _)
          · rfl

theorem translate (s : State) (fw : Bool) (p : Option (Fin 16)) (va : Word) (write : Bool) : f (translate s fw p va write).1 = f s := by
  unfold Machine.translate
  split
  · split <;> rfl
  · split
    · exact u.translateUnit _ _ _ _
    · rfl

theorem translatePin (s : State) (fw : Bool) (p : Option (Fin 16)) (va : Word) (write : Bool) : f (translatePin s fw p va write).1 = f s := by
  have htr := u.translate s fw p va write
  unfold Machine.translatePin
  split
  next h =>
    rw [h] at htr
    split
    next hpin =>
      refine Eq.trans ?_ htr
      simp only [pinVa] at hpin
      split at hpin
      · split_ifs at hpin
        cases hpin
        exact u.fillSlice _ _ _ _ _
      · cases hpin; rfl
    next => exact htr
  next => exact htr

theorem xlateParts (c : Fin 512) (fw write : Bool) (ps : List Piece) (s : State) : f (xlateParts s c fw write ps).1 = f s := by
  induction ps generalizing s with
  | nil => rfl
  | cons p ps ih =>
    have rest (t : State) (p : Piece) : f (match Machine.xlateParts t c fw write ps with
        | (s, .ok l) => (s, .ok (p :: l))
        | r => r : State × Except (Option (Cause × Word)) (List Piece)).1 = f t := by
      rw [← ih t]
      split
      next h => rw [h]
      next => rfl
    simp only [Machine.xlateParts]
    split
    next va _ =>
      have htr := u.translatePin s fw (s.partOf c) va write
      split
      · rfl
      · split
        · rfl
        · split
          · exact rest s p
          · split
            next h => rw [h] at htr; exact (rest _ _).trans htr
            next h => rw [h] at htr; exact htr
            next h => rw [h] at htr; exact htr
    next => exact rest s p

theorem crossParts {s t : State} {c : Fin 512} {fw : Bool} {ps : List Piece} (h : crossParts s c fw ps = some t) : f t = f s := by
  simp only [Machine.crossParts] at h
  split_ifs at h
  · cases h; rfl
  · cases h
    refine Untold.foldl (fun v k => ?_) _ _
    unfold sealCross
    split
    · exact u.useAll _ _ _
    · rfl

end Unlogged

theorem unlogged_mmas (c : Fin 512) (fw : Bool) : Unlogged (mmasOf c fw) := by
  refine { store := fun _ _ _ => rfl, putDie := fun _ _ _ => rfl, putPart := fun _ _ _ => rfl, withHub := fun _ _ => rfl,
           withFabric := fun _ _ => rfl, withPf := fun _ _ => rfl, hold := fun s d l => ?_ }
  simp only [mmasOf, State.putCore, vput_get]
  split_ifs with h
  · subst h; cases fw <;> rfl
  · rfl

/-! ### The start of a fetch (R183, R184) -/

section
variable {s : State} {c : Fin 512} {fw : Bool} {run : MmaRun}

theorem stepsAt_mmaAsk (h : StepsAt c fw run s) (parts : List Piece) (got : List Byte) : StepsAt c fw run (mmaAsk s c fw run parts got) := by
  unfold mmaAsk
  split
  next => exact stepsAt_putMma _ rfl rfl
  next => exact h

theorem stepsAt_mmaFail (s : State) (k : Cause) : StepsAt c fw run (mmaFail s c fw run k) := stepsAt_putMma s rfl rfl

/-- Asking for a tile does not take it: the run stays at its step. -/
theorem stepsAt_mmaStart (h : StepsAt c fw run s) : StepsAt c fw run (mmaStart s c fw run) := by
  have hx (parts : List Piece) := (unlogged_mmas c fw).xlateParts c fw false parts s
  simp only [mmaStart]
  split
  · generalize hverdict : (if fw = true then fwCheck s _ _ else globalVerdict s c fw _ _ false) = verdict
    cases verdict with
    | some k => exact stepsAt_mmaFail s k
    | none =>
      dsimp only
      split
      · exact stepsAt_putMma _ rfl rfl
      · split
        next hparts => exact stepsAt_mmaAsk (h.of_eq (by rw [← hx, hparts])) _ _
        next => exact stepsAt_mmaFail _ _
        next hparts => exact h.of_eq (by rw [← hx, hparts])
  · split
    · exact stepsAt_mmaFail s _
    · split
      · exact stepsAt_mmaAsk h _ _
      · exact stepsAt_mmaAsk h _ _

end

/-! ### The fetch of a tile, step by step (R184, R265) -/

section
variable {s : State} {c : Fin 512} {fw : Bool} {run : MmaRun}

/-- A tile of a local operand, all of it read, is taken. -/
theorem mmaTurn_local (hst : run.bStage = .waiting) (hgot : run.got ≠ []) (hloc : run.operand.2.2 = false)
    (hrec : run.ty ≠ .recd ∨ run.got.length ≠ 16) : mmaTurn s c fw run = mmaGot s c fw run run.got := by
  have hno : ¬(run.ty = .recd ∧ run.got.length = 16) := by tauto
  simp only [mmaTurn, hst, mmaEnd, hloc, List.isEmpty_eq_false_iff.2 hgot, Bool.false_eq_true, if_false, if_neg hno]

/-- A tile of a remote operand that has come back and passes its check is taken. -/
theorem mmaTurn_remote {bs tb : List Byte} (hst : run.bStage = .returned bs) (hrem : run.operand.2.2 = true)
    (hok : remoteTile s c run.ty run.operand.2.1 bs = .ok tb) : mmaTurn s c fw run = mmaGot s c fw run tb := by
  simp only [mmaTurn, hst, mmaEnd, hrem, if_true, hok]

theorem mmaTurn_start (hst : run.bStage = .waiting) (hgot : run.got = []) : mmaTurn s c fw run = mmaStart s c fw run := by
  simp only [mmaTurn, hst, hgot, List.isEmpty_nil, if_true]

theorem exec_mmaTileFetch_idle (hf : fetchingMma (s.cores[c].ctx fw) = none) : exec (.mmaTileFetch c fw) s = .next s := by
  simp only [exec_mmaTileFetch, execMmaTileFetch, hf]

variable (hf : fetchingMma (s.cores[c].ctx fw) = some run)
include hf

theorem exec_mmaTileFetch_part (hparts : run.parts ≠ []) : exec (.mmaTileFetch c fw) s = .next (runOwn s c (tileReqs s c fw)) := by
  simp only [exec_mmaTileFetch, execMmaTileFetch, hf, List.isEmpty_eq_false_iff.2 hparts, Bool.not_false, if_true]

variable (hparts : run.parts = [])
include hparts

/-- A turn that does not end a step is all that happens. -/
theorem exec_mmaTileFetch_within (hstep : StepsAt c fw run (mmaTurn s c fw run)) :
    exec (.mmaTileFetch c fw) s = .next (mmaTurn s c fw run) := by
  have hnone : ((mmaTurn s c fw run).cores[c].ctx fw).mmas.find? (fun q => q.id == run.id && q.pix == run.pix + 1) = none := by
    refine List.find?_eq_none.2 fun z hz hp => ?_
    obtain ⟨hid, hpix⟩ : z.id = run.id ∧ z.pix = run.pix + 1 := by simpa using hp
    exact absurd (hstep z hz hid) (by omega)
  simp only [exec_mmaTileFetch, execMmaTileFetch, hf, hparts, List.isEmpty_nil, Bool.not_true, Bool.false_eq_true, if_false, hnone]

/-- A turn that ends a step stands only where the step may start within the ramp's cap. -/
theorem exec_mmaTileFetch_step {ta tb : List Byte} (htile : run.tile = some ta) (hturn : mmaTurn s c fw run = mmaGot s c fw run tb) :
    exec (.mmaTileFetch c fw) s = .next (if rampAllows s.cores[c] [stepWeight run.ty ta tb] then
      rampStart (mmaGot s c fw run tb) c fw [stepWeight run.ty ta tb] else rampWaits s c) := by
  have hmem : run ∈ mmasOf c fw s := List.mem_of_find?_eq_some hf
  obtain ⟨q, hq⟩ : ∃ q, (mmasOf c fw (mmaGot s c fw run tb)).find? (fun q => q.id == run.id && q.pix == run.pix + 1) = some q := by
    rw [← Option.isSome_iff_exists, List.find?_isSome, mmaGot_mmas tb htile]
    exact ⟨_, List.mem_map_of_mem hmem, by simp [MmaRun.fetched]⟩
  have hlast : stepWeight run.ty (q.aTiles.getLastD []) (q.bTiles.getLastD []) = stepWeight run.ty ta tb := by
    have hfound := List.find?_some hq
    have hput := List.mem_of_find?_eq_some hq
    rw [mmaGot_mmas tb htile, List.mem_map] at hput
    obtain ⟨z, -, rfl⟩ := hput
    by_cases hz : z.id = run.id
    · rw [if_pos hz, MmaRun.fetched, List.getLastD_concat, List.getLastD_concat]
    · simp [hz] at hfound
  rw [mmasOf] at hq
  simp only [exec_mmaTileFetch, execMmaTileFetch, hf, hparts, List.isEmpty_nil, Bool.not_true, Bool.false_eq_true, if_false, hturn, hq, hlast]

end

/-! ### The sum of a run (R57, R149, R185) -/

section
variable {s : State} {c : Fin 512} {fw : Bool}

theorem exec_mmaAccumulate_idle (hf : readyMma (s.cores[c].ctx fw) = none) : exec (.mmaAccumulate c fw) s = .next s := by
  simp only [exec_mmaAccumulate, execMmaAccumulate, hf]

theorem exec_mmaAccumulate_writes {run : MmaRun} (hf : readyMma (s.cores[c].ctx fw) = some run) :
    exec (.mmaAccumulate c fw) s = .next (mmaFinish s c fw run) := by
  simp only [exec_mmaAccumulate, execMmaAccumulate, hf]

theorem modMmas_regs (s : State) (f : List MmaRun → List MmaRun) :
    ((modMmas s c fw f).cores[c].ctx fw).regs = (s.cores[c].ctx fw).regs := by
  simp [modMmas]

theorem modRegs_regs (s : State) (f : Regs → Regs) : ((modRegs s c fw f).cores[c].ctx fw).regs = f (s.cores[c].ctx fw).regs := by
  simp [modRegs]

theorem modRegs_mmas (s : State) (f : Regs → Regs) : mmasOf c fw (modRegs s c fw f) = mmasOf c fw s := by
  simp [mmasOf, modRegs]

variable (s) (run : MmaRun)

theorem mmaFinish_memory : SameMemory s (mmaFinish s c fw run) := by
  unfold mmaFinish
  split <;> exact ⟨fun _ => rfl, rfl⟩

theorem mmaFinish_acc : ((mmaFinish s c fw run).cores[c].ctx fw).regs.getA run.acc =
    if run.lost then (s.cores[c].ctx fw).regs.getA run.acc
    else mmaResult s c run.ty ((s.cores[c].ctx fw).regs.getA run.acc) (run.aTiles.zip run.bTiles) := by
  simp only [mmaFinish, modMmas_regs]
  split
  · rfl
  · rw [modRegs_regs, getA_setA, if_pos rfl]

theorem mmaFinish_mmas : mmasOf c fw (mmaFinish s c fw run) = (mmasOf c fw s).filter fun z => z.id != run.id := by
  simp only [mmaFinish, modMmas_mmas]
  split
  · rfl
  · rw [modRegs_mmas]

end

/-- Settles O51: the words at issue by their checks and waits, the events by what is next to do for the oldest of their kind. -/
theorem matrixWords : Obligations.MatrixWords := by
  intro s h d a b e x y gg t f k q c fw run qu rest ta tb j g ea joins size record args run0 enters steps ws
  have joined {i : Instr} {vs : List Vec} {acc : Option (BitVec 4)}
      (hi : exec i s = .next (quantTaken s (newQuant s q t vs acc ea))) : record i vs acc :=
    ⟨_, hi, quantTaken_ctx _ _, quantTaken_guard _ _, quantTaken_frame _ _⟩
  have entered {i : Instr} {rm : Bool} (hi : exec i s = .next (startMma s s.core s.fw false (args rm))) : enters i rm :=
    ⟨_, hi, ⟨fun _ => rfl, rfl⟩, by rw [startMma_ctx], by rw [startMma_ctx]⟩
  refine ⟨fun hw => ⟨?mzero, ?mwrite⟩, fun hw => ?mread, fun he ho => ?msmax, fun v => ?frame, fun v w => ?rows,
    fun hal hroom hw hrec hcap => ?mldF32, fun hal hroom hw hrec hcap => ?mldRaw, fun hal hroom hw hguard => ?mstF32,
    fun hal hroom hw hguard => ?mstRaw, fun hal hroom htab hacq hcap hguard => ⟨?vqrec, fun hbusy => ?mqnt⟩, fun hq hst hld => ?write,
    fun hq => ?noQuant, fun hrun hacq => ⟨fun hfault hwait => ?desc, fun hfault hwait => ?rmt⟩,
    fun hacq hw => ⟨fun hr => ?groups, fun hr => ?groupsWait⟩, fun v l => ?element, ?localTile, fun bs => ?remoteTile,
    fun hf => ⟨fun hparts => ?part, fun hparts hgot hst hsteps => ?start, fun hparts htile hturn => ?tileA,
      fun hparts htile hturn => ⟨fun hr => ?tileB, fun hr => ?tileWaits⟩⟩, fun hf => ?noFetch, fun hf => ?sum, fun hf => ?noSum⟩
  case mzero => exact exec_mzero_clears g hw
  case mwrite => exact exec_mwrite_writes g hw x gg
  case mread => exact exec_mread_reads g hw y gg
  case msmax => exact exec_msmax_steps g he ho
  case frame => exact ⟨onlyRegs_setRegs s _, otherRegs_wrA s d v⟩
  case rows =>
    obtain ⟨hmax, hsum⟩ := writeRows_sides v w gg.toNat
    exact ⟨hmax, hsum, writeRows_elems v w gg.toNat j⟩
  case mldF32 => exact joins_issueMld g (raw := false) hal hroom hw hrec hcap
  case mldRaw => exact joins_issueMld g (raw := true) hal hroom hw hrec hcap
  case mstF32 => exact joins_issueMst g (raw := false) hal hroom hw hguard
  case mstRaw => exact joins_issueMst g (raw := true) hal hroom hw hguard
  case vqrec =>
    exact joined (((exec_vqrec ..).trans (guarded_true _ g)).trans (issueQuant_takes hal hroom htab hacq hcap hguard (by simp) _))
  case mqnt =>
    exact joined (((exec_mqnt ..).trans (guarded_true _ g)).trans
      (issueQuant_takes hal hroom htab hacq hcap hguard (by rintro _ ⟨⟩; exact hbusy) _))
  case write => exact ⟨exec_quantBlockWritten_step hq hst hld, quantStep_header hq, quantStep_block hq, quantStep_leaves⟩
  case noQuant => exact exec_quantBlockWritten_idle hq
  case desc => exact entered ((exec_mmaDesc ..).trans (issueMma_starts g hrun hacq hfault hwait))
  case rmt => exact entered ((exec_mmaRmt ..).trans (issueMma_starts g hrun hacq hfault hwait))
  case groups => exact (exec_mmaReg_eq g hacq hw e f k).trans (if_pos hr)
  case groupsWait => exact (exec_mmaReg_eq g hacq hw e f k).trans (if_neg (ne_true_of_eq_false hr))
  case element =>
    obtain ⟨hmax, hsum⟩ := mmaResult_sides s c k v l
    exact ⟨hmax, hsum, mmaResult_elems s c k v l j⟩
  case localTile => exact mmaTurn_local
  case remoteTile => exact mmaTurn_remote
  case part => exact exec_mmaTileFetch_part hf hparts
  case start =>
    have hturn := mmaTurn_start (s := s) (c := c) (fw := fw) hst hgot
    rw [exec_mmaTileFetch_within hf hparts (hturn ▸ stepsAt_mmaStart hsteps), hturn]
  case tileA =>
    have hput : mmaTurn s c fw run = putMma s c fw { run with tile := some ta, parts := [], got := [], bStage := .waiting } := by
      rw [hturn, mmaGot, htile]
    rw [exec_mmaTileFetch_within hf hparts (hput ▸ stepsAt_putMma s rfl rfl), hput]
  case tileB => rw [exec_mmaTileFetch_step hf hparts htile hturn, if_pos hr]
  case tileWaits => rw [exec_mmaTileFetch_step hf hparts htile hturn, if_neg (ne_true_of_eq_false hr)]
  case noFetch => exact exec_mmaTileFetch_idle hf
  case sum => exact ⟨_, exec_mmaAccumulate_writes hf, mmaFinish_memory s run, mmaFinish_acc s run, mmaFinish_mmas s run⟩
  case noSum => exact exec_mmaAccumulate_idle hf

end Sys2Proof.Machine
end

section
/-! PROOFS. The compares of vector elements and the words on masks (R124, R125), bit by bit. -/

namespace Sys2Proof.Machine

/-! ### One relation on two elements (R124) -/

section
variable {t : ElemTy} {x y : BitVec t.bits}

section
variable (ht : elemFmt t = none)
include ht

theorem holds_eq_int : VCmp.eq.holds t x y = decide (x = y) := by
  simp only [VCmp.holds, ht]
  rfl

theorem holds_lt_int : VCmp.lt.holds t x y = decide (x.toInt < y.toInt) := by
  simp only [VCmp.holds, ht]
  rfl

theorem holds_le_int : VCmp.le.holds t x y = decide (x.toInt ≤ y.toInt) := by
  simp only [VCmp.holds, ht]
  rfl

theorem holds_ltu_int : VCmp.ltu.holds t x y = decide (x.toNat < y.toNat) := by
  simp only [VCmp.holds, ht]
  rfl

end

section
variable {f : FloatFmt} (ht : elemFmt t = some f)
include ht

theorem holds_eq_float : VCmp.eq.holds t x y = (f.value x.toNat).eq (f.value y.toNat) := by
  simp only [VCmp.holds, ht]

theorem holds_lt_float : VCmp.lt.holds t x y = (f.value x.toNat).lt (f.value y.toNat) := by
  simp only [VCmp.holds, ht]

theorem holds_le_float : VCmp.le.holds t x y =
    ((f.value x.toNat).lt (f.value y.toNat) || (f.value x.toNat).eq (f.value y.toNat)) := by
  simp only [VCmp.holds, ht]

end

end

/-! ### A bit of a mask (R124, R125) -/

/-- R125: a bit that mM selects is that of the new value. -/
theorem getLsbD_mMerge (m new old : Mask) {j : Nat} (hj : j < 256) :
    (mMerge m new old).getLsbD j = if m.getLsbD j then new.getLsbD j else old.getLsbD j := by
  simp only [mMerge, BitVec.getLsbD_or, BitVec.getLsbD_and, BitVec.getLsbD_not, hj, decide_true, Bool.true_and]
  cases m.getLsbD j <;> simp

/-- R125: the numbers of the one bits that mM selects. -/
theorem mCount_eq (a m : Mask) : mCount a m = (List.range 256).countP fun j => a.getLsbD j && m.getLsbD j := by
  simp only [mCount, BitVec.getLsbD_and, List.countP_eq_length_filter]

/-- R125: MFIRST stops at the first selected one bit, or past the last bit. -/
theorem mFirst_spec (a m : Mask) : mFirst a m ≤ 256 ∧ (∀ j < mFirst a m, (a.getLsbD j && m.getLsbD j) = false) ∧
    (mFirst a m < 256 → (a.getLsbD (mFirst a m) && m.getLsbD (mFirst a m)) = true) := by
  simp only [← BitVec.getLsbD_and]
  cases hfind : (List.range 256).find? fun j => (a &&& m).getLsbD j with
  | none =>
    have hnone := List.find?_range_eq_none.1 hfind
    have hat : mFirst a m = 256 := by rw [mFirst, hfind, Option.getD_none]
    rw [hat]
    exact ⟨le_rfl, fun j hj => (Bool.not_eq_true' _).mp (hnone j hj), fun h => absurd h (lt_irrefl _)⟩
  | some n =>
    obtain ⟨hbit, hmem, hbefore⟩ := List.find?_range_eq_some.1 hfind
    have hat : mFirst a m = n := by rw [mFirst, hfind, Option.getD_some]
    rw [hat]
    exact ⟨(List.mem_range.1 hmem).le, fun j hj => (Bool.not_eq_true' _).mp (hbefore j hj), fun _ => hbit⟩

/-! ### A word that writes a mask register (R56) -/

section
variable {h : Head} {s : State} {d : BitVec 3} (g : s.rp h.g = true)
include g

/-- R124: every mask bit of an active element gets what the relation says of it. -/
theorem vCmp_writes {c : VCmp} {t : ElemTy} {r : BitVec t.bits → BitVec t.bits → Bool} {o : Out} {m : BitVec 3} {a b : BitVec 5}
    (ho : o = setM h d (fun s old => vCmp c t (s.rm m) (s.rv a) (s.rv b) old) s) (hr : ∀ x y, c.holds t x y = r x y) :
    ∃ z, o = .next (s.wrM d z) ∧ ∀ j < 256, z.getLsbD j = if maskBit (s.rm m) t.bytes (j / t.bytes) then
        r (elem t (s.rv a) (j / t.bytes)) (elem t (s.rv b) (j / t.bytes)) else (s.rm d).getLsbD j := by
  refine ⟨_, ho.trans (guarded_true _ g), fun j hj => ?_⟩
  rw [← hr]
  exact getLsbD_ofBits _ j hj

/-- R125: every bit that mM selects gets the operation's bit. -/
theorem mMerge_writes {new : State → Mask} {r : Bool → Bool → Bool} {o : Out} {m p q : BitVec 3}
    (ho : o = setM h d (fun s old => mMerge (s.rm m) (new s) old) s)
    (hr : ∀ j < 256, (new s).getLsbD j = r ((s.rm p).getLsbD j) ((s.rm q).getLsbD j)) :
    ∃ z, o = .next (s.wrM d z) ∧ ∀ j < 256, z.getLsbD j =
      if (s.rm m).getLsbD j then r ((s.rm p).getLsbD j) ((s.rm q).getLsbD j) else (s.rm d).getLsbD j := by
  refine ⟨_, ho.trans (guarded_true _ g), fun j hj => ?_⟩
  rw [← hr j hj]
  exact getLsbD_mMerge _ _ _ hj

end

/-- Settles O36: a compare by its relation on the kind of the elements, a mask word by its operation on bits. -/
theorem vectorMaskWords : Obligations.VectorMaskWords := by
  intro s h m d p q e a b t g cmp bits
  refine ⟨fun hint => ?ints, fun f ht => ?floats, ?mand, ?mor, ?mxor, ?mandn, ?mnot, ?mcnt, ?mfirst⟩
  case ints =>
    have ht := elemFmt_of_isInt hint
    exact ⟨vCmp_writes g (exec_vcmpEq ..) fun _ _ => holds_eq_int ht, vCmp_writes g (exec_vcmpLt ..) fun _ _ => holds_lt_int ht,
      vCmp_writes g (exec_vcmpLe ..) fun _ _ => holds_le_int ht, vCmp_writes g (exec_vcmpLtu ..) fun _ _ => holds_ltu_int ht⟩
  case floats =>
    exact ⟨vCmp_writes g (exec_vcmpEq ..) fun _ _ => holds_eq_float ht, vCmp_writes g (exec_vcmpLt ..) fun _ _ => holds_lt_float ht,
      vCmp_writes g (exec_vcmpLe ..) fun _ _ => holds_le_float ht⟩
  case mand => exact mMerge_writes g (exec_mand ..) fun j _ => BitVec.getLsbD_and
  case mor => exact mMerge_writes g (exec_mor ..) fun j _ => BitVec.getLsbD_or
  case mxor => exact mMerge_writes g (exec_mxor ..) fun j _ => BitVec.getLsbD_xor
  case mandn =>
    refine mMerge_writes (r := fun x y => x && !y) g (exec_mandn ..) fun j hj => ?_
    rw [BitVec.getLsbD_and, BitVec.getLsbD_not, decide_eq_true hj, Bool.true_and]
  case mnot =>
    refine mMerge_writes (r := fun x _ => !x) (q := q) g (exec_mnot ..) fun j hj => ?_
    rw [BitVec.getLsbD_not, decide_eq_true hj, Bool.true_and]
  case mcnt => rw [exec_mcnt, execMcnt, guarded_true _ g, mCount_eq]
  case mfirst => exact ⟨_, (exec_mfirst ..).trans (guarded_true _ g), mFirst_spec _ _⟩

end Sys2Proof.Machine
end

section
/-! PROOFS. The barrier words (R155 to R158, R167, R168): the object in memory, what an event makes of it, and each word. -/

namespace Sys2Proof.Machine

/-! ### A barrier object in memory (R155) -/

/-- The highest byte of an object's image. -/
def flagByte (v phase ovf : Bool) : BitVec 8 := BitVec.ofBool v ++ BitVec.ofBool phase ++ BitVec.ofBool ovf ++ 0#5

theorem getLsbD_flagByte : ∀ v phase ovf, (flagByte v phase ovf).getLsbD 7 = v ∧ (flagByte v phase ovf).getLsbD 6 = phase ∧
    (flagByte v phase ovf).getLsbD 5 = ovf := by decide

theorem getLsbD_toWord (o : Bar) (i : Nat) : o.toWord.getLsbD i = if i < 32 then o.pend.getLsbD i else
    if i - 32 < 12 then o.arrive.getLsbD (i - 32) else
    if i - 32 - 12 < 12 then o.init.getLsbD (i - 32 - 12) else (flagByte o.v o.phase o.ovf).getLsbD (i - 32 - 12 - 12) :=
  BitVec.getLsbD_append.trans (congrArg _ (BitVec.getLsbD_append.trans (congrArg _ BitVec.getLsbD_append)))

/-- R155: the image of an object holds all of it. -/
theorem ofWord_toWord (o : Bar) : Bar.ofWord o.toWord = o := by
  obtain ⟨hv, hphase, hovf⟩ := getLsbD_flagByte o.v o.phase o.ovf
  have hinit : o.toWord.extractLsb' 44 12 = o.init := BitVec.eq_of_getLsbD_eq fun i hi => by
    rw [BitVec.getLsbD_extractLsb', decide_eq_true hi, Bool.true_and, getLsbD_toWord, if_neg (by omega), if_neg (by omega),
      if_pos (by omega), show 44 + i - 32 - 12 = i by omega]
  have harrive : o.toWord.extractLsb' 32 12 = o.arrive := BitVec.eq_of_getLsbD_eq fun i hi => by
    rw [BitVec.getLsbD_extractLsb', decide_eq_true hi, Bool.true_and, getLsbD_toWord, if_neg (by omega), if_pos (by omega),
      show 32 + i - 32 = i by omega]
  have hpend : o.toWord.extractLsb' 0 32 = o.pend := BitVec.eq_of_getLsbD_eq fun i hi => by
    rw [BitVec.getLsbD_extractLsb', decide_eq_true hi, Bool.true_and, getLsbD_toWord, if_pos (by omega), Nat.zero_add]
  rw [Bar.ofWord, hinit, harrive, hpend, getLsbD_toWord o 63, getLsbD_toWord o 62, getLsbD_toWord o 61]
  simp only [hv, hphase, hovf, Nat.reduceLT, Nat.reduceSub, if_false]

/-- A byte that is not the one written reads as before, whatever the form of the list. -/
theorem readByte_writeByte_ne (m : List Host.Cell) {x y : Nat} (v : Byte) (h : x ≠ y) : readByte (writeByte m x v) y = readByte m y := by
  induction m with
  | nil =>
    unfold writeByte
    split <;> simp [readByte, h]
  | cons c m ih =>
    obtain ⟨a, b⟩ := c
    unfold writeByte
    split
    · split <;> simp [readByte, h]
    · split
      · rename_i hx
        subst hx
        split <;> simp [readByte, h]
      · simp only [readByte, ih]

theorem readByte_writeMem_outside (m : List Host.Cell) (a : Nat) {y : Nat} (bs : List Byte) (hy : y < a ∨ a + bs.length ≤ y) :
    readByte (writeMem m a bs) y = readByte m y := by
  induction bs generalizing m a with
  | nil => rfl
  | cons b bs ih =>
    simp only [List.length_cons] at hy
    rw [writeMem, ih _ _ (by omega), readByte_writeByte_ne _ _ (by omega)]

section
variable (s : State) (c : Fin 512) (fw : Bool) (n : Nat) (o : Bar)

/-- R155: a barrier that is written has its eight bytes to itself. -/
theorem sameOutside_putBar : SameOutside s (putBar s c fw n o) (tmAddr c (barrierOff fw n)) 8 := fun _ hx =>
  readByte_writeMem_outside s.mem _ _ (by rwa [length_leBytes])

theorem getBar_putBar (hwf : s.memWf) : getBar (putBar s c fw n o) c fw n = o := by
  have hload := load_store (tmAddr c (barrierOff fw n)) (leBytes 8 o.toWord.toNat) hwf
  rw [length_leBytes] at hload
  rw [getBar, putBar, State.loadNat, State.storeNat, hload, leNat_leBytes, Nat.mod_eq_of_lt (by exact o.toWord.isLt),
    BitVec.ofNat_toNat, BitVec.setWidth_eq, ofWord_toWord]

end

/-! ### Events (R156) -/

section
variable {b : Bar}

theorem event_live (hv : b.v = true) (f : Bar → Bar) : b.event f = (f b).flip := by rw [Bar.event, if_pos hv]

/-- R156: an object with OVF does not flip. -/
theorem flip_ovf (h : b.ovf = true) : b.flip = b := by simp [Bar.flip, h]

theorem change_fits {x : Nat} (h : b.pend.toInt + x < 2 ^ 31) : b.change x = { b with pend := BitVec.ofInt 32 (b.pend.toInt + x) } := by
  have hlow := b.pend.le_toInt
  rw [Bar.change, if_pos ⟨by omega, h⟩]

theorem change_overflows {x : Nat} (h : 2 ^ 31 ≤ b.pend.toInt + x) : b.change x = { b with ovf := true } := by
  rw [Bar.change, if_neg fun hin => absurd hin.2 (not_lt.2 h)]

/-- R167: BARRV's change and arrival. -/
theorem arrival_fits {x : Nat} (h : b.pend.toInt + x < 2 ^ 31) (harr : b.arrive ≠ 0) :
    (b.change x).arriveOne = { b with pend := BitVec.ofInt 32 (b.pend.toInt + x), arrive := b.arrive - 1 } := by
  rw [change_fits h]
  exact if_neg harr

/-- An arrival that is not expected sets OVF. -/
theorem arrival_unexpected {x : Nat} (h : b.pend.toInt + x < 2 ^ 31) (harr : b.arrive = 0) :
    (b.change x).arriveOne = { b with pend := BitVec.ofInt 32 (b.pend.toInt + x), ovf := true } := by
  rw [change_fits h]
  exact if_pos harr

/-- An arrival counts also where PEND leaves its range. -/
theorem arrival_overflows {x : Nat} (h : 2 ^ 31 ≤ b.pend.toInt + x) :
    (b.change x).arriveOne = { b with ovf := true, arrive := if b.arrive = 0 then 0 else b.arrive - 1 } := by
  rw [change_overflows h, Bar.arriveOne]
  by_cases harr : b.arrive = 0
  · simp only [harr, if_true]
  · simp only [harr, if_false]

end

/-! ### The words (R167, R168) -/

/-- R157: to note the place of an event changes the notes of the acting core only. -/
theorem markBar_notes (s : State) (n : Nat) (x : BarSource) :
    markBar s s.core s.fw n x = s.setCur { s.cur with barMarks := (markBar s s.core s.fw n x).cur.barMarks } := by
  have hcur : (markBar s s.core s.fw n x).cur = _ := setCur_cur s _
  rw [hcur]
  rfl

/-- R157: a word's event takes effect with its place noted. -/
def wordEvent (s : State) (n : Nat) (y : Bar) : State := putBar (markBar s s.core s.fw n .word) s.core s.fw n y

section
variable {s : State} {h : Head} (g : s.rp h.g = true) {a : BitVec 5}
include g

theorem barrierWord_outOfRange (hk : barrierMax s.fw ≤ (s.rs a).toNat) (f : State → Nat → Out) :
    barrierWord h a s f = raise s .barrierRange := by
  rw [barrierWord, guarded_true _ g, if_pos hk]

/-- R168: a number out of range is BARRIER_RANGE for every barrier word. -/
theorem exec_barrier_outOfRange (hk : barrierMax s.fw ≤ (s.rs a).toNat) (b : BitVec 5) (p : BitVec 3) :
    ∀ i ∈ [Instr.binit h a b, .bexp h a b, .barrv h a b, .bwait h a b, .btest h p a b], exec i s = raise s .barrierRange := by
  simp only [List.forall_mem_cons, List.not_mem_nil, false_implies, implies_true, and_true]
  have raises := barrierWord_outOfRange g hk
  exact ⟨(exec_binit ..).trans (raises _), (exec_bexp ..).trans (raises _), (exec_barrv ..).trans (raises _),
    (exec_bwait ..).trans (raises _), (exec_btest ..).trans (raises _)⟩

variable (hk : (s.rs a).toNat < barrierMax s.fw) (hacq : acqWaits s = false)
include hk hacq

theorem barrierWord_acts (f : State → Nat → Out) : barrierWord h a s f = f s (s.rs a).toNat := by
  rw [barrierWord, guarded_true _ g]
  simp only [Nat.not_le.2 hk, hacq, Bool.false_eq_true, if_false]

section
variable {b : BitVec 5}

theorem exec_binit_starts (hx : (s.rs b).toNat ≤ 4095) (hbusy : barrierBusy s (s.rs a).toNat = false) :
    exec (.binit h a b) s = .next (putBar s s.core s.fw (s.rs a).toNat (Bar.start ((s.rs b).setWidth 12))) := by
  rw [exec_binit, execBinit, barrierWord_acts g hk hacq, if_neg (Nat.not_lt.2 hx), if_neg (ne_true_of_eq_false hbusy)]

theorem exec_binit_tooMany (hx : 4095 < (s.rs b).toNat) : exec (.binit h a b) s = raise s .barrierRange := by
  rw [exec_binit, execBinit, barrierWord_acts g hk hacq, if_pos hx]

end

section
variable {b : BitVec 5} (hv : (getBar s s.core s.fw (s.rs a).toNat).v = true) (hovf : (getBar s s.core s.fw (s.rs a).toNat).ovf = false)
include hv hovf

/-- R168: an initialised object within its counts is acted on. -/
theorem barrierWord_live (f : State → Nat → Bar → Out) :
    barrierWord h a s (fun s n => liveBarrier s n (f s n)) = f s (s.rs a).toNat (getBar s s.core s.fw (s.rs a).toNat) := by
  rw [barrierWord_acts g hk hacq, liveBarrier]
  simp only [hv, hovf, Bool.not_false, Bool.and_self, if_true]

theorem exec_bexp_event : exec (.bexp h a b) s =
    .next (wordEvent s (s.rs a).toNat ((getBar s s.core s.fw (s.rs a).toNat).change (s.rs b).toNat).flip) := by
  rw [exec_bexp, execBexp, barrierWord_live g hk hacq hv hovf fun s n _ => .next (barEvent s s.core s.fw n .word fun x => x.change (s.rs b).toNat),
    barEvent, event_live hv]
  rfl

theorem exec_barrv_event : exec (.barrv h a b) s =
    .next (wordEvent s (s.rs a).toNat ((getBar s s.core s.fw (s.rs a).toNat).change (s.rs b).toNat).arriveOne.flip) := by
  rw [exec_barrv, execBarrv, barrierWord_live g hk hacq hv hovf fun s n _ =>
    .next (barEvent s s.core s.fw n .word fun x => (x.change (s.rs b).toNat).arriveOne), barEvent, event_live hv]
  rfl

section
variable (hsum : (getBar s s.core s.fw (s.rs a).toNat).pend.toInt + (s.rs b).toNat < 2 ^ 31)
include hsum

theorem exec_bexp_fits : exec (.bexp h a b) s = .next (wordEvent s (s.rs a).toNat { getBar s s.core s.fw (s.rs a).toNat with
    pend := BitVec.ofInt 32 ((getBar s s.core s.fw (s.rs a).toNat).pend.toInt + (s.rs b).toNat) }.flip) := by
  rw [exec_bexp_event g hk hacq hv hovf, change_fits hsum]

theorem exec_barrv_arrives (harr : (getBar s s.core s.fw (s.rs a).toNat).arrive ≠ 0) :
    exec (.barrv h a b) s = .next (wordEvent s (s.rs a).toNat { getBar s s.core s.fw (s.rs a).toNat with
      pend := BitVec.ofInt 32 ((getBar s s.core s.fw (s.rs a).toNat).pend.toInt + (s.rs b).toNat)
      arrive := (getBar s s.core s.fw (s.rs a).toNat).arrive - 1 }.flip) := by
  rw [exec_barrv_event g hk hacq hv hovf, arrival_fits hsum harr]

theorem exec_barrv_unexpected (harr : (getBar s s.core s.fw (s.rs a).toNat).arrive = 0) :
    exec (.barrv h a b) s = .next (wordEvent s (s.rs a).toNat { getBar s s.core s.fw (s.rs a).toNat with
      pend := BitVec.ofInt 32 ((getBar s s.core s.fw (s.rs a).toNat).pend.toInt + (s.rs b).toNat), ovf := true }) := by
  rw [exec_barrv_event g hk hacq hv hovf, arrival_unexpected hsum harr, flip_ovf rfl]

end

section
variable (hsum : 2 ^ 31 ≤ (getBar s s.core s.fw (s.rs a).toNat).pend.toInt + (s.rs b).toNat)
include hsum

theorem exec_bexp_overflows : exec (.bexp h a b) s =
    .next (wordEvent s (s.rs a).toNat { getBar s s.core s.fw (s.rs a).toNat with ovf := true }) := by
  rw [exec_bexp_event g hk hacq hv hovf, change_overflows hsum, flip_ovf rfl]

theorem exec_barrv_overflows : exec (.barrv h a b) s = .next (wordEvent s (s.rs a).toNat { getBar s s.core s.fw (s.rs a).toNat with
    ovf := true
    arrive := if (getBar s s.core s.fw (s.rs a).toNat).arrive = 0 then 0 else (getBar s s.core s.fw (s.rs a).toNat).arrive - 1 }) := by
  rw [exec_barrv_event g hk hacq hv hovf, arrival_overflows hsum, flip_ovf rfl]

end

theorem exec_bwait_goesOn (hp : (getBar s s.core s.fw (s.rs a).toNat).phase ≠ (s.rs b).getLsbD 0) : exec (.bwait h a b) s = .next s := by
  rw [exec_bwait, execBwait, barrierWord_live g hk hacq hv hovf fun s _ x => if x.phase != (s.rs b).getLsbD 0 then .next s else stall s,
    if_pos (bne_iff_ne.2 hp)]

theorem exec_bwait_waits (hp : (getBar s s.core s.fw (s.rs a).toNat).phase = (s.rs b).getLsbD 0) : exec (.bwait h a b) s = stall s := by
  rw [exec_bwait, execBwait, barrierWord_live g hk hacq hv hovf fun s _ x => if x.phase != (s.rs b).getLsbD 0 then .next s else stall s,
    if_neg (mt bne_iff_ne.1 (not_not.2 hp))]

theorem exec_btest_writes (p : BitVec 3) : exec (.btest h p a b) s =
    .next (s.wrP p ((getBar s s.core s.fw (s.rs a).toNat).phase != (s.rs b).getLsbD 0)) := by
  rw [exec_btest, execBtest, barrierWord_live g hk hacq hv hovf fun s _ x => .next (s.wrP p (x.phase != (s.rs b).getLsbD 0))]

end

section
variable (hdead : (getBar s s.core s.fw (s.rs a).toNat).v = false ∨ (getBar s s.core s.fw (s.rs a).toNat).ovf = true)
include hdead

/-- R168: an object that is not initialised or has OVF is BARRIER_RANGE. -/
theorem barrierWord_dead (f : State → Nat → Bar → Out) :
    barrierWord h a s (fun s n => liveBarrier s n (f s n)) = raise s .barrierRange := by
  have hnot : ((getBar s s.core s.fw (s.rs a).toNat).v && !(getBar s s.core s.fw (s.rs a).toNat).ovf) = false := by
    rcases hdead with hv | hovf
    · rw [hv, Bool.false_and]
    · rw [hovf, Bool.not_true, Bool.and_false]
  rw [barrierWord_acts g hk hacq, liveBarrier]
  simp only [hnot, Bool.false_eq_true, if_false]

theorem exec_barrier_dead (b : BitVec 5) (p : BitVec 3) :
    ∀ i ∈ [Instr.bexp h a b, .barrv h a b, .bwait h a b, .btest h p a b], exec i s = raise s .barrierRange := by
  simp only [List.forall_mem_cons, List.not_mem_nil, false_implies, implies_true, and_true]
  have raises := barrierWord_dead g hk hacq hdead
  exact ⟨(exec_bexp ..).trans (raises _), (exec_barrv ..).trans (raises _), (exec_bwait ..).trans (raises _), (exec_btest ..).trans (raises _)⟩

end

end

end Sys2Proof.Machine
end

section
/-! PROOFS. The nest words and the nest engine (R169 to R173). -/

namespace Sys2Proof.Machine

/-! ### The words at issue (R171, R172) -/

/-- R172: a run of the descriptor in the shadow bank has started. -/
def nestStart (s : State) : State :=
  { s.setCtx { s.ctx with nest := { s.ctx.nest with
      id := s.serial, active := s.ctx.nest.shadow, activeValid := true, go := true, idx := Vector.replicate 6 0 } } with
    serial := s.serial + 1 }

theorem nestStart_runs (s : State) : (nestStart s).ctx.nest.go = true ∧ (nestStart s).ctx.nest.active = s.ctx.nest.shadow ∧
    (nestStart s).ctx.nest.idx = Vector.replicate 6 0 ∧ (nestStart s).ctx.regs = s.ctx.regs ∧ SameMemory s (nestStart s) := by
  have hctx : (nestStart s).ctx = _ := setCtx_ctx s _
  rw [hctx]
  exact ⟨rfl, rfl, rfl, rfl, fun _ => rfl, rfl⟩

section
variable {s : State} {h : Head} (g : s.rp h.g = true)
include g

/-- R171: a descriptor in general use that passes its checks is loaded. -/
theorem exec_nestLd_loads {a : BitVec 5} (hal : (s.rs a).toNat % 64 = 0) (hroom : (s.rs a).toNat + 256 ≤ 0x78000)
    (hreads : engineReads s (s.rs a).toNat 256 = false) {d : List Byte} (hd : s.load (tmAddr s.core (s.rs a).toNat) 256 = d)
    (hshape : nestShapeOk d = true) (hformat : nestFormatOk s d = true) (hbar : nestBarrierOk s.fw d = true) :
    exec (.nestLd h a) s = .next (s.setCtx { s.ctx with nest := { s.ctx.nest with shadow := d, shadowValid := true } }) := by
  have hrow : rowOf (s.rs a).toNat = .general := (rowOf_general _).2 (by omega)
  have hblock (f : Nat → Out) : tmBlock s (s.rs a) 64 256 f = f (s.rs a).toNat := by
    simp only [tmBlock, hal, localCheck_general (n := 256) (by omega) hroom, hrow, ne_eq, not_true_eq_false, if_false, if_true]
  rw [exec_nestLd, execNestLd, guarded_true _ g, hblock]
  simp only [hreads, hd, hshape, hformat, hbar, Bool.not_true, Bool.false_eq_true, if_false]
  rfl

section
variable (hgo : s.ctx.nest.go = false) (hacq : acqWaits s = false)
include hgo hacq

theorem exec_nestGo_starts (hv : s.ctx.nest.shadowValid = true) (hbar : nestBarrier s.ctx.nest.shadow = none) :
    exec (.nestGo h) s = .next (nestStart s) := by
  have hbusy : ¬(s.ctx.nest.go || acqWaits s) = true := by rw [hgo, hacq]; decide
  have hloaded : ¬(!s.ctx.nest.shadowValid) = true := by rw [hv]; decide
  rw [exec_nestGo, execNestGo, guarded_true _ g]
  dsimp only
  rw [if_neg hbusy, if_neg hloaded, hbar]
  rfl

theorem exec_nestGo_unloaded (hv : s.ctx.nest.shadowValid = false) : exec (.nestGo h) s = raise s .copyShape := by
  rw [exec_nestGo, execNestGo, guarded_true _ g]
  simp only [hgo, hacq, hv, Bool.or_self, Bool.not_false, Bool.false_eq_true, if_false, if_true]

end

theorem exec_nestWait_goesOn (hgo : s.ctx.nest.go = false) (hmma : s.ctx.mmas.any (·.nest) = false) : exec (.nestWait h) s = .next s := by
  rw [exec_nestWait, execNestWait, guarded_true _ g]
  simp only [hgo, hmma, Bool.or_self, Bool.false_eq_true, if_false]

end

/-! ### The engine (R172, R173) -/

section
variable {s : State} {c : Fin 512} {fw : Bool}

theorem exec_nestEmit_idle (hgo : (s.cores[c].ctx fw).nest.go = false) : exec (.nestEmit c fw) s = .next s := by
  simp only [exec_nestEmit, execNestEmit, hgo, Bool.not_false, Bool.true_or, if_true]

variable (hgo : (s.cores[c].ctx fw).nest.go = true) (hfault : (s.cores[c].ctx fw).nest.fault = none)
  (hfree : fw = true ∨ trapFree s c = true) (hcpy : s.cores[c].cpyAt ≠ some s.clk)
include hgo hfault hfree hcpy

/-- R160, R173: nothing holds the run back. -/
theorem nestEmit_free : (!(s.cores[c].ctx fw).nest.go || (s.cores[c].ctx fw).nest.fault.isSome || (!fw && !trapFree s c) ||
    s.cores[c].cpyAt == some s.clk) = false := by
  have hheld : (!fw && !trapFree s c) = false := by
    rcases hfree with rfl | htrap
    · rfl
    · rw [htrap, Bool.not_true, Bool.and_false]
  rw [hgo, hfault, hheld, beq_eq_false_iff_ne.2 hcpy]
  rfl

theorem exec_nestEmit_copy {v : Variant} (hv : nestVariant (nWord (s.cores[c].ctx fw).nest.active) = some v) :
    exec (.nestEmit c fw) s = .next (emitCopy s c fw (s.cores[c].ctx fw).nest v) := by
  simp only [exec_nestEmit, execNestEmit, nestEmit_free hgo hfault hfree hcpy, hv, Bool.false_eq_true, if_false]

theorem exec_nestEmit_mma {ty : MmaTy} {remote : Bool} (hv : nestVariant (nWord (s.cores[c].ctx fw).nest.active) = none)
    (hm : nestMma (nWord (s.cores[c].ctx fw).nest.active) = some (ty, remote)) :
    exec (.nestEmit c fw) s = .next (emitMma s c fw (s.cores[c].ctx fw).nest ty remote) := by
  simp only [exec_nestEmit, execNestEmit, nestEmit_free hgo hfault hfree hcpy, hv, hm, Bool.false_eq_true, if_false]

end

end Sys2Proof.Machine
end

section
/-! PROOFS. The stream words (R120 to R123), and the barrier, nest and stream words together. -/

namespace Sys2Proof.Machine

/-! ### What a word on a stream reads (R28, R122) -/

/-- The words of a bundle go on reading what they read where the acting context's registers stand. -/
theorem src_putCore {s : State} {x : Core} (h : (x.ctx s.fw).regs = s.ctx.regs) : (s.putCore s.core x).src = s.src := by
  have hctx : (s.putCore s.core x).ctx = x.ctx s.fw := congrArg (·.ctx s.fw) (putCore_same s s.core x)
  rw [State.src, hctx, h]
  rfl

theorem src_setCtx {s : State} {x : Ctx} (h : x.regs = s.ctx.regs) : (s.setCtx x).src = s.src :=
  src_putCore ((congrArg Ctx.regs (core_setCtx_ctx ..)).trans h)

section
variable (s : State) (q : BitVec 2)

/-- R121: a stream register that is released is bound to nothing; the other registers stand. -/
theorem releaseStream_ctx : (releaseStream s s.core s.fw q).stream q = none ∧ (releaseStream s s.core s.fw q).ctx.regs = s.ctx.regs := by
  have hctx : (releaseStream s s.core s.fw q).ctx = _ := setCtx_ctx s _
  rw [State.stream, hctx]
  exact ⟨Vector.getElem_set_self _, rfl⟩

theorem src_releaseStream : (releaseStream s s.core s.fw q).src = s.src := src_setCtx rfl

/-- R122: the use of a position reads and writes no register. -/
theorem src_usePos (sr : StreamReg) : (usePos s q sr).src = s.src := by
  unfold usePos
  split
  · exact src_releaseStream s q
  · exact src_setCtx rfl

theorem src_keepPos (k : Nat) (r : List Byte ⊕ Cause) : (keepPos s s.core s.fw q k r).src = s.src := by
  unfold keepPos
  dsimp only
  split
  · exact src_setCtx rfl
  · rfl

theorem src_issueRead (d : List Byte) (k : Nat) : (issueRead s s.core s.fw q d k).src = s.src := by
  unfold issueRead
  split
  · rfl
  · split
    · exact src_keepPos s q k _
    · exact src_putCore (s := s) (by rw [takeGuard_ctx, core_setCtx_ctx]; rfl)

theorem usePos_acting (sr : StreamReg) : (usePos s q sr).core = s.core ∧ (usePos s q sr).fw = s.fw := by
  unfold usePos
  split <;> exact ⟨rfl, rfl⟩

end

/-! ### Binding (R121) -/

section
variable {s : State} {h : Head} (g : s.rp h.g = true) {q : BitVec 2}
include g

theorem exec_vbind_binds {a : BitVec 5} {d : List Byte} {u : State} (hal : (s.rs a).toNat % 32 = 0) (hroom : (s.rs a).toNat + 32 ≤ 0x78000)
    (hst : storesMeet s (s.rs a).toNat 32 = false) (hrec : recordMeets s (.tm (s.rs a).toNat) 32 = false)
    (hd : s.load (tmAddr s.core (s.rs a).toNat) 32 = d) (hfault : bindFault s d = none)
    (hreads : firstReads ((releaseStream s s.core s.fw q).setStream q (some ⟨d, 0, []⟩)) q d = some u) :
    exec (.vbind h q a) s = .next u := by
  have hrow : rowOf (s.rs a).toNat = .general := (rowOf_general _).2 (by omega)
  rw [exec_vbind, execVbind, guarded_true _ g]
  simp only [hal, hrow, hst, hrec, hd, hfault, hreads, ne_eq, not_true_eq_false, Bool.or_self, Bool.false_eq_true, if_false]

theorem exec_vunbind_releases : exec (.vunbind h q) s = .next (releaseStream s s.core s.fw q) :=
  (exec_vunbind ..).trans (guarded_true _ g)

/-! ### The words on a bound stream (R122) -/

theorem exec_vldq_unbound (hq : s.stream q = none) (m : BitVec 3) (d : BitVec 5) : exec (.vldq h m d q) s = raise s .illegalOp := by
  simp only [exec_vldq, execVldq, guarded_true _ g, hq]

theorem exec_vstq_unbound (hq : s.stream q = none) (m : BitVec 3) (d : BitVec 5) : exec (.vstq h m d q) s = raise s .illegalOp := by
  simp only [exec_vstq, execVstq, guarded_true _ g, hq]

variable {sr : StreamReg} (hq : s.stream q = some sr)
include hq

section
variable (hload : qStore sr.desc = false) {m : BitVec 3} {d : BitVec 5}
include hload

/-- The last positions of a stream ask for no further read. -/
theorem exec_vldq_last {bs : List Byte} (hgot : sr.got.lookup sr.pos = some (.inl bs)) (hlast : qTotal sr.desc ≤ sr.pos + 4) :
    exec (.vldq h m d q) s = .next ((usePos s q sr).wrV d (mergeBytes (s.rm m) (s.rv d) bs)) := by
  simp only [exec_vldq, execVldq, guarded_true _ g, hq, hload, hgot, decide_eq_false (Nat.not_lt.2 hlast), Bool.false_and, Bool.false_eq_true,
    if_false]
  rw [State.rm, State.rv, src_usePos]
  rfl

/-- The read four positions on is issued where the guard can take it. -/
theorem exec_vldq_more {bs : List Byte} (hgot : sr.got.lookup sr.pos = some (.inl bs)) (hmore : sr.pos + 4 < qTotal sr.desc)
    (hfits : readFits s s.core s.fw sr.desc (sr.pos + 4) = true) :
    exec (.vldq h m d q) s =
      .next ((issueRead (usePos s q sr) s.core s.fw q sr.desc (sr.pos + 4)).wrV d (mergeBytes (s.rm m) (s.rv d) bs)) := by
  obtain ⟨hcore, hfw⟩ := usePos_acting s q sr
  have hsrc := (src_issueRead (usePos s q sr) q sr.desc (sr.pos + 4)).trans (src_usePos s q sr)
  rw [hcore, hfw] at hsrc
  simp only [exec_vldq, execVldq, guarded_true _ g, hq, hload, hgot, decide_eq_true hmore, hfits, hcore, hfw, Bool.not_true, Bool.and_false,
    Bool.false_eq_true, if_false, if_true]
  rw [State.rm, State.rv, hsrc]
  rfl

/-- R122: the fault of a read is the word's at whose position it lies. -/
theorem exec_vldq_faults {f : Cause} (hgot : sr.got.lookup sr.pos = some (.inr f)) :
    exec (.vldq h m d q) s = raiseAt s f (qAddr sr.desc sr.pos) := by
  simp only [exec_vldq, execVldq, guarded_true _ g, hq, hload, hgot, Bool.false_eq_true, if_false]

end

section
variable (hstore : qStore sr.desc = true) {m : BitVec 3} {d : BitVec 5}
include hstore

theorem exec_vstq_none (hm : maskSpan (s.rm m) = none) : exec (.vstq h m d q) s = .next (usePos s q sr) := by
  simp only [exec_vstq, execVstq, guarded_true _ g, hq, hstore, hm, Bool.not_true, Bool.false_eq_true, if_false]

/-- R122: the word is one contiguous store at its position (R117). -/
theorem exec_vstq_stores {lo n : Nat} {l : Loc} (hm : maskSpan (s.rm m) = some (lo, n)) (hd : (qAddr sr.desc sr.pos).toNat % 4 = 0)
    (ha : checkAddr s (qAddr sr.desc sr.pos + BitVec.ofNat 64 lo) n .write = .ok l) (hguard : guardStalls s l n = false)
    (hrec : recordMeets s l n = false) :
    exec (.vstq h m d q) s = .next (usePos (pushEnt s { newEnt s .vst false true (qAddr sr.desc sr.pos) (maskedPieces l lo n (s.rm m)) with
      mask := s.rm m, data := vecBytes (s.rv d) }) q sr) := by
  simp only [exec_vstq, execVstq, guarded_true _ g, hq, hstore, hm, issueVst, contiguous_passes _ hm (Nat.dvd_of_mod_eq_zero hd) ha, hguard, hrec,
    Bool.not_true, Bool.or_self, Bool.false_eq_true, if_false]

end

end

/-! ### The read of a position (R122) -/

section
variable {s : State} {c : Fin 512} {fw : Bool}

theorem exec_streamRead_performs {e : QEnt} {q : BitVec 2} {k : Nat} (hhead : headOf s c fw (·.ld) = some e) (hk : e.kind = .streamRead q k) :
    exec (.streamRead c fw) s = .next (turnEnt s c fw e true) := by
  simp only [exec_streamRead, execStreamRead, hhead, hk]

theorem exec_streamRead_idle (hhead : headOf s c fw (·.ld) = none) : exec (.streamRead c fw) s = .next s := by
  simp only [exec_streamRead, execStreamRead, hhead]

end

/-- Settles O50: each word and each event by its own lemma, the counts of a barrier by the range of their sum. -/
theorem barrierNestAndStreamWords : Obligations.BarrierNestAndStreamWords := by
  intro s h a b d p m q o sr bs v ty rm c fw e u lo n l f g k x bar put event sum off copyOf nest
  refine ⟨fun hk hacq => ⟨fun hx hbusy => ?binit, fun hx => ?binitTooMany, fun hv hovf => ⟨?bexp, ?bexpOvf, ?barrv, ?barrvLate, ?barrvOvf,
    ?bwait, ?bwaitStalls, ?btest⟩, fun hdead => ?dead⟩, fun hk => ?outOfRange,
    ?mark, ?object, fun hal hroom hreads hshape hformat hbar => ?nestLd, fun hgo hacq hv hbar => ?nestGo, fun hgo hacq hv => ?nestGoUnloaded,
    fun hgo hmma => ?nestWait, fun hgo hfault hfree hcpy => ⟨fun hv => ?emitCopy, fun hv hm => ?emitMma⟩, fun hgo => ?emitIdle,
    fun hal hroom hst hrec hfault hreads => ?vbind, ?vunbind, fun hq => ?unbound, fun hq hload hgot hlast => ?vldqLast,
    fun hq hload hgot hmore hfits => ?vldqMore, fun hq hload hgot => ?vldqFault,
    fun hq hstore => ⟨fun hm => ?vstqNone, fun hm hd ha hguard hrec => ?vstq⟩, fun hhead hkind => ?streamRead, fun hhead => ?noRead⟩
  case binit => exact exec_binit_starts g hk hacq hx hbusy
  case binitTooMany => exact exec_binit_tooMany g hk hacq hx
  case bexp => exact exec_bexp_fits g hk hacq hv hovf
  case bexpOvf => exact exec_bexp_overflows g hk hacq hv hovf
  case barrv => exact exec_barrv_arrives g hk hacq hv hovf
  case barrvLate => exact fun harr hsum => exec_barrv_unexpected g hk hacq hv hovf hsum harr
  case barrvOvf => exact exec_barrv_overflows g hk hacq hv hovf
  case bwait => exact exec_bwait_goesOn g hk hacq hv hovf
  case bwaitStalls => exact exec_bwait_waits g hk hacq hv hovf
  case btest => exact exec_btest_writes g hk hacq hv hovf p
  case dead => exact exec_barrier_dead g hk hacq hdead b p
  case outOfRange => exact exec_barrier_outOfRange g hk b p
  case mark => exact markBar_notes s _ _
  case object => exact ⟨sameOutside_putBar s _ _ _ o, getBar_putBar s _ _ _ o⟩
  case nestLd => exact exec_nestLd_loads g hal hroom hreads rfl hshape hformat hbar
  case nestGo =>
    obtain ⟨hrun, hactive, hidx, hregs, hmem⟩ := nestStart_runs s
    exact ⟨_, exec_nestGo_starts g hgo hacq hv hbar, hrun, hactive, hidx, hregs, hmem⟩
  case nestGoUnloaded => exact exec_nestGo_unloaded g hgo hacq hv
  case nestWait => exact exec_nestWait_goesOn g hgo hmma
  case emitCopy => exact exec_nestEmit_copy hgo hfault hfree hcpy hv
  case emitMma => exact exec_nestEmit_mma hgo hfault hfree hcpy hv hm
  case emitIdle => exact exec_nestEmit_idle hgo
  case vbind => exact exec_vbind_binds g hal hroom hst hrec rfl hfault hreads
  case vunbind =>
    obtain ⟨hq, hregs⟩ := releaseStream_ctx s q
    exact ⟨_, exec_vunbind_releases g, hq, hregs, fun _ => rfl, rfl⟩
  case unbound => exact ⟨exec_vldq_unbound g hq m d, exec_vstq_unbound g hq m d⟩
  case vldqLast => exact exec_vldq_last g hq hload hgot hlast
  case vldqMore => exact exec_vldq_more g hq hload hgot hmore hfits
  case vldqFault => exact exec_vldq_faults g hq hload hgot
  case vstqNone => exact exec_vstq_none g hq hstore hm
  case vstq => exact exec_vstq_stores g hq hstore hm hd ha hguard hrec
  case streamRead => exact exec_streamRead_performs hhead hkind
  case noRead => exact exec_streamRead_idle hhead

end Sys2Proof.Machine
end

section
/-! PROOFS. The copy words, SEAL and UNSEAL (R163, R348, R349), CPYCAN (R166), and the copy engine (R160, R165). -/

namespace Sys2Proof.Machine

/-! ### A copy enters the engine (R159, R160) -/

/-- R160: a copy has taken a slot, and its ranges are held in the guard. -/
def copyTaken (s : State) (c : Fin 512) (fw nest : Bool) (slot : Fin 256) (k : Copy) (needs : List (Nat × Nat × Bool)) : State :=
  let core := s.cores[c]
  { s.putCore c (takeGuard { core with copies := vput core.copies slot (some k), copyGens := vput core.copyGens slot k.gen,
                                       cpyAt := if nest then core.cpyAt else some s.clk } s.serial fw needs) with serial := s.serial + 1 }

/-- With a free slot and room in the guard a copy starts, with no box of it credited and no fault. -/
theorem startCopy_takes {s : State} {c : Fin 512} {slot : Fin 256} {src dst : Span} (hslot : freeCopy s.cores[c] = some slot)
    (hguard : guardOk s.cores[c] (copyNeeds s c src dst) = true) (fw nest : Bool) (kind : CopyKind) (d : List Byte)
    (bar : Option (BitVec 11)) (srcAt dstAt : Nat) (stamp : Option Word) (boxes : Nat) (nonce : Word) :
    ∃ k : Copy, startCopy s c fw nest kind d bar src dst srcAt dstAt stamp boxes nonce =
        some (copyTaken s c fw nest slot k (copyNeeds s c src dst), nextGen s.cores[c].copyGens[slot] ++ BitVec.ofNat 8 slot.val) ∧
      k.boxes = boxes ∧ k.credited = [] ∧ k.fault = none ∧ k.fw = fw := by
  simp only [startCopy, hslot, hguard, Bool.not_true, Bool.false_eq_true, if_false]
  exact ⟨_, rfl, rfl, rfl, rfl, rfl⟩

section
variable (s : State) (c : Fin 512) (fw nest : Bool) (slot : Fin 256) (k : Copy) (needs : List (Nat × Nat × Bool))

theorem copyTaken_frame : SameMemory s (copyTaken s c fw nest slot k needs) ∧ SameRest s (copyTaken s c fw nest slot k needs) :=
  ⟨⟨fun _ => rfl, rfl⟩, rfl, rfl, rfl, rfl, rfl, rfl, rfl⟩

theorem copyTaken_contexts : (copyTaken s c fw nest slot k needs).cores[c].unit = s.cores[c].unit ∧
    (copyTaken s c fw nest slot k needs).cores[c].fw = s.cores[c].fw := by
  have hcore : (copyTaken s c fw nest slot k needs).cores[c] = _ := putCore_same s c _
  rw [hcore]
  exact ⟨rfl, rfl⟩

theorem copyTaken_copies : (copyTaken s c fw nest slot k needs).cores[c].copies = vput s.cores[c].copies slot (some k) := by
  have hcore : (copyTaken s c fw nest slot k needs).cores[c] = _ := putCore_same s c _
  rw [hcore]
  rfl

end

/-! ### The words that start a copy (R163, R348, R349) -/

/-- R163: a block that lies in general use is read at its offset. -/
theorem tmBlock_passes {s : State} {ea : Word} {align n : Nat} (hal : ea.toNat % align = 0) (hn : 0 < n) (hroom : ea.toNat + n ≤ 0x78000)
    (f : Nat → Out) : tmBlock s ea align n f = f ea.toNat := by
  have hrow : rowOf ea.toNat = .general := (rowOf_general _).2 (by omega)
  simp only [tmBlock, hal, localCheck_general hn hroom, hrow, ne_eq, not_true_eq_false, if_false, if_true]

/-- R58, R163: the CPY2D words, each with its F and K fields and its variant. -/
def copyWords (h : Head) (d a b : BitVec 5) : List (Instr × (BitVec 3 × BitVec 3) × Variant) :=
  [(.cpy2d h d a b, (0, 0), .plain), (.cpy2dCvtRelay h d a b, (1, 0), .relay), (.cpy2dCvtQnt h d a b, (1, 1), .quant),
    (.cpy2dCvtZexp h d a b, (1, 2), .zexp), (.cpy2dRedAddF32 h d a b, (2, 0), .reduce true 0),
    (.cpy2dRedAddBf16 h d a b, (2, 1), .reduce false 0), (.cpy2dRedMaxF32 h d a b, (2, 2), .reduce true 2),
    (.cpy2dRedMinF32 h d a b, (2, 3), .reduce true 3), (.cpy2dStamp h d a b, (3, 0), .stamp)]

theorem exec_copyWord {h : Head} {d a b : BitVec 5} {i : Instr} {fk : BitVec 3 × BitVec 3} {v : Variant}
    (hi : (i, fk, v) ∈ copyWords h d a b) (s : State) : exec i s = issueCopy fk.1 fk.2 v h d a b s := by
  simp only [copyWords, List.mem_cons, Prod.mk.injEq, List.not_mem_nil, or_false] at hi
  obtain ⟨rfl, rfl, rfl⟩ | ⟨rfl, rfl, rfl⟩ | ⟨rfl, rfl, rfl⟩ | ⟨rfl, rfl, rfl⟩ | ⟨rfl, rfl, rfl⟩ | ⟨rfl, rfl, rfl⟩ |
    ⟨rfl, rfl, rfl⟩ | ⟨rfl, rfl, rfl⟩ | ⟨rfl, rfl, rfl⟩ := hi <;> rfl

section
variable {s u : State} {h : Head} (g : s.rp h.g = true) {a b : BitVec 5} {bar : Option (BitVec 11)} {desc : List Byte} {handle : BitVec 16}
  (hal : (s.rs a).toNat % 64 = 0) (hroom : (s.rs a).toNat + 64 ≤ 0x78000) (hreads : engineReads s (s.rs a).toNat 64 = false)
  (hdesc : s.load (tmAddr s.core (s.rs a).toNat) 64 = desc) (hbar : copyBarrier s s.core s.fw (s.rs b) = some bar)
include g hal hroom hreads hdesc hbar

theorem issueCopy_starts {f k : BitVec 3} {v : Variant} (d : BitVec 5) (hfault : descFault s s.core v desc = none)
    (hover : overlapFault s s.core s.fw v desc = false)
    (hclean : firstFail ((spanChecks s s.core s.fw (issueGlob s) (issueGlob s) (copySrc v desc) (copyDst v desc) (stampOf v desc)).map
      (·.1)) = .ok ())
    (hstart : startCopy s s.core s.fw false (.cpy f k) desc bar (copySrc v desc) (copyDst v desc) (dSrc desc) (dDst desc) (stampOf v desc)
      (boxCount v desc) 0 = some (u, handle)) :
    issueCopy f k v h d a b s = .next (u.wrS d (handle.setWidth 64)) := by
  rw [issueCopy, guarded_true _ g, tmBlock_passes hal (by decide) hroom]
  simp only [hreads, hdesc, hbar, hfault, hover, hclean, onRes_ok, hstart, Bool.false_eq_true, if_false]

/-- R349: the checks of SEAL and UNSEAL one after the other; what starts the copy has drawn a nonce. -/
theorem issueSeal_starts (open_ : Bool) {p : Fin 16} {src dst : Span} (d : BitVec 5) (hp : s.curPart = some p)
    (hprot : s.parts[p].prot = true) (hshape : sealShapeOk desc = true) (hsrcAl : sSrc desc % 64 = 0) (hdstAl : sDst desc % 64 = 0)
    (hsrc : Span.bytes (sSrc desc) (if open_ then imageLen (sLen desc) else sLen desc) = src)
    (hdst : Span.bytes (sDst desc) (if open_ then sLen desc else imageLen (sLen desc)) = dst)
    (hperm : sealPermOk s p (if open_ then src else dst) (if open_ then dst else src) = true) (hapart : src.meets s s.core dst = false)
    (hclean : firstFail ((spanChecks s s.core s.fw (if open_ then windowGlob s s.core s.fw else issueGlob s)
      (if open_ then issueGlob s else windowGlob s s.core s.fw) src dst none).map (·.1)) = .ok ())
    (hstart : startCopy s s.core s.fw false (if open_ then .unsealing else .sealing) desc bar src dst (sSrc desc) (sDst desc) none
      (sealChunks (sLen desc)) (if open_ then 0 else Config.random s.hub.drawn) = some (u, handle)) :
    issueSeal open_ h d a b s = .next ({ u with hub := { u.hub with drawn := u.hub.drawn + 1 } }.wrS d (handle.setWidth 64)) := by
  rw [issueSeal, guarded_true _ g, tmBlock_passes hal (by decide) hroom]
  simp only [hreads, hdesc, hbar, hp, hprot, hshape, hsrcAl, hdstAl, hsrc, hdst, hperm, hapart, hclean, onRes_ok, hstart, ne_eq,
    not_true_eq_false, or_self, Bool.not_true, Bool.false_eq_true, if_false]

end

/-! ### CPYCAN (R166) -/

section
variable {s : State} {h : Head} (g : s.rp h.g = true) {a : BitVec 5}
include g

theorem exec_cpycan_waits (hacq : acqWaits s = true) : exec (.cpycan h a) s = .next { s with mark := .stall } := by
  rw [exec_cpycan, execCpycan, guarded_true _ g, if_pos hacq, stall_eq]

variable (hacq : acqWaits s = false)
include hacq

theorem exec_cpycan_unknown (hname : handleCopy s ((s.rs a).setWidth 16) = none) : exec (.cpycan h a) s = .next s := by
  simp only [exec_cpycan, execCpycan, guarded_true _ g, hacq, hname, Bool.false_eq_true, if_false]

variable {slot : Fin 256} {k : Copy} (hname : handleCopy s ((s.rs a).setWidth 16) = some (slot, k))
include hname

theorem exec_cpycan_ends (hruns : k.runs = []) (hfree : creditFree s s.core slot k = true) :
    exec (.cpycan h a) s = .next (endCancel s s.core slot k) := by
  simp only [exec_cpycan, execCpycan, guarded_true _ g, hacq, hname, hruns, hfree, List.isEmpty_nil, Bool.and_self, Bool.false_eq_true,
    if_false, if_true]

theorem exec_cpycan_cancels (hbusy : k.runs ≠ [] ∨ creditFree s s.core slot k = false) :
    exec (.cpycan h a) s = .next { putCopy s s.core slot (some { k with cancelled := true }) with mark := .stall } := by
  have hnot : (k.runs.isEmpty && creditFree s s.core slot k) = false := by
    rcases hbusy with hruns | hfree
    · rw [List.isEmpty_eq_false_iff.2 hruns, Bool.false_and]
    · rw [hfree, Bool.and_false]
  simp only [exec_cpycan, execCpycan, guarded_true _ g, hacq, hname, hnot, stall_eq, Bool.false_eq_true, if_false]

end

/-! ### What the engine may do next (R160) -/

/-- What is picked is one of the things to pick from. -/
theorem pickFrom_mem {α : Type} (n : Nat) {l : List α} (hl : l ≠ []) : ∃ x ∈ l, pickFrom n l = some x := by
  match l, hl with
  | [x], _ => exact ⟨x, List.mem_singleton_self x, rfl⟩
  | x :: y :: l, _ =>
    have hlt : n % ((y :: l).length + 1) < (x :: y :: l).length := Nat.mod_lt _ (Nat.succ_pos _)
    exact ⟨_, List.getElem_mem hlt, congrArg some (List.getD_eq_getElem _ _ hlt)⟩

section
variable (s : State) (c : Fin 512) (slot : Fin 256) (k : Copy)

theorem start_not_mem_runTurns (f : BoxRun → Bool) (b : Nat) : .start b ∉ runTurns s c slot k f := by
  simp [runTurns]

theorem phase_mem_runTurns (f : BoxRun → Bool) (r : BoxRun) :
    .phase r ∈ runTurns s c slot k f ↔ (r ∈ k.runs ∧ f r = true) ∧ phaseDue s c slot k r = true := by
  simp [runTurns]

theorem start_mem_boxTurns (b : Nat) : .start b ∈ boxTurns s c slot k ↔ boxToStart s.cores[c] k = some b := by
  simp [boxTurns, start_not_mem_runTurns]

theorem phase_mem_boxTurns (r : BoxRun) :
    .phase r ∈ boxTurns s c slot k ↔ r ∈ k.runs ∧ r.num ≠ k.stampBox ∧ phaseDue s c slot k r = true := by
  simp [boxTurns, phase_mem_runTurns, and_assoc]

/-- R160, R165: a box that has written all its bytes is credited; the stamp ends its copy. -/
theorem takeTurn_written {r : BoxRun} (hdead : r.dead = false) (hwriting : r.writing = true) :
    takeTurn s c slot k (.phase r) = if r.num = k.stampBox then endCopy s c slot k else creditBox s c slot k r.num := by
  simp only [takeTurn, endPhase, hdead, hwriting, Bool.not_true, Bool.false_eq_true, if_false]

end

/-! ### The events of the engine (R160, R165) -/

section
variable {s : State} {c : Fin 512} {slot : Fin 256}

theorem exec_copyEvents_empty (hslot : s.cores[c].copies[slot] = none) :
    exec (.copyBox c slot) s = .next s ∧ exec (.copyStamp c slot) s = .next s := by
  simp only [exec_copyBox, execCopyBox, exec_copyStamp, execCopyStamp, hslot, and_self]

variable {k : Copy} (hslot : s.cores[c].copies[slot] = some k)
include hslot

theorem exec_copyStamp_starts (hdue : stampDue s.cores[c] k = true) : exec (.copyStamp c slot) s = .next (startStamp s c slot k) := by
  simp only [exec_copyStamp, execCopyStamp, hslot, hdue, if_true]

variable (hheld : k.held = false) (hleft : k.abandoned = false)
include hheld hleft

theorem exec_copyBox_idle (hnone : boxTurns s c slot k = []) : exec (.copyBox c slot) s = .next s := by
  simp only [exec_copyBox, execCopyBox, hslot, hheld, hleft, hnone, pickFrom, Bool.or_self, Bool.false_eq_true, if_false]

theorem exec_copyBox_takes (hsome : boxTurns s c slot k ≠ []) :
    ∃ t ∈ boxTurns s c slot k, exec (.copyBox c slot) s = .next (takeTurn s c slot k t) := by
  obtain ⟨t, ht, hpick⟩ := pickFrom_mem (Config.partPick s.tick) hsome
  refine ⟨t, ht, ?_⟩
  simp only [exec_copyBox, execCopyBox, hslot, hheld, hleft, hpick, Bool.or_self, Bool.false_eq_true, if_false]

variable (hdue : stampDue s.cores[c] k = false)
include hdue

theorem exec_copyStamp_idle (hnone : runTurns s c slot k (fun r => r.num == k.stampBox) = []) : exec (.copyStamp c slot) s = .next s := by
  simp only [exec_copyStamp, execCopyStamp, hslot, hheld, hleft, hdue, hnone, pickFrom, Bool.or_self, Bool.false_eq_true, if_false]

theorem exec_copyStamp_takes (hsome : runTurns s c slot k (fun r => r.num == k.stampBox) ≠ []) :
    ∃ t ∈ runTurns s c slot k (fun r => r.num == k.stampBox), exec (.copyStamp c slot) s = .next (takeTurn s c slot k t) := by
  obtain ⟨t, ht, hpick⟩ := pickFrom_mem (Config.partPick s.tick) hsome
  refine ⟨t, ht, ?_⟩
  simp only [exec_copyStamp, execCopyStamp, hslot, hheld, hleft, hdue, hpick, Bool.or_self, Bool.false_eq_true, if_false]

end

end Sys2Proof.Machine
end

section
/-! PROOFS. The capability words (R343 to R346), and the copy and capability words together. -/

namespace Sys2Proof.Machine

/-! ### Where they may run (R346) -/

section
variable {s : State} {h : Head} (g : s.rp h.g = true)
include g

theorem capWord_protected {p : Fin 16} (hp : s.curPart = some p) (hprot : s.parts[p].prot = true) (f : State → Fin 16 → Out) :
    capWord h s f = f s p := by
  simp only [capWord, guarded_true _ g, hp, hprot, if_true]

theorem capWord_priv (hprot : ∀ p, s.curPart = some p → s.parts[p].prot = false) (f : State → Fin 16 → Out) :
    capWord h s f = raise s .priv := by
  rw [capWord, guarded_true _ g]
  split
  next p hp => rw [hprot p hp, if_neg (by decide)]
  next => rfl

theorem exec_capWord_priv (hprot : ∀ p, s.curPart = some p → s.parts[p].prot = false) {dr pr : BitVec 4} {d a n : BitVec 5} {pd : BitVec 3}
    {i : Instr} (hi : i ∈ [Instr.capld h dr a n, .capchk h pd a pr, .capdrv h d a pr, .capst h d a]) : exec i s = raise s .priv := by
  simp only [List.mem_cons, List.not_mem_nil, or_false] at hi
  obtain rfl | rfl | rfl | rfl := hi
  · exact (exec_capld ..).trans (capWord_priv g hprot _)
  · exact (exec_capchk ..).trans (capWord_priv g hprot _)
  · exact (exec_capdrv ..).trans (capWord_priv g hprot _)
  · exact (exec_capst ..).trans (capWord_priv g hprot _)

/-! ### The words at issue (R345) -/

variable {p : Fin 16} (hp : s.curPart = some p) (hprot : s.parts[p].prot = true) (hcap : captureFull s = false) {l m : Loc}
include hp hprot hcap

theorem joins_capchk {a : BitVec 5} (ha : capAddr s (s.rs a) .read = .ok l) (hrec : recordMeets s l 16 = false) (pd : BitVec 3) (pr : BitVec 4) :
    Joins s (exec (.capchk h pd a pr) s) (newEnt s (.capChk pd (capReq s pr)) true false (s.rs a) [⟨l, 0, 16, none⟩]) := by
  rw [exec_capchk, execCapchk, capWord_protected g hp hprot]
  simp only [ha, onRes_ok, hcap, hrec, Bool.or_self, Bool.false_eq_true, if_false]
  exact joins_pushEnt rfl rfl

/-- R345: in the firmware context CAPDRV with A = 0 mints. -/
theorem joins_capdrv_mint {d : BitVec 5} {pr : BitVec 4} (hfw : s.fw = true) (hd : capAddr s (s.rs d) .write = .ok l)
    (hguard : guardStalls s l 16 = false) (hstands : standing s (capReq s pr) = true) :
    Joins s (exec (.capdrv h d 0 pr) s) { newEnt s (.capDrv (capReq s pr) none) true true (s.rs d) [⟨l, 0, 16, none⟩] with
      data := leBytes 16 (minted (capReq s pr)).toNat } := by
  rw [exec_capdrv, execCapdrv, capWord_protected g hp hprot]
  simp only [hfw, hd, onRes_ok, hcap, hguard, hstands, BEq.rfl, Bool.and_self, Bool.not_true, Bool.or_self, Bool.false_eq_true, if_false, if_true]
  exact joins_pushEnt rfl rfl

variable (hrec : recordMeets s l 16 = false) (hpend : capPending s l = false)
include hrec hpend

theorem joins_capld {a n : BitVec 5} (ha : capAddr s (s.rs a + BitVec.ofNat 64 (16 * n.toNat)) .read = .ok l)
    (hheld : capNow s l (heldCheck p.val) = none) (dr : BitVec 4) :
    Joins s (exec (.capld h dr a n) s)
      (newEnt s (.capLd (dr ++ 0#1)) true false (s.rs a + BitVec.ofNat 64 (16 * n.toNat)) [⟨l, 0, 16, none⟩]) := by
  rw [exec_capld, execCapld, capWord_protected g hp hprot]
  simp only [ha, onRes_ok, hcap, hrec, hpend, hheld, Bool.or_self, Bool.false_eq_true, if_false]
  exact joins_pushEnt rfl rfl

variable {a d : BitVec 5} (ha : capAddr s (s.rs a) .read = .ok l) (hd : capAddr s (s.rs d) .write = .ok m)
  (hguard : guardStalls s m 16 = false)
include ha hd hguard

theorem joins_capdrv_derive {pr : BitVec 4} (hderives : s.fw = false ∨ a ≠ 0)
    (hcheck : capNow s l (fun tag par => deriveCheck p.val tag par (capReq s pr)) = none) :
    Joins s (exec (.capdrv h d a pr) s)
      { newEnt s (.capDrv (capReq s pr) (some l)) true true (s.rs d) [⟨l, 0, 16, none⟩, ⟨m, 0, 16, none⟩] with
        data := leBytes 16 (withPart (capReq s pr) p.val).toNat } := by
  have hmint : (s.fw && a == 0) = false := by
    rcases hderives with hfw | hne
    · rw [hfw, Bool.false_and]
    · rw [beq_eq_false_iff_ne.2 hne, Bool.and_false]
  rw [exec_capdrv, execCapdrv, capWord_protected g hp hprot]
  simp only [hmint, ha, hd, onRes_ok, hcap, hguard, hrec, hpend, hcheck, Bool.or_self, Bool.false_eq_true, if_false]
  exact joins_pushEnt rfl rfl

theorem joins_capst (hheld : capNow s l (heldCheck p.val) = none) :
    Joins s (exec (.capst h d a) s) (newEnt s (.capSt l) true true (s.rs d) [⟨l, 0, 16, none⟩, ⟨m, 0, 16, none⟩]) := by
  rw [exec_capst, execCapst, capWord_protected g hp hprot]
  simp only [ha, hd, onRes_ok, hcap, hguard, hrec, hpend, hheld, Bool.or_self, Bool.false_eq_true, if_false]
  exact joins_pushEnt rfl rfl

end

/-- Settles O52: each word and each event by its own lemma, SEAL and UNSEAL by the one that they share. -/
theorem copyAndCapabilityWords : Obligations.CopyAndCapabilityWords := by
  intro s u h d a b pr dr pd n bar handle c slot k p l m i fk v g at_ desc src dst ready clean sealed joins ld free_
  have seals (open_ : Bool) (hready : ready) : sealed open_ := by
    obtain ⟨hal, hroom, hreads, hbar⟩ := hready
    intro hp hprot hshape hsrcAl hdstAl hperm hapart hclean hstart
    have hissue := issueSeal_starts g hal hroom hreads rfl hbar open_ d hp hprot hshape hsrcAl hdstAl rfl rfl hperm hapart hclean hstart
    cases open_ <;> exact hissue
  refine ⟨fun hi hready hfault hover hclean hstart => ?copy, fun hready => ⟨seals false hready, seals true hready⟩,
    fun hslot hguard => ?starts, fun hacq => ?cancelWaits, fun hacq hname => ?cancelUnknown,
    fun hacq hname => ⟨fun hruns hfree => ?cancelEnds, fun hbusy => ?cancelBusy⟩,
    ⟨start_mem_boxTurns s c slot k, phase_mem_boxTurns s c slot k, fun hslot hheld hleft => ⟨?boxIdle, ?boxTakes, ?stampStarts, ?stampIdle,
      ?stampTakes⟩⟩, fun r hdead hwriting => ?written, fun hslot => ?noCopy,
    fun hp hprot => ⟨fun ha hfree hheld => ?capld, fun ha hcap hrec => ?capchk, fun hfw hd hcap hguard hstands => ?mint,
      fun hderives ha hd hfree hguard => ?twoParts⟩, fun hprot j hj => ?priv⟩
  case copy =>
    obtain ⟨hal, hroom, hreads, hbar⟩ := hready
    exact (exec_copyWord hi s).trans (issueCopy_starts g hal hroom hreads rfl hbar d hfault hover hclean hstart)
  case starts =>
    obtain ⟨z, hstart, hboxes, hcredited, hfault, hfw⟩ := startCopy_takes hslot hguard s.fw false (.cpy fk.1 fk.2) desc bar (dSrc desc)
      (dDst desc) (stampOf v desc) (boxCount v desc) 0
    obtain ⟨hmem, hrest⟩ := copyTaken_frame s c s.fw false slot z (copyNeeds s c src dst)
    obtain ⟨hunit, hfirm⟩ := copyTaken_contexts s c s.fw false slot z (copyNeeds s c src dst)
    refine ⟨_, hstart, hmem, hrest, hunit, hfirm, ?_⟩
    rw [copyTaken_copies]
    refine ⟨?_, fun j hj => vput_other _ _ _ _ (Ne.symm hj)⟩
    simp [hboxes, hcredited, hfault, hfw]
  case cancelWaits => exact exec_cpycan_waits g hacq
  case cancelUnknown => exact exec_cpycan_unknown g hacq hname
  case cancelEnds => exact exec_cpycan_ends g hacq hname hruns hfree
  case cancelBusy => exact exec_cpycan_cancels g hacq hname hbusy
  case boxIdle => exact exec_copyBox_idle hslot hheld hleft
  case boxTakes => exact exec_copyBox_takes hslot hheld hleft
  case stampStarts => exact exec_copyStamp_starts hslot
  case stampIdle => exact exec_copyStamp_idle hslot hheld hleft
  case stampTakes => exact exec_copyStamp_takes hslot hheld hleft
  case written => exact takeTurn_written s c slot k hdead hwriting
  case noCopy => exact exec_copyEvents_empty hslot
  case capld =>
    obtain ⟨hcap, hrec, hpend⟩ := hfree
    exact joins_capld g hp hprot hcap hrec hpend ha hheld dr
  case capchk => exact joins_capchk g hp hprot hcap ha hrec pd pr
  case mint => exact joins_capdrv_mint g hp hprot hcap hfw hd hguard hstands
  case twoParts =>
    obtain ⟨hcap, hrec, hpend⟩ := hfree
    exact ⟨joins_capdrv_derive g hp hprot hcap hrec hpend ha hd hguard hderives, joins_capst g hp hprot hcap hrec hpend ha hd hguard⟩
  case priv => exact exec_capWord_priv g hprot hj

end Sys2Proof.Machine
end

section
/-! PROOFS. The order in which a bank, a core's TM and an atomic engine perform what waits there (R207 to R211). -/

namespace Sys2Proof.Machine

/-! ### Keys (R207, R210) -/

theorem keyLt_iff (a b : Nat × Nat × Nat) :
    keyLt a b = true ↔ a.1 < b.1 ∨ (a.1 = b.1 ∧ (a.2.1 < b.2.1 ∨ (a.2.1 = b.2.1 ∧ a.2.2 < b.2.2))) := by
  simp [keyLt]

theorem keyLt_irrefl (a : Nat × Nat × Nat) : keyLt a a = false := by simp [keyLt]

theorem bankRank_eq (k : Fin 64) (q : Req) :
    bankRank k q = if q.isRmw then 5 else if q.writes = false then 1 else if q.core?.map clusterOf ≠ some k then 2
      else match q.who with | .box _ _ _ _ => 3 | _ => 4 := by
  unfold bankRank
  refine if_congr Iff.rfl rfl (if_congr ?reads rfl (if_congr ?away rfl rfl))
  case reads => rw [Bool.not_eq_true']
  case away => rw [Bool.not_eq_true', beq_eq_false_iff_ne]

/-! ### The requests of least key -/

section
variable {key : Req → Nat × Nat × Nat} {l : List Req} {q : Req}

theorem mem_leastReqs : q ∈ leastReqs key l ↔ q ∈ l ∧ ∀ r ∈ l, keyLt (key r) (key q) = false := by simp [leastReqs]

/-- A request that comes before every other is alone among those of least key. -/
theorem leastReqs_of_first (hq : q ∈ l) (hfirst : ∀ r ∈ l, r = q ∨ keyLt (key q) (key r) = true) :
    q ∈ leastReqs key l ∧ ∀ r ∈ leastReqs key l, r = q := by
  refine ⟨mem_leastReqs.2 ⟨hq, fun r hr => ?_⟩, fun r hr => ?_⟩
  · obtain rfl | hlt := hfirst r hr
    · exact keyLt_irrefl _
    · rw [← Bool.not_eq_true, keyLt_iff]
      rw [keyLt_iff] at hlt
      omega
  · obtain ⟨hmem, hleast⟩ := mem_leastReqs.1 hr
    refine (hfirst r hmem).resolve_right fun hlt => ?_
    rw [hleast q hq] at hlt
    cases hlt

end

/-- Where there is only one thing to pick, it is picked. -/
theorem pickFrom_only {α : Type} (n : Nat) {l : List α} {x : α} (hx : x ∈ l) (honly : ∀ y ∈ l, y = x) : pickFrom n l = some x := by
  obtain ⟨y, hy, hpick⟩ := pickFrom_mem n (List.ne_nil_of_mem hx)
  rw [hpick, honly y hy]

/-! ### A bank, and a core's TM (R207, R208) -/

theorem exec_bankRequest_first {s : State} {k bank : Fin 64} {q : Req} (hq : q ∈ (List.finRange 512).flatMap fun c => coreReqs s c)
    (hbank : q.inBank k bank = true)
    (hfirst : ∀ r ∈ (List.finRange 512).flatMap fun c => coreReqs s c, r.inBank k bank = true →
      r = q ∨ keyLt (q.bankKey k) (r.bankKey k) = true) : exec (.bankRequest k bank) s = .next (q.run s) := by
  obtain ⟨hleast, honly⟩ := leastReqs_of_first (key := (·.bankKey k)) (List.mem_filter.2 ⟨hq, hbank⟩) fun r hr => by
    obtain ⟨hmem, hin⟩ := List.mem_filter.1 hr
    exact hfirst r hmem hin
  rw [exec_bankRequest]
  unfold execBankRequest bankRequests
  rw [pickFrom_only _ hleast honly]

theorem mem_tmRequests {s : State} {c : Fin 512} {q : Req} :
    q ∈ tmRequests s c ↔ q ∈ coreReqs s c ∧ q.inTm = true ∧
      ∀ r ∈ coreReqs s c, r.inTm = true → keyLt (r.bankKey (clusterOf c)) (q.bankKey (clusterOf c)) = false := by
  simp only [tmRequests, mem_leastReqs, List.mem_filter, and_imp, and_assoc]

/-! ### An atomic engine (R209 to R211) -/

section
variable {s t : State} {k : Fin 64} {q : Req}

theorem mem_engineRequests (h : q ∈ engineRequests s k) :
    (∃ line, q.line = some (k, line)) ∧ q.atEngine s = true ∧
      ∀ r ∈ allReqs s, r.atEngine s = true → r.line = q.line → keyLt (r.engineKey k) (q.engineKey k) = false := by
  simp only [engineRequests, List.mem_filter, Bool.and_eq_true, List.all_eq_true, Bool.or_eq_true, bne_iff_ne, Bool.not_eq_true',
    Option.any_eq_true, beq_iff_eq] at h
  obtain ⟨⟨hall, ⟨⟨k', line⟩, hline, rfl⟩, hat⟩, hleast, _⟩ := h
  refine ⟨⟨line, hline⟩, hat, fun r hr hrat hsame => (hleast r ⟨hr, ⟨_, ?_, rfl⟩, hrat⟩).resolve_left (not_not_intro hsame)⟩
  rw [hsame, hline]

theorem atEngine_of_line {line : Nat} (hline : q.line = some (k, line)) : q.atEngine s = (q.isRmw || resident s k line) := by
  simp only [Req.atEngine, hline]

theorem exec_atomicEngineRequest_only (hq : q ∈ engineRequests s k) (honly : ∀ r ∈ engineRequests s k, r = q) :
    exec (.atomicEngineRequest k) s = .next ((runAtEngine s k q).getD s) := by
  rw [exec_atomicEngineRequest]
  unfold execAtomicEngineRequest
  rw [pickFrom_only _ hq honly]

theorem pinVa_mem {p : Fin 16} {va : Word} (h : pinVa s p va = some t) : t.mem = s.mem := by
  simp only [pinVa] at h
  split at h
  · split_ifs at h
    cases h
    rfl
  · cases h
    rfl

/-- R211: the line that an engine takes is resident, and no byte of memory changes. -/
theorem touchLine_resident {line : Nat} {p : Fin 16} {busy : Nat → Bool} (h : touchLine s k line p busy = some t) :
    resident t k line = true ∧ t.mem = s.mem := by
  have put (l : EngLine) (ls : List EngLine) (hl : l.addr = line) :
      resident (s.putCluster k { s.clusters[k] with lines := l :: ls }) k line = true := by
    simp [resident, State.putCluster, hl]
  have haddr (l : EngLine) (hl : s.clusters[k].lines.find? (fun l => l.addr == line) = some l) : l.addr = line := by
    simpa using List.find?_some hl
  simp only [touchLine] at h
  split at h
  · cases h
    refine ⟨put _ _ ?_, rfl⟩
    split
    next l hl => exact haddr l hl
    next => rfl
  · obtain ⟨l, _, rfl⟩ := Option.map_eq_some_iff.1 h
    refine ⟨put _ _ ?_, rfl⟩
    split
    next l hl => exact haddr l hl
    next => rfl

/-- R210, R310: what an engine performs, it performs with its line resident; the pin of the page changes no byte of memory. -/
theorem runAtEngine_runs {line : Nat} (hline : q.line = some (k, line)) (h : runAtEngine s k q = some t) :
    ∃ u, t = q.run u ∧ resident u k line = true ∧ u.mem = s.mem := by
  simp only [runAtEngine, hline, Option.map_eq_some_iff, Option.bind_eq_some_iff] at h
  obtain ⟨u, ⟨v, hpin, htouch⟩, rfl⟩ := h
  obtain ⟨hres, hmem⟩ := touchLine_resident htouch
  refine ⟨u, rfl, hres, hmem.trans ?_⟩
  split at hpin
  · split at hpin
    · cases hpin; rfl
    · exact pinVa_mem hpin
  · cases hpin; rfl

end

/-- Settles O30: the request of least key is alone in its list, so it is the one picked; an engine's line is the head of its lines. -/
theorem banksAndEnginesPerformInOrder : Obligations.BanksAndEnginesPerformInOrder := by
  intro s k bank c q cores
  refine ⟨keyLt_iff, rfl, rfl, bankRank_eq k q, exec_bankRequest_first, mem_tmRequests, fun hq => ?_⟩
  obtain ⟨⟨line, hline⟩, hat, hleast⟩ := mem_engineRequests hq
  refine ⟨⟨line, hline, ?_⟩, hleast, fun honly => ⟨exec_atomicEngineRequest_only hq honly, fun t ht => ?_⟩⟩
  · rwa [atEngine_of_line hline, Bool.or_eq_true] at hat
  · obtain ⟨u, hrun, hres, hmem⟩ := runAtEngine_runs hline ht
    exact ⟨u, line, hrun, hline, hres, hmem⟩

end Sys2Proof.Machine
end

section
/-! PROOFS. Messages of other packages (R336, R356 to R358, R363 to R365), the links and the fabric registers (R355 to R362). -/

namespace Sys2Proof.Machine

/-! ### What becomes of a message that arrives (R336, R356, R357) -/

/-- R336, R356: a message of a known kind for this package that opens for a local partition. -/
structure Opens (s : State) (m : Msg) (p : Fin 16) : Prop where
  kind : knownKind m.kind = true
  here : m.dpkg = ownPkg s
  owner : partOfFdid s m.fdid = some p
  opened : badSeal s p m = false

/-- The state in which an answer of a kind takes effect: its request is undelivered no more, its stream has used an IV, and its payload is counted. -/
def answered (s : State) (p : Fin 16) (m : Msg) (k : BitVec 5) : State :=
  (useIv (noteAnswer s p { m with kind := k }) p (hubHop s (ix 4 m.ddie.toNat) true)).count (some p) 8 m.payload.length

section
variable {s : State} {m : Msg} {p : Fin 16} {k : BitVec 5} {f : Fin 16 → Msg → State → Out}

theorem arriving_unknown (hkind : knownKind m.kind = false) : arriving k m s f = .next (unknownKind m s) := by
  simp only [arriving, hkind, Bool.not_false, if_true]

theorem unknownKind_counts (s : State) (m : Msg) :
    (unknownKind m s).fabric.links[cameOn s m].errors = s.fabric.links[cameOn s m].errors + 1 ∧ SameMemory s (unknownKind m s) ∧
      (unknownKind m s).cores = s.cores :=
  ⟨by simp [unknownKind], ⟨fun _ => rfl, rfl⟩, rfl⟩

section
variable (hkind : knownKind m.kind = true)
include hkind

theorem arriving_elsewhere (hdest : m.dpkg ≠ ownPkg s) : arriving k m s f =
    .next { s with fabric := { s.fabric with out := s.fabric.out ++ [⟨{ m with kind := k }, partOfFdid s m.fdid, none, s.clk, false, true⟩] } } := by
  simp only [arriving, hkind, Bool.not_true, Bool.false_eq_true, if_false, ne_eq, hdest, not_false_eq_true, if_true]

variable (hdest : m.dpkg = ownPkg s)
include hdest

theorem arriving_nobody (howner : partOfFdid s m.fdid = none) : arriving k m s f = if k = kErr then .next s else
    .next (sendFor s none none { answerMsg s m kErr [] with opx := Cause.remote.code, addr := m.addr }) := by
  unfold arriving
  simp only [hkind, Bool.not_true, Bool.false_eq_true, if_false, if_neg (not_not_intro hdest), howner]
  rfl

theorem arriving_unsealed (howner : partOfFdid s m.fdid = some p) (hbad : badSeal s p m = true) : arriving k m s f =
    .next (sealFailed (if isRequest k then s else noteAnswer s p { m with kind := k }) p { m with kind := k }) := by
  have hbad' : badSeal s p { m with kind := k } = true := hbad
  unfold arriving
  simp only [hkind, Bool.not_true, Bool.false_eq_true, if_false, if_neg (not_not_intro hdest), howner, hbad', if_true]

end

theorem sealFailed_request (hreq : isRequest m.kind = true) : sealFailed s p m = errAnswer s p m .integrity := if_pos hreq

section
variable (ho : Opens s m p)
include ho

/-- A message that opens goes on as its kind says: requests and REL at once, an answer once its stream can send. -/
theorem arriving_opens : arriving k m s f =
    let t := if isRequest k then s else noteAnswer s p { m with kind := k }
    let hop := hubHop s (ix 4 m.ddie.toNat) true
    if isRequest k || k == kRel then f p { m with kind := k } (t.count (some p) 8 m.payload.length)
    else if ivOpen s p hop then f p { m with kind := k } ((useIv t p hop).count (some p) 8 m.payload.length)
    else stall s := by
  obtain ⟨hkind, hdest, howner, hopen⟩ := ho
  have hopen' : badSeal s p { m with kind := k } = false := hopen
  unfold arriving
  simp only [hkind, Bool.not_true, Bool.false_eq_true, if_false, if_neg (not_not_intro hdest), howner, hopen']

theorem arriving_request (hreq : isRequest k = true) : arriving k m s f = f p { m with kind := k } (s.count (some p) 8 m.payload.length) := by
  simp only [arriving_opens ho, hreq, Bool.true_or, if_true]

section
variable (hreq : isRequest k = false) (hrel : (k == kRel) = false)
include hreq hrel

theorem arriving_answer (hiv : ivOpen s p (hubHop s (ix 4 m.ddie.toNat) true) = true) :
    arriving k m s f = f p { m with kind := k } (answered s p m k) := by
  simp only [arriving_opens ho, hreq, hrel, hiv, Bool.or_self, Bool.false_eq_true, if_false, if_true, answered]

theorem arriving_waits (hiv : ivOpen s p (hubHop s (ix 4 m.ddie.toNat) true) = false) : arriving k m s f = .next { s with mark := .stall } := by
  simp only [arriving_opens ho, hreq, hrel, hiv, Bool.or_self, Bool.false_eq_true, if_false, stall_eq]

end
end
end

/-! ### The messages by their kinds (R357) -/

/-- R357: what asks for bytes or changes them at their home, with its kind. -/
noncomputable def asking (m : Msg) : List (Instr × BitVec 5) :=
  [(.rd m, kRd), (.wr m, kWr), (.amoMessage m, kAmo), (.vamoMessage m, kVamo), (.red m, kRed), (.tile m, kTile)]

/-- R357: what answers, with its kind. -/
noncomputable def answering (m : Msg) : List (Instr × BitVec 5) :=
  [(.rdrsp m, kRdrsp), (.wrack m, kWrack), (.land m, kLand), (.amorsp m, kAmorsp), (.tilersp m, kTilersp), (.holdfull m, kHoldfull), (.err m, kErr)]

/-- Every message, with its kind. -/
noncomputable def arrivals (m : Msg) : List (Instr × BitVec 5) := (.qstMessage m, kQst) :: (.rel m, kRel) :: asking m ++ answering m

section
variable {m : Msg} {a : Instr × BitVec 5} (s : State)

theorem exec_asking (ha : a ∈ asking m) : exec a.1 s = request a.2 m s ∧ isRequest a.2 = true := by
  simp only [asking, List.mem_cons, List.not_mem_nil, or_false] at ha
  obtain rfl | rfl | rfl | rfl | rfl | rfl := ha
  · exact ⟨exec_rd .., rfl⟩
  · exact ⟨exec_wr .., rfl⟩
  · exact ⟨exec_amoMessage .., rfl⟩
  · exact ⟨exec_vamoMessage .., rfl⟩
  · exact ⟨exec_red .., rfl⟩
  · exact ⟨exec_tile .., rfl⟩

theorem exec_answering (ha : a ∈ answering m) : (∃ f, exec a.1 s = arriving a.2 m s f) ∧ isRequest a.2 = false ∧ (a.2 == kRel) = false := by
  simp only [answering, List.mem_cons, List.not_mem_nil, or_false] at ha
  obtain rfl | rfl | rfl | rfl | rfl | rfl | rfl := ha
  · exact ⟨⟨_, exec_rdrsp ..⟩, rfl, rfl⟩
  · exact ⟨⟨_, exec_wrack ..⟩, rfl, rfl⟩
  · exact ⟨⟨_, exec_land ..⟩, rfl, rfl⟩
  · exact ⟨⟨_, exec_amorsp ..⟩, rfl, rfl⟩
  · exact ⟨⟨_, exec_tilersp ..⟩, rfl, rfl⟩
  · exact ⟨⟨_, exec_holdfull ..⟩, rfl, rfl⟩
  · exact ⟨⟨_, exec_err ..⟩, rfl, rfl⟩

theorem exec_arrives (ha : a ∈ arrivals m) : ∃ f, exec a.1 s = arriving a.2 m s f := by
  rcases List.mem_append.1 ha with h | h
  · rcases List.mem_cons.1 h with rfl | h
    · exact ⟨_, exec_qstMessage ..⟩
    · rcases List.mem_cons.1 h with rfl | h
      · exact ⟨_, exec_rel ..⟩
      · exact ⟨_, (exec_asking s h).1⟩
  · exact (exec_answering s h).1

end

/-! ### Requests, and the Quickset stores and their releases (R357, R364, R365) -/

section
variable {s t : State} {m : Msg} {p : Fin 16} {k : BitVec 5} (ho : Opens s m p)
include ho

theorem request_enters (hreq : isRequest k = true) (hin : enterInward (s.count (some p) 8 m.payload.length) p { m with kind := k } = some t) :
    request k m s = .next t := by
  simp only [request, arriving_request ho hreq, hin]

theorem request_waits (hreq : isRequest k = true) (hin : enterInward (s.count (some p) 8 m.payload.length) p { m with kind := k } = none) :
    request k m s = .next { s with mark := .stall } := by
  simp only [request, arriving_request ho hreq, hin, stall_eq]

theorem exec_qstMessage_arrives (hin : arriveQst (s.count (some p) 8 m.payload.length) p { m with kind := kQst } = some t) :
    exec (.qstMessage m) s = .next t := by
  simp only [exec_qstMessage, execQstMessage, arriving_request ho (k := kQst) rfl, hin]

theorem exec_qstMessage_waits (hin : arriveQst (s.count (some p) 8 m.payload.length) p { m with kind := kQst } = none) :
    exec (.qstMessage m) s = .next { s with mark := .stall } := by
  simp only [exec_qstMessage, execQstMessage, arriving_request ho (k := kQst) rfl, hin, stall_eq]

theorem exec_rel_releases : exec (.rel m) s =
    .next (arriveRel ((noteAnswer s p { m with kind := kRel }).count (some p) 8 m.payload.length) m.spkg (msgCore m) m.token) :=
  (exec_rel ..).trans (arriving_opens ho)

end

/-- R364, R365: what becomes of a request of another package, by its kind, once its parts have been performed. -/
def replyTo (s : State) (y : Inward) (k : BitVec 5) : State :=
  if k = kRd then answer s y.part y.msg kRdrsp y.data
  else if k = kTile then answer s y.part y.msg kTilersp y.data
  else if k = kAmo then answer s y.part y.msg kAmorsp y.data
  else if k = kQst then landed s y.part y.msg
  else answer s y.part y.msg kWrack []

theorem endInward_away {s : State} {y : Inward} {k : BitVec 5} (haway : y.msg.spkg ≠ ownPkg s) (hkind : y.msg.kind = k) :
    endInward s y = replyTo s y k := by
  subst hkind
  exact if_neg fun h => haway h.2

/-! ### Answers (R357, R365) -/

theorem firstOf_cons (s : State) (f : Unit → Option State) (l : List (Unit → Option State)) :
    firstOf s (f :: l) = (f ()).getD (firstOf s l) := by
  cases h : f () <;> simp [firstOf, h]

theorem firstOf_nil (s : State) : firstOf s [] = s := rfl

theorem next_some {o : Option State} {t d : State} (h : o = some t) : (.next (o.getD d) : Out) = .next t := by rw [h, Option.getD_some]

theorem next_none {o : Option State} {d : State} (h : o = none) : (.next (o.getD d) : Out) = .next d := by rw [h, Option.getD_none]

section
variable {s : State} {m : Msg} {p : Fin 16} (ho : Opens s m p) (hiv : ivOpen s p (hubHop s (ix 4 m.ddie.toNat) true) = true)
include ho hiv

theorem exec_rdrsp_takes : exec (.rdrsp m) s = let v := answered s p m kRdrsp; let c := msgCore m; let got := Stage.returned m.payload
    .next ((toEnt v c m.addr QEnt.reads got).getD ((toMwait v c m.addr got).getD ((copyGot v c m.addr m.payload).getD
      ((toRecord v c m.addr got).getD ((toHub v p (some true) m.addr got).getD v))))) := by
  simp only [exec_rdrsp, execRdrsp, arriving_answer ho (k := kRdrsp) rfl rfl hiv, firstOf_cons, firstOf_nil]
  rfl

theorem exec_wrack_takes : exec (.wrack m) s = let v := answered s p m kWrack; let c := msgCore m
    .next ((toEnt v c m.addr (fun e => !e.reads && !e.isAmo) (.returned [])).getD ((copyAck v c m.addr).getD
      ((toHub v p (some false) m.addr (.returned [])).getD v))) := by
  simp only [exec_wrack, execWrack, arriving_answer ho (k := kWrack) rfl rfl hiv, firstOf_cons, firstOf_nil]
  rfl

theorem exec_amorsp_takes : exec (.amorsp m) s = let v := answered s p m kAmorsp; let got := Stage.returned m.payload
    .next ((toEnt v (msgCore m) m.addr QEnt.isAmo got).getD ((toHub v p (some false) m.addr got).getD v)) := by
  simp only [exec_amorsp, execAmorsp, arriving_answer ho (k := kAmorsp) rfl rfl hiv, firstOf_cons, firstOf_nil]
  rfl

theorem exec_tilersp_takes : exec (.tilersp m) s = let v := answered s p m kTilersp
    .next ((toMma v (msgCore m) m.addr (.returned m.payload)).getD v) := by
  simp only [exec_tilersp, execTilersp, arriving_answer ho (k := kTilersp) rfl rfl hiv, firstOf_cons, firstOf_nil]
  rfl

theorem exec_land_lands : exec (.land m) s = .next (landToken (answered s p m kLand) (msgCore m) m.token) :=
  (exec_land ..).trans (arriving_answer ho rfl rfl hiv)

theorem exec_holdfull_keeps : exec (.holdfull m) s = .next (holdFull (answered s p m kHoldfull) (msgCore m) m.addr) :=
  (exec_holdfull ..).trans (arriving_answer ho rfl rfl hiv)

theorem exec_err_fails {c : Cause} (hcause : causeOf m.opx = some c) :
    exec (.err m) s = .next (failRequest (answered s p m kErr) (some p) (msgCore m) m.addr c) := by
  simp only [exec_err, execErr, arriving_answer ho (k := kErr) rfl rfl hiv, hcause]
  rfl

theorem exec_err_other (hcause : causeOf m.opx = none) : exec (.err m) s = .next (answered s p m kErr) := by
  simp only [exec_err, execErr, arriving_answer ho (k := kErr) rfl rfl hiv, hcause]

end

/-! ### Held stores, and messages that wait to leave (R358, R364) -/

section
variable {s : State} {h : Fin 1024}

theorem exec_holdExpire_empty (hhold : s.fabric.hold[h] = none) : exec (.holdExpire h) s = .next s := by
  simp only [exec_holdExpire, execHoldExpire, hhold]

variable {e : HoldEnt} (hhold : s.fabric.hold[h] = some e)
include hhold

theorem exec_holdExpire_free (h0 : e.carry0 = 0) (h1 : e.carry1 = 0) : exec (.holdExpire h) s = .next (releaseHolds 1024 s) := by
  simp only [exec_holdExpire, execHoldExpire, hhold, h0, h1, and_self, if_true]

variable (hcarry : e.carry0 ≠ 0 ∨ e.carry1 ≠ 0)
include hcarry

theorem exec_holdExpire_waits (hwait : e.expired = true ∨ s.clk < e.due) : exec (.holdExpire h) s = .next s := by
  simp only [exec_holdExpire, execHoldExpire, hhold, if_neg (not_and_or.2 hcarry), if_pos hwait]

theorem exec_holdExpire_expires (hlive : e.expired = false) (hdue : e.due ≤ s.clk) : exec (.holdExpire h) s =
    .next (releaseHolds 1024 (hubRecord { s with fabric := { s.fabric with hold := vput s.fabric.hold h (some { e with expired := true }) } } e.part
      (hubRec .holdExpire e.msg.addr))) := by
  simp only [exec_holdExpire, execHoldExpire, hhold, if_neg (not_and_or.2 hcarry), hlive, Bool.false_eq_true, false_or, Nat.not_lt.2 hdue,
    if_false]

end

section
variable {s : State} {i : Fin 256}

theorem exec_escapeRoute_empty (hout : s.fabric.out[i.val]? = none) : exec (.escapeRoute i) s = .next s := by
  simp only [exec_escapeRoute, execEscapeRoute, hout]

variable {o : OutMsg} (hout : s.fabric.out[i.val]? = some o)
include hout

theorem exec_escapeRoute_stays (h : o.msg.cls = true ∨ o.escape = true ∨ s.clk < o.since + 256 ∨ switched s = true) :
    exec (.escapeRoute i) s = .next s := by
  simp only [exec_escapeRoute, execEscapeRoute, hout, if_pos h]

theorem exec_escapeRoute_escapes (hcls : o.msg.cls = false) (hesc : o.escape = false) (hdue : o.since + 256 ≤ s.clk) (hsw : switched s = false) :
    exec (.escapeRoute i) s = .next { s with fabric := { s.fabric with out := s.fabric.out.set i.val { o with escape := true } } } := by
  simp only [exec_escapeRoute, execEscapeRoute, hout, hcls, hesc, hsw, Nat.not_lt.2 hdue, Bool.false_eq_true, or_self, if_false]

end

/-! ### What a report leaves of the links (R355, R407) -/

/-- A part of the state that no write of memory or of a die changes. -/
structure Unwritten {α : Type} (f : State → α) : Prop where
  store : ∀ s a bs, f (s.store a bs) = f s
  putDie : ∀ s d x, f (s.putDie d x) = f s

namespace Unwritten
variable {α : Type} {f : State → α} (u : Unwritten f)
include u

theorem sweepPage (s : State) (d : Fin 4) (page : Nat) (k : MemKey) (b : Nat) : f (sweepPage s d page k b) = f s := by
  unfold Machine.sweepPage
  split
  · rfl
  · dsimp only
    split
    · split
      · rfl
      · exact u.putDie ..
    · rfl

theorem advanceBlock {s t : State} {d : Fin 4} {b : Nat} {k : MemKey} {va : Word} (h : advanceBlock s d b k va = .ok t) : f t = f s := by
  simp only [Machine.advanceBlock] at h
  split at h
  · cases h
  · split_ifs at h <;> cases h <;> exact u.putDie ..

theorem writeBlock {s t : State} {d : Fin 4} {p b : Nat} {full : Bool} {k : MemKey} (h : writeBlock s d p b full k = .ok t) : f t = f s := by
  simp only [Machine.writeBlock] at h
  split_ifs at h
  exact (u.advanceBlock h).trans (u.sweepPage ..)

theorem writeBlocks {d : Fin 4} {p : Nat} {full : Nat → Bool} {k : MemKey} (l : List Nat) {s t : State}
    (h : l.foldlM (fun t b => Machine.writeBlock t d p b (full b) k) s = .ok t) : f t = f s := by
  induction l generalizing s with
  | nil => cases h; rfl
  | cons b l ih =>
    rw [List.foldlM_cons] at h
    cases hw : Machine.writeBlock s d p b (full b) k with
    | error c => rw [hw] at h; cases h
    | ok v => rw [hw] at h; exact (ih h).trans (u.writeBlock hw)

theorem hbmRuns {s t : State} {d : Fin 4} {p : Nat} {runs : List (Nat × List Byte)} {k : MemKey} (h : hbmRuns s d p runs k = .ok t) :
    f t = f s := by
  have put (v : State) : f (runs.foldl (fun u (o, bs) => u.store (hbmAddr d (p + o)) bs) v) = f v :=
    Untold.foldl (fun v x => u.store v (hbmAddr d (p + x.1)) x.2) runs v
  simp only [Machine.hbmRuns] at h
  split at h
  · cases h
  · split at h
    · cases h
    · split at h
      · split_ifs at h
        cases h
        exact (put _).trans (u.putDie ..)
      · split at h
        next hw => cases h; exact (put _).trans (u.writeBlocks _ hw)
        next => cases h

theorem devWrite (s : State) (flat : Nat) (bs : List Byte) : f (devWrite s flat bs) = f s := by
  unfold Machine.devWrite
  dsimp only
  split
  next h => exact u.hbmRuns h
  next => rfl

end Unwritten

theorem deliver_fabric (s : State) (c : Fin 512) (e : EventRec) : (deliver s c e).fabric = s.fabric := by
  unfold deliver
  dsimp only
  split
  · simp only [enterEvent, State.storeNat_fabric, State.store_fabric]
  · exact State.putCore_fabric ..

theorem devWrite_fabric (s : State) (flat : Nat) (bs : List Byte) : (devWrite s flat bs).fabric = s.fabric :=
  Unwritten.devWrite ⟨State.store_fabric, State.putDie_fabric⟩ s flat bs

theorem enterRecord_fabric (s : State) (p : Fin 16) (r : FaultRec) : (enterRecord s p r).fabric = s.fabric := by
  simp only [enterRecord, tell, deliver_fabric, State.putPart_fabric, devWrite_fabric]

theorem hubEntered_links (s : State) (p : Fin 16) (r : FaultRec) : (hubEntered s p r).fabric.links = s.fabric.links := by
  unfold hubEntered
  split
  · unfold dropExpired
    dsimp only
    split <;> rfl
  · rfl

/-- R323: a record of the hub may drop a held store; it changes no link. -/
theorem hubRecord_links (s : State) (p : Fin 16) (r : FaultRec) : (hubRecord s p r).fabric.links = s.fabric.links := by
  unfold hubRecord
  split
  · rw [State.putPart_fabric]
  · rw [hubEntered_links, enterRecord_fabric]

theorem pfRaise_fabric (s : State) (v : Fin 8) : (pfRaise s v).fabric = s.fabric := by
  unfold pfRaise
  dsimp only
  split <;> rfl

theorem logRecord_fabric (s : State) (r : FaultRec) : (logRecord s r).fabric = s.fabric := by
  unfold logRecord
  split_ifs
  · rw [enterLog, pfRaise_fabric, State.store_fabric]
  all_goals rfl

theorem reportLink_links (s : State) : (reportLink s).fabric.links = s.fabric.links := by
  unfold reportLink
  dsimp only
  rw [logRecord_fabric]
  refine Untold.foldl (f := fun s => s.fabric.links) (fun v p => ?_) _ _
  split
  · exact hubRecord_links ..
  · rfl

@[simp] theorem modLink_same (s : State) (k : Fin 6) (f : Link → Link) : (modLink s k f).fabric.links[k.val] = f s.fabric.links[k] :=
  vput_same ..

theorem reportLink_modLink (s : State) (k : Fin 6) (f : Link → Link) : (reportLink (modLink s k f)).fabric.links[k] = f s.fabric.links[k] := by
  rw [reportLink_links]
  exact modLink_same s k f

/-! ### Links (R355, R360, R361) -/

section
variable {s : State} {link : Fin 6} {flit : Flit} {pool : Fin 33}

theorem exec_link_down (hdown : s.fabric.links[link].up = false) {a : Instr}
    (ha : a ∈ [Instr.flitReceive link flit, .poolStopGo link pool, .linkDown link]) : exec a s = .next s := by
  simp only [List.mem_cons, List.not_mem_nil, or_false] at ha
  obtain rfl | rfl | rfl := ha
  · simp only [exec_flitReceive, execFlitReceive, hdown, Bool.not_false, if_true]
  · simp only [exec_poolStopGo, execPoolStopGo, hdown, Bool.not_false, if_true]
  · simp only [exec_linkDown, execLinkDown, hdown, Bool.false_eq_true, if_false]

section
variable (hup : s.fabric.links[link].up = true)
include hup

theorem exec_flitReceive_crc (hcrc : flit.crcOk = false) : ∃ t, exec (.flitReceive link flit) s = .next t ∧
    t.fabric.links[link] = { s.fabric.links[link] with errors := s.fabric.links[link].errors + 1 } := by
  obtain ⟨pf, hexec⟩ : ∃ pf, exec (.flitReceive link flit) s =
      .next (reportLink { modLink s link fun l => { l with errors := l.errors + 1 } with pf := pf }) := by
    simp only [exec_flitReceive, execFlitReceive, hup, hcrc, Bool.not_true, Bool.not_false, Bool.false_eq_true, if_false, if_true]
    exact ⟨_, rfl⟩
  refine ⟨_, hexec, ?_⟩
  rw [reportLink_links]
  exact modLink_same s link fun l => { l with errors := l.errors + 1 }

section
variable (hcrc : flit.crcOk = true)
include hcrc

theorem exec_flitReceive_unsealed
    (hbad : (!flit.tagOk || (partOfFdid s flit.fdid).any fun q => s.parts[q].prot && !acceptsEpoch s q flit.epoch) = true) :
    exec (.flitReceive link flit) s = .next (modLink s link fun l => { l with errors := l.errors + 1 }) := by
  simp only [exec_flitReceive, execFlitReceive, hup, hcrc, hbad, Bool.not_true, Bool.false_eq_true, if_false, if_true]

variable (hgood : (!flit.tagOk || (partOfFdid s flit.fdid).any fun q => s.parts[q].prot && !acceptsEpoch s q flit.epoch) = false)
include hgood

theorem exec_flitReceive_takes {i : Fin 33} (hpool : flitPool s.fabric.links[link] flit = some i) : exec (.flitReceive link flit) s =
    .next (modLink s link fun l => { l with used := vput l.used i (l.used[i] + 1) }) := by
  simp only [exec_flitReceive, execFlitReceive, hup, hcrc, hgood, hpool, Bool.not_true, Bool.false_eq_true, if_false]

theorem exec_flitReceive_full (hpool : flitPool s.fabric.links[link] flit = none) : exec (.flitReceive link flit) s =
    .next (reportLink (modLink s link fun l => { l with errors := l.errors + 1 })) := by
  simp only [exec_flitReceive, execFlitReceive, hup, hcrc, hgood, hpool, Bool.not_true, Bool.false_eq_true, if_false]

end

theorem exec_poolStopGo_signals (pool : Fin 33) : ∃ t, exec (.poolStopGo link pool) s = .next t ∧
    t.fabric.links[link].used[pool] ≤ s.fabric.links[link].used[pool] ∧
    (t.fabric.links[link].stop[pool] = true ↔ poolSlots pool - t.fabric.links[link].used[pool] ≤ s.fabric.links[link].k) := by
  simp only [exec_poolStopGo, execPoolStopGo, hup, Bool.not_true, Bool.false_eq_true, if_false]
  refine ⟨_, rfl, ?_⟩
  simp

theorem exec_linkDown_empties : ∃ t, exec (.linkDown link) s = .next t ∧ t.fabric.links[link].up = false ∧
    ∀ j : Fin 33, t.fabric.links[link].used[j] = 0 := by
  simp only [exec_linkDown, execLinkDown, hup, if_true]
  refine ⟨_, rfl, ?_⟩
  rw [reportLink_modLink]
  exact ⟨rfl, fun j => by simp [Link.fresh]⟩

end

variable {rt : BitVec 8}

theorem exec_linkTrain_off (hen : s.fabric.hfcfg.getLsbD 63 = false) : exec (.linkTrain link rt) s = .next s := by
  simp only [exec_linkTrain, execLinkTrain, hen, Bool.not_false, if_true]

theorem exec_linkTrain_trains (hen : s.fabric.hfcfg.getLsbD 63 = true) : ∃ t, exec (.linkTrain link rt) s = .next t ∧
    t.fabric.links[link].up = decide (rt.toNat ≤ if switched s then 3 else 2) := by
  simp only [exec_linkTrain, execLinkTrain, hen, Bool.not_true, Bool.false_eq_true, if_false]
  refine ⟨_, rfl, ?_⟩
  rw [reportLink_modLink]
  rfl

end

/-! ### The fabric registers (R356) -/

theorem hfReg_zero : hfReg 0 = .hfcfg := rfl

theorem hfReg_fdmap (p : Fin 16) : hfReg (BitVec.ofNat 13 (1 + p.val)) = .fdmap p := by
  have hnum : (BitVec.ofNat 13 (1 + p.val)).toNat = 1 + p.val := by
    rw [BitVec.toNat_ofNat]
    omega
  have hix : ix 16 (1 + p.val - 1) = p := Fin.ext (by rw [ix, Fin.val_ofNat]; omega)
  simp only [hfReg, hnum, hix]
  rw [if_neg (by omega), if_pos (by omega)]

theorem hfReg_swport {reg : BitVec 13} (h : 4096 ≤ reg.toNat) : hfReg reg = .swport (reg.toNat - 4096) := by
  simp only [hfReg]
  rw [if_neg (by omega), if_neg (by omega), if_pos h]

/-- The entry of a number once the others have stayed and its own, where it is not zero, has been put in front. -/
theorem lookup_putFront (l : List (Nat × BitVec 16)) (n : Nat) (x : BitVec 16) :
    (if x = 0 then l.filter (fun e => e.1 != n) else (n, x) :: l.filter (fun e => e.1 != n)).lookup n = if x = 0 then none else some x := by
  split
  · refine List.lookup_eq_none_iff.2 fun e he => ?_
    rw [bne_comm]
    exact (List.mem_filter.1 he).2
  · exact List.lookup_cons_self

section
variable {s : State} {reg : BitVec 13} {x : Word}

theorem exec_hfcfgWrite_refused (h : hfRefused s reg x = true) : exec (.hfcfgWrite reg x) s = .next s := by
  simp only [exec_hfcfgWrite, execHfcfgWrite, h, if_true]

variable (h : hfRefused s reg x = false)
include h

theorem exec_hfcfgWrite_hfcfg (hreg : hfReg reg = .hfcfg) :
    exec (.hfcfgWrite reg x) s = .next { s with fabric := { s.fabric with hfcfg := x &&& 0xC0FFF000FFF00000 } } := by
  simp only [exec_hfcfgWrite, execHfcfgWrite, h, hreg, Bool.false_eq_true, if_false]

theorem exec_hfcfgWrite_fdmap {p : Fin 16} (hreg : hfReg reg = .fdmap p) : exec (.hfcfgWrite reg x) s =
    .next { s with fabric := { s.fabric with fdmap := vput s.fabric.fdmap p (x &&& 0x800000000000FFFF) } } := by
  simp only [exec_hfcfgWrite, execHfcfgWrite, h, hreg, Bool.false_eq_true, if_false]

theorem exec_hfcfgWrite_swport {n : Nat} (hreg : hfReg reg = .swport n) : ∃ t, exec (.hfcfgWrite reg x) s = .next t ∧
    t.fabric.swport.lookup n = if x.setWidth 16 &&& 0x80FF = 0 then none else some (x.setWidth 16 &&& 0x80FF) := by
  simp only [exec_hfcfgWrite, execHfcfgWrite, h, hreg, Bool.false_eq_true, if_false]
  exact ⟨_, rfl, lookup_putFront ..⟩

end

/-- Settles O58: each message by what becomes of it on arrival and by its own lemma; the links and the registers, event by event. -/
theorem messagesAndLinks : Obligations.MessagesAndLinks := by
  intro s t m p k e o link flit pool pl rt reg x h i y c as_ owner hop here opens mine counted u requests answers all got f l fab wait away ends
  have opened : opens → Opens s m p := fun ⟨⟨hkind, hdest⟩, howner, hopen⟩ => ⟨hkind, hdest, howner, hopen⟩
  have reply (q : BitVec 5) : ends q (replyTo s y q) := endInward_away
  refine ⟨fun hkind a ha => ?unknown, fun hkind hdest a ha => ?elsewhere, fun ⟨hkind, hdest⟩ howner => ⟨fun a ha herr => ?nobody, ?nobodyErr⟩,
    fun ⟨hkind, hdest⟩ howner hbad => ⟨fun a ha => ?unsealedAsk, ?unsealedLand, ?unsealedRdrsp⟩,
    fun ho a ha => ?asks, fun ho => ⟨exec_qstMessage_arrives (opened ho), exec_qstMessage_waits (opened ho), exec_rel_releases (opened ho)⟩,
    ⟨reply kRd, reply kTile, reply kAmo, reply kWr, reply kVamo, reply kRed, reply kQst⟩,
    fun ho hiv a ha => ?waits, fun ⟨ho, hiv⟩ => ⟨exec_land_lands (opened ho) hiv, exec_holdfull_keeps (opened ho) hiv,
      exec_err_fails (opened ho) hiv, exec_err_other (opened ho) hiv⟩,
    fun ⟨ho, hiv⟩ => ?rdrsp, fun ⟨ho, hiv⟩ => ?wrack, fun ⟨ho, hiv⟩ => ?amorsp,
    fun ⟨ho, hiv⟩ => exec_tilersp_takes (opened ho) hiv,
    exec_holdExpire_empty, fun hhold => ⟨exec_holdExpire_free hhold, fun hcarry =>
      ⟨exec_holdExpire_waits hhold hcarry, exec_holdExpire_expires hhold hcarry⟩⟩,
    fun hout => ⟨exec_escapeRoute_escapes hout, exec_escapeRoute_stays hout⟩, exec_escapeRoute_empty,
    fun hdown a ha => exec_link_down hdown ha,
    fun hup => ⟨exec_flitReceive_crc hup, ⟨exec_flitReceive_unsealed hup, fun hcrc hgood hpool => exec_flitReceive_takes hup hcrc hgood hpool,
        exec_flitReceive_full hup⟩,
      exec_poolStopGo_signals hup pool, exec_linkDown_empties hup⟩,
    exec_linkTrain_off, exec_linkTrain_trains, exec_hfcfgWrite_refused,
    fun hok => ⟨fun hreg => exec_hfcfgWrite_hfcfg hok (hreg ▸ hfReg_zero), fun hreg => exec_hfcfgWrite_fdmap hok (hreg ▸ hfReg_fdmap p),
      fun hreg => exec_hfcfgWrite_swport hok (hfReg_swport hreg)⟩⟩
  case unknown =>
    obtain ⟨g, hexec⟩ := exec_arrives s ha
    exact ⟨_, hexec.trans (arriving_unknown hkind), unknownKind_counts s m⟩
  case elsewhere =>
    obtain ⟨g, hexec⟩ := exec_arrives s ha
    exact hexec.trans (arriving_elsewhere hkind hdest)
  case nobody =>
    obtain ⟨g, hexec⟩ := exec_arrives s ha
    rw [hexec, arriving_nobody hkind hdest howner, if_neg herr]
  case nobodyErr => exact (exec_err ..).trans (arriving_nobody hkind hdest howner)
  case unsealedAsk =>
    obtain ⟨hexec, hreq⟩ := exec_asking s ha
    rw [hexec, request, arriving_unsealed hkind hdest howner hbad, if_pos hreq, sealFailed_request (m := as_ a.2) hreq]
  case unsealedLand => exact (exec_land ..).trans (arriving_unsealed hkind hdest howner hbad)
  case unsealedRdrsp => exact (exec_rdrsp ..).trans (arriving_unsealed hkind hdest howner hbad)
  case asks =>
    obtain ⟨hexec, hreq⟩ := exec_asking s ha
    exact ⟨fun hin => hexec.trans (request_enters (opened ho) hreq hin), fun hin => hexec.trans (request_waits (opened ho) hreq hin)⟩
  case waits =>
    obtain ⟨⟨g, hexec⟩, hreq, hrel⟩ := exec_answering s ha
    exact hexec.trans (arriving_waits (opened ho) hreq hrel hiv)
  case rdrsp =>
    have hexec := exec_rdrsp_takes (opened ho) hiv
    exact ⟨fun hrd => hexec.trans (next_some hrd), fun hrd hwt => hexec.trans ((next_none hrd).trans (next_some hwt)),
      fun hrd hwt hcp => hexec.trans ((next_none hrd).trans ((next_none hwt).trans (next_some hcp))),
      fun hrd hwt hcp hrec => hexec.trans ((next_none hrd).trans ((next_none hwt).trans ((next_none hcp).trans (next_some hrec)))),
      fun hrd hwt hcp hrec => hexec.trans ((next_none hrd).trans ((next_none hwt).trans ((next_none hcp).trans (next_none hrec))))⟩
  case wrack =>
    have hexec := exec_wrack_takes (opened ho) hiv
    exact ⟨fun hst => hexec.trans (next_some hst), fun hst hcp => hexec.trans ((next_none hst).trans (next_some hcp)),
      fun hst hcp => hexec.trans ((next_none hst).trans (next_none hcp))⟩
  case amorsp =>
    have hexec := exec_amorsp_takes (opened ho) hiv
    exact ⟨fun hamo => hexec.trans (next_some hamo), fun hamo => hexec.trans (next_none hamo)⟩

end Sys2Proof.Machine
end

section
/-! PROOFS. The stream records (R213 to R236): what an encoding puts at each byte, and that decoding gives the record back. -/

namespace Sys2Proof
open Machine

/-! ### Fields of a record's bytes (R3) -/

theorem fieldAt_leBytes_append (n x : Nat) (ys : List Byte) : fieldAt (leBytes n x ++ ys) 0 n = x % 256 ^ n := by
  rw [fieldAt_append_left _ (by simp), fieldAt_leBytes]

theorem fieldAt_leBytes_skip {k x o n : Nat} {ys : List Byte} (h : k ≤ o) : fieldAt (leBytes k x ++ ys) o n = fieldAt ys (o - k) n := by
  rw [fieldAt_append_right _ _ (by simpa using h), length_leBytes]

theorem leNat_zeros (n : Nat) : leNat (List.replicate n 0) = 0 := by
  induction n with
  | zero => rfl
  | succ n ih => rw [List.replicate_succ, leNat, ih]; rfl

@[simp] theorem fieldAt_zeros (k o n : Nat) : fieldAt (List.replicate k 0) o n = 0 := by
  rw [fieldAt, List.drop_replicate, List.take_replicate, leNat_zeros]

/-- A field of one of many parts of one size that stand side by side. -/
theorem fieldAt_flatMap_part {α : Type} {f : α → List Byte} {m : Nat} (hf : ∀ x, (f x).length = m) (l : List α) {i j n : Nat}
    (hi : i < l.length) (hj : j + n ≤ m) : fieldAt (l.flatMap f) (m * i + j) n = fieldAt (f l[i]) j n := by
  induction l generalizing i with
  | nil => simp at hi
  | cons x l ih =>
    rw [List.flatMap_cons]
    cases i with
    | zero => rw [Nat.mul_zero, Nat.zero_add, fieldAt_append_left _ (by rw [hf]; exact hj)]; rfl
    | succ i =>
      rw [fieldAt_append_right _ _ (by rw [hf, Nat.mul_succ]; omega), hf, show m * (i + 1) + j - m = m * i + j by rw [Nat.mul_succ]; omega,
        ih (by simpa using hi), List.getElem_cons_succ]

theorem length_flatMap_part {α : Type} {f : α → List Byte} {m : Nat} (hf : ∀ x, (f x).length = m) (l : List α) :
    (l.flatMap f).length = m * l.length := by
  simp [List.length_flatMap, hf, Nat.mul_comm]

/-! ### Word 0 (R213) -/

@[simp] theorem length_wordZero (wop units flags opnd : Nat) : (wordZero wop units flags opnd).length = 4 := length_leBytes _ _

/-- R213: the four fields of word 0 of a record's bytes. -/
structure Begins (bs : List Byte) (wop units flags opnd : Nat) : Prop where
  wop : fieldAt bs 0 4 / 2 ^ 24 = wop
  units : fieldAt bs 0 4 / 2 ^ 20 % 16 = units
  flags : fieldAt bs 0 4 / 2 ^ 16 % 16 = flags
  opnd : fieldAt bs 0 4 % 2 ^ 16 = opnd

theorem begins_wordZero {wop units flags opnd : Nat} (ys : List Byte) (hw : wop < 256) (hu : units < 16) (hf : flags < 16) (ho : opnd < 2 ^ 16) :
    Begins (wordZero wop units flags opnd ++ ys) wop units flags opnd := by
  have hfield : fieldAt (wordZero wop units flags opnd ++ ys) 0 4 = opnd + 2 ^ 16 * flags + 2 ^ 20 * units + 2 ^ 24 * wop := by
    rw [wordZero, fieldAt_leBytes_append, Nat.mod_eq_of_lt (by omega)]
  constructor <;> rw [hfield] <;> omega

theorem Begins.units2 {bs : List Byte} {wop units flags opnd : Nat} (h : Begins bs wop units flags opnd) :
    BitVec.ofNat 2 (fieldAt bs 0 4 / 2 ^ 20) = BitVec.ofNat 2 units := by
  have := h.units
  apply BitVec.eq_of_toNat_eq
  simp only [BitVec.toNat_ofNat]
  omega

theorem Begins.recordBytes {bs : List Byte} {wop units flags opnd : Nat} (h : Begins bs wop units flags opnd) :
    recordBytes bs = 32 * (units + 1) := by
  rw [Sys2Proof.recordBytes, h.units]

/-- R232: the vector is the low byte of its word. -/
theorem leBytes_vector (v : BitVec 8) : leBytes 4 v.toNat = leBytes 1 v.toNat ++ leBytes 3 0 := by
  have hv : v.toNat / 256 = 0 := Nat.div_eq_of_lt v.isLt
  simp [leBytes, hv]

/-- R220: the flags of WBUF hold DEPTH below FIXED. -/
theorem bufferFlags (d : BitVec 3) : d.toNat / 8 = 0 ∧ (d.toNat + 8) / 8 = 1 ∧ BitVec.ofNat 3 (d.toNat + 8) = d := by
  have hd := d.isLt
  exact ⟨by omega, by omega, by bv_omega⟩

theorem units_lt (u : BitVec 2) : u.toNat < 4 := u.isLt

theorem wcond?_wcondCode (c : WCond) : wcond? (wcondCode c) = some c := by cases c <;> rfl

/-! ### The bytes after word 0 -/

section
variable {wop units flags opnd o n w : Nat} {ys : List Byte}

theorem fieldAt_wordZero_skip (h : 4 ≤ o) : fieldAt (wordZero wop units flags opnd ++ ys) o n = fieldAt ys (o - 4) n := fieldAt_leBytes_skip h

theorem recBits_wordZero_skip (h : 4 ≤ o) : recBits (wordZero wop units flags opnd ++ ys) o n w = recBits ys (o - 4) n w := by
  rw [recBits, fieldAt_wordZero_skip h, recBits]

theorem recBits_leBytes_skip {k x : Nat} (h : k ≤ o) : recBits (leBytes k x ++ ys) o n w = recBits ys (o - k) n w := by
  rw [recBits, fieldAt_leBytes_skip h, recBits]

theorem recBits_leBytes {x : BitVec w} (h : w ≤ 8 * n) : recBits (leBytes n x.toNat) 0 n w = x := by
  have hlt : x.toNat < 256 ^ n := calc
    x.toNat < 2 ^ w := x.isLt
    _ ≤ 2 ^ (8 * n) := Nat.pow_le_pow_right (by decide) h
    _ = 256 ^ n := by rw [pow_mul]; rfl
  rw [recBits, fieldAt_leBytes, Nat.mod_eq_of_lt hlt, BitVec.ofNat_toNat, BitVec.setWidth_eq]

theorem recBits_leBytes_append {x : BitVec w} (h : w ≤ 8 * n) : recBits (leBytes n x.toNat ++ ys) 0 n w = x := by
  rw [recBits, fieldAt_append_left _ (by simp), ← recBits, recBits_leBytes h]

end

/-! ### Every record but WTASK -/

/-- A record's bytes decode to it, and word 0 states their number. -/
def RoundTrip (bs : List Byte) (i : Instr) : Prop := decodeStream bs = some i ∧ recordBytes bs = bs.length

theorem roundTrip_of_begins {wop units flags opnd : Nat} {ys : List Byte} {i : Instr} (hw : wop < 256) (hu : units < 16) (hf : flags < 16)
    (ho : opnd < 2 ^ 16) (hl : 4 + ys.length = 32 * (units + 1))
    (hd : Begins (wordZero wop units flags opnd ++ ys) wop units flags opnd → decodeStream (wordZero wop units flags opnd ++ ys) = some i) :
    RoundTrip (wordZero wop units flags opnd ++ ys) i := by
  have hb := begins_wordZero ys hw hu hf ho
  exact ⟨hd hb, by rw [hb.recordBytes, List.length_append, length_wordZero, hl]⟩

theorem roundTrip_of_encodeStream {i : Instr} {bs : List Byte} (hwf : WellFormed i = true) (ht : ∀ r, i ≠ .wtask r)
    (he : encodeStream i = some bs) : RoundTrip bs i := by
  cases i <;> cases he
  case wtask r => exact absurd rfl (ht r)
  -- A field that no flag asks for is zero.
  case' wcall b buf _ _ =>
    cases b
    case' false => obtain rfl : buf = 0 := by simpa [WellFormed] using hwf
  case' wsignalSt i _ vec _ _ =>
    cases i
    case' false => obtain rfl : vec = 0 := by simpa [WellFormed] using hwf
  case' wsignalAdd i _ vec _ _ =>
    cases i
    case' false => obtain rfl : vec = 0 := by simpa [WellFormed] using hwf
  case' wbuf fixed _ _ _ _ => cases fixed
  case' wgraph pre _ _ => cases pre
  case' wphase job _ => cases job
  all_goals
    simp only [padTo, leBytes_vector, List.append_assoc, Bool.toNat_true, Bool.toNat_false, Nat.mul_zero, Nat.mul_one, Nat.add_zero]
    refine roundTrip_of_begins (by omega) (by omega) (by omega) (by omega) ?_ fun hb => ?_
    · simp only [List.length_append, length_leBytes, length_wordZero, List.length_replicate] <;> omega
    · simp only [decodeStream, hb.wop, hb.units, hb.units2, hb.flags, hb.opnd, fieldAt_wordZero_skip, fieldAt_leBytes_skip, recBits_wordZero_skip,
        recBits_leBytes_skip, recBits_leBytes, recBits_leBytes_append, fieldAt_leBytes_append,
        fieldAt_zeros, BitVec.isLt, decide_true, Nat.reduceLeDiff, Nat.reduceMul, Nat.reduceSub, le_refl]
      simp [wcond?_wcondCode, bufferFlags, units_lt]

/-! ### WTASK (R222) -/

theorem length_encodeSlot (x : WSlot) : (encodeSlot x).length = 10 := by simp [encodeSlot]

theorem fieldAt_encodeSlot (x : WSlot) : fieldAt (encodeSlot x) 0 2 = x.buf.toNat + 2 ^ 12 * x.mode.toNat := by
  have hb := x.buf.isLt
  have hm := x.mode.isLt
  rw [encodeSlot, List.append_assoc, fieldAt_leBytes_append, Nat.mod_eq_of_lt (by omega)]

theorem recBits_encodeSlot_offset (x : WSlot) : recBits (encodeSlot x) 2 4 32 = x.offset := by
  rw [encodeSlot, List.append_assoc, recBits_leBytes_skip (by decide), recBits_leBytes_append (by decide)]

theorem recBits_encodeSlot_length (x : WSlot) : recBits (encodeSlot x) 6 4 32 = x.length := by
  rw [encodeSlot, List.append_assoc, recBits_leBytes_skip (by decide), recBits_leBytes_skip (by decide), recBits_leBytes (by decide)]

/-- R222: a slot's ten bytes give it back, wherever they stand. -/
theorem decodeSlot_of_encodeSlot {bs : List Byte} {k : Nat} {x : WSlot}
    (h : ∀ j n, j + n ≤ 10 → fieldAt bs (32 + 10 * k + j) n = fieldAt (encodeSlot x) j n) : decodeSlot bs k = some x := by
  have hb := x.buf.isLt
  have hm := x.mode.isLt
  have hx := (h 0 2 (by decide)).trans (fieldAt_encodeSlot x)
  have ho : recBits bs (34 + 10 * k) 4 32 = x.offset := by
    rw [← recBits_encodeSlot_offset, recBits, recBits, ← h 2 4 (by decide), show 34 + 10 * k = 32 + 10 * k + 2 by omega]
  have hl : recBits bs (38 + 10 * k) 4 32 = x.length := by
    rw [← recBits_encodeSlot_length, recBits, recBits, ← h 6 4 (by decide), show 38 + 10 * k = 32 + 10 * k + 6 by omega]
  have hmode : BitVec.ofNat 2 ((x.buf.toNat + 2 ^ 12 * x.mode.toNat) / 2 ^ 12) = x.mode := by
    apply BitVec.eq_of_toNat_eq
    simp only [BitVec.toNat_ofNat]
    omega
  have hbuf : BitVec.ofNat 12 (x.buf.toNat + 2 ^ 12 * x.mode.toNat) = x.buf := by
    apply BitVec.eq_of_toNat_eq
    simp only [BitVec.toNat_ofNat]
    omega
  rw [Nat.add_zero] at hx
  rw [decodeSlot, hx, ho, hl, if_pos (by omega), hmode, hbuf]

section
variable (r : WTaskRec)

/-- The bytes of the slots that the record holds. -/
def slotBytes : List Byte := (r.slots.toList.take (slotsThatFit r.units)).flatMap encodeSlot

theorem flatMap_encodeSlot : (r.slots.toList.take (slotsThatFit r.units)).flatMap encodeSlot = slotBytes r := rfl

/-- R222: the bytes of a WTASK record after its six counts; zeros fill its units after the last slot. -/
def taskTail : List Byte :=
  leBytes 4 r.order.toNat ++ (leBytes 4 r.poff.toNat ++ (leBytes 2 r.kbuf.toNat ++ (leBytes 6 r.koff.toNat ++
    (slotBytes r ++ List.replicate (32 * r.units.toNat - 10 * slotsThatFit r.units) 0))))

/-- R222: the bytes of a WTASK record. -/
def taskBytes : List Byte :=
  wordZero 0x08 r.units.toNat (4 * r.loopIdx.toNat + 8 * r.pre.toNat) r.tag.toNat ++
    (r.counts.toList.flatMap (fun c => leBytes 2 c.toNat) ++ taskTail r)

theorem slotsThatFit_le (u : BitVec 2) : slotsThatFit u ≤ 8 ∧ 10 * slotsThatFit u ≤ 32 * u.toNat := by revert u; decide

theorem length_slotBytes : (slotBytes r).length = 10 * slotsThatFit r.units := by
  rw [slotBytes, length_flatMap_part length_encodeSlot, List.length_take, Vector.length_toList, Nat.min_eq_left (slotsThatFit_le _).1]

theorem length_counts : (r.counts.toList.flatMap fun c => leBytes 2 c.toNat).length = 12 := by
  rw [length_flatMap_leBytes, Vector.length_toList]

theorem encodeStream_wtask : encodeStream (.wtask r) = some (taskBytes r) := by
  have hpad : 32 * (r.units.toNat + 1) - (4 + (12 + (4 + (4 + (2 + (6 + 10 * slotsThatFit r.units)))))) =
      32 * r.units.toNat - 10 * slotsThatFit r.units := by omega
  refine congrArg some ?_
  simp only [flatMap_encodeSlot, padTo, List.append_assoc, List.length_append, length_wordZero, length_leBytes, length_counts, length_slotBytes,
    hpad, taskBytes, taskTail]

theorem recBits_count (i : Fin 6) : recBits (taskBytes r) (4 + 2 * i.val) 2 16 = r.counts[i] := by
  have hi : i.val < r.counts.toList.length := by simp
  rw [recBits, taskBytes, fieldAt_wordZero_skip (by omega), fieldAt_append_left _ (by rw [length_counts]; omega), Nat.add_sub_cancel_left,
    fieldAt_flatMap _ _ _ hi, Nat.mod_eq_of_lt (show _ < 256 ^ 2 from BitVec.isLt _), BitVec.ofNat_toNat, BitVec.setWidth_eq]
  rfl

/-- The fields after the counts begin at byte 16. -/
theorem fieldAt_taskTail {o n : Nat} (h : 16 ≤ o) : fieldAt (taskBytes r) o n = fieldAt (taskTail r) (o - 16) n := by
  rw [taskBytes, fieldAt_wordZero_skip (by omega), fieldAt_append_right _ _ (by rw [length_counts]; omega), length_counts, Nat.sub_sub]

theorem recBits_taskTail {o n w : Nat} (h : 16 ≤ o) : recBits (taskBytes r) o n w = recBits (taskTail r) (o - 16) n w := by
  rw [recBits, fieldAt_taskTail r h, recBits]

/-- The slots begin at byte 32. -/
theorem fieldAt_taskSlots (o n : Nat) : fieldAt (taskBytes r) (32 + o) n =
    fieldAt (slotBytes r ++ List.replicate (32 * r.units.toNat - 10 * slotsThatFit r.units) 0) o n := by
  rw [fieldAt_taskTail r (by omega), taskTail, fieldAt_leBytes_skip (by omega), fieldAt_leBytes_skip (by omega), fieldAt_leBytes_skip (by omega),
    fieldAt_leBytes_skip (by omega)]
  congr 1
  omega

theorem fieldAt_taskPad (n : Nat) : fieldAt (taskBytes r) (32 + 10 * slotsThatFit r.units) n = 0 := by
  rw [fieldAt_taskSlots, fieldAt_append_right _ _ (by rw [length_slotBytes]), fieldAt_zeros]

theorem decodeSlot_task {k : Fin 8} (hk : k.val < slotsThatFit r.units) : decodeSlot (taskBytes r) k = some r.slots[k] := by
  have hl : k.val < (r.slots.toList.take (slotsThatFit r.units)).length := by simp; omega
  refine decodeSlot_of_encodeSlot fun j n hj => ?_
  rw [Nat.add_assoc, fieldAt_taskSlots, fieldAt_append_left _ (by rw [length_slotBytes]; omega), slotBytes,
    fieldAt_flatMap_part length_encodeSlot _ hl hj, List.getElem_take]
  rfl

theorem slotOf_task (hwf : WellFormed (.wtask r) = true) (k : Fin 8) : slotOf (taskBytes r) r.units k = r.slots[k] := by
  by_cases hk : k.val < slotsThatFit r.units
  · rw [slotOf, if_pos hk, decodeSlot_task r hk, Option.getD_some]
  · have hall := List.all_eq_true.1 hwf k (List.mem_finRange k)
    have hz : r.slots[k] = WSlot.zero := by simpa [hk] using hall
    rw [slotOf, if_neg hk, hz]

/-- R222: LOOPIDX and PRE stand above the two reserved flags. -/
theorem taskFlags (a b : Bool) : (4 * a.toNat + 8 * b.toNat) % 4 = 0 ∧ decide ((4 * a.toNat + 8 * b.toNat) / 8 % 2 = 1) = b ∧
    decide ((4 * a.toNat + 8 * b.toNat) / 4 % 2 = 1) = a ∧ 4 * a.toNat + 8 * b.toNat < 16 := by
  cases a <;> cases b <;> decide

/-- R222: the reserved bits of the record are zero, and each slot that it holds decodes. -/
theorem taskReserved : (4 * r.loopIdx.toNat + 8 * r.pre.toNat) % 4 = 0 ∧ fieldAt (taskBytes r) 16 4 / 2 ^ 18 = 0 ∧
    fieldAt (taskBytes r) 24 2 / 2 ^ 12 = 0 ∧
    fieldAt (taskBytes r) (32 + 10 * slotsThatFit r.units) (32 * r.units.toNat - 10 * slotsThatFit r.units) = 0 ∧
    (List.range (slotsThatFit r.units)).all (fun k => (decodeSlot (taskBytes r) k).isSome) = true := by
  have horder := r.order.isLt
  have hkbuf := r.kbuf.isLt
  have hfit := (slotsThatFit_le r.units).1
  refine ⟨(taskFlags _ _).1, ?_, ?_, fieldAt_taskPad r _, List.all_eq_true.2 fun k hk => ?_⟩
  · rw [fieldAt_taskTail r (by decide), taskTail, fieldAt_leBytes_append]
    omega
  · rw [fieldAt_taskTail r (by decide), taskTail, fieldAt_leBytes_skip (by decide), fieldAt_leBytes_skip (by decide), fieldAt_leBytes_append]
    omega
  · have hk := List.mem_range.1 hk
    rw [decodeSlot_task r (k := ⟨k, by omega⟩) hk, Option.isSome_some]

theorem decodeWTask_taskBytes (hwf : WellFormed (.wtask r) = true) :
    decodeWTask (taskBytes r) r.units (4 * r.loopIdx.toNat + 8 * r.pre.toNat) r.tag.toNat = some (.wtask r) := by
  obtain ⟨-, hpre, hloop, -⟩ := taskFlags r.loopIdx r.pre
  have hcounts : (Vector.ofFn fun i : Fin 6 => recBits (taskBytes r) (4 + 2 * i.val) 2 16) = r.counts := by
    ext1 i hi
    rw [Vector.getElem_ofFn, recBits_count r ⟨i, hi⟩]
    rfl
  have hslots : (Vector.ofFn fun k : Fin 8 => slotOf (taskBytes r) r.units k.val) = r.slots := by
    ext1 k hk
    rw [Vector.getElem_ofFn, slotOf_task r hwf ⟨k, hk⟩]
    rfl
  rw [decodeWTask, if_pos (taskReserved r)]
  simp only [hpre, hloop, hcounts, hslots, recBits_taskTail, taskTail, recBits_leBytes_skip, recBits_leBytes_append, BitVec.ofNat_toNat,
    BitVec.setWidth_eq, Nat.reduceLeDiff, Nat.reduceSub, Nat.reduceMul, le_refl]

theorem roundTrip_wtask (hwf : WellFormed (.wtask r) = true) : RoundTrip (taskBytes r) (.wtask r) := by
  have hfit := (slotsThatFit_le r.units).2
  refine roundTrip_of_begins (by omega) (by omega) (taskFlags _ _).2.2.2 r.tag.isLt ?_ fun hb => ?_
  · simp only [taskTail, List.length_append, length_counts, length_leBytes, length_slotBytes, List.length_replicate]
    omega
  · have hu : ¬ 16 ≤ r.units.toNat + 12 := by omega
    simp only [decodeStream, hb.wop, hb.units, hb.units2, hb.flags, hb.opnd, hu, if_false, BitVec.ofNat_toNat, BitVec.setWidth_eq]
    exact decodeWTask_taskBytes r hwf

end

/-- Settles O5: each record's bytes stand where its row of the decoder reads them. -/
theorem recordEncodeThenDecode : Obligations.RecordEncodeThenDecode := by
  intro i bs hwf he
  by_cases ht : ∃ r, i = .wtask r
  · obtain ⟨r, rfl⟩ := ht
    obtain rfl := Option.some.inj ((encodeStream_wtask r).symm.trans he)
    exact roundTrip_wtask r hwf
  · exact roundTrip_of_encodeStream hwf (fun r hr => ht ⟨r, hr⟩) he

end Sys2Proof
end

section
/-! PROOFS. The records of a command stream (R220 to R236), the events that end what a record leaves waiting, and the fetch of a block (R297):
first what a change of a front end or of a window leaves alone, then each record and event by its own lemmas. -/

namespace Sys2Proof.Machine

/-! ### A front end and a window that change -/

section
variable {s : State} {p : Fin 16} {f g : Front → Front}

theorem modFront_front : (modFront s p f).aux[p].front = f s.aux[p].front := by simp [modFront, State.putAux]

theorem modFront_window : (modFront s p f).aux[p].window = s.aux[p].window := by simp [modFront, State.putAux]

theorem modWindow_front {h : Window → Window} : (modWindow s p h).aux[p].front = s.aux[p].front := by simp [modWindow, State.putAux]

/-- What a change does to another front end than the partition's does not count. -/
theorem modFront_congr (h : f s.aux[p].front = g s.aux[p].front) : modFront s p f = modFront s p g := by simp only [modFront, h]

/-- A vector that is raised changes nothing of a front end but the vectors that are pending. -/
theorem vfRaise_front (s : State) (p : Fin 16) (v : Fin 64) : ∃ x, (vfRaise s p v).aux[p].front = { s.aux[p].front with pba := x } := by
  unfold vfRaise
  dsimp only
  split
  · exact ⟨s.aux[p].front.pba ||| BitVec.ofNat 64 (2 ^ v.val), by simp [State.putAux]⟩
  · exact ⟨s.aux[p].front.pba, rfl⟩

theorem untold_aux : Untold State.aux :=
  { store := fun _ _ _ => rfl, putDie := fun _ _ _ => rfl, putPart := fun _ _ _ => rfl, withHub := fun _ _ => rfl, withFabric := fun _ _ => rfl,
    hold := fun _ _ _ => rfl }

theorem frontRecord_aux (s : State) (p : Fin 16) (r : FaultRec) : (frontRecord s p r).aux = s.aux := by
  unfold frontRecord
  split
  · rfl
  · exact untold_aux.enterRecord s p r

end

/-! ### Where decode goes on -/

section
variable {s : State}

theorem Front.goto_level {f : Front} (h : f.levels ≠ []) (pos : Word) : (f.goto pos).level.pos = pos := by
  obtain ⟨l, ls, hl⟩ := List.exists_cons_of_ne_nil h
  simp [Front.goto, hl, Front.release, Front.level]

theorem streamGoto_recPos (h : s.front.levels ≠ []) (pos : Word) : (streamGoto s pos).recPos = pos := by
  have hf : (streamGoto s pos).front = s.front.goto pos := modFront_front
  rw [State.recPos, hf, Front.goto_level h]

theorem streamGoto_window (s : State) (pos : Word) : (streamGoto s pos).window = s.window := modFront_window

/-- A record's action that reads goes on with what it has read. -/
theorem onStream_ok {α : Type} {r : State × Res α} {t : State} {x : α} (h : r = (t, .ok x)) (wop : BitVec 8) (f : State → α → Out) :
    onStream r wop f = f t x := by rw [h, onStream]

/-! ### WNOP, WBUF, WFREE (R220, R221, R236) -/

theorem execWnop_goes (h : s.front.levels ≠ []) (units : BitVec 2) :
    ∃ t, execWnop units s = .next t ∧ t.recPos = s.recPos + BitVec.ofNat 64 (32 * (units.toNat + 1)) ∧ t.window = s.window ∧
      SameMemory s t ∧ t.cores = s.cores :=
  ⟨_, rfl, streamGoto_recPos h _, streamGoto_window s _, ⟨fun _ => rfl, rfl⟩, rfl⟩

section
variable {fixed : Bool} {depth : BitVec 3} {buf : BitVec 12} {size : Word} {base : BitVec 128}

theorem execWbuf_illegal (h : bufFieldsOk s.window s.parts[s.part].prot fixed depth buf size base = false) :
    execWbuf fixed depth buf size base s = streamErr s .streamIllegal 0x01 := by
  have hfields : bufFieldsOk s.aux[s.part].window s.parts[s.part].prot fixed depth buf size base = false := h
  simp only [execWbuf, declareBuf, hfields, Bool.not_false, if_true]

theorem execWbuf_renamable (h : bufFieldsOk s.window s.parts[s.part].prot false depth buf size base = true) :
    execWbuf false depth buf size base s = nextRec (addBuf s s.part buf false (depth.toNat + 1) size.toNat 0 false) 1 := by
  have hfields : bufFieldsOk s.aux[s.part].window s.parts[s.part].prot false depth buf size base = true := h
  simp only [execWbuf, declareBuf, hfields, Bool.not_true, Bool.not_false, Bool.false_eq_true, if_false, if_true]

theorem execWbuf_arena {a : Word} (h : bufFieldsOk s.window s.parts[s.part].prot true depth buf size 0 = true)
    (ha : arenaPlace s s.part s.window size.toNat = some a) :
    execWbuf true depth buf size 0 s = nextRec { addBuf s s.part buf true 1 size.toNat a true with free := s.free + 1 } 1 := by
  have hfields : bufFieldsOk s.aux[s.part].window s.parts[s.part].prot true depth buf size 0 = true := h
  have hplace : arenaPlace s s.part s.aux[s.part].window size.toNat = some a := ha
  simp only [execWbuf, declareBuf, hfields, hplace, Bool.not_true, Bool.false_eq_true, if_false, if_true]

theorem execWfree_unknown (h : findBuf s.window buf = none) : execWfree buf s = streamErr s .streamIllegal 0x02 := by rw [execWfree, h]

theorem execWfree_frees {b : Buf} (h : findBuf s.window buf = some b) :
    execWfree buf s = nextRec (modWindow s s.part fun w => freeBuf w b.uid) 1 := by rw [execWfree, h]

end

/-! ### WTASK (R222, R241) -/

section
variable {r : WTaskRec} {y : State} {ps : Vector Word 16}

theorem execWtask_illegal (h : taskLegal s.window s.front.level.pos s.front.level.lo.toNat s.front.level.hi r = false) :
    execWtask r s = streamErr s .streamIllegal 0x08 := by
  simp only [execWtask, h, Bool.not_false, if_true]

/-- What a task that the checks let pass is decoded with. -/
def wtaskOf (s : State) (r : WTaskRec) (ps : Vector Word 16) : NewTask :=
  ⟨r, r.pre, withLoop s.front r ps, s.front.level.pos, s.front.levels, s.front.current.getD 0, none, none, []⟩

section
variable (h : taskLegal s.window s.front.level.pos s.front.level.lo.toNat s.front.level.hi r = true) (hps : taskParams s r = (y, .ok ps))
include h hps

theorem execWtask_enters {t : State} (henter : enterTask y y.part (wtaskOf s r ps) = some t) :
    execWtask r s = nextRec t (r.units.toNat + 1) := by
  rw [wtaskOf] at henter
  simp only [execWtask, h, Bool.not_true, Bool.false_eq_true, if_false, onStream_ok hps, henter]

theorem execWtask_waits (henter : enterTask y y.part (wtaskOf s r ps) = none) : execWtask r s = stall y := by
  rw [wtaskOf] at henter
  simp only [execWtask, h, Bool.not_true, Bool.false_eq_true, if_false, onStream_ok hps, henter]

end

end

/-! ### WCALL, WRET, WPRED (R226, R227) -/

section
variable {bufForm : Bool} {buf : BitVec 12} {len : BitVec 32} {target a : Word}

theorem execWcall_deep (h : 5 ≤ s.front.levels.length) : execWcall bufForm buf len target s = streamErr s .streamIllegal 0x10 := by
  simp only [execWcall, h, or_true, if_true]

section
variable (hlen : len.toNat % 32 = 0) (hne : len ≠ 0) (htarget : target.toNat % 32 = 0) (hroom : s.front.levels.length < 5)
include hlen hne htarget hroom

theorem execWcall_goes : ¬ (len.toNat % 32 ≠ 0 ∨ len = 0 ∨ target.toNat % 32 ≠ 0 ∨ 5 ≤ s.front.levels.length) := by
  simp only [hlen, hne, htarget, Nat.not_le.2 hroom, ne_eq, not_true, or_self, not_false_eq_true]

theorem execWcall_buffer (h : bufPlace s.window buf target.toNat len.toNat = some a) :
    execWcall true buf len target s = pushLevel s a len.toNat := by
  simp only [execWcall, if_neg (execWcall_goes hlen hne htarget hroom), if_true, h]

theorem execWcall_level (hlo : (s.front.level.lo.toNat : Int) ≤ s.front.level.pos.toNat + target.toInt)
    (hhi : (s.front.level.pos.toNat : Int) + target.toInt < s.front.level.hi) :
    execWcall false buf len target s = pushLevel s (s.front.level.pos + target) len.toNat := by
  simp only [execWcall, if_neg (execWcall_goes hlen hne htarget hroom), Bool.false_eq_true, if_false, if_pos (And.intro hlo hhi)]

end

theorem execWret_returns {l l2 : Level} {ls : List Level} (h : s.front.levels = l :: l2 :: ls) (hloops : s.front.level.loops = []) :
    execWret s = .next (modFront s s.part fun f => { f.dropLevel with levels := l2 :: ls }) := by
  have hlevels : s.aux[s.part].front.levels = l :: l2 :: ls := h
  have hgo : ¬ (s.front.levels.length < 2 ∨ s.front.level.loops ≠ []) := by simp [h, hloops]
  simp only [execWret, if_neg hgo, popLevel]
  refine congrArg Host.Outcome.next (modFront_congr ?_)
  rw [hlevels, List.drop_one, List.tail_cons]

theorem execWret_bottom (h : s.front.levels.length < 2) : execWret s = streamErr s .streamIllegal 0x11 := by
  simp only [execWret, h, true_or, if_true]

end

/-- R227: a word of memory is taken under a mask, and the condition decides where decode goes on. -/
theorem execWpred_goes {y : State} {c : WCond} {buf : BitVec 12} {n : BitVec 32} {off v m : Word} {bs : List Byte}
    (hoff : off.toNat % 8 = 0) (hn : n.toNat % 32 = 0) (hmin : 32 ≤ n.toNat) (hend : s.front.level.pos.toNat + n.toNat ≤ s.front.level.hi)
    (hread : bufRead s buf off.toNat 8 = (y, .ok bs)) :
    execWpred c buf n off v m s = .next (streamGoto y (if holdsCond c (BitVec.ofNat 64 (leNat bs) &&& m) v then s.front.level.pos + 32
      else s.front.level.pos + n.setWidth 64)) := by
  have hgo : ¬ (off.toNat % 8 ≠ 0 ∨ n.toNat % 32 ≠ 0 ∨ n.toNat < 32 ∨ s.front.level.hi < s.front.level.pos.toNat + n.toNat) := by omega
  simp only [execWpred, if_neg hgo, onStream_ok hread]

/-! ### WLOOP, WEND (R228) -/

section
variable {n : BitVec 32} (hn : n.toNat % 32 = 0) (hmin : 32 ≤ n.toNat)
include hn hmin

theorem execWloop_opens {len : BitVec 32} (hne : len ≠ 0) (hroom : s.front.level.loops.length < 4) :
    execWloop len n s =
      nextRec (setLoops s (⟨s.front.level.pos + 32, s.front.level.pos + n.setWidth 64, len, len⟩ :: s.front.level.loops)) 1 := by
  have hgo : ¬ (n.toNat % 32 ≠ 0 ∨ n.toNat < 32) := by omega
  simp only [execWloop, if_neg hgo, if_neg hne, if_neg (Nat.not_le.2 hroom)]

theorem execWloop_skips (hend : s.front.level.pos.toNat + n.toNat + 32 ≤ s.front.level.hi) :
    execWloop 0 n s = .next (streamGoto s (s.front.level.pos + n.setWidth 64 + 32)) := by
  have hgo : ¬ (n.toNat % 32 ≠ 0 ∨ n.toNat < 32) := by omega
  simp only [execWloop, if_neg hgo, if_true, if_neg (Nat.not_lt.2 hend)]

end

theorem execWend_noLoop (h : s.front.level.loops = []) : execWend s = streamErr s .streamIllegal 0x14 := by simp only [execWend, h]

section
variable {e : WLoopEnt} {es : List WLoopEnt} (h : s.front.level.loops = e :: es)
include h

theorem execWend_notLast (hlast : e.last ≠ s.front.level.pos) : execWend s = streamErr s .streamIllegal 0x14 := by
  simp only [execWend, h, if_pos hlast]

theorem execWend_leaves (hlast : e.last = s.front.level.pos) (hleft : e.left = 1) : execWend s = nextRec (setLoops s es) 1 := by
  simp only [execWend, h, hlast, ne_eq, not_true, if_false, if_pos hleft]

theorem execWend_repeats (hlast : e.last = s.front.level.pos) (hleft : e.left ≠ 1) :
    execWend s = .next (streamGoto (setLoops s ({ e with left := e.left - 1 } :: es)) e.start) := by
  simp only [execWend, h, hlast, ne_eq, not_true, if_false, if_neg hleft]

end

/-! ### WFENCE (R230) -/

theorem execWfence_waits (h : s.window.entries ≠ []) : execWfence s = stall s := by rw [execWfence, if_pos h]

theorem execWfence_goes (h : s.window.entries = []) : execWfence s = nextRec (dropBlocks s s.part) 1 := by
  rw [execWfence, if_neg (not_not.2 h)]

section
variable {buf : BitVec 12} {off : Word}

theorem execWfenceT_illegal (h : off.toNat % 16 ≠ 0 ∨ bufPlace s.window buf off.toNat 144 = none) :
    execWfenceT buf off s = streamErr s .streamIllegal 0x18 := by
  rw [← Option.isNone_iff_eq_none] at h
  simp only [execWfenceT, if_pos h]

section
variable {a : Word} {y t : State} {bs : List Byte} (h : s.window.entries = []) (hoff : off.toNat % 16 = 0)
  (hplace : bufPlace s.window buf off.toNat 144 = some a) (hread : bufRead s buf off.toNat 144 = (y, .ok bs))
include h hoff hplace hread

theorem execWfenceT_loads (hload : loadTable y y.part (a.toNat % 16 == 0) bs = (true, t)) :
    execWfenceT buf off s = nextRec (dropBlocks t t.part) 1 := by
  simp only [execWfenceT, hplace, hoff, Option.isNone_some, Bool.false_eq_true, h, ne_eq, not_true, or_self, if_false, onStream_ok hread,
    Option.all_some, hload]

theorem execWfenceT_format (hload : loadTable y y.part (a.toNat % 16 == 0) bs = (false, t)) :
    execWfenceT buf off s = streamErr t .format 0x18 := by
  simp only [execWfenceT, hplace, hoff, Option.isNone_some, Bool.false_eq_true, h, ne_eq, not_true, or_self, if_false, onStream_ok hread,
    Option.all_some, hload]

end

theorem loadTable_bad (s : State) (p : Fin 16) (img : List Byte) : (loadTable s p false img).1 = false := rfl

end

/-! ### WWAIT (R231) -/

section
variable {c : WCond} {buf : BitVec 12} {limit : BitVec 32} {off v m : Word}

theorem execWwait_illegal (h : fixedWord s.window buf off.toNat = none) : execWwait c buf limit off v m s = streamErr s .streamIllegal 0x19 := by
  simp only [execWwait, h]

theorem execWwait_waits {a : Word} (h : fixedWord s.window buf off.toNat = some a) :
    execWwait c buf limit off v m s = .next (modFront s s.part fun f =>
      { f with wait := .wwait c a v m (if limit = 0 then none else some (s.clk + limit.toNat)) }) := by
  simp only [execWwait, h]

end

section
variable {p : Fin 16} {y : State} {c : WCond} {a v m : Word} {lim : Option Nat} {bs : List Byte} {late : Bool}
  (hwait : s.aux[p].front.wait = .wwait c a v m lim) (hread : streamRead s p a 8 none = (y, .ok bs))
include hwait hread

theorem wwaitRead_holds (hc : holdsCond c (BitVec.ofNat 64 (leNat bs) &&& m) v = true) : wwaitRead s p late =
    .next (modFront (dropAsks y p askDecode) p fun f => Front.goto { f with wait := .none } (f.level.pos + 32)) := by
  simp only [wwaitRead, hwait, hread, hc, if_true]

theorem wwaitRead_fails (hc : holdsCond c (BitVec.ofNat 64 (leNat bs) &&& m) v = false) : wwaitRead s p late =
    if late then .next (modFront (dropAsks y p askDecode) p fun f => { f with wait := .fault .watchdog f.level.pos 0x19 false })
    else .next (dropAsks y p askDecode) := by
  simp only [wwaitRead, hwait, hread, hc, Bool.false_eq_true, if_false]

end

theorem execWwaitReread_running {p : Fin 16} (h : s.aux[p].front.st = .running) : execWwaitReread p s = wwaitRead s p false := by
  rw [execWwaitReread, if_pos h]

theorem execWwaitLimit_passed {p : Fin 16} {c : WCond} {a v m : Word} {at_ : Nat} (h : s.aux[p].front.st = .running)
    (hwait : s.aux[p].front.wait = .wwait c a v m (some at_)) (hclk : at_ ≤ s.clk) : execWwaitLimit p s = wwaitRead s p true := by
  simp only [execWwaitLimit, h, hwait, if_pos hclk]

/-! ### WSIGNAL (R232) -/

section
variable {add irq : Bool} {buf : BitVec 12} {vec : BitVec 8} {off v : Word}

theorem wsignal_illegal (h : fixedWord s.window buf off.toNat = none) : wsignal add irq buf vec off v s = streamErr s .streamIllegal 0x1A := by
  simp only [wsignal, h]

theorem wsignal_notes {a : Word} (h : fixedWord s.window buf off.toNat = some a) : wsignal add irq buf vec off v s =
    nextRec (modFront s s.part fun f =>
      { f with signals := f.signals ++ [⟨f.current.getD 0, s.window.nextSerial, add, irq, vec, a, v, s.recPos⟩] }) 1 := by
  simp only [wsignal, h]
  rfl

end

section
variable {p : Fin 16} {t : State} {x : Signal} {xs : List Signal}

theorem execWsignalEffect_none (h : s.aux[p].front.signals = []) : execWsignalEffect p s = .next s := by simp only [execWsignalEffect, h]

theorem execWsignalEffect_writes (h : s.aux[p].front.signals = x :: xs) (hleft : ∀ e ∈ s.aux[p].window.entries, x.after ≤ e.serial)
    (hwrite : signalWrite s p x = (t, .ok ())) :
    execWsignalEffect p s = .next (signalVector (modFront t p fun f => { f with signals := xs }) p x) := by
  have hold : (s.aux[p].window.entries.any fun e => decide (e.serial < x.after)) = false :=
    List.any_eq_false.2 fun e he => by simp [hleft e he]
  simp only [execWsignalEffect, h, hold, Bool.false_eq_true, if_false, hwrite]

end

/-! ### WGRAPH (R233) -/

section
variable {pre : Bool} {buf : BitVec 12} {off : Word}

theorem execWgraph_unaligned (h : off.toNat % 64 ≠ 0) : execWgraph pre buf off s = streamErr s .streamIllegal 0x20 := by
  rw [execWgraph, if_pos h]

theorem execWgraph_starts {a : Word} {t u y z : State} {hdr bs : List Byte} (hoff : off.toNat % 64 = 0)
    (hplace : bufPlace s.window buf off.toNat 64 = some a) (hhdr : bufRead s buf off.toNat 64 = (y, .ok hdr)) (hok : graphHeaderOk hdr = true)
    (hbin : bufRead y buf off.toNat (graphTotal hdr) = (z, .ok bs)) (hbuild : buildGraph z pre a bs = (u, .ok t)) :
    execWgraph pre buf off s = .next t := by
  simp only [execWgraph, hoff, hplace, ne_eq, not_true, if_false, onStream_ok hhdr, hok, Bool.not_true, Bool.false_eq_true, onStream_ok hbin,
    onStream_ok hbuild]

end

/-! ### WPHASE (R234) -/

/-- R234: a window whose phase ends and another begins, and a job with it on request. -/
def openPhase (job : Bool) (id : BitVec 16) (w : Window) : Window :=
  let w := { closeLevel w 2 w.phase with phase := w.nextUid + 1, phaseId := id, nextUid := w.nextUid + 1 }
  if job then { closeLevel w 3 w.job with job := w.nextUid + 1, jobId := id, nextUid := w.nextUid + 1 } else w

theorem openPhase_fields (job : Bool) (id : BitVec 16) (w : Window) : (openPhase job id w).phaseId = id ∧
    (openPhase job id w).jobId = (if job then id else w.jobId) ∧ (openPhase job id w).entries = w.entries := by
  cases job <;> exact ⟨rfl, rfl, rfl⟩

theorem execWphase_eq (job : Bool) (id : BitVec 16) (s : State) : execWphase job id s = nextRec (modWindow s s.part (openPhase job id)) 1 := by
  cases job
  · rfl
  · simp [execWphase, openPhase, modWindow, State.putAux]

theorem execWphase_opens (h : s.front.levels ≠ []) (job : Bool) (id : BitVec 16) :
    ∃ t, execWphase job id s = .next t ∧ t.window.phaseId = id ∧ t.window.jobId = (if job then id else s.window.jobId) ∧
      t.recPos = s.recPos + 32 ∧ t.window.entries = s.window.entries := by
  have hfront : (modWindow s s.part (openPhase job id)).front = s.front := modWindow_front
  have hwindow : (modWindow s s.part (openPhase job id)).window = openPhase job id s.window := modWindow_window _
  obtain ⟨hphase, hjob, hentries⟩ := openPhase_fields job id s.window
  refine ⟨_, execWphase_eq job id s, ?_⟩
  rw [streamGoto_window, hwindow, streamGoto_recPos (hfront ▸ h), State.recPos, hfront]
  exact ⟨hphase, hjob, rfl, hentries⟩

/-! ### WCANCEL (R235) -/

/-- R235: one entry, oldest first: chosen itself, or a reader of what an entry before it that leaves has written. -/
def cancelNext (s : State) (p : Fin 16) (chosen : WinEnt → Bool) (acc : List Nat × List Operand) (e : WinEnt) : List Nat × List Operand :=
  if chosen e || readsAny s p e acc.2 then (acc.1 ++ [e.serial], acc.2 ++ taskOutputs e) else acc

section
variable {p : Fin 16} {chosen : WinEnt → Bool}

theorem cancelClosure_eq (es : List WinEnt) : cancelClosure s p es chosen = (es.foldl (cancelNext s p chosen) ([], [])).1 := rfl

theorem cancelNext_keeps {acc : List Nat × List Operand} {n : Nat} (e : WinEnt) (h : n ∈ acc.1) : n ∈ (cancelNext s p chosen acc e).1 := by
  unfold cancelNext
  split
  · exact List.mem_append_left _ h
  · exact h

theorem cancelNext_chosen {e : WinEnt} (acc : List Nat × List Operand) (h : chosen e = true) : e.serial ∈ (cancelNext s p chosen acc e).1 := by
  simp [cancelNext, h]

theorem foldl_cancelNext_keeps {n : Nat} (es : List WinEnt) {acc : List Nat × List Operand} (h : n ∈ acc.1) :
    n ∈ (es.foldl (cancelNext s p chosen) acc).1 := by
  induction es generalizing acc with
  | nil => exact h
  | cons e es ih => exact ih (cancelNext_keeps e h)

/-- Every entry chosen is in the closure of the choice. -/
theorem mem_cancelClosure {es : List WinEnt} {e : WinEnt} (he : e ∈ es) (hc : chosen e = true) : e.serial ∈ cancelClosure s p es chosen := by
  obtain ⟨older, younger, rfl⟩ := List.append_of_mem he
  rw [cancelClosure_eq, List.foldl_append, List.foldl_cons]
  exact foldl_cancelNext_keeps younger (cancelNext_chosen _ hc)

end

/-! ### What ends a stream (R216, R236) -/

section
variable {p : Fin 16}

theorem endEntry_current (s : State) (p : Fin 16) (status : BitVec 16) : (endEntry s p status).aux[p].front.current = none := by
  rw [endEntry, modFront_front]

theorem execHaltEffect_halts {code : BitVec 16} (hst : s.aux[p].front.st = .running) (hwait : s.aux[p].front.wait = .halt code)
    (hempty : s.aux[p].window.entries = []) (hstop : s.aux[p].window.stop = none) : ∃ t, execHaltEffect p s = .next t ∧
      t.aux[p].front.st = .halted ∧ t.aux[p].front.halt = code ∧ t.aux[p].front.pos = s.aux[p].front.level.pos + 32 ∧
      t.aux[p].front.current = none := by
  have hgo : ¬ (s.aux[p].window.entries ≠ [] ∨ s.aux[p].window.stop.isSome = true) := by
    simp only [hempty, hstop, ne_eq, not_true, Option.isSome_none, Bool.false_eq_true, or_self, not_false_eq_true]
  have hexec : execHaltEffect p s = .next (vfRaise (modFront (endEntry s p 1) p fun f =>
      { f with st := .halted, halt := code, pos := s.aux[p].front.level.pos + 32, wait := .none }) p 0) := by
    simp only [execHaltEffect, hst, hwait, if_neg hgo]
  obtain ⟨x, hx⟩ := vfRaise_front (modFront (endEntry s p 1) p fun f =>
      { f with st := .halted, halt := code, pos := s.aux[p].front.level.pos + 32, wait := .none }) p 0
  refine ⟨_, hexec, ?_⟩
  rw [hx, modFront_front]
  exact ⟨rfl, rfl, rfl, endEntry_current s p 1⟩

theorem execStreamFault_stops {k : Cause} {a : Word} {wop : BitVec 8} {host : Bool} (hst : s.aux[p].front.st = .running)
    (hwait : s.aux[p].front.wait = .fault k a wop host) (hempty : s.aux[p].window.entries = []) (hstop : s.aux[p].window.stop = none)
    (hheld : s.parts[p].heldFront = none) :
    execStreamFault p s = .next (vfRaise (modFront (frontRecord s p (streamFaultRec k a wop)) p fun f =>
      { f with st := .stopped, cause := k.code, pos := a, restart := s.aux[p].front.levels, blocks := [], wait := .none }) p 0) := by
  have hgo : ¬ (s.aux[p].window.entries ≠ [] ∨ s.aux[p].window.stop.isSome = true ∨ s.parts[p].heldFront.isSome = true) := by
    simp only [hempty, hstop, hheld, ne_eq, not_true, Option.isSome_none, Bool.false_eq_true, or_self, not_false_eq_true]
  simp only [execStreamFault, hst, hwait, if_neg hgo]
  refine congrArg (fun t => Host.Outcome.next (vfRaise t p 0)) (modFront_congr ?_)
  rw [frontRecord_aux]

/-! ### Blocks (R297) -/

theorem execFetchBlock_fetches {a : Word} {kept : List Block} {t : State} {bs : List Byte} (hst : s.aux[p].front.st = .running)
    (hdue : s.aux[p].front.fetchDue = some (a, kept))
    (hread : streamReadFor askBlock s p (a + BitVec.ofNat 64 (levelPart s.aux[p].front.level a).1) (levelPart s.aux[p].front.level a).2
      (some s.aux[p].front.fetchCause) = (t, .ok bs)) :
    ∃ blk : Block, execFetchBlock p s = .next (modFront (dropAsks t p askBlock) p fun f => { f with blocks := kept ++ [blk] }) ∧ blk.addr = a ∧
      blk.level = s.aux[p].front.depth ∧ blk.data = padTo 256 (List.replicate (levelPart s.aux[p].front.level a).1 0 ++ bs) ∧ blk.bad = none := by
  refine ⟨⟨s.aux[p].front.depth, a, padTo 256 (List.replicate (levelPart s.aux[p].front.level a).1 0 ++ bs),
    (List.range 16).map fun i => streamTag s p (a + BitVec.ofNat 64 (16 * i)), none⟩, ?_, rfl, rfl, rfl, rfl⟩
  simp only [execFetchBlock, hst, ne_eq, not_true, if_false, hdue, hread]

/-- R216, R231, R236, R297: the events of a stream that does not run. -/
theorem exec_notRunning (h : s.aux[p].front.st ≠ .running) :
    ∀ i ∈ [Instr.fetchBlock p, .wwaitReread p, .wwaitLimit p, .haltEffect p, .streamFault p], exec i s = .next s := by
  intro i hi
  simp only [List.mem_cons, List.not_mem_nil, or_false] at hi
  rcases hi with rfl | rfl | rfl | rfl | rfl
  · rw [exec_fetchBlock, execFetchBlock, if_pos h]
  · rw [exec_wwaitReread, execWwaitReread, if_neg h]
  · rw [exec_wwaitLimit, execWwaitLimit]
    split
    next hst _ => exact absurd hst h
    next => rfl
  · rw [exec_haltEffect, execHaltEffect]
    split
    next hst _ => exact absurd hst h
    next => rfl
  · rw [exec_streamFault, execStreamFault]
    split
    next hst _ => exact absurd hst h
    next => rfl

end

end

/-- Settles O56: each clause is the lemma of its record or event. -/
theorem streamRecords : Obligations.StreamRecords := by
  intro s t p u fixed bf add_ irq pre job depth buf size off v m target base r len n limit c vec bs hdr b ps a l2 ls e es x xs code id k wop host lim
    kept y z f l go bad waits g w word reread ended
  refine ⟨fun h => execWnop_goes h u, execWbuf_illegal, execWbuf_renamable, execWbuf_arena, execWfree_unknown, execWfree_frees, ?wtask, ?wcall,
    execWcall_deep, execWret_returns, execWret_bottom, execWpred_goes,
    fun hn hmin => ⟨execWloop_opens hn hmin, execWloop_skips hn hmin⟩, execWend_noLoop, execWend_notLast,
    fun h hlast => ⟨execWend_leaves h hlast, execWend_repeats h hlast⟩, fun h => ⟨execWfence_goes h, ?wfenceT⟩, execWfenceT_illegal,
    execWfence_waits, fun h => ⟨execWwait_waits h, wsignal_notes h, wsignal_notes h⟩,
    fun h => ⟨execWwait_illegal h, wsignal_illegal h, wsignal_illegal h⟩, ?wwait, execWsignalEffect_writes, execWsignalEffect_none, ?wgraph,
    execWgraph_unaligned, fun h => execWphase_opens h job id, ⟨rfl, rfl, rfl, rfl⟩, fun h e he hc => mem_cancelClosure he hc, rfl,
    execHaltEffect_halts, execStreamFault_stops, execFetchBlock_fetches, exec_notRunning⟩
  case wtask => exact ⟨execWtask_illegal, fun hok hps => ⟨execWtask_enters hok hps, execWtask_waits hok hps⟩⟩
  case wcall => exact fun hlen hne htarget hroom => ⟨execWcall_buffer hlen hne htarget hroom, execWcall_level hlen hne htarget hroom⟩
  case wfenceT =>
    exact fun hoff hplace hread => ⟨execWfenceT_loads h hoff hplace hread, execWfenceT_format h hoff hplace hread,
      fun hgood => hgood ▸ loadTable_bad y y.part bs⟩
  case wwait =>
    intro hst hwait hread
    refine ⟨fun hc => ?_, fun hc => ⟨?_, fun at_ hlim hclk => ?_⟩⟩
    · exact (execWwaitReread_running hst).trans (wwaitRead_holds hwait hread hc)
    · exact (execWwaitReread_running hst).trans (wwaitRead_fails hwait hread hc)
    · exact (execWwaitLimit_passed hst (hlim ▸ hwait) hclk).trans (wwaitRead_fails hwait hread hc)
  case wgraph =>
    rintro hoff hplace hhdr hok hbin ⟨u, hbuild⟩
    exact execWgraph_starts hoff hplace hhdr hok hbin hbuild

end Sys2Proof.Machine
end

section
/-! PROOFS. The front end between the entries of its queues (R291, R292, R377, R378), the commands of a partition's ring (R249, R326, R327,
R376), and what a host's accesses of a VF do (R281 to R296): first the lemmas of each operation, then its event or its register. -/

namespace Sys2Proof.Machine

/-! ### What leaves a front end alone -/

theorem tell_aux (s : State) (p : Fin 16) (kind : BitVec 8) (arg0 arg1 : Word) : (tell s p kind arg0 arg1).aux = s.aux := by
  unfold tell deliver
  dsimp only
  split
  · rw [enterEvent, State.storeNat_aux, State.store_aux]
  · rw [State.putCore_aux]

theorem count_front (s : State) (p q : Fin 16) (i : Fin 16) (n : Nat) : (s.count (some q) i n).aux[p].front = s.aux[p].front := by
  simp only [State.count, State.putAux, vput_get]
  split
  next h => rw [h]
  next => rfl

/-! ### Picks (R291, R377, R410) -/

section
variable {s : State} {p : Fin 16}

theorem Front.begin_fields (f : Front) (e : Entry) (order : Nat) (pos : Word) (slice clk : Nat) :
    (f.begin e order pos slice clk).st = .running ∧ (f.begin e order pos slice clk).current = some e.num ∧
      (f.begin e order pos slice clk).sliceLen = slice ∧ (f.begin e order pos slice clk).queues = f.queues ∧
      (f.begin e order pos slice clk).lastPick = f.lastPick := by
  unfold Front.begin
  dsimp only
  split <;> exact ⟨rfl, rfl, rfl, rfl, rfl⟩

/-- R288, R291: a queue with no parked entry is read, and decode begins what it holds. -/
theorem takeQueue_begins {q : Fin 4} (h : s.aux[p].front.queues[q].parked = none) (slice : Nat) :
    ∃ (f : Front) (e : Entry) (order : Nat), (takeQueue s p q slice).aux[p].front = f.begin e order e.seg slice s.clk ∧
      f.queues = vput s.aux[p].front.queues q s.aux[p].front.queues[q].take ∧ f.lastPick = q := by
  simp only [takeQueue, h, Option.bind_none, count_front, State.putAux, vput_get, if_true]
  exact ⟨_, _, _, rfl, rfl, rfl⟩

/-- R288, R291: a queue with no parked entry gives its next one, which becomes the current entry. -/
theorem takeQueue_next {q : Fin 4} (h : s.aux[p].front.queues[q].parked = none) (slice : Nat) :
    ∃ x, (takeQueue s p q slice).aux[p].front.current = some x ∧
      (takeQueue s p q slice).aux[p].front.queues[q].head = s.aux[p].front.queues[q].head + 1 ∧
      (takeQueue s p q slice).aux[p].front.lastPick = q ∧ (takeQueue s p q slice).aux[p].front.st = .running ∧
      (takeQueue s p q slice).aux[p].front.sliceLen = slice := by
  obtain ⟨f, e, order, hfront, hqueues, hlast⟩ := takeQueue_begins h slice
  obtain ⟨hst, hcurrent, hslice, hkept, hpicked⟩ := Front.begin_fields f e order e.seg slice s.clk
  rw [hfront]
  refine ⟨e.num, hcurrent, ?_, hpicked.trans hlast, hst, hslice⟩
  rw [hkept, hqueues, vput_get, if_pos rfl, HostQueue.take]

theorem defaultPick_takes {q : Fin 4} (h : defaultQueue s.aux[p].front = some q) :
    defaultPick s p = takeQueue s p q 0 ∧ s.aux[p].front.queues[q].ready = true := by
  refine ⟨by simp only [defaultPick, h], ?_⟩
  exact List.find?_some (p := fun q : Fin 4 => s.aux[p].front.queues[q].ready) h

theorem makePick_default (park : Bool) (h : s.aux[p].policy = [] ∨ defaultQueue s.aux[p].front = none) :
    makePick s p park = defaultPick s p := by
  rw [makePick, if_pos]
  rwa [Option.isNone_iff_eq_none, List.isEmpty_iff, or_comm]

theorem makePick_raises (park : Bool) (hpolicy : s.aux[p].policy ≠ []) (hqueue : (defaultQueue s.aux[p].front).isSome = true) :
    makePick s p park = raisePick s p park := by
  rw [makePick, if_neg]
  rw [Option.isNone_iff_eq_none, List.isEmpty_iff, not_or]
  exact ⟨Option.isSome_iff_ne_none.1 hqueue, hpolicy⟩

section
variable (hheld : frontHeld s p = false) (hbetween : s.aux[p].front.between = true)
include hheld hbetween

theorem execPick_picks (h : s.aux[p].front.nextUnwound = none) : execPick p s = .next (makePick s p false) := by
  simp only [execPick, hheld, hbetween, Bool.not_true, Bool.or_self, Bool.false_eq_true, if_false, h]

theorem execPick_unwound {e : Entry} {m : Nat} {a : Word} (h : s.aux[p].front.nextUnwound = some (e, m, a)) :
    execPick p s = .next (modFront s p fun f => f.begin e m a 0 s.clk) := by
  simp only [execPick, hheld, hbetween, Bool.not_true, Bool.or_self, Bool.false_eq_true, if_false, h]

end

theorem execPick_idle (h : frontHeld s p = true ∨ s.aux[p].front.between = false) : execPick p s = .next s := by
  simp only [execPick]
  rw [if_pos (by rwa [Bool.or_eq_true, Bool.not_eq_true'])]

theorem execPickTimeout_passed {n : Nat} (h : s.aux[p].front.pick = some n) (hclk : n + 65536 ≤ s.clk) (hheld : frontHeld s p = false) :
    execPickTimeout p s = .next (defaultPick s p) := by
  simp only [execPickTimeout, h, hclk, hheld, Bool.not_false, and_self, if_true]

theorem execPickTimeout_none (h : s.aux[p].front.pick = none) : execPickTimeout p s = .next s := by simp only [execPickTimeout, h]

/-! ### The end of a slice (R378) -/

/-- R378: the current entry `e` goes back to its queue, and its slice is reported. -/
def parkEntry (s : State) (p : Fin 16) (e : Entry) : State :=
  let f := s.aux[p].front
  let g := f.setEntry e.num fun x => { x with parkedAt := some f.level.pos }
  let g := { g with
    queues := vput g.queues e.queue { g.queues[e.queue] with parked := some e.num }
    current := none, levels := [], blocks := [], sliceLen := 0 }
  tell (s.putAux p { s.aux[p] with front := g }) p 0x04 (BitVec.ofNat 64 e.queue.val) (BitVec.ofNat 64 (1024 * f.sliceLen))

theorem parkEntry_front (s : State) (p : Fin 16) (e : Entry) : (parkEntry s p e).aux[p].front.current = none ∧
    (parkEntry s p e).aux[p].front.levels = [] ∧ (parkEntry s p e).aux[p].front.queues[e.queue].parked = some e.num := by
  simp only [parkEntry, tell_aux, State.putAux, vput_get, if_true, and_self]

theorem execSliceExpire_parks {e : Entry} (hcur : (s.aux[p].front.current.bind s.aux[p].front.entry) = some e)
    (hst : s.aux[p].front.st = .running) (hheld : frontHeld s p = false) (hdue : parkDue s p = true) :
    execSliceExpire p s = .next (makePick (parkEntry s p e) p true) := by
  have hgo : ¬ (s.aux[p].front.st ≠ .running ∨ frontHeld s p = true ∨ (!parkDue s p) = true) := by
    rw [hst, hheld, hdue]
    decide
  simp only [execSliceExpire, hcur, if_neg hgo]
  rfl

theorem execSliceExpire_notDue (h : parkDue s p = false) : execSliceExpire p s = .next s := by
  simp only [execSliceExpire]
  split
  · rfl
  · rw [if_pos (Or.inr (Or.inr (by rw [h]; rfl)))]

/-! ### The end of an entry (R292, R410) -/

/-- R292, R410: whether an entry completes now. -/
def entryDue (f : Front) (w : Window) (e : Entry) : Bool :=
  e.ended && e.unwound.isNone && !(w.entries.any fun o => o.entry == e.num) && !(f.signals.any fun x => x.entry == e.num) &&
    !(f.entries.any fun o => o.queue == e.queue && decide (o.num < e.num)) &&
    w.stop.all fun x => e.num != x.entry && e.picks.all fun k => decide (k.1 ≤ x.order)

/-- R292: an entry leaves the front end, and DONE of its queue counts it. -/
def countEntry (s : State) (p : Fin 16) (e : Entry) : State :=
  modFront s p fun f =>
    { f with
      queues := vput f.queues e.queue { s.aux[p].front.queues[e.queue] with done := s.aux[p].front.queues[e.queue].done + 1 }
      entries := f.entries.filter fun o => o.num != e.num }

/-- R292: DONE of a queue with an address for it is written to host memory, with the entry's QTAG and status. -/
def writeDone (s : State) (p : Fin 16) (q : HostQueue) (e : Entry) : State :=
  if q.daddr = 0 then s
  else (s.store (hostAddr q.daddr.toNat) (leBytes 4 (q.done + 1).toNat ++ leBytes 2 e.qtag.toNat ++ leBytes 2 e.status.toNat)).count
    (some p) 9 8

theorem writeDone_front (s : State) (p : Fin 16) (q : HostQueue) (e : Entry) : (writeDone s p q e).aux[p].front = s.aux[p].front := by
  unfold writeDone
  split
  · rfl
  · rw [count_front, State.store_aux]

/-- R292: what the host is told of an entry that has left: DONE, and the entry's interrupt. -/
def reportEntry (s : State) (p : Fin 16) (q : HostQueue) (e : Entry) : State :=
  if e.irq then vfRaise (writeDone s p q e) p (ix 64 (1 + e.queue.val)) else writeDone s p q e

theorem reportEntry_front (s : State) (p : Fin 16) (q : HostQueue) (e : Entry) :
    ∃ x, (reportEntry s p q e).aux[p].front = { s.aux[p].front with pba := x } := by
  unfold reportEntry
  split
  · obtain ⟨x, hx⟩ := vfRaise_front (writeDone s p q e) p (ix 64 (1 + e.queue.val))
    exact ⟨x, by rw [hx, writeDone_front]⟩
  · exact ⟨s.aux[p].front.pba, writeDone_front s p q e⟩

theorem execEntryComplete_eq (p : Fin 16) (s : State) : execEntryComplete p s =
    match s.aux[p].front.entries.find? (entryDue s.aux[p].front s.aux[p].window) with
    | none => .next s
    | some e => .next (reportEntry (countEntry s p e) p s.aux[p].front.queues[e.queue] e) := rfl

/-- The first entry of the list, with nothing of it outstanding and no older one of its queue after it. -/
theorem entryDue_first {f : Front} {w : Window} {e : Entry} {es : List Entry} (h : f.entries = e :: es) (hended : e.ended = true)
    (hunwound : e.unwound = none) (hwindow : ∀ x ∈ w.entries, x.entry ≠ e.num) (hsignals : ∀ x ∈ f.signals, x.entry ≠ e.num)
    (holdest : ∀ x ∈ es, x.queue = e.queue → e.num ≤ x.num)
    (hstop : ∀ x, w.stop = some x → e.num ≠ x.entry ∧ ∀ k ∈ e.picks, k.1 ≤ x.order) : entryDue f w e = true := by
  have hstop' : (w.stop.all fun x => e.num != x.entry && e.picks.all fun k => decide (k.1 ≤ x.order)) = true := by
    simpa [Option.all_eq_true] using hstop
  simpa [entryDue, h, hended, hunwound, hstop'] using ⟨⟨hwindow, hsignals⟩, holdest⟩

theorem execEntryComplete_counts {e : Entry} {es : List Entry} (h : s.aux[p].front.entries = e :: es)
    (hdue : entryDue s.aux[p].front s.aux[p].window e = true) : ∃ t, execEntryComplete p s = .next t ∧
      t.aux[p].front.queues[e.queue].done = s.aux[p].front.queues[e.queue].done + 1 ∧
      t.aux[p].front.entries = s.aux[p].front.entries.filter fun x => x.num != e.num := by
  have hfind : s.aux[p].front.entries.find? (entryDue s.aux[p].front s.aux[p].window) = some e := by
    rw [h, List.find?_cons_of_pos hdue]
  obtain ⟨x, hx⟩ := reportEntry_front (countEntry s p e) p s.aux[p].front.queues[e.queue] e
  refine ⟨_, by rw [execEntryComplete_eq, hfind], ?_⟩
  rw [hx, countEntry, modFront_front, vput_get, if_pos rfl]
  exact ⟨rfl, rfl⟩

theorem execEntryComplete_none (h : s.aux[p].front.entries = []) : execEntryComplete p s = .next s := by
  rw [execEntryComplete_eq, h, List.find?_nil]

end

/-! ### The commands of a partition's ring (R376) -/

section
variable {s : State} {p : Fin 16} {r : List Byte}

theorem partRing_empty (h : headRecord s (partRing p) = none) :
    ∀ i ∈ [Instr.pickq p, .abandon p, .save p, .restore p], exec i s = .next s := by
  intro i hi
  simp only [List.mem_cons, List.not_mem_nil, or_false] at hi
  rcases hi with rfl | rfl | rfl | rfl
  · rw [exec_pickq, execPickq, h, onHead]
  · rw [exec_abandon, execAbandon, partCommand, h, onHead]
  · rw [exec_save, execSave, partCommand, h, onHead]
  · rw [exec_restore, execRestore, partCommand, h, onHead]

variable (h : headRecord s (partRing p) = some r)
include h

theorem partCommand_runs {n : Nat} (hcmd : cmdOf r = n) (f : List Byte → Out) : partCommand s p n f = f r := by
  rw [partCommand, h, onHead, if_pos hcmd]

theorem execPickq_unknown {n : Nat} (hcmd : cmdOf r = n) (hn : n = 0 ∨ 4 < n) : execPickq p s = partDone s p 3 := by
  rw [execPickq, h, onHead, if_pos (hcmd ▸ hn)]

section
variable (hcmd : cmdOf r = 1) (hclean : cmdClean r = true) (hpart : cmdPart r = 0) (harg1 : cmdArg1 r = 0)
  (harg0 : cmdArg0 r / 2 ^ 8 % 2 ^ 24 = 0)
include hcmd hclean hpart harg1 harg0

/-- R377: a PICKQ that is not malformed is refused where no pick is asked for. -/
theorem execPickq_plain : execPickq p s = if s.aux[p].front.pick.isNone then partDone s p 2
    else if frontHeld s p then .next s
    else .next (ringDone (answerPick s p (cmdArg0 r % 256) (cmdArg0 r / 2 ^ 32)) (partRing p) 1) := by
  have hform : ¬ ((!cmdClean r) = true ∨ cmdPart r ≠ 0 ∨ cmdArg1 r ≠ 0 ∨ cmdArg0 r / 2 ^ 8 % 2 ^ 24 ≠ 0) := by
    simp only [hclean, hpart, harg1, harg0, Bool.not_true, Bool.false_eq_true, ne_eq, not_true, or_self, not_false_eq_true]
  have hknown : ¬ (cmdOf r = 0 ∨ 4 < cmdOf r) := by omega
  rw [execPickq, h, onHead, if_neg hknown, if_neg (not_not.2 hcmd), if_neg hform]

theorem execPickq_refused (hpick : s.aux[p].front.pick = none) : execPickq p s = partDone s p 2 := by
  simp only [execPickq_plain h hcmd hclean hpart harg1 harg0, hpick, Option.isNone_none, if_true]

theorem execPickq_answers {m : Nat} (hpick : s.aux[p].front.pick = some m) (hheld : frontHeld s p = false) :
    execPickq p s = .next (ringDone (answerPick s p (cmdArg0 r % 256) (cmdArg0 r / 2 ^ 32)) (partRing p) 1) := by
  simp only [execPickq_plain h hcmd hclean hpart harg1 harg0, hpick, Option.isNone_some, hheld, Bool.false_eq_true, if_false]

end

/-! #### ABANDON (R249) -/

theorem execAbandon_noCore (hcmd : cmdOf r = 2) (hcore : cmdCore s p r = none) : execAbandon p s = partDone s p 3 := by
  rw [execAbandon, partCommand_runs h hcmd, hcore]

section
variable {c : Fin 512} (hcmd : cmdOf r = 2) (hcore : cmdCore s p r = some c) (harg1 : cmdArg1 r = 0)
include hcmd hcore harg1

theorem execAbandon_refused (hst : s.cores[c].st ≠ .stopped) : execAbandon p s = partDone s p 2 := by
  simp only [execAbandon, partCommand_runs h hcmd, hcore, harg1, ne_eq, not_true, if_false, if_pos hst]

theorem execAbandon_faults (hst : s.cores[c].st = .stopped) : execAbandon p s =
    partDone (workDone (discardUnit (faultLaunch s p s.cores[c].ctl.launchid ((causeOf s.cores[c].ctl.tcause).getD .trapInsn)
      s.cores[c].ctl.unitid) c) p s.cores[c].ctl.launchid) p 1 := by
  simp only [execAbandon, partCommand_runs h hcmd, hcore, harg1, hst, ne_eq, not_true, if_false]

end

/-! #### SAVE (R326) -/

section
variable {c : Fin 512} (hcmd : cmdOf r = 3) (hcore : cmdCore s p r = some c) (hslot : cmdArg1 r < 2 ^ 64) (hsave : s.cores[c].save = none)
include hcmd hcore hslot hsave

theorem execSave_refused (hst : s.cores[c].st = .none) : execSave p s = partDone s p 2 := by
  simp only [execSave, partCommand_runs h hcmd, hcore, if_neg (Nat.not_le.2 hslot), hsave, Option.isSome_none, Bool.false_eq_true, if_false,
    hst, true_or, if_true]

theorem execSave_marks (hst : s.cores[c].st ≠ .none) (hending : s.cores[c].ending = none) (hpre : unitPre s p c = true)
    (his : isSlot s p (BitVec.ofNat 64 (cmdArg1 r)) = true)
    (hfree : s.parts[p].usedSlots.contains (devAddr (BitVec.ofNat 64 (cmdArg1 r))) = false) :
    execSave p s = .next (devWrite (s.putCore c { s.cores[c] with
      save := some ⟨BitVec.ofNat 64 (cmdArg1 r), none⟩
      pend := if s.cores[c].st = .running then { s.cores[c].pend with preempt := true } else s.cores[c].pend })
      (devAddr (BitVec.ofNat 64 (cmdArg1 r)) + 31) [0]) := by
  simp only [execSave, partCommand_runs h hcmd, hcore, if_neg (Nat.not_le.2 hslot), hsave, Option.isSome_none, Bool.false_eq_true, if_false,
    hst, hending, hpre, his, hfree, Bool.not_true, or_self]

end

/-! #### RESTORE (R327) -/

section
variable {c : Fin 512} {kept : SavedUnit} {e : WinEnt} (hcmd : cmdOf r = 4) (hcore : cmdCore s p r = some c) (hslot : cmdArg1 r < 2 ^ 64)
  (hkept : s.parts[p].saved.find? (·.slot == devAddr (BitVec.ofNat 64 (cmdArg1 r))) = some kept)
  (hlaunch : findLaunch s p (BitVec.ofNat 32 (fieldAt (devRead s (devAddr (BitVec.ofNat 64 (cmdArg1 r))) (2 ^ 20)) 0 4)) = some e)
include hcmd hcore hslot hkept hlaunch

theorem execRestore_refused (hfree : coreFree s c = false) : execRestore p s = partDone s p 2 := by
  simp only [execRestore, partCommand_runs h hcmd, hcore, if_neg (Nat.not_le.2 hslot), hkept, hlaunch, hfree, Bool.not_false, or_true, if_true]

theorem execRestore_loads (hsaved : 128 ≤ byteAt (devRead s (devAddr (BitVec.ofNat 64 (cmdArg1 r))) (2 ^ 20)) 31)
    (hplace : byteAt (devRead s (devAddr (BitVec.ofNat 64 (cmdArg1 r))) (2 ^ 20)) 8 % 64 = c.val / 128 + 4 * (c.val / 8 % 16))
    (hfree : coreFree s c = true) :
    execRestore p s = partDone (loadSlot (freeSlot s p (devAddr (BitVec.ofNat 64 (cmdArg1 r)))) c p e
      (devRead s (devAddr (BitVec.ofNat 64 (cmdArg1 r))) (2 ^ 20)) kept) p 1 := by
  simp only [execRestore, partCommand_runs h hcmd, hcore, if_neg (Nat.not_le.2 hslot), hkept, hlaunch, hfree, hplace, beq_self_eq_true,
    Bool.not_true, Bool.false_eq_true, or_self, or_false, if_neg (Nat.not_lt.2 hsaved)]

end

end

/-! #### SAVE_WRITE (R326) -/

section
variable {s : State} {p : Fin 16} {c : Fin 512}

theorem execSaveWrite_none (h : s.cores[c].save = none) : execSaveWrite c s = .next s := by simp only [execSaveWrite, h]

section
variable {sv : SaveReq} (hsave : s.cores[c].save = some sv) (hpart : s.partOf c = some p) (hst : s.cores[c].st = .stopped)
  (hrec : s.cores[c].heldRec = none)
include hsave hpart hst hrec

theorem execSaveWrite_starts (h : sv.expired = none) : execSaveWrite c s =
    .next (s.putCore c { s.cores[c] with save := some { sv with expired := some (expiredTokens s.cores[c]) } }) := by
  simp only [execSaveWrite, hsave, hpart, hst, hrec, ne_eq, not_true, Option.isSome_none, Bool.false_eq_true, or_self, if_false, h]

theorem execSaveWrite_fails {n : Nat} (h : sv.expired = some n) (hn : n < expiredTokens s.cores[c]) :
    execSaveWrite c s = .next (failSave s c p) := by
  simp only [execSaveWrite, hsave, hpart, hst, hrec, ne_eq, not_true, Option.isSome_none, Bool.false_eq_true, or_self, if_false, h, if_pos hn]

theorem execSaveWrite_writes {n : Nat} (h : sv.expired = some n) (hn : expiredTokens s.cores[c] ≤ n)
    (hqueue : s.cores[c].unit.mq.any QEnt.live = false) (htokens : tokensOut s.cores[c] = false) :
    execSaveWrite c s = .next (ringDone (writeSlot s c p sv.slot) (partRing p) 1) := by
  simp only [execSaveWrite, hsave, hpart, hst, hrec, ne_eq, not_true, Option.isSome_none, Bool.false_eq_true, or_self, if_false, h,
    if_neg (Nat.not_lt.2 hn), hqueue, htokens]

end

end

/-! ### The registers of a VF (R281 to R288, R295) -/

section
variable {s : State} {p : Fin 16}

theorem vfWrite_unaligned {o : Nat} {wide : Bool} (h : o % (if wide then 8 else 4) ≠ 0) (x : Word) : vfWrite s p o wide x = vfRefuse s p := by
  simp only [vfWrite, h, ne_eq, not_false_eq_true, true_or, if_true]

/-- R281, R351: outside the MSI-X table, a partition that is not served refuses every write. -/
theorem vfWrite_unserved (h : vfServed s p = false) {o : Nat} (ho : o < 0x2000) (wide : Bool) (x : Word) : vfWrite s p o wide x = vfRefuse s p := by
  have htable : decide (0x2000 ≤ o) = false := decide_eq_false (Nat.not_le.2 ho)
  simp only [vfWrite, h, htable, Bool.false_and, Bool.not_false, and_self, or_true, if_true]

theorem vfUnserved_refuses (h : vfServed s p = false) (q : Fin 4) (tail : BitVec 32) (v : Word) :
    ∀ i ∈ [Instr.enable p, .restart p, .skip p, .drop p, .stop p, .clrerr p, .qtailWrite p q tail, .jobcan p v],
      exec i s = .next (vfRefuse s p) := by
  have refuses {o : Nat} (ho : o < 0x2000) (wide : Bool) (x : Word) : (.next (vfWrite s p o wide x) : Out) = .next (vfRefuse s p) :=
    congrArg _ (vfWrite_unserved h ho wide x)
  intro i hi
  simp only [List.mem_cons, List.not_mem_nil, or_false] at hi
  rcases hi with rfl | rfl | rfl | rfl | rfl | rfl | rfl | rfl
  case inr.inr.inr.inr.inr.inr.inl => exact refuses (by omega) _ _
  all_goals exact refuses (by decide) _ _

/-- R285: what a command that the stream's state lists does. -/
def strAct (s : State) (p : Fin 16) : Nat → State
  | 1 => enableStream s p
  | 2 => restartStream s p
  | 3 => skipRecord s p
  | 4 => dropEntry s p
  | 5 => stopStream s p
  | _ => s

theorem cmdListed_enable {st : StrSt} (h : st ≠ .off) : cmdListed st 1 = false := by
  cases st
  case off => exact absurd rfl h
  all_goals rfl

section
variable (hserved : vfServed s p = true)
include hserved

theorem vfWrite_strctl (x : Word) : vfWrite s p 0x08 true x = strCtl s p x := by simp [vfWrite, hserved, mergeReg]

theorem vfWrite_cntsel (x : Word) : vfWrite s p 0x20 true x = writeCntsel s p x := by simp [vfWrite, hserved, mergeReg]

theorem vfWrite_jobcan (x : Word) : vfWrite s p 0x30 true x = writeJobcan s p x := by simp [vfWrite, hserved, mergeReg]

theorem vfWrite_aperbase (x : Word) : vfWrite s p 0x38 true x = writeAper s p x := by simp [vfWrite, hserved, mergeReg]

theorem vfWrite_qtail (q : Fin 4) (x : Word) : vfWrite s p (0x110 + 64 * q.val) false x = writeTail s p q (x.setWidth 32) := by
  have halign : (0x110 + 64 * q.val) % 4 = 0 := by omega
  have htable : decide (0x2000 ≤ 0x110 + 64 * q.val) = false := decide_eq_false (by omega)
  have hblock : 0x100 ≤ 0x110 + 64 * q.val ∧ 0x110 + 64 * q.val < 0x200 := by omega
  have hqueue : ix 4 ((0x110 + 64 * q.val - 0x100) / 64) = q := by
    apply Fin.ext
    simp only [ix, Fin.ofNat]
    omega
  have hreg : (0x110 + 64 * q.val) % 64 = 16 := by omega
  simp only [vfWrite, hserved, halign, htable, Bool.false_eq_true, if_false, ne_eq, not_true, Bool.not_true, Bool.false_and, false_and, or_self,
    if_pos hblock, hqueue, hreg, writeQueue, Nat.reduceLT, if_true]

/-! #### Commands of the stream (R284, R285) -/

section
variable {x : Word} (hx : x.toNat < 16)
include hx

theorem strCommand_listed (hlisted : cmdListed s.aux[p].front.st x.toNat = true) (hlive : x.toNat = 1 → s.parts[p].st = .live) :
    strCommand p x s = .next (strAct s p x.toNat) := by
  have hcmd : x.toNat % 16 = x.toNat := Nat.mod_eq_of_lt hx
  have hgo : ¬ (x.toNat / 2 ^ 9 ≠ 0 ∨ x.toNat / 16 % 16 ≠ 0 ∨ (!cmdListed s.aux[p].front.st x.toNat) = true ∨
      (x.toNat = 1 ∧ s.parts[p].st ≠ .live)) := by
    rw [hlisted]
    simp only [Bool.not_true, Bool.false_eq_true, false_or, not_or, not_and, not_not]
    exact ⟨by omega, by omega, hlive⟩
  have hclear : x.getLsbD 8 = false := by
    rw [BitVec.getLsbD, Nat.testBit_lt_two_pow (by omega)]
  rw [strCommand, vfWrite_strctl hserved, strCtl]
  simp only [hcmd, if_neg hgo, hclear, Bool.false_eq_true, if_false]
  rfl

theorem strCommand_unlisted (hlisted : cmdListed s.aux[p].front.st x.toNat = false) : strCommand p x s = .next (vfRefuse s p) := by
  have hcmd : x.toNat % 16 = x.toNat := Nat.mod_eq_of_lt hx
  rw [strCommand, vfWrite_strctl hserved, strCtl]
  simp only [hcmd, hlisted, Bool.not_false, true_or, or_true, if_true]

end

theorem execEnable_enables (hst : s.aux[p].front.st = .off) (hlive : s.parts[p].st = .live) : execEnable p s = .next (enableStream s p) :=
  strCommand_listed hserved (x := 1) (by decide) (by rw [hst]; rfl) fun _ => hlive

theorem execEnable_refused (hst : s.aux[p].front.st ≠ .off) : execEnable p s = .next (vfRefuse s p) :=
  strCommand_unlisted hserved (x := 1) (by decide) (cmdListed_enable hst)

/-- R285: a command other than ENABLE, in a state that lists it. -/
theorem strCommand_acts {st : StrSt} (hst : s.aux[p].front.st = st) {x : Word} (hx : x.toNat < 16) (hne : x.toNat ≠ 1)
    (hlisted : cmdListed st x.toNat = true) : strCommand p x s = .next (strAct s p x.toNat) :=
  strCommand_listed hserved hx (hst ▸ hlisted) fun h => absurd h hne

theorem strCommand_refused {st : StrSt} (hst : s.aux[p].front.st = st) {x : Word} (hx : x.toNat < 16) (hlisted : cmdListed st x.toNat = false) :
    strCommand p x s = .next (vfRefuse s p) := strCommand_unlisted hserved hx (hst ▸ hlisted)

theorem stream_stopped (hst : s.aux[p].front.st = .stopped) : execRestart p s = .next (restartStream s p) ∧
    execSkip p s = .next (skipRecord s p) ∧ execDrop p s = .next (dropEntry s p) ∧ execStop p s = .next (vfRefuse s p) :=
  ⟨strCommand_acts hserved hst (x := 2) (by decide) (by decide) rfl, strCommand_acts hserved hst (x := 3) (by decide) (by decide) rfl,
    strCommand_acts hserved hst (x := 4) (by decide) (by decide) rfl, strCommand_refused hserved hst (x := 5) (by decide) rfl⟩

theorem stream_halted (hst : s.aux[p].front.st = .halted) : execRestart p s = .next (restartStream s p) ∧
    execSkip p s = .next (vfRefuse s p) ∧ execDrop p s = .next (dropEntry s p) :=
  ⟨strCommand_acts hserved hst (x := 2) (by decide) (by decide) rfl, strCommand_refused hserved hst (x := 3) (by decide) rfl,
    strCommand_acts hserved hst (x := 4) (by decide) (by decide) rfl⟩

theorem stream_runs {st : StrSt} (hst : s.aux[p].front.st = st) (hstop : cmdListed st 5 = true) (hrestart : cmdListed st 2 = false) :
    execStop p s = .next (stopStream s p) ∧ execRestart p s = .next (vfRefuse s p) :=
  ⟨strCommand_acts hserved hst (x := 5) (by decide) (by decide) hstop, strCommand_refused hserved hst (x := 2) (by decide) hrestart⟩

theorem execClrerr_clears : execClrerr p s = .next (modFront s p fun f => { f with regerr := false, veclost := false }) := by
  have hlisted (st : StrSt) : cmdListed st 0 = true := by cases st <;> rfl
  rw [execClrerr, strCommand, vfWrite_strctl hserved]
  simp [strCtl, hlisted]

/-! #### The other registers (R288, R294, R295) -/

theorem execQtailWrite_eq (q : Fin 4) (tail : BitVec 32) : execQtailWrite p q tail s = .next (writeTail s p q tail) := by
  have hwidth : (tail.setWidth 64).setWidth 32 = tail := by simp
  rw [execQtailWrite, vfWrite_qtail hserved, hwidth]

theorem execJobcan_cancels {v : Word} (hv : v.toNat < 2 ^ 16) :
    execJobcan p v s = .next (cancelWhere s p fun w => inLevel w 3 (v.setWidth 16)) := by
  rw [execJobcan, vfWrite_jobcan hserved, writeJobcan, if_neg (not_not.2 (Nat.div_eq_of_lt hv))]

theorem execJobcan_refused {v : Word} (hv : 2 ^ 16 ≤ v.toNat) : execJobcan p v s = .next (vfRefuse s p) := by
  rw [execJobcan, vfWrite_jobcan hserved, writeJobcan, if_pos (Nat.div_pos hv (by decide)).ne']

theorem execRegWrite_cntsel {v : Word} (hv : v.toNat / 2 ^ 16 % 2 ^ 46 = 0) :
    execRegWrite (some p) 0x20 true v s = .next (modFront s p fun f => { f with cntsel := v }) :=
  congrArg _ ((vfWrite_cntsel hserved v).trans (by rw [writeCntsel, if_pos hv]))

theorem execRegWrite_aperbase_zero : execRegWrite (some p) 0x38 true 0 s = .next (modFront s p fun f => { f with aperbase := 0 }) :=
  congrArg _ ((vfWrite_aperbase hserved 0).trans (by rw [writeAper, if_pos (Or.inl rfl)]))

end

section
variable {q : Fin 4} {tail : BitVec 32}

theorem writeTail_takes (hon : s.aux[p].front.queues[q].on = true)
    (hspace : (tail - s.aux[p].front.queues[q].head).toNat ≤ 2 ^ (s.aux[p].front.queues[q].cfg.toNat / 2 ^ 32 % 16))
    (hforward : (tail - s.aux[p].front.queues[q].tail).toNat ≤ (tail - s.aux[p].front.queues[q].head).toNat) (hpolicy : s.aux[p].policy = []) :
    writeTail s p q tail = modFront s p fun f => { f with
      queues := vput f.queues q { s.aux[p].front.queues[q] with tail := tail, tails := s.aux[p].front.queues[q].tails ++ [(tail, s.clk)] } } := by
  have hpolicy' (g : Front → Front) : (modFront s p g).aux[p].policy.isEmpty = true := by
    simp only [modFront, State.putAux, vput_get, if_true, hpolicy, List.isEmpty_nil]
  simp only [writeTail, hon, hspace, hforward, and_self, if_true, hpolicy']

theorem writeTail_refused (h : ¬ (s.aux[p].front.queues[q].on = true ∧
    (tail - s.aux[p].front.queues[q].head).toNat ≤ 2 ^ (s.aux[p].front.queues[q].cfg.toNat / 2 ^ 32 % 16) ∧
    (tail - s.aux[p].front.queues[q].tail).toNat ≤ (tail - s.aux[p].front.queues[q].head).toNat)) : writeTail s p q tail = vfRefuse s p := by
  simp only [writeTail, if_neg h]

end

theorem pfWrite_unaligned {o : Nat} {wide : Bool} (h : o % (if wide then 8 else 4) ≠ 0) (x : Word) : pfWrite s o wide x = pfRefuse s := by
  simp only [pfWrite, if_pos h]

theorem execRegWrite_walltime (x : Word) : execRegWrite none 0x18 true x s = .next (modPf s fun f => { f with walltime := x }) := by
  simp [execRegWrite, pfWrite, mergeReg]

/-! ### A function level reset (R296) -/

theorem cancelWindow_front (s : State) (p : Fin 16) : (cancelWindow s p).aux[p].front = s.aux[p].front := by
  simp only [cancelWindow, State.putAux, vput_get, if_true]

theorem cancelWindow_cancels (s : State) (p : Fin 16) : ∀ x ∈ (cancelWindow s p).aux[p].window.entries, x.cancelled = true := by
  simp only [cancelWindow, State.putAux, vput_get, if_true, List.mem_map]
  rintro _ ⟨e, _, rfl⟩
  rfl

/-- What becomes of a TDI changes neither a stream that is Off nor an entry that is cancelled. -/
theorem tdiToError_off (hst : s.aux[p].front.st = .off) (hall : ∀ x ∈ s.aux[p].window.entries, x.cancelled = true) :
    (tdiToError s p).aux[p].front = s.aux[p].front ∧ ∀ x ∈ (tdiToError s p).aux[p].window.entries, x.cancelled = true := by
  unfold tdiToError
  split
  · have hoff : (cancelWindow (s.putPart p { s.parts[p] with tdi := .error }) p).aux[p].front.st = .off := by
      rw [cancelWindow_front, State.putPart_aux, hst]
    dsimp only
    rw [if_pos (Or.inl hoff), cancelWindow_front, State.putPart_aux]
    exact ⟨rfl, cancelWindow_cancels _ p⟩
  · exact ⟨rfl, hall⟩

theorem streamReset_resets (s : State) (p : Fin 16) : (streamReset s p).aux[p].front.st = .off ∧
    (streamReset s p).aux[p].front.queues = Front.zero.queues ∧ ∀ x ∈ (streamReset s p).aux[p].window.entries, x.cancelled = true := by
  simp only [streamReset, State.putAux, vput_get, if_true, true_and]
  refine ⟨rfl, ?_⟩
  split <;> exact cancelWindow_cancels s p

theorem execVfFlr_resets (s : State) (p : Fin 16) : ∃ t, execVfFlr p s = .next t ∧ t.aux[p].front.st = .off ∧
    t.aux[p].front.queues = Front.zero.queues ∧ ∀ x ∈ t.aux[p].window.entries, x.cancelled = true := by
  obtain ⟨hst, hqueues, hall⟩ := streamReset_resets s p
  refine ⟨_, rfl, ?_⟩
  unfold vfReset
  dsimp only
  split
  · obtain ⟨hfront, hcancelled⟩ := tdiToError_off hst hall
    rw [hfront]
    exact ⟨hst, hqueues, hcancelled⟩
  · exact ⟨hst, hqueues, hall⟩

/-! ### BAR2 (R294) -/

section
variable {off : BitVec 34} {size : MemSize} {v a : Word}

theorem execBar2Read_outside (h : aperture s p off (memBytes size) false = none) :
    execBar2Read p off size s = .next (answerHost s (List.replicate (memBytes size) (BitVec.allOnes 8))) := by
  simp only [execBar2Read, h]

theorem execBar2Write_outside (h : aperture s p off (memBytes size) true = none) : execBar2Write p off size v s = .next s := by
  simp only [execBar2Write, h]

section
variable (h : aperture s p off (memBytes size) false = some a)
include h

theorem execBar2Read_stalls (hseal : sealHost s p a = none) : execBar2Read p off size s = .next { s with mark := .stall } := by
  simp only [execBar2Read, h, hseal, stall]

variable {sealed t : State} (hpkg : pkgOf a = ownPkg s) (hseal : sealHost s p a = some sealed)
include hpkg hseal

theorem execBar2Read_reads {bs : List Byte} (hread : globRead sealed false (some p) a (memBytes size) = (t, .ok bs)) :
    execBar2Read p off size s = .next ((answerHost (dropAsks t p askBar2) bs).count (some p) 9 (memBytes size)) := by
  simp only [execBar2Read, h, hseal, hpkg, if_true, hread]

theorem execBar2Read_faults {k : Cause} (hread : globRead sealed false (some p) a (memBytes size) = (t, .fail k)) :
    execBar2Read p off size s = .next (answerHost (bar2Fault t p (hubCause k) a) (List.replicate (memBytes size) (BitVec.allOnes 8))) := by
  simp only [execBar2Read, h, hseal, hpkg, if_true, hread]

end

section
variable {sealed t : State} (h : aperture s p off (memBytes size) true = some a) (hpkg : pkgOf a = ownPkg s)
  (hseal : sealHost s p a = some sealed)
include h hpkg hseal

theorem execBar2Write_writes (hwrite : globWrite sealed false (some p) a (leBytes (memBytes size) v.toNat) = (t, .ok ())) :
    execBar2Write p off size v s = .next (t.count (some p) 9 (memBytes size)) := by
  simp only [execBar2Write, h, hseal, hpkg, if_true, hwrite]

theorem execBar2Write_faults {k : Cause} (hwrite : globWrite sealed false (some p) a (leBytes (memBytes size) v.toNat) = (t, .fail k)) :
    execBar2Write p off size v s = .next (bar2Fault t p (hubCause k) a) := by
  simp only [execBar2Write, h, hseal, hpkg, if_true, hwrite]

end

end

/-! ### Reads of the register window (R281, R283) -/

theorem vfRead_accepted {o n : Nat} (h : barAccepts o n = true) : vfRead s p o n = answerHost s (barBytes (vfReg s p (o / 8 * 8)) o n) := by
  rw [vfRead, if_pos h]

theorem vfRead_refused {o n : Nat} (h : barAccepts o n = false) :
    vfRead s p o n = answerHost (vfRefuse s p) (List.replicate n (BitVec.allOnes 8)) := by
  rw [vfRead, if_neg (Bool.eq_false_iff.1 h)]

theorem groupCount_le (s : State) (p : Fin 16) : groupCount s p ≤ 16 := (List.length_filter_le _ _).trans (List.length_range).le

theorem vfid_toNat (s : State) (p : Fin 16) :
    (vfid s p).toNat = 2 ^ 24 * 2 + 2 ^ 16 * groupCount s p + 2 ^ 7 * s.parts[p].prot.toNat + p.val := by
  have hgroups := groupCount_le s p
  have hprot := Bool.toNat_le s.parts[p].prot
  rw [vfid, BitVec.toNat_ofNat, Nat.mod_eq_of_lt (by omega)]

/-- R283: the fields of VFID. -/
theorem vfid_fields (s : State) (p : Fin 16) : (vfid s p).toNat % 2 ^ 7 = p.val ∧ (vfid s p).getLsbD 7 = s.parts[p].prot ∧
    (vfid s p).toNat / 2 ^ 24 = 2 ∧ (vfid s p).toNat / 2 ^ 16 % 2 ^ 8 = groupCount s p := by
  have hgroups := groupCount_le s p
  have hprot := Bool.toNat_le s.parts[p].prot
  have hbit : (2 ^ 24 * 2 + 2 ^ 16 * groupCount s p + 2 ^ 7 * s.parts[p].prot.toNat + p.val) / 2 ^ 7 % 2 = s.parts[p].prot.toNat := by omega
  rw [BitVec.getLsbD, vfid_toNat, Nat.testBit_eq_decide_div_mod_eq, hbit]
  exact ⟨by omega, by cases s.parts[p].prot <;> rfl, by omega, by omega⟩

end

/-- Settles O57: each clause is the lemma of its event, command or register. -/
theorem frontEndEvents : Obligations.FrontEndEvents := by
  intro s t sealed p e r bs c q n m tail v a o wide off size k sv kept le ents f w held core head done fr slot refused cur none_
  refine ⟨fun hheld hbetween => ⟨fun hun => ⟨fun h => ?picks, fun hpolicy hqueue => ?raises⟩, execPick_unwound hheld hbetween⟩, execPick_idle,
    defaultPick_takes, fun h => takeQueue_next h n, execPickTimeout_passed, execPickTimeout_none, ?slice, execSliceExpire_notDue, ?completes,
    execEntryComplete_none, partRing_empty, ?ring, execSaveWrite_none, ?saveWrite, ?served, ?unaligned, execRegWrite_walltime v,
    fun h => vfUnserved_refuses h q tail v, execVfFlr_resets s p, ?bar2, vfRead_accepted, vfRead_refused, vfid_fields s p⟩
  case picks => exact (execPick_picks hheld hbetween hun).trans (congrArg _ (makePick_default false h))
  case raises => exact (execPick_picks hheld hbetween hun).trans (congrArg _ (makePick_raises false hpolicy hqueue))
  case slice =>
    exact fun hcur hst hheld hdue => ⟨parkEntry s p e, execSliceExpire_parks hcur hst hheld hdue, parkEntry_front s p e⟩
  case completes =>
    exact fun h hended hunwound hwindow hsignals holdest hstop =>
      execEntryComplete_counts h (entryDue_first h hended hunwound hwindow hsignals holdest hstop)
  case ring =>
    rintro ⟨h, hn⟩
    refine ⟨execPickq_unknown h hn, ?pickq, ?noCore, ?abandon, ?save, ?restore⟩
    case pickq =>
      rintro rfl hclean hpart harg1 harg0
      exact ⟨execPickq_refused h hn hclean hpart harg1 harg0, execPickq_answers h hn hclean hpart harg1 harg0⟩
    case noCore =>
      rintro rfl hcore
      exact execAbandon_noCore h hn hcore
    case abandon =>
      rintro rfl hcore harg1
      exact ⟨execAbandon_refused h hn hcore harg1, execAbandon_faults h hn hcore harg1⟩
    case save =>
      rintro rfl hcore hslot hsave
      exact ⟨execSave_refused h hn hcore hslot hsave, execSave_marks h hn hcore hslot hsave⟩
    case restore =>
      rintro rfl hcore hslot img hkept hlaunch
      exact ⟨execRestore_refused h hn hcore hslot hkept hlaunch, execRestore_loads h hn hcore hslot hkept hlaunch⟩
  case saveWrite =>
    exact fun hsave hpart hst hrec => ⟨execSaveWrite_starts hsave hpart hst hrec, execSaveWrite_fails hsave hpart hst hrec,
      execSaveWrite_writes hsave hpart hst hrec⟩
  case served =>
    intro hserved
    refine ⟨execEnable_enables hserved, execEnable_refused hserved, stream_stopped hserved, stream_halted hserved, ?runs,
      execClrerr_clears hserved, ⟨?tail, ?noTail⟩, execJobcan_cancels hserved, execJobcan_refused hserved, execRegWrite_cntsel hserved,
      execRegWrite_aperbase_zero hserved⟩
    case runs =>
      rintro (hst | hst)
      · exact stream_runs hserved hst rfl rfl
      · exact stream_runs hserved hst rfl rfl
    case tail =>
      rintro ⟨hon, hspace, hforward⟩ hpolicy
      exact (execQtailWrite_eq hserved q tail).trans (congrArg _ (writeTail_takes hon hspace hforward hpolicy))
    case noTail => exact fun h => (execQtailWrite_eq hserved q tail).trans (congrArg _ (writeTail_refused h))
  case unaligned => exact fun h => ⟨congrArg _ (vfWrite_unaligned h v), congrArg _ (pfWrite_unaligned h v)⟩
  case bar2 =>
    refine ⟨execBar2Read_outside, execBar2Write_outside, fun h hpkg => ⟨execBar2Read_stalls h, fun hseal => execBar2Read_reads h hpkg hseal,
      fun hseal => execBar2Read_faults h hpkg hseal⟩, fun h hpkg hseal => ⟨execBar2Write_writes h hpkg hseal, execBar2Write_faults h hpkg hseal⟩⟩

end Sys2Proof.Machine
end

section
/-! PROOFS. A global access on its way (R302, R303, R309, R333, R335, R365): the hub's answer to a lease question, the edge that a waiting
access passes, and the turn of its queue at its die. -/

namespace Sys2Proof.Machine

/-! ### The hub's answer (R309) -/

section
variable {s : State} {c : Fin 512} {va : Word}

/-- R309: the leases of a core's partition that cover an address, by their numbers. -/
def coveringIds (s : State) (c : Fin 512) (va : Word) : List Nat :=
  ((leasesOf s (s.partOf c)).filter fun l => l.covers va 1).map (·.id)

theorem coveringIds_length_le : (coveringIds s c va).length ≤ (leasesOf s (s.partOf c)).length := by
  rw [coveringIds, List.length_map]
  exact List.length_filter_le ..

theorem mem_coveringIds {l : Lease} (hl : l ∈ leasesOf s (s.partOf c)) (hcover : l.covers va 1 = true) : l.id ∈ coveringIds s c va :=
  List.mem_map.mpr ⟨l, List.mem_filter.mpr ⟨hl, hcover⟩, rfl⟩

/-- R309: an edge's cache once the hub has answered: the covering leases first, 64 in all. -/
def answeredCache (s : State) (c : Fin 512) (va : Word) : List Nat :=
  (coveringIds s c va ++ s.clusters[clusterOf c].leaseCache.filter fun i => !(coveringIds s c va).contains i).take 64

/-- Where all covering leases have room, each is in the cache: they come before what the cache held. -/
theorem mem_answeredCache {i : Nat} (hroom : (coveringIds s c va).length ≤ 64) (hi : i ∈ coveringIds s c va) : i ∈ answeredCache s c va := by
  rw [answeredCache, List.take_append, List.take_of_length_le hroom]
  exact List.mem_append_left _ hi

/-- What the hub's answer leaves: the core's question answered, and its edge's cache. -/
def leaseAnswered (s : State) (c : Fin 512) (va : Word) : State :=
  (s.putCore c { s.cores[c] with leaseAsk := some (va, true) }).putCluster (clusterOf c)
    { s.clusters[clusterOf c] with leaseCache := answeredCache s c va }

theorem exec_leaseLookup_asked (hask : s.cores[c].leaseAsk = some (va, false)) :
    exec (.leaseLookup c false) s = .next (leaseAnswered s c va) := by
  simp only [exec_leaseLookup, execLeaseLookup, hask, Bool.false_eq_true, if_false]
  rfl

theorem leaseAnswered_leaseAsk : (leaseAnswered s c va).cores[c].leaseAsk = some (va, true) := by
  simp [leaseAnswered]

theorem leaseAnswered_leaseCache : (leaseAnswered s c va).clusters[clusterOf c].leaseCache = answeredCache s c va := by
  simp [leaseAnswered, State.putCluster]

theorem leaseAnswered_memory : SameMemory s (leaseAnswered s c va) := ⟨fun _ => rfl, rfl⟩

end

/-! ### An access with one global part passes its edge (R303, R333, R365) -/

/-- The one part of an access of global memory, before its translation or with its physical address. -/
def globPart (va : Word) (len : Nat) (pa : Option Nat) : Piece := ⟨.glob va, 0, len, pa⟩

section
variable {s : State} {c : Fin 512} {e : QEnt} {va : Word} {len : Nat}

/-- An entry that moves no elements has its parts at the front, all or the first: its one part either way. -/
theorem frontParts_one {p : Piece} (htodo : e.todo = [p]) : frontParts s c false e = [p] := by
  simp [frontParts, htodo]

theorem xlateAll_glob_ok {p : Option (Fin 16)} {write : Bool} {t : State} {pa : Nat} (hx : translate s false p va write = (t, .ok pa)) :
    xlateAll s false false p write [globPart va len none] = (t, .ok [globPart va len (some pa)]) := by
  simp only [xlateAll, globPart, Bool.false_eq_true, if_false, hx]

theorem xlateAll_glob_fail {p : Option (Fin 16)} {write : Bool} {t : State} {k : Cause} (hx : translate s false p va write = (t, .fail k)) :
    xlateAll s false false p write [globPart va len none] = (t, .fail k) := by
  simp only [xlateAll, globPart, Bool.false_eq_true, if_false, hx]

/-- The first ready head is the one that passes, where it waits with a part of global memory: such a part is always beyond the edge. -/
theorem exec_translate_first {rest : List QEnt} (hheads : readyHeads s c false = e :: rest) (hst : e.stage = .waiting)
    (htodo : e.todo = [globPart va len none]) : exec (.translate c false) s = .next (translateEnt s c false e) := by
  have hwaits : (e.stage == .waiting && (frontParts s c false e).any (beyondEdge c false)) = true := by
    simp [hst, frontParts_one htodo, globPart, beyondEdge]
  simp only [exec_translate, execTranslate, hheads, List.find?_cons, hwaits]

variable (htodo : e.todo = [globPart va len none]) (hhub : throughHub s c e = false)
include htodo hhub

section
variable (hpkg : pkgOf va ≠ ownPkg s)
include hpkg

/-- R365: to another package goes one message for the whole part; an access that has no message is REMOTE. -/
theorem translateEnt_away : translateEnt s c false e =
    ((entMsg s c false e va 0 len).map fun m => putEnt (send s ((s.partOf c).getD 0) m) c false { e with stage := .sent }).getD
      (failEnt s c false e .remote) := by
  have hremote : (Loc.glob va).remote s = true := bne_iff_ne.mpr hpkg
  simp only [translateEnt, frontParts_one htodo, hhub, globPart, List.head?_cons, List.getLast?_singleton, Option.map_some, Option.getD_some,
    hremote, Bool.false_eq_true, if_false, if_true, locAddr, Nat.zero_add, Nat.sub_zero, htodo]
  cases entMsg s c false e va 0 len <;> rfl

theorem translateEnt_sent {m : Msg} (hmsg : entMsg s c false e va 0 len = some m) :
    translateEnt s c false e = putEnt (send s ((s.partOf c).getD 0) m) c false { e with stage := .sent } := by
  rw [translateEnt_away htodo hhub hpkg, hmsg, Option.map_some, Option.getD_some]

theorem translateEnt_noMessage (hmsg : entMsg s c false e va 0 len = none) : translateEnt s c false e = failEnt s c false e .remote := by
  rw [translateEnt_away htodo hhub hpkg, hmsg, Option.map_none, Option.getD_none]

end

section
variable {t : State} (hpkg : pkgOf va = ownPkg s)
include hpkg

/-- R303, R333: in this package the part is translated for the core's partition, and sealed where it leaves its edge. -/
theorem translateEnt_translated {u : State} {pa : Nat} (hturn : e.inTurn = false)
    (hx : translate s false (s.partOf c) va e.writes = (t, .ok pa)) (hcross : crossParts t c false [globPart va len (some pa)] = some u) :
    translateEnt s c false e = putEnt u c false { e with todo := [globPart va len (some pa)], stage := .xlated, arrival := u.clk } := by
  have hlocal : (globPart va len none).loc.remote s = false := bne_eq_false_iff_eq.mpr hpkg
  simp only [translateEnt, frontParts_one htodo, hhub, List.head?_cons, hlocal, xlateAll_glob_ok hx, hcross, hturn, Bool.false_eq_true,
    if_false]

/-- R70: a translation that fails stays with the access as its deferred fault. -/
theorem translateEnt_fails {k : Cause} (hx : translate s false (s.partOf c) va e.writes = (t, .fail k)) :
    translateEnt s c false e = failEnt t c false e k := by
  have hlocal : (globPart va len none).loc.remote s = false := bne_eq_false_iff_eq.mpr hpkg
  simp only [translateEnt, frontParts_one htodo, hhub, List.head?_cons, hlocal, xlateAll_glob_fail hx, Bool.false_eq_true, if_false]

end

end

/-! ### The turn of a translated access at its die (R335) -/

section
variable {s : State} {c : Fin 512} {e : QEnt} {va : Word} {len pa : Nat}

/-- A translated entry's one request stands where it is performed, in whatever order its parts go. -/
theorem entReqs_xlated (hst : e.stage = .xlated) (htodo : e.todo = [globPart va len (some pa)]) :
    entReqs s c false e = [⟨.ent c false e, globPart va len (some pa)⟩] := by
  simp [entReqs, entParts, hst, htodo]

variable (hengine : (⟨.ent c false e, globPart va len (some pa)⟩ : Req).atEngine s = false)
include hengine

/-- R209: a request that has its line and that no engine performs runs by its own agent's turn. -/
theorem runOwn_glob : runOwn s c [⟨.ent c false e, globPart va len (some pa)⟩] = runPart s c false e (globPart va len (some pa)) := by
  have hturns : ownTurns s c [⟨.ent c false e, globPart va len (some pa)⟩] = [⟨.ent c false e, globPart va len (some pa)⟩] := by
    simp only [ownTurns, List.filter_cons, hengine, List.filter_nil]
    rfl
  rw [runOwn, hturns]
  rfl

variable (hst : e.stage = .xlated) (htodo : e.todo = [globPart va len (some pa)])
include hst htodo

theorem exec_counterWrite_xlated (hhead : headOf s c false (·.st) = some e) (hld : e.ld = false) :
    exec (.counterWrite c false) s = .next (runPart s c false e (globPart va len (some pa))) := by
  simp only [exec_counterWrite, execCounterWrite, hhead, hld, Bool.false_eq_true, if_false, entReqs_xlated hst htodo]
  exact congrArg _ (runOwn_glob hengine)

theorem exec_loadReturn_xlated (hhead : headOf s c false (·.ld) = some e) (hkind : ∀ q x, e.kind ≠ .streamRead q x) :
    exec (.loadReturn c false) s = .next (runPart s c false e (globPart va len (some pa))) := by
  rw [exec_loadReturn_head hhead hkind]
  simp only [turnEnt, hst, nextPiece_one _ htodo, entReqs_xlated hst htodo, Bool.or_true, List.filter_cons, if_true, List.filter_nil]
  exact congrArg _ (runOwn_glob hengine)

end

/-- Settles O31: the covering leases lead the answered cache; the first head that waits with a global part passes its edge; a translated
part that no engine performs is its queue's only request, so it is the one performed. -/
theorem globalAccessPath : Obligations.GlobalAccessPath := by
  intro s s' s'' c e rest va pa k len m
  refine ⟨fun hask => ⟨leaseAnswered s c va, exec_leaseLookup_asked hask, leaseAnswered_leaseAsk, leaseAnswered_memory, ?capacity, ?covers⟩,
    fun _ hturn => ⟨fun hheads htodo hst hhub => ?passes, fun hst htodo hengine => ?performs⟩⟩
  case capacity =>
    rw [leaseAnswered_leaseCache]
    exact List.length_take_le ..
  case covers =>
    intro l hl hcover hfew
    rw [leaseAnswered_leaseCache]
    exact mem_answeredCache (coveringIds_length_le.trans hfew) (mem_coveringIds hl hcover)
  case passes =>
    rw [exec_translate_first hheads hst htodo]
    exact ⟨fun hpkg hmsg => congrArg _ (translateEnt_sent htodo hhub hpkg hmsg),
      fun hpkg hmsg => congrArg _ (translateEnt_noMessage htodo hhub hpkg hmsg),
      fun hpkg hx hcross => congrArg _ (translateEnt_translated htodo hhub hpkg hturn hx hcross),
      fun hpkg hx => congrArg _ (translateEnt_fails htodo hhub hpkg hx)⟩
  case performs =>
    exact ⟨exec_counterWrite_xlated hengine hst htodo, exec_loadReturn_xlated hengine hst htodo⟩

end Sys2Proof.Machine
end

section
/-! PROOFS. PRESENT (R307, R314) has the waiting lease requests of its page tried again: what it leaves of a window, and a window that a
statement of PRESENT by its die alone misses. -/

namespace Sys2Proof.Machine

/-! ### What PRESENT leaves (R307, R314) -/

/-- R314: PRESENT has an outstanding lease request tried again. -/
def retryLease (e : WinEnt) (i : Nat) : WinEnt := { e with leases := e.leases.set i .retried }

/-- R306, R311: a die on which a page can be reported absent again and is no longer evicted. -/
def presentDie (die : Die) (g : Page) : Die :=
  { forgetPage die g with evicted := die.evicted.filter fun x => !(x.1 == g.part && x.2 == g.base) }

theorem ringDone_aux (s : State) (ring status : Nat) : (ringDone s ring status).aux = s.aux := by
  have kept : Unwritten State.aux := ⟨State.store_aux, State.putDie_aux⟩
  rw [ringDone, kept.devWrite, kept.devWrite]

section
variable {s : State} {d : Fin 4} {r : List Byte}

theorem exec_present_head (hhead : headRecord s (sliceRing d) = some r) (hgood : slBad s d r = false) (hcmd : slCmd r = 5) :
    exec (.present d) s =
      .next (ringDone (mapAsked (s.putDie d (presentDie s.dies[d] (slPage r))) d (slPage r) retryLease) (sliceRing d) 0) := by
  simp only [exec_present, execPresent, sliceCommand, hhead, onHead, hgood, hcmd, and_self, if_true]
  rfl

/-- A finished PRESENT that is nothing but its die and its STATUS is one that finds no outstanding lease request of its page: every window
is as it was. -/
theorem present_dieOnly_aux (hhead : headRecord s (sliceRing d) = some r) (hgood : slBad s d r = false) (hcmd : slCmd r = 5)
    (honly : exec (.present d) s = .next (ringDone (s.putDie d (presentDie s.dies[d] (slPage r))) (sliceRing d) 0)) :
    (mapAsked (s.putDie d (presentDie s.dies[d] (slPage r))) d (slPage r) retryLease).aux = s.aux := by
  rw [exec_present_head hhead hgood hcmd] at honly
  have hstates := congrArg State.aux (Host.Outcome.next.inj honly)
  rwa [ringDone_aux, ringDone_aux, State.putDie_aux] at hstates

end

/-! ### A PRESENT that a lease request waits for -/

/-- R307: PRESENT for the first 2 MiB of partition 0 on die 0. -/
def presentRecord : List Byte := leBytes 4 0x05040000 ++ List.replicate 12 0 ++ leBytes 8 (2 ^ 63) ++ leBytes 8 0

/-- R246: an entry that waits for the lease of its one operand, 64 bytes at the start of that page. -/
def askingEntry : WinEnt where
  serial := 1
  launch := 1
  st := .waiting
  tag := 0
  pre := false
  counts := Vector.replicate 6 1
  order := 0
  params := Vector.replicate 16 0
  ops := [⟨0, 1, 0, none, BitVec.ofNat 64 (2 ^ 63), 64, false⟩]
  leases := [.asked]
  code := 0
  codeLen := 0
  packets := 0
  native := none
  levels := []
  edges := []
  entry := 0
  pos := 0
  checkpoint := []
  node := none
  handed := 0
  outstanding := 0
  cause := none
  faultUnit := 0
  cancelled := false
  readyAt := 0
  picked := 0

/-- The state after reset with that entry in partition 0's window, and that PRESENT posted in die 0's ring. -/
def presentAsked : State :=
  let s := modWindow .reset 0 fun w => { w with entries := [askingEntry] }
  devWrite (devWrite s (sliceRing 0) (leBytes 8 1)) (ringSlot (sliceRing 0) 0) presentRecord

theorem presentAsked_head : headRecord presentAsked (sliceRing 0) = some presentRecord ∧ slBad presentAsked 0 presentRecord = false ∧
    slCmd presentRecord = 5 := by
  decide +kernel

theorem presentAsked_retries :
    (mapAsked (presentAsked.putDie 0 (presentDie presentAsked.dies[(0 : Fin 4)] (slPage presentRecord))) 0 (slPage presentRecord)
      retryLease).aux[(0 : Fin 16)].window.entries ≠ presentAsked.aux[(0 : Fin 16)].window.entries := by
  decide +kernel

/-- Refutes O55: its clause on PRESENT has the die alone change, with no premise on the lease requests that wait for the page; PRESENT has
those tried again (R307, R314), as in `presentAsked`, where the entry's request is `retried` and no longer `asked`. -/
theorem not_sliceCommandsAndMemoryEvents : ¬ Obligations.SliceCommandsAndMemoryEvents := by
  intro h
  obtain ⟨hhead, hgood, hcmd⟩ := presentAsked_head
  obtain ⟨-, -, -, -, -, -, -, -, -, -, -, hpresent, -⟩ :=
    h presentAsked 0 presentRecord ⟨0, 0, 0, 0, false, none⟩ 0 0 0 0 0 0 0 KeySlot.zero 0 0 0 0 []
  have hsame := present_dieOnly_aux hhead hgood hcmd (hpresent ⟨hhead, hgood, hcmd⟩)
  exact presentAsked_retries (congrArg (fun aux => aux[(0 : Fin 16)].window.entries) hsame)

end Sys2Proof.Machine
end

section
/-! PROOFS. Every step has a next state (R316, R372): one lemma for each function that answers an outcome, in the order of the model's files.
No branch of any of them ends in a fault or a refusal. -/

namespace Sys2Proof.Machine

/-! ### Outcomes that go on -/

/-- An outcome that is a next state. -/
inductive GoesOn : Out → Prop
  | next {t : State} : GoesOn (.next t)

theorem goesOn_iff {o : Out} : GoesOn o ↔ ∃ t, o = .next t :=
  ⟨fun h => by cases h; exact ⟨_, rfl⟩, fun ⟨_, h⟩ => h ▸ .next⟩

variable {s : State}

theorem GoesOn.ite {c : Prop} [Decidable c] {a b : Out} (ha : GoesOn a) (hb : GoesOn b) : GoesOn (if c then a else b) := ite_wf ha hb

theorem GoesOn.guarded {h : Head} {f : State → Out} (hf : ∀ t, GoesOn (f t)) : GoesOn (Machine.guarded h s f) := .ite (hf s) .next

theorem GoesOn.stall : GoesOn (Machine.stall s) := .next

theorem GoesOn.raiseAt {k : Cause} {ea : Word} : GoesOn (Machine.raiseAt s k ea) := goesOn_iff.2 (raiseAt_next s k ea)

theorem GoesOn.raise {k : Cause} : GoesOn (Machine.raise s k) := .raiseAt

theorem GoesOn.onRes {α : Type} {r : Res α} {ea : Word} {f : α → Out} (hf : ∀ a, GoesOn (f a)) : GoesOn (Machine.onRes r s ea f) := by
  cases r with
  | ok a => exact hf a
  | fail k => exact .raiseAt
  | wait => exact .next

/-! ### Scalar memory words and the events of the queues (R62 to R90, R207 to R210) -/

theorem GoesOn.aligned {ea : Word} {n : Nat} {o : Out} (ho : GoesOn o) : GoesOn (Machine.aligned s ea n o) := .ite .raiseAt ho

theorem goesOn_issueLoad {k ea n ps} : GoesOn (issueLoad s k ea n ps) := .onRes fun _ => .ite .stall .next

theorem goesOn_issueStore {k ea n bs} : GoesOn (issueStore s k ea n bs) := .onRes fun _ => .ite .stall .next

theorem goesOn_issueAmo {op h d a b z} : GoesOn (issueAmo op h d a b z s) :=
  .guarded fun _ => .aligned (.onRes fun _ => .ite .stall .next)

theorem goesOn_qstChecks {ea lo n o} (ho : GoesOn o) : GoesOn (qstChecks s ea lo n o) := .ite .raiseAt (.onRes fun _ => ho)

theorem goesOn_emptyQst {d} : GoesOn (emptyQst s d) := by unfold emptyQst; split <;> exact .next

theorem goesOn_issueQst {d cs o ea lo n m bs x} : GoesOn (issueQst s d cs o ea lo n m bs x) := by
  unfold issueQst
  dsimp only
  split
  · exact .stall
  · exact .ite .stall .next

theorem goesOn_issueMwait {eq h d a b} : GoesOn (issueMwait eq h d a b s) := by
  refine .guarded fun t => .aligned (.onRes fun _ => .ite .stall ?_)
  dsimp only
  split
  · exact .stall
  · refine .ite .stall ?_
    split
    · exact .raiseAt
    · exact .next
    · exact .stall

theorem goesOn_mwaitReread {c fw} : GoesOn (execMwaitReread c fw s) := by
  unfold execMwaitReread
  split
  · exact .next
  · split <;> exact .next

theorem goesOn_loadReturn {c fw} : GoesOn (execLoadReturn c fw s) := by
  unfold execLoadReturn
  split
  · split <;> exact .next
  · exact .next

theorem goesOn_storePerform {c fw} : GoesOn (execStorePerform c fw s) := by unfold execStorePerform; split <;> exact .next

theorem goesOn_counterWrite {c fw} : GoesOn (execCounterWrite c fw s) := by
  unfold execCounterWrite
  split
  · exact .ite .next .next
  · exact .next

theorem goesOn_bankRequest {k bank} : GoesOn (execBankRequest k bank s) := by unfold execBankRequest; split <;> exact .next

theorem goesOn_atomicEngineRequest {k} : GoesOn (execAtomicEngineRequest k s) := by unfold execAtomicEngineRequest; split <;> exact .next

theorem goesOn_inward : GoesOn (execInward s) := by
  unfold execInward
  split
  · exact .next
  · split <;> exact .next

theorem goesOn_translate {c fw} : GoesOn (execTranslate c fw s) := by unfold execTranslate; split <;> exact .next

theorem goesOn_leaseLookup {c fw} : GoesOn (execLeaseLookup c fw s) := by
  unfold execLeaseLookup
  dsimp only
  split
  · exact .ite .next .next
  · exact .next

theorem goesOn_deferredFault {c fw} : GoesOn (execDeferredFault c fw s) := by
  unfold execDeferredFault
  split
  · exact .next
  · exact .ite .next (.ite .next .next)

theorem goesOn_tokenExpire {c} : GoesOn (execTokenExpire c s) := by
  unfold execTokenExpire
  generalize resendAll s c = t
  extract_lets r x due
  generalize (List.finRange 256).find? due = o
  cases o with
  | none => exact .next
  | some i =>
    dsimp only
    split
    · exact .ite .next (.ite .next .next)
    · exact .next

/-! ### Control words and copies (R86 to R96, R158 to R170, R347 to R349) -/

theorem goesOn_cwr {h a n} : GoesOn (execCwr h a n s) := by
  refine .guarded fun t => .ite ?_ .raise
  split
  · exact .next
  · exact .raise

theorem goesOn_fenceScope {z h} : GoesOn (fenceScope z h s) := .guarded fun _ => .ite .stall .next

theorem goesOn_tmBlock {ea align n f} (hf : ∀ off, GoesOn (f off)) : GoesOn (tmBlock s ea align n f) := by
  refine .ite .raiseAt ?_
  split
  · exact .raiseAt
  · exact .ite (hf _) .raiseAt

theorem goesOn_issueCopy {f k v h d a b} : GoesOn (issueCopy f k v h d a b s) := by
  refine .guarded fun t => goesOn_tmBlock fun off => .ite .stall ?_
  dsimp only
  split
  · exact .raise
  · split
    · exact .raise
    · refine .ite .raise (.onRes fun _ => ?_)
      split
      · exact .next
      · exact .stall

theorem goesOn_issueSeal {open_ h d a b} : GoesOn (issueSeal open_ h d a b s) := by
  refine .guarded fun t => goesOn_tmBlock fun off => .ite .stall ?_
  dsimp only
  split
  · exact .raise
  · split
    · exact .raise
    · refine .ite .raise (.ite .raise (.ite .raise (.ite .raise (.ite .raise (.onRes fun _ => ?_)))))
      split
      · exact .next
      · exact .stall

theorem goesOn_cpycan {h a} : GoesOn (execCpycan h a s) := by
  refine .guarded fun t => .ite .stall ?_
  split
  · exact .next
  · exact .ite .next .stall

theorem goesOn_copyBox {c slot} : GoesOn (execCopyBox c slot s) := by
  unfold execCopyBox
  split
  · exact .next
  · split <;> exact .next

theorem goesOn_copyStamp {c slot} : GoesOn (execCopyStamp c slot s) := by
  unfold execCopyStamp
  split
  · exact .next
  · refine .ite .next ?_
    split <;> exact .next

/-! ### Keys, scrubs and images (R331, R332, R350, R386 to R390) -/

theorem goesOn_memSweep {p} : GoesOn (execMemSweep p s) := by
  unfold execMemSweep
  dsimp only
  split <;> exact .next

theorem goesOn_keyDrained {k} : GoesOn (execKeyDrained k s) := by
  refine .ite .next (.ite ?_ (.ite .next .next))
  split
  · exact .ite .next .next
  · exact .next

theorem goesOn_mext {h d a b} : GoesOn (execMext h d a b s) := by
  refine .guarded fun t => .ite .raiseAt ?_
  split
  · exact .raiseAt
  · exact .ite .raiseAt (.ite .stall (.ite .next .next))

theorem goesOn_slotsw {h a d f} (hf : ∀ t x, GoesOn (f t x)) : GoesOn (slotsw h a d s f) :=
  .guarded fun _ => .ite .stall (.ite .next (hf _ _))

theorem goesOn_slotswSwitch {h d a b} : GoesOn (execSlotswSwitch h d a b s) := by
  refine goesOn_slotsw fun t x => ?_
  dsimp only
  split <;> exact .next

/-! ### Units and their records (R91 to R93, R252 to R258, R265) -/

theorem goesOn_suspend {h k} : GoesOn (execSuspend h k s) := by
  refine .guarded fun t => .ite .raise ?_
  split
  · exact .raiseAt
  · exact .ite .stall .next

theorem goesOn_post {h d a k} : GoesOn (execPost h d a k s) := by
  refine .guarded fun t => .ite .raise ?_
  split
  · exact .raiseAt
  · split
    · exact .raiseAt
    · exact .stall
    · exact .ite .stall .next

theorem goesOn_handUnit {p} : GoesOn (execHandUnit p s) := by
  unfold execHandUnit
  split
  · exact .next
  · split <;> exact .next

theorem goesOn_resumeRecord {c} : GoesOn (execResumeRecord c s) := by
  unfold execResumeRecord
  split
  · exact .next
  · dsimp only
    split
    · exact .next
    · refine .ite .next ?_
      split <;> exact .next

theorem goesOn_overflowRefill {k} : GoesOn (execOverflowRefill k s) := by
  unfold execOverflowRefill
  dsimp only
  split
  · exact .ite .next .next
  · exact .next

theorem goesOn_shardWatch {k i} : GoesOn (execShardWatch k i s) := by
  unfold execShardWatch
  split
  · exact .next
  · refine .ite .next ?_
    split
    · exact .next
    · exact .next
    · exact .ite .next .next

theorem goesOn_takeTrap {c} : GoesOn (execTakeTrap c s) := .ite .next (.ite .next (.ite .next .next))

/-! ### The turn of issue (R27 to R30, R55) -/

section
variable {run : Instr → State → Out} (hrun : ∀ i t, GoesOn (run i t))
include hrun

theorem goesOn_runWord {since regs last ws w} : GoesOn (runWord run s since regs last ws w) := .ite .raise (hrun _ _)

theorem goesOn_firstStop {last all ws o} (h : firstStop run s last all ws = some o) : GoesOn o := by
  induction ws with
  | nil => cases h
  | cons w ws ih =>
    have hw : GoesOn (runWord run s s.serial s.ctx.regs last all w) := goesOn_runWord hrun
    unfold firstStop at h
    split at h
    · split at h
      · exact ih h
      · cases h; exact .next
    · cases h; exact hw

theorem goesOn_runAll {since regs last all ws} : GoesOn (runAll run since regs last all ws s) := by
  induction ws generalizing s with
  | nil => exact .next
  | cons w ws ih =>
    have hw : GoesOn (runWord run s since regs last all w) := goesOn_runWord hrun
    unfold runAll
    split
    · exact .ite ih .next
    · exact hw

theorem goesOn_runLast {since regs last all ws} : GoesOn (runLast run since regs last all ws s) := by
  induction ws generalizing s with
  | nil => exact .next
  | cons w ws ih =>
    have hw : GoesOn (runWord run s since regs last all w) := goesOn_runWord hrun
    unfold runLast
    split
    · exact .ite ih .next
    · exact hw

omit hrun in
theorem goesOn_finish {ws o} (ho : GoesOn o) : GoesOn (finish ws o) := by
  cases ho
  unfold finish
  dsimp only
  split <;> exact .next

theorem goesOn_runBundle {last ws} : GoesOn (runBundle run s last ws) := by
  unfold runBundle
  split
  · exact goesOn_finish (goesOn_runWord hrun)
  · split
    next hstop => exact goesOn_finish (goesOn_firstStop hrun hstop)
    · have hall : GoesOn (runAll run s.serial s.ctx.regs last ws (ws.filter fun w => !actsLast w.instr) s) := goesOn_runAll hrun
      dsimp only
      split
      · refine .ite .next (.ite (goesOn_finish .next) ?_)
        have hlast (t : State) : GoesOn (runLast run s.serial s.ctx.regs last ws (ws.filter fun w => actsLast w.instr) t) :=
          goesOn_runLast hrun
        split
        · exact .ite .next (goesOn_finish .next)
        · exact hlast _
      · exact hall

omit hrun in
theorem goesOn_fetchFault {k} : GoesOn (fetchFault s k) := goesOn_finish .raiseAt

theorem goesOn_issueFrom {ws} : GoesOn (issueFrom run s ws) := by
  unfold issueFrom
  split
  · exact goesOn_finish .raise
  · dsimp only
    split
    · exact .next
    · exact goesOn_runBundle hrun

theorem goesOn_fetchIssue : GoesOn (fetchIssue run s) := by
  refine .ite goesOn_fetchFault ?_
  split
  · exact goesOn_issueFrom hrun
  · exact goesOn_fetchFault
  · exact .next

theorem goesOn_trapOrDone {t} : GoesOn (trapOrDone run s t) := by
  have hfetch : GoesOn (fetchIssue run s) := goesOn_fetchIssue hrun
  refine .ite ?_ .next
  split
  · exact .ite .next .next
  · exact hfetch

theorem goesOn_issueNow : GoesOn (issueNow run s) := by
  unfold issueNow
  split
  · exact .next
  · refine .ite ?_ (.ite .next ?_)
    · split
      · exact .next
      · exact goesOn_fetchIssue hrun
    · split
      · exact goesOn_trapOrDone hrun
      · split
        · exact goesOn_fetchIssue hrun
        · exact .next

theorem goesOn_issue : GoesOn (issue run s) := .ite .next (.ite .next (.ite .next (goesOn_issueNow hrun)))

end

/-! ### Matrix words, barriers and nests (R132 to R157, R171 to R187) -/

theorem goesOn_issueMma {remote h d a b k} : GoesOn (issueMma remote h d a b k s) := by
  refine .guarded fun t => ?_
  dsimp only
  split
  · exact .raiseAt
  · exact .ite .stall .next

theorem goesOn_mmaTileFetch {c fw} : GoesOn (execMmaTileFetch c fw s) := by
  unfold execMmaTileFetch
  split
  · refine .ite .next ?_
    dsimp only
    split <;> exact .next
  · exact .next

theorem goesOn_mmaAccumulate {c fw} : GoesOn (execMmaAccumulate c fw s) := by unfold execMmaAccumulate; split <;> exact .next

theorem goesOn_imageBlock {ea raw i f} (hf : ∀ off, GoesOn (f off)) : GoesOn (imageBlock s ea raw i f) := by
  refine .ite .raiseAt ?_
  split
  · exact .raiseAt
  · exact .ite (hf _) .raiseAt

theorem goesOn_issueMld {raw h d a} : GoesOn (issueMld raw h d a s) := .guarded fun _ => goesOn_imageBlock fun _ => .ite .stall .next

theorem goesOn_issueMst {raw h d a} : GoesOn (issueMst raw h d a s) := .guarded fun _ => goesOn_imageBlock fun _ => .ite .stall .next

theorem goesOn_issueQuant {ea f t vecs acc} : GoesOn (issueQuant s ea f t vecs acc) := by
  refine .ite .raiseAt ?_
  split
  · exact .raiseAt
  · exact .ite .raiseAt (.ite .raise (.ite .stall .next))

theorem goesOn_quantBlockWritten {c fw} : GoesOn (execQuantBlockWritten c fw s) := by
  unfold execQuantBlockWritten
  split
  · exact .next
  · exact .ite .next .next

theorem goesOn_barrierWord {h a f} (hf : ∀ t n, GoesOn (f t n)) : GoesOn (barrierWord h a s f) :=
  .guarded fun _ => .ite .raise (.ite .stall (hf _ _))

theorem goesOn_liveBarrier {n f} (hf : ∀ b, GoesOn (f b)) : GoesOn (liveBarrier s n f) := .ite (hf _) .raise

theorem goesOn_nestEmit {c fw} : GoesOn (execNestEmit c fw s) := by
  refine .ite .next ?_
  split <;> exact .next

/-! ### Commands of the rings (R266 to R280, R305 to R314) -/

theorem goesOn_onHead {r f} (hf : ∀ bs, GoesOn (f bs)) : GoesOn (onHead s r f) := by
  cases r with
  | some bs => exact hf bs
  | none => exact .next

theorem goesOn_partCommand {p n f} (hf : ∀ bs, GoesOn (f bs)) : GoesOn (partCommand s p n f) := goesOn_onHead fun bs => .ite (hf bs) .next

theorem goesOn_partDone {p n} : GoesOn (partDone s p n) := .next

theorem goesOn_abandon {p} : GoesOn (execAbandon p s) := by
  refine goesOn_partCommand fun bs => ?_
  split
  · exact goesOn_partDone
  · exact .ite goesOn_partDone (.ite goesOn_partDone goesOn_partDone)

theorem goesOn_save {p} : GoesOn (execSave p s) := by
  refine goesOn_partCommand fun bs => ?_
  split
  · exact goesOn_partDone
  · exact .ite goesOn_partDone (.ite .next (.ite goesOn_partDone .next))

theorem goesOn_saveWrite {c} : GoesOn (execSaveWrite c s) := by
  unfold execSaveWrite
  dsimp only
  split
  · refine .ite .next ?_
    split
    · exact .next
    · exact .ite .next (.ite .next .next)
  · exact .next

theorem goesOn_restore {p} : GoesOn (execRestore p s) := by
  refine goesOn_partCommand fun bs => ?_
  split
  · exact goesOn_partDone
  · refine .ite goesOn_partDone ?_
    dsimp only
    split
    · exact .ite goesOn_partDone goesOn_partDone
    · exact goesOn_partDone

theorem goesOn_sliceCommand {d n f} (hf : ∀ bs, GoesOn (f bs)) : GoesOn (sliceCommand s d n f) := goesOn_onHead fun bs => .ite (hf bs) .next

theorem goesOn_sliceDone {d n} : GoesOn (sliceDone s d n) := .next

theorem goesOn_inval {d} : GoesOn (execInval d s) := goesOn_onHead fun _ => .ite goesOn_sliceDone (.ite .next (.ite .next goesOn_sliceDone))

theorem goesOn_invalAll {d} : GoesOn (execInvalAll d s) := goesOn_sliceCommand fun _ => .ite .next goesOn_sliceDone

theorem goesOn_evict {d} : GoesOn (execEvict d s) :=
  goesOn_sliceCommand fun _ => .ite (.ite goesOn_sliceDone .next) (.ite .next goesOn_sliceDone)

theorem goesOn_evictComplete {d} : GoesOn (execEvictComplete d s) := by
  unfold execEvictComplete
  split
  · exact .next
  · exact .ite .next .next

theorem goesOn_migrate {d} : GoesOn (execMigrate d s) :=
  goesOn_sliceCommand fun _ => .ite .next (.ite goesOn_sliceDone (.ite .next .next))

theorem goesOn_migrateMove {d} : GoesOn (execMigrateMove d s) := by
  unfold execMigrateMove
  refine goesOn_sliceCommand fun bs => ?_
  extract_lets g e
  split
  · exact .ite .next goesOn_sliceDone
  · exact goesOn_sliceDone
  · exact .next

theorem goesOn_present {d} : GoesOn (execPresent d s) := goesOn_sliceCommand fun _ => goesOn_sliceDone

theorem goesOn_refuse {d} : GoesOn (execRefuse d s) := goesOn_sliceCommand fun _ => goesOn_sliceDone

/-! ### The task window (R240 to R255) -/

theorem goesOn_issueLaunch {p} : GoesOn (execIssueLaunch p s) := by
  unfold execIssueLaunch
  dsimp only
  split <;> exact .next

theorem goesOn_faultReport {p} : GoesOn (execFaultReport p s) := by
  unfold execFaultReport
  dsimp only
  split
  · exact .next
  · exact .ite .next .next
  · exact .next

/-! ### Stream records and the front end (R213 to R237, R281 to R303) -/

theorem goesOn_streamErr {k wop} : GoesOn (streamErr s k wop) := .next

theorem goesOn_nextRec {n} : GoesOn (nextRec s n) := .next

theorem goesOn_onStream {α : Type} {x : State × Res α} {wop f} (hf : ∀ t a, GoesOn (f t a)) : GoesOn (onStream x wop f) := by
  unfold onStream
  split
  · exact hf _ _
  · exact goesOn_streamErr
  · exact .stall

theorem goesOn_fetchBlock {p} : GoesOn (execFetchBlock p s) := by
  refine .ite .next ?_
  split
  · exact .next
  · dsimp only
    split <;> exact .next

theorem goesOn_wbuf {fixed depth buf size base} : GoesOn (execWbuf fixed depth buf size base s) := by
  unfold execWbuf
  split
  · exact goesOn_nextRec
  · exact goesOn_streamErr
  · exact .stall

theorem goesOn_wfree {buf} : GoesOn (execWfree buf s) := by
  unfold execWfree
  split
  · exact goesOn_streamErr
  · exact goesOn_nextRec

theorem goesOn_wtask {r} : GoesOn (execWtask r s) := by
  refine .ite goesOn_streamErr (goesOn_onStream fun t ps => ?_)
  split
  · exact goesOn_nextRec
  · exact .stall

theorem goesOn_wcall {b buf len target} : GoesOn (execWcall b buf len target s) := by
  refine .ite goesOn_streamErr (.ite ?_ (.ite .next goesOn_streamErr))
  split
  · exact .next
  · exact goesOn_streamErr

theorem goesOn_wret : GoesOn (execWret s) := .ite goesOn_streamErr .next

theorem goesOn_wpred {cond buf skip off v m} : GoesOn (execWpred cond buf skip off v m s) :=
  .ite goesOn_streamErr (goesOn_onStream fun _ _ => .next)

theorem goesOn_wloop {count off} : GoesOn (execWloop count off s) :=
  .ite goesOn_streamErr (.ite (.ite goesOn_streamErr .next) (.ite goesOn_streamErr goesOn_nextRec))

theorem goesOn_wend : GoesOn (execWend s) := by
  unfold execWend
  dsimp only
  split
  · exact goesOn_streamErr
  · exact .ite goesOn_streamErr (.ite goesOn_nextRec .next)

theorem goesOn_wfenceT {buf off} : GoesOn (execWfenceT buf off s) := by
  refine .ite goesOn_streamErr (.ite .stall (goesOn_onStream fun t bs => ?_))
  split
  · exact goesOn_nextRec
  · exact goesOn_streamErr

theorem goesOn_wwait {cond buf limit off v m} : GoesOn (execWwait cond buf limit off v m s) := by
  unfold execWwait
  split
  · exact goesOn_streamErr
  · exact .next

theorem goesOn_wwaitRead {p late} : GoesOn (wwaitRead s p late) := by
  unfold wwaitRead
  dsimp only
  split
  · split
    · exact .ite .next (.ite .next .next)
    · exact .next
    · exact .next
  · exact .next

theorem goesOn_wwaitLimit {p} : GoesOn (execWwaitLimit p s) := by
  unfold execWwaitLimit
  dsimp only
  split
  · exact .ite goesOn_wwaitRead .next
  · exact .next

theorem goesOn_wsignal {add irq buf vec off v} : GoesOn (wsignal add irq buf vec off v s) := by
  unfold wsignal
  split
  · exact goesOn_streamErr
  · exact goesOn_nextRec

theorem goesOn_wsignalEffect {p} : GoesOn (execWsignalEffect p s) := by
  unfold execWsignalEffect
  split
  · exact .next
  · refine .ite .next ?_
    dsimp only
    split
    · exact .next
    · exact .ite .next .next
    · exact .next

theorem goesOn_wgraph {pre buf off} : GoesOn (execWgraph pre buf off s) := by
  refine .ite goesOn_streamErr ?_
  split
  · exact goesOn_streamErr
  · exact goesOn_onStream fun _ _ => .ite goesOn_streamErr (goesOn_onStream fun _ _ => goesOn_onStream fun _ _ => .next)

theorem goesOn_graphTurn {g} : GoesOn (graphTurn s g) := by
  unfold graphTurn
  dsimp only
  split
  · exact goesOn_nextRec
  · split
    · exact .next
    · exact .stall

theorem goesOn_pick {p} : GoesOn (execPick p s) := by
  refine .ite .next ?_
  split <;> exact .next

theorem goesOn_pickTimeout {p} : GoesOn (execPickTimeout p s) := by
  unfold execPickTimeout
  split
  · exact .ite .next .next
  · exact .next

theorem goesOn_pickq {p} : GoesOn (execPickq p s) :=
  goesOn_onHead fun _ => .ite goesOn_partDone (.ite .next (.ite goesOn_partDone (.ite goesOn_partDone (.ite .next .next))))

theorem goesOn_sliceExpire {p} : GoesOn (execSliceExpire p s) := by
  unfold execSliceExpire
  dsimp only
  split
  · exact .next
  · exact .ite .next .next

theorem goesOn_levelEnd : GoesOn (levelEnd s) := .ite goesOn_streamErr (.ite .next .next)

theorem goesOn_skipTurn : GoesOn (skipTurn s) := by
  unfold skipTurn
  split
  · exact .next
  · exact .stall

section
variable {run : Instr → State → Out} (hrun : ∀ i t, GoesOn (run i t))
include hrun

theorem goesOn_recordTurn : GoesOn (recordTurn run s) := by
  unfold recordTurn
  split
  · exact .stall
  · exact goesOn_streamErr
  · refine .ite goesOn_streamErr ?_
    split
    · exact hrun _ _
    · exact goesOn_streamErr

theorem goesOn_decodeTurn : GoesOn (decodeTurn run s) := by
  refine .ite goesOn_skipTurn ?_
  split
  · exact goesOn_graphTurn
  · exact .ite goesOn_levelEnd (.ite (.ite .stall .next) (.ite .stall (goesOn_recordTurn hrun)))

theorem goesOn_streamTurn : GoesOn (streamTurn run s) := by
  have hdecode : GoesOn (decodeTurn run s) := goesOn_decodeTurn hrun
  refine .ite .next ?_
  split
  · exact .next
  · exact hdecode

end

theorem goesOn_haltEffect {p} : GoesOn (execHaltEffect p s) := by
  unfold execHaltEffect
  dsimp only
  split
  · exact .ite .next .next
  · exact .next

theorem goesOn_streamFault {p} : GoesOn (execStreamFault p s) := by
  unfold execStreamFault
  dsimp only
  split
  · exact .ite .next .next
  · exact .next

theorem goesOn_entryComplete {p} : GoesOn (execEntryComplete p s) := by
  unfold execEntryComplete
  dsimp only
  split <;> exact .next

theorem goesOn_bar2Read {p off size} : GoesOn (execBar2Read p off size s) := by
  unfold execBar2Read
  dsimp only
  split
  · exact .next
  · split
    · exact .stall
    · split
      · exact .next
      · exact .next
      · exact .stall

theorem goesOn_bar2Write {p off size v} : GoesOn (execBar2Write p off size v s) := by
  unfold execBar2Write
  dsimp only
  split
  · exact .next
  · split
    · exact .stall
    · split
      · exact .next
      · exact .next
      · exact .stall

/-! ### Topiary (R380, R381) -/

theorem goesOn_stackOp {n f} : GoesOn (stackOp n f s) := by
  unfold stackOp
  split
  · exact .next
  · exact .ite .next .next

theorem goesOn_binaryOp {g} : GoesOn (binaryOp g s) := goesOn_stackOp

theorem goesOn_popOp {f} : GoesOn (popOp f s) := by
  unfold popOp
  split
  · exact .next
  · split <;> exact .next

theorem goesOn_topiaryJmp {d} : GoesOn (execTopiaryJmp d s) := by unfold execTopiaryJmp; split <;> exact .next

theorem goesOn_topiaryForq {n} : GoesOn (execTopiaryForq n s) := by unfold execTopiaryForq; split <;> exact .next

theorem goesOn_topiaryRet : GoesOn (execTopiaryRet s) := by unfold execTopiaryRet; split <;> exact .next

theorem goesOn_topiaryNextq : GoesOn (execTopiaryNextq s) := by
  unfold execTopiaryNextq
  split
  · exact .next
  · split
    · exact .next
    · exact .ite .next .next

theorem goesOn_topiaryTurn {run : Instr → State → Out} (hrun : ∀ i t, GoesOn (run i t)) : GoesOn (topiaryTurn run s) := by
  unfold topiaryTurn
  dsimp only
  split
  · refine .ite .next ?_
    split
    · exact hrun _ _
    · exact .next
  · exact .next

/-! ### Messages and links (R336, R355 to R365) -/

theorem goesOn_arriving {k m f} (hf : ∀ p n t, GoesOn (f p n t)) : GoesOn (arriving k m s f) := by
  refine .ite .next (.ite .next ?_)
  split
  · exact .ite .next (.ite (hf _ _ _) (.ite (hf _ _ _) .stall))
  · exact .ite .next .next

theorem goesOn_request {k m} : GoesOn (request k m s) := by
  refine goesOn_arriving fun p n t => ?_
  split
  · exact .next
  · exact .stall

theorem goesOn_err {m} : GoesOn (execErr m s) := by
  refine goesOn_arriving fun p n t => ?_
  split <;> exact .next

theorem goesOn_qstMessage {m} : GoesOn (execQstMessage m s) := by
  refine goesOn_arriving fun p n t => ?_
  split
  · exact .next
  · exact .stall

theorem goesOn_holdExpire {i} : GoesOn (execHoldExpire i s) := by
  unfold execHoldExpire
  split
  · exact .next
  · exact .ite .next (.ite .next .next)

theorem goesOn_escapeRoute {i} : GoesOn (execEscapeRoute i s) := by
  unfold execEscapeRoute
  split
  · exact .next
  · exact .ite .next .next

theorem goesOn_flitReceive {k flit} : GoesOn (execFlitReceive k flit s) := by
  refine .ite .next (.ite .next (.ite .next ?_))
  split <;> exact .next

/-! ### Attestation, administration and protected partitions (R343 to R353, R366, R394 to R398) -/

theorem goesOn_replyError : GoesOn (replyError s) := .next

theorem goesOn_tdiRequest {p f} (hf : ∀ t, GoesOn (f t)) : GoesOn (tdiRequest p s f) := .ite (hf s) goesOn_replyError

theorem goesOn_keyExchange {peer share} : GoesOn (execKeyExchange peer share s) := by
  refine .ite goesOn_replyError ?_
  split
  · exact goesOn_replyError
  · exact .next

theorem goesOn_finishSession {id} : GoesOn (execFinish id s) := by
  unfold execFinish
  split
  · exact goesOn_replyError
  · exact .next

theorem goesOn_adminDone {n} : GoesOn (adminDone s n) := .next

theorem goesOn_adminCommand {n arg f} (hf : ∀ p x, GoesOn (f p x)) : GoesOn (adminCommand s n arg f) :=
  goesOn_onHead fun _ => .ite .next (.ite goesOn_adminDone (hf _ _))

theorem goesOn_meter : GoesOn (execMeter s) :=
  .ite goesOn_adminDone (goesOn_adminCommand fun _ _ => .ite goesOn_adminDone goesOn_adminDone)

theorem goesOn_create : GoesOn (execCreate s) := by
  refine goesOn_adminCommand fun p x => .ite goesOn_adminDone (.ite goesOn_adminDone ?_)
  dsimp only
  split <;> exact goesOn_adminDone

theorem goesOn_destroy : GoesOn (execDestroy s) := by
  refine goesOn_adminCommand fun p x => ?_
  split
  · exact .ite .next goesOn_adminDone
  · exact .ite .next goesOn_adminDone
  · exact goesOn_adminDone

theorem goesOn_wipe : GoesOn (execWipe s) := goesOn_adminCommand fun _ _ => .ite goesOn_adminDone goesOn_adminDone

theorem goesOn_capWord {h f} (hf : ∀ t p, GoesOn (f t p)) : GoesOn (capWord h s f) := by
  refine .guarded fun t => ?_
  split
  · exact .ite (hf _ _) .raise
  · exact .raise

theorem goesOn_capld {h d a n} : GoesOn (execCapld h d a n s) := by
  refine goesOn_capWord fun t p => .onRes fun _ => .ite .stall ?_
  split
  · exact .raiseAt
  · exact .next

theorem goesOn_capdrv {h d a b} : GoesOn (execCapdrv h d a b s) := by
  refine goesOn_capWord fun t p => .ite (.onRes fun _ => .ite .stall (.ite .raise .next)) (.onRes fun _ => .onRes fun _ => .ite .stall ?_)
  split
  · exact .raiseAt
  · exact .next

theorem goesOn_capst {h d a} : GoesOn (execCapst h d a s) := by
  refine goesOn_capWord fun t p => .onRes fun _ => .onRes fun _ => .ite .stall ?_
  split
  · exact .raiseAt
  · exact .next

/-! ### Vector memory words (R116 to R131) -/

theorem goesOn_contiguous {m ea i f} (hf : ∀ lo n l, GoesOn (f lo n l)) : GoesOn (contiguous s m ea i f) := by
  unfold contiguous
  split
  · exact .next
  · exact .ite .raiseAt (.onRes fun _ => hf _ _ _)

theorem goesOn_issueVst {m ea v after} : GoesOn (issueVst s m ea v after) := goesOn_contiguous fun _ _ _ => .ite .stall .next

theorem goesOn_issueElemLoad {d m base offs stride v} : GoesOn (issueElemLoad s d m base offs stride v) := .ite .stall .next

theorem goesOn_issueElemStore {m base offs stride v data} : GoesOn (issueElemStore s m base offs stride v data) := .ite .stall .next

theorem goesOn_vldq {h m d q} : GoesOn (execVldq h m d q s) := by
  refine .guarded fun t => ?_
  split
  · exact .raise
  · refine .ite .raise ?_
    split
    · exact .raiseAt
    · exact .ite .stall .next
    · exact .ite .stall .stall

theorem goesOn_vstq {h m d q} : GoesOn (execVstq h m d q s) := by
  refine .guarded fun t => ?_
  split
  · exact .raise
  · refine .ite .raise ?_
    split
    · exact .next
    · exact goesOn_issueVst

theorem goesOn_vbind {h d a} : GoesOn (execVbind h d a s) := by
  refine .guarded fun t => .ite .raiseAt (.ite .raiseAt (.ite .stall ?_))
  dsimp only
  split
  · exact .raiseAt
  · split
    · exact .next
    · exact .stall

theorem goesOn_streamRead {c fw} : GoesOn (execStreamRead c fw s) := by
  unfold execStreamRead
  split
  · split <;> exact .next
  · exact .next

theorem goesOn_issueVamo {b16 h m d a} : GoesOn (issueVamo b16 h m d a s) := by
  refine .guarded fun t => .aligned ?_
  split
  · exact .onRes fun _ => .ite .stall .next
  · exact .next

theorem goesOn_vqst {h m d a b t o} : GoesOn (execVqst h m d a b t o s) := by
  refine .guarded fun t => .aligned ?_
  split
  · exact .ite goesOn_emptyQst .raiseAt
  · exact goesOn_qstChecks goesOn_issueQst

/-! ### Every instruction, and a step (R4) -/

/-- A word that only computes writes its register. -/
theorem goesOn_onlyDest {i : Instr} {d : Dest} (hd : onlyDest i = some d) : GoesOn (exec i s) := by
  obtain ⟨h, t, -, he⟩ := exec_onlyDest s hd
  exact he ▸ .ite .next .next

theorem goesOn_exec (i : Instr) (s : State) : GoesOn (exec i s) := by
  cases hd : onlyDest i with
  | some d => exact goesOn_onlyDest hd
  | none =>
    unfold exec
    cases i with
    | br | call | jr => exact .guarded fun _ => .next
    | loop => exact .guarded fun _ => .ite .next (.ite .raise .next)
    | crd => exact .guarded fun _ => .ite .next .raise
    | cwr => exact goesOn_cwr
    | fenceCore | fenceCluster | fenceDie | fencePkg | fenceSys => exact goesOn_fenceScope
    | trap => exact .guarded fun _ => .ite .raise (.ite .stall .next)
    | tret => exact .guarded fun _ => .ite .raise (.ite .raise (.ite .stall .next))
    | done => exact .guarded fun _ => .ite .raise (.ite .stall .next)
    | suspend => exact goesOn_suspend
    | post => exact goesOn_post
    | ld => exact .guarded fun _ => goesOn_issueLoad
    | ldAcq => exact .guarded fun _ => .aligned goesOn_issueLoad
    | st => exact .guarded fun _ => goesOn_issueStore
    | stRel => exact .guarded fun _ => .aligned goesOn_issueStore
    | lsaln => exact .guarded fun _ => .next
    | amoAdd | amoAnd | amoOr | amoXor | amoMin | amoMax | amoMinu | amoMaxu | amoSwap | amoCas => exact goesOn_issueAmo
    | qst => exact .guarded fun _ => .aligned (goesOn_qstChecks goesOn_issueQst)
    | mwaitNe | mwaitEq => exact goesOn_issueMwait
    | mwaitReread => exact goesOn_mwaitReread
    | vqrec | mqnt => exact .guarded fun _ => goesOn_issueQuant
    | vld => exact .guarded fun _ => goesOn_contiguous fun _ _ _ => .ite .stall .next
    | vst => exact .guarded fun _ => goesOn_issueVst
    | vlds | vgather => exact .guarded fun _ => goesOn_issueElemLoad
    | vsts | vscatter => exact .guarded fun _ => goesOn_issueElemStore
    | vldq => exact goesOn_vldq
    | vstq => exact goesOn_vstq
    | vbind => exact goesOn_vbind
    | vunbind => exact .guarded fun _ => .next
    | streamRead => exact goesOn_streamRead
    | vamoAddF32 | vamoAddBf16 => exact goesOn_issueVamo
    | vqst => exact goesOn_vqst
    | mmaDesc | mmaRmt => exact goesOn_issueMma
    | mmaReg => exact .guarded fun _ => .ite .stall (.ite .stall .next)
    | mmaTileFetch => exact goesOn_mmaTileFetch
    | mmaAccumulate => exact goesOn_mmaAccumulate
    | mldF32 | mldRaw => exact goesOn_issueMld
    | mstF32 | mstRaw => exact goesOn_issueMst
    | mzero | mread | mwrite | msmax => exact .guarded fun _ => .ite .stall .next
    | cpy2d | cpy2dCvtRelay | cpy2dCvtQnt | cpy2dCvtZexp | cpy2dRedAddF32 | cpy2dRedAddBf16 | cpy2dRedMaxF32 | cpy2dRedMinF32
      | cpy2dStamp => exact goesOn_issueCopy
    | copyBox => exact goesOn_copyBox
    | copyStamp => exact goesOn_copyStamp
    | cpycan => exact goesOn_cpycan
    | nestLd => exact .guarded fun _ => goesOn_tmBlock fun _ => .ite .stall (.ite .raise (.ite .raise (.ite .raise .next)))
    | nestGo => exact .guarded fun _ => .ite .stall (.ite .raise (.ite .raise .next))
    | nestWait => exact .guarded fun _ => .ite .stall .next
    | nestEmit => exact goesOn_nestEmit
    | binit => exact goesOn_barrierWord fun _ _ => .ite .raise (.ite .stall .next)
    | bexp | barrv | btest => exact goesOn_barrierWord fun _ _ => goesOn_liveBarrier fun _ => .next
    | bwait => exact goesOn_barrierWord fun _ _ => goesOn_liveBarrier fun _ => .ite .next .stall
    | krotInstall | krotQuery => exact .guarded fun _ => .next
    | krotRetire | scrubCore => exact .guarded fun _ => .ite .next (.ite .next .next)
    | krotDestroy | scrubRegions | scrubCluster => exact .guarded fun _ => .ite .next .next
    | sealChunks | unsealChunks => exact goesOn_issueSeal
    | capdrv => exact goesOn_capdrv
    | capchk => exact goesOn_capWord fun _ _ => .onRes fun _ => .ite .stall .next
    | capld => exact goesOn_capld
    | capst => exact goesOn_capst
    | sigchk => exact .guarded fun _ => .ite .next (.ite .next (.ite .next .next))
    | mext => exact goesOn_mext
    | slotswQuery => exact goesOn_slotsw fun _ _ => .next
    | slotswQuiesce => exact goesOn_slotsw fun _ _ => .ite .next .next
    | slotswSwitch => exact goesOn_slotswSwitch
    | slotswBeat | slotswResume => exact goesOn_slotsw fun _ _ => .ite .next (.ite .next .next)
    | heartbeatMissed => exact .ite .next .next
    | handUnit => exact goesOn_handUnit
    | resumeRecord => exact goesOn_resumeRecord
    | shardWatch => exact goesOn_shardWatch
    | overflowRefill => exact goesOn_overflowRefill
    | takeTrap => exact goesOn_takeTrap
    | deferredFault => exact goesOn_deferredFault
    | tokenExpire => exact goesOn_tokenExpire
    | watchdog | nodeWriteback | rampWindow => exact .ite .next .next
    | loadReturn => exact goesOn_loadReturn
    | storePerform => exact goesOn_storePerform
    | bankRequest => exact goesOn_bankRequest
    | atomicEngineRequest => exact goesOn_atomicEngineRequest
    | leaseLookup => exact goesOn_leaseLookup
    | translate => exact goesOn_translate
    | counterWrite => exact goesOn_counterWrite
    | memSweep => exact goesOn_memSweep
    | keyDrained => exact goesOn_keyDrained
    | inval => exact goesOn_inval
    | invalAll => exact goesOn_invalAll
    | evict => exact goesOn_evict
    | evictComplete => exact goesOn_evictComplete
    | migrate => exact goesOn_migrate
    | migrateMove => exact goesOn_migrateMove
    | present => exact goesOn_present
    | refuse => exact goesOn_refuse
    | wnop => exact goesOn_nextRec
    | wbuf => exact goesOn_wbuf
    | wfree => exact goesOn_wfree
    | wtask => exact goesOn_wtask
    | wcall => exact goesOn_wcall
    | wret => exact goesOn_wret
    | wpred => exact goesOn_wpred
    | wloop => exact goesOn_wloop
    | wend => exact goesOn_wend
    | wfence => exact .ite .stall goesOn_nextRec
    | wfenceT => exact goesOn_wfenceT
    | wwait => exact goesOn_wwait
    | wwaitReread => exact .ite goesOn_wwaitRead .next
    | wwaitLimit => exact goesOn_wwaitLimit
    | wsignalSt | wsignalAdd => exact goesOn_wsignal
    | wsignalEffect => exact goesOn_wsignalEffect
    | wgraph => exact goesOn_wgraph
    | wphase | wcancelLaunch | wcancelGraph | wcancelPhase | wcancelJob => exact goesOn_nextRec
    | haltEffect => exact goesOn_haltEffect
    | streamFault => exact goesOn_streamFault
    | fetchBlock => exact goesOn_fetchBlock
    | issueLaunch => exact goesOn_issueLaunch
    | faultReport => exact goesOn_faultReport
    | pick => exact goesOn_pick
    | pickTimeout => exact goesOn_pickTimeout
    | sliceExpire => exact goesOn_sliceExpire
    | entryComplete => exact goesOn_entryComplete
    | bar2Read => exact goesOn_bar2Read
    | bar2Write => exact goesOn_bar2Write
    | pickq => exact goesOn_pickq
    | abandon => exact goesOn_abandon
    | save => exact goesOn_save
    | saveWrite => exact goesOn_saveWrite
    | restore => exact goesOn_restore
    | topiaryLit | topiaryDup | topiaryDrop | topiarySwap | topiaryLdq | topiaryLdl => exact goesOn_stackOp
    | topiaryAdd | topiarySub | topiaryMul | topiaryMin | topiaryMax | topiaryAnd | topiaryOr | topiaryLt | topiaryEq =>
      exact goesOn_binaryOp
    | topiaryStl | topiaryJz | topiaryPick | topiarySlice => exact goesOn_popOp
    | topiaryJmp => exact goesOn_topiaryJmp
    | topiaryForq => exact goesOn_topiaryForq
    | topiaryNextq => exact goesOn_topiaryNextq
    | topiaryRet => exact goesOn_topiaryRet
    | rd | wr | amoMessage | vamoMessage | red | tile => exact goesOn_request
    | rdrsp | wrack | land | rel | amorsp | tilersp | holdfull => exact goesOn_arriving fun _ _ _ => .next
    | qstMessage => exact goesOn_qstMessage
    | err => exact goesOn_err
    | holdExpire => exact goesOn_holdExpire
    | escapeRoute => exact goesOn_escapeRoute
    | flitReceive => exact goesOn_flitReceive
    | poolStopGo | linkTrain | linkDown | hfcfgWrite => exact .ite .next .next
    | getTdispVersion | getTdispCapabilities | getDeviceInterfaceReport | getDeviceInterfaceState | stopInterfaceRequest =>
      exact goesOn_tdiRequest fun _ => .next
    | lockInterfaceRequest | startInterfaceRequest | setSealSecret => exact goesOn_tdiRequest fun _ => .ite .next goesOn_replyError
    | challenge | endSession => exact .ite .next goesOn_replyError
    | getMeasurements => exact .ite goesOn_replyError .next
    | keyExchange => exact goesOn_keyExchange
    | finish => exact goesOn_finishSession
    | create => exact goesOn_create
    | destroy => exact goesOn_destroy
    | wipe => exact goesOn_wipe
    | meter => exact goesOn_meter
    | intervalCut | thermalTrip2 | pfBar2Write | regintBoundary => exact .ite .next .next
    | quantBlockWritten => exact goesOn_quantBlockWritten
    | fwFault | leaseGrant | retire | cancel | whalt | enable | restart | skip | drop | stop | clrerr | qtailWrite | jobcan | regWrite
      | vfFlr | tdiError | getVersion | getCapabilities | negotiateAlgorithms | getDigests | getCertificate | uncorrectableError
      | correctableError | admtailWrite | pwrcmdWrite | thermclr | thermalTrip1 | updreqWrite | pfidRead | reset => exact .next
    | _ => cases hd

/-- What an event does is what its row of the table does, but for the hub's own requests (R4). -/
theorem goesOn_runEvent (e : Event) (s : State) : GoesOn (runEvent e s) := by
  cases e with
  | mwaitReread => exact goesOn_exec (.mwaitReread _ _) s
  | streamRead => exact goesOn_exec (.streamRead _ _) s
  | mmaTileFetch => exact goesOn_exec (.mmaTileFetch _ _) s
  | mmaAccumulate => exact goesOn_exec (.mmaAccumulate _ _) s
  | nestEmit => exact goesOn_exec (.nestEmit _ _) s
  | deferredFault => exact goesOn_exec (.deferredFault _ _) s
  | loadReturn => exact goesOn_exec (.loadReturn _ _) s
  | storePerform => exact goesOn_exec (.storePerform _ _) s
  | leaseLookup => exact goesOn_exec (.leaseLookup _ _) s
  | translate => exact goesOn_exec (.translate _ _) s
  | counterWrite => exact goesOn_exec (.counterWrite _ _) s
  | quantBlockWritten => exact goesOn_exec (.quantBlockWritten _ _) s
  | copyBox => exact goesOn_exec (.copyBox _ _) s
  | copyStamp => exact goesOn_exec (.copyStamp _ _) s
  | resumeRecord => exact goesOn_exec (.resumeRecord _) s
  | takeTrap => exact goesOn_exec (.takeTrap _) s
  | tokenExpire => exact goesOn_exec (.tokenExpire _) s
  | watchdog => exact goesOn_exec (.watchdog _) s
  | rampWindow => exact goesOn_exec (.rampWindow _) s
  | saveWrite => exact goesOn_exec (.saveWrite _) s
  | shardWatch => exact goesOn_exec (.shardWatch _ _) s
  | overflowRefill => exact goesOn_exec (.overflowRefill _) s
  | bankRequest => exact goesOn_exec (.bankRequest _ _) s
  | atomicEngineRequest => exact goesOn_exec (.atomicEngineRequest _) s
  | nodeWriteback => exact goesOn_exec (.nodeWriteback _ _ _) s
  | inval => exact goesOn_exec (.inval _) s
  | invalAll => exact goesOn_exec (.invalAll _) s
  | evict => exact goesOn_exec (.evict _) s
  | evictComplete => exact goesOn_exec (.evictComplete _) s
  | migrate => exact goesOn_exec (.migrate _) s
  | migrateMove => exact goesOn_exec (.migrateMove _) s
  | present => exact goesOn_exec (.present _) s
  | refuse => exact goesOn_exec (.refuse _) s
  | keyDrained => exact goesOn_exec (.keyDrained _) s
  | memSweep => exact goesOn_exec (.memSweep _) s
  | handUnit => exact goesOn_exec (.handUnit _) s
  | wwaitReread => exact goesOn_exec (.wwaitReread _) s
  | wwaitLimit => exact goesOn_exec (.wwaitLimit _) s
  | wsignalEffect => exact goesOn_exec (.wsignalEffect _) s
  | haltEffect => exact goesOn_exec (.haltEffect _) s
  | streamFault => exact goesOn_exec (.streamFault _) s
  | fetchBlock => exact goesOn_exec (.fetchBlock _) s
  | leaseGrant => exact goesOn_exec (.leaseGrant _) s
  | issueLaunch => exact goesOn_exec (.issueLaunch _) s
  | retire => exact goesOn_exec (.retire _) s
  | faultReport => exact goesOn_exec (.faultReport _) s
  | cancel => exact goesOn_exec (.cancel _) s
  | pick => exact goesOn_exec (.pick _) s
  | pickTimeout => exact goesOn_exec (.pickTimeout _) s
  | sliceExpire => exact goesOn_exec (.sliceExpire _) s
  | entryComplete => exact goesOn_exec (.entryComplete _) s
  | pickq => exact goesOn_exec (.pickq _) s
  | abandon => exact goesOn_exec (.abandon _) s
  | save => exact goesOn_exec (.save _) s
  | restore => exact goesOn_exec (.restore _) s
  | intervalCut => exact goesOn_exec (.intervalCut _) s
  | regintBoundary => exact goesOn_exec .regintBoundary s
  | create => exact goesOn_exec .create s
  | destroy => exact goesOn_exec .destroy s
  | wipe => exact goesOn_exec .wipe s
  | meter => exact goesOn_exec .meter s
  | heartbeatMissed => exact goesOn_exec .heartbeatMissed s
  | holdExpire => exact goesOn_exec (.holdExpire _) s
  | escapeRoute => exact goesOn_exec (.escapeRoute _) s
  | inward => exact goesOn_inward

theorem goesOn_endInput {o} (ho : GoesOn o) : GoesOn (endInput s o) := by
  cases ho
  exact .ite .next .next

theorem goesOn_takeInput : GoesOn (takeInput s) := by
  unfold takeInput
  dsimp only
  split
  · exact .next
  · exact .ite .next (goesOn_endInput (goesOn_exec _ _))
  · refine .ite .next (goesOn_endInput ?_)
    split
    · exact goesOn_bar2Read
    · exact goesOn_bar2Write
  · exact .next

theorem goesOn_runTurn : GoesOn (runTurn s) := by
  unfold runTurn
  split
  · exact .ite .next (goesOn_issue goesOn_exec)
  · exact goesOn_streamTurn goesOn_exec
  · exact goesOn_topiaryTurn goesOn_exec
  · exact goesOn_runEvent _ s
  · exact goesOn_takeInput

theorem goesOn_afterTurn {o} (ho : GoesOn o) : GoesOn (afterTurn s o) := by
  cases ho
  exact .next

theorem goesOn_step (s : State) : GoesOn (step s) := goesOn_afterTurn goesOn_runTurn

/-- Settles O48: the step goes on whatever its turn, and so does each row of the table. -/
theorem noStepStops : Obligations.NoStepStops := fun s => ⟨goesOn_iff.1 (goesOn_step s), fun i => goesOn_iff.1 (goesOn_exec i s)⟩

end Sys2Proof.Machine
end

section
/-! PROOFS. How a trap begins and takes effect (R316), and what a unit takes at its boundary (R315). -/

namespace Sys2Proof.Machine

/-! ### What a trap that is taken leaves of its unit (R316) -/

/-- What of one core an event that it holds does not change is left alone by all that is told. -/
theorem untold_ofCore {β : Type} {g : Core → β} (hg : ∀ x l, g { x with heldEvents := l } = g x) (c : Fin 512) :
    Untold fun s => g s.cores[c] := by
  refine ⟨fun _ _ _ => rfl, fun _ _ _ => rfl, fun _ _ _ => rfl, fun _ _ => rfl, fun _ _ => rfl, fun s d l => ?_⟩
  simp only [State.putCore, vput_get]
  split_ifs with h
  · subst h; exact hg _ l
  · rfl

/-- That a unit is Stopped, its control registers, and the trap that it still waits for. -/
def Core.trapState (x : Core) : UnitSt × Ctl × Option (TrapInfo × Option Nat) := (x.st, x.ctl, x.trap)

section
variable (s : State) (c : Fin 512) (taken : Option Nat) (t : TrapInfo)

theorem takeTrap_trapState : (takeTrap s c taken t).cores[c].trapState = (trapStopped s c taken t).cores[c].trapState := by
  refine (untold_ofCore (g := Core.trapState) (fun _ _ => rfl) c).takeTrap (fun _ _ _ => rfl) (fun v d r => ?_) (fun _ _ => rfl) s c taken t
  simp only [State.putCore, vput_get]
  split_ifs with h
  · subst h; rfl
  · rfl

/-- R316: the unit is Stopped under the control registers that name the trap, and nothing waits any more. -/
theorem takeTrap_leaves : (takeTrap s c taken t).cores[c].st = .stopped ∧ (takeTrap s c taken t).cores[c].ctl.tcause = t.cause.code ∧
    (takeTrap s c taken t).cores[c].ctl.tpc = t.tpc ∧ (takeTrap s c taken t).cores[c].ctl.tword = t.tword ∧
    (takeTrap s c taken t).cores[c].trap = none := by
  obtain ⟨x, hx⟩ := trapStopped_cores s c taken t
  have hleft := takeTrap_trapState s c taken t
  simp only [Core.trapState, hx, Prod.mk.injEq] at hleft
  obtain ⟨hst, hctl, htrap⟩ := hleft
  rw [hst, hctl, htrap]
  exact ⟨rfl, rfl, rfl, rfl, rfl⟩

end

/-! ### When a trap is taken (R71, R162, R187, R316) -/

section
variable {s : State} {c : Fin 512}

/-- R162: a copy slot of no copy, or of one that is settled. -/
def slotSettled : Option Copy → Bool
  | some k => k.settled
  | none => true

theorem slotSettled_iff {o : Option Copy} : slotSettled o = true ↔ ∀ y, o = some y → y.settled = true := by
  cases o <;> simp [slotSettled]

theorem trapReady_eq (s : State) (c : Fin 512) : trapReady s c = (s.cores[c].unit.mq.all (fun e => !e.drains || e.failed) &&
    s.cores[c].unit.mmas.all (fun r => r.pix != r.steps) && s.cores[c].copies.toList.all slotSettled) := rfl

theorem trapReady_iff : trapReady s c = true ↔ (∀ e ∈ s.cores[c].unit.mq, e.drains = true → e.failed = true) ∧
    (∀ r ∈ s.cores[c].unit.mmas, r.pix ≠ r.steps) ∧ ∀ (i : Fin 256) (y : Copy), s.cores[c].copies[i] = some y → y.settled = true := by
  have hcopies : s.cores[c].copies.toList.all slotSettled = true ↔ ∀ (i : Fin 256) (y : Copy), s.cores[c].copies[i] = some y → y.settled = true := by
    simp [← slotSettled_iff, Fin.forall_iff]
  rw [trapReady_eq, Bool.and_eq_true, Bool.and_eq_true, hcopies, and_assoc]
  simp [imp_iff_not_or]

theorem trapFree_iff : trapFree s c = true ↔ s.cores[c].st = .running ∧ s.cores[c].trap = none := by simp [trapFree]

/-- A unit whose trap waits takes no other. -/
theorem trapFree_startTrap_waits (taken : Option Nat) (t : TrapInfo) (h : trapReady s c = false) : trapFree (startTrap s c taken t) c = false := by
  rw [startTrap_waits taken t h]
  simp [trapFree]

/-- The core's trap turn with a trap that waits. -/
theorem exec_takeTrap_begun {t : TrapInfo} {taken : Option Nat} (htrap : s.cores[c].trap = some (t, taken)) (hcan : cancelDue s c = false) :
    exec (.takeTrap c) s = .next (if trapReady s c then takeTrap s c taken t else s) := by
  simp only [exec_takeTrap, execTakeTrap, hcan, htrap, endTrap, Option.isSome_some, if_true, Bool.false_eq_true, if_false]

end

/-- Settles O38: the stop that a trap leaves, when it is taken, and the trap that a fault at issue starts. -/
theorem trapEntry : Obligations.TrapEntry := by
  intro s c taken t k a
  obtain ⟨hst, hcause, hpc, hword, htrap⟩ := takeTrap_leaves s c taken t
  refine ⟨⟨hst, hcause, hpc, hword, htrap, takeTrap_mark s c taken t⟩, trapReady_iff, fun h => startTrap_ready taken t h,
    fun h => ⟨startTrap_waits taken t h, trapFree_startTrap_waits taken t h⟩, exec_takeTrap_begun, fun h => raiseAt_unit k a h, fun h => raiseAt_fw k a h⟩

/-! ### The causes of a boundary (R315) -/

section
variable {s : State} {c : Fin 512}

theorem atBoundary_pend : (atBoundary s c).cores[c].pend = s.cores[c].pend := by simp [atBoundary]

theorem atBoundary_ending : (atBoundary s c).cores[c].ending = s.cores[c].ending := by simp [atBoundary]

theorem boundaryTrap_fault {d : Deferred} (hd : oldestFault s c false = some d) : boundaryTrap s c = some (takeDeferred s c d) := by
  simp only [boundaryTrap, hd]

section
variable (hd : oldestFault s c false = none)
include hd

/-- The causes other than a deferred fault, in their order. -/
theorem boundaryTrap_eq : boundaryTrap s c = match s.cores[c].pend.tokens with
    | t :: rest => some (startTrap (modPend (atBoundary s c) c fun q => { q with tokens := rest }) c none
        { boundaryInfo (atBoundary s c) c .tokenExpire with tokent := t })
    | [] => if s.cores[c].pend.watchdog then
        some (startTrap (modPend (atBoundary s c) c fun q => { q with watchdog := false }) c none (boundaryInfo (atBoundary s c) c .watchdog))
      else if s.cores[c].ending.isSome then none
      else match breakHit (atBoundary s c) c with
      | some i => some (startTrap (atBoundary s c) c none { boundaryInfo (atBoundary s c) c .brk with brkn := BitVec.ofNat 3 i.val })
      | none => if s.cores[c].pend.preempt then
          some (startTrap (modPend (atBoundary s c) c fun q => { q with preempt := false }) c none (boundaryInfo (atBoundary s c) c .preempt))
        else none := by
  simp only [boundaryTrap, hd, atBoundary_pend, atBoundary_ending] <;> rfl

theorem boundaryTrap_token {t : BitVec 8} {rest : List (BitVec 8)} (ht : s.cores[c].pend.tokens = t :: rest) : boundaryTrap s c =
    some (startTrap (modPend (atBoundary s c) c fun q => { q with tokens := rest }) c none
      { boundaryInfo (atBoundary s c) c .tokenExpire with tokent := t }) := by
  rw [boundaryTrap_eq hd, ht]

variable (ht : s.cores[c].pend.tokens = [])
include ht

theorem boundaryTrap_watchdog (hw : s.cores[c].pend.watchdog = true) : boundaryTrap s c =
    some (startTrap (modPend (atBoundary s c) c fun q => { q with watchdog := false }) c none (boundaryInfo (atBoundary s c) c .watchdog)) := by
  rw [boundaryTrap_eq hd, ht]
  exact if_pos hw

variable (hw : s.cores[c].pend.watchdog = false)
include hw

theorem boundaryTrap_ending (he : s.cores[c].ending.isSome = true) : boundaryTrap s c = none := by
  rw [boundaryTrap_eq hd, ht]
  exact (if_neg (Bool.not_eq_true _ ▸ hw)).trans (if_pos he)

variable (he : ¬s.cores[c].ending.isSome = true)
include he

theorem boundaryTrap_break {i : Fin 8} (hb : breakHit (atBoundary s c) c = some i) : boundaryTrap s c =
    some (startTrap (atBoundary s c) c none { boundaryInfo (atBoundary s c) c .brk with brkn := BitVec.ofNat 3 i.val }) := by
  rw [boundaryTrap_eq hd, ht, hb]
  exact (if_neg (Bool.not_eq_true _ ▸ hw)).trans (if_neg he)

theorem boundaryTrap_noBreak (hb : breakHit (atBoundary s c) c = none) : boundaryTrap s c = if s.cores[c].pend.preempt then
    some (startTrap (modPend (atBoundary s c) c fun q => { q with preempt := false }) c none (boundaryInfo (atBoundary s c) c .preempt))
    else none := by
  rw [boundaryTrap_eq hd, ht, hb]
  exact (if_neg (Bool.not_eq_true _ ▸ hw)).trans (if_neg he)

end

/-! ### The turns that take them (R70, R166, R255, R329) -/

/-- A unit that may take a trap takes the one that its boundary has for it. -/
theorem exec_takeTrap_boundary (hst : s.cores[c].st = .running) (htrap : s.cores[c].trap = none) (hcan : cancelDue s c = false)
    (hcpy : cancelling s c = false) (hdone : doneDue s c = false) : exec (.takeTrap c) s = .next ((boundaryTrap s c).getD s) := by
  have hfree : trapFree s c = true := trapFree_iff.2 ⟨hst, htrap⟩
  simp only [exec_takeTrap, execTakeTrap, hcan, htrap, hfree, hcpy, hdone]
  rfl

theorem exec_takeTrap_takes {t : State} (hst : s.cores[c].st = .running) (htrap : s.cores[c].trap = none) (hcan : cancelDue s c = false)
    (hcpy : cancelling s c = false) (hdone : doneDue s c = false) (ht : boundaryTrap s c = some t) : exec (.takeTrap c) s = .next t := by
  rw [exec_takeTrap_boundary hst htrap hcan hcpy hdone, ht, Option.getD_some]

theorem exec_takeTrap_takesNone (hst : s.cores[c].st = .running) (htrap : s.cores[c].trap = none) (hcan : cancelDue s c = false)
    (hcpy : cancelling s c = false) (hdone : doneDue s c = false) (ht : boundaryTrap s c = none) : exec (.takeTrap c) s = .next s := by
  rw [exec_takeTrap_boundary hst htrap hcan hcpy hdone, ht, Option.getD_none]

theorem exec_takeTrap_waits (htrap : s.cores[c].trap = none) (hcan : cancelDue s c = false)
    (hwait : trapFree s c = false ∨ cancelling s c = true ∨ doneDue s c = true) : exec (.takeTrap c) s = .next s := by
  have hidle : (!trapFree s c || cancelling s c || doneDue s c) = true := by
    rcases hwait with h | h | h <;> simp [h]
  simp only [exec_takeTrap, execTakeTrap, hcan, htrap, hidle, Option.isSome_none, if_true, Bool.false_eq_true, if_false]

theorem exec_takeTrap_cancelled (hcan : cancelDue s c = true) : exec (.takeTrap c) s = .next (discardUnit s c) := by
  simp only [exec_takeTrap, execTakeTrap, hcan, if_true]

theorem exec_deferredFault_none {fw : Bool} (hd : oldestFault s c fw = none) : exec (.deferredFault c fw) s = .next s := by
  simp only [exec_deferredFault, execDeferredFault, hd]

theorem exec_deferredFault_fw {d : Deferred} (hd : oldestFault s c true = some d) : exec (.deferredFault c true) s = .next (fwFault s c d.cause) := by
  simp only [exec_deferredFault, execDeferredFault, hd, if_true]

theorem exec_deferredFault_unit {d : Deferred} (hd : oldestFault s c false = some d) :
    exec (.deferredFault c false) s = .next (if trapFree s c then takeDeferred s c d else s) := by
  simp only [exec_deferredFault, execDeferredFault, hd, Bool.false_eq_true, if_false]
  split <;> rfl

/-- A unit that may take no trap leaves a fault where it is. -/
theorem exec_deferredFault_waits (hfree : trapFree s c = false) : exec (.deferredFault c false) s = .next s := by
  cases hd : oldestFault s c false with
  | none => exact exec_deferredFault_none hd
  | some d => rw [exec_deferredFault_unit hd, hfree]; rfl

end

/-- Settles O41: the trap turn takes what the boundary has first in the order of R315. -/
theorem boundaryTraps : Obligations.BoundaryTraps := by
  intro s c d t rest i
  refine ⟨?_, ?_, ?_, ?_, exec_takeTrap_cancelled, ?_, exec_deferredFault_none, exec_deferredFault_fw, exec_deferredFault_none⟩
  · rintro ⟨⟨hst, htrap⟩, hcan, hcpy, hdone⟩ hd
    exact exec_takeTrap_takes hst htrap hcan hcpy hdone (boundaryTrap_fault hd)
  · intro hfree hd
    rw [exec_deferredFault_unit hd, trapFree_iff.2 hfree]
    rfl
  · rintro ⟨⟨hst, htrap⟩, hcan, hcpy, hdone⟩ hd
    have takes {u : State} : boundaryTrap s c = some u → exec (.takeTrap c) s = .next u := exec_takeTrap_takes hst htrap hcan hcpy hdone
    have takesNone : boundaryTrap s c = none → exec (.takeTrap c) s = .next s := exec_takeTrap_takesNone hst htrap hcan hcpy hdone
    exact ⟨fun ht => takes (boundaryTrap_token hd ht), fun ht hw => takes (boundaryTrap_watchdog hd ht hw),
      fun ht hw he => takesNone (boundaryTrap_ending hd ht hw he), fun ht hw he hb => takes (boundaryTrap_break hd ht hw he hb),
      fun ht hw he hb hp => takes ((boundaryTrap_noBreak hd ht hw he hb).trans (if_pos hp)),
      fun ht hw he hb hp => takesNone ((boundaryTrap_noBreak hd ht hw he hb).trans (if_neg (Bool.not_eq_true _ ▸ hp)))⟩
  · rintro ⟨-, htrap⟩ hcan hwait
    exact exec_takeTrap_waits htrap hcan (.inr hwait)
  · intro hst hcan htrap
    have hfree : trapFree s c = false := by rw [← Bool.not_eq_true, trapFree_iff]; exact fun h => hst h.1
    exact ⟨exec_takeTrap_waits htrap hcan (.inl hfree), exec_deferredFault_waits hfree⟩

end Sys2Proof.Machine
end

section
/-! PROOFS. The trap frame (R317, R318): parts of TM that are laid out one above the other, what each of them holds, and what is read back. -/

namespace Sys2Proof.Machine

/-! ### Parts of TM laid out one above the other -/

section
variable {s : State} {c : Fin 512} {l : List (Nat × List Byte)}

/-- Parts of a core's TM, each at its offset, written one after the other. -/
def layOut (c : Fin 512) (s : State) (l : List (Nat × List Byte)) : State := l.foldl (fun u p => u.store (tmAddr c p.1) p.2) s

theorem readByte_layOut_outside {a : Nat} (ha : ∀ p ∈ l, a < tmAddr c p.1 ∨ tmAddr c p.1 + p.2.length ≤ a) :
    readByte (layOut c s l).mem a = readByte s.mem a := by
  induction l generalizing s with
  | nil => rfl
  | cons p l ih =>
    obtain ⟨hp, hl⟩ := List.forall_mem_cons.1 ha
    exact (ih hl).trans (readByte_writeMem_outside _ _ _ hp)

/-- A byte of one of the parts, none of which reaches the next. -/
theorem readByte_layOut {p : Nat × List Byte} {k : Nat} (hwf : s.memWf) (hl : l.Pairwise fun p q => p.1 + p.2.length ≤ q.1) (hp : p ∈ l)
    (hk : k < p.2.length) : readByte (layOut c s l).mem (tmAddr c p.1 + k) = p.2[k] := by
  induction l generalizing s with
  | nil => cases hp
  | cons q l ih =>
    obtain ⟨hq, hl⟩ := List.pairwise_cons.1 hl
    rcases List.mem_cons.1 hp with rfl | hp
    · rw [layOut, List.foldl_cons]
      refine (readByte_layOut_outside (l := l) fun r hr => .inl ?_).trans (readByte_writeMem _ _ _ _ hwf hk)
      have hr := hq r hr
      simp only [tmAddr]
      omega
    · exact ih (store_memWf _ _ hwf) hl hp

/-- A field of one of the parts. -/
theorem load_layOut {p : Nat × List Byte} {o n : Nat} (hwf : s.memWf) (hl : l.Pairwise fun p q => p.1 + p.2.length ≤ q.1) (hp : p ∈ l)
    (hn : o + n ≤ p.2.length) : (layOut c s l).load (tmAddr c (p.1 + o)) n = (p.2.drop o).take n := by
  apply List.ext_getElem
  · simp only [State.load, readMem, List.length_map, List.length_range, List.length_take, List.length_drop]
    omega
  · intro i hi hi'
    have hin : i < n := by simpa [State.load, readMem] using hi
    have hbyte := readByte_layOut (c := c) hwf hl hp (k := o + i) (by omega)
    simpa [State.load, readMem, tmAddr, Nat.add_assoc] using hbyte

theorem loadNat_layOut {p : Nat × List Byte} {o n : Nat} (hwf : s.memWf) (hl : l.Pairwise fun p q => p.1 + p.2.length ≤ q.1) (hp : p ∈ l)
    (hn : o + n ≤ p.2.length) : (layOut c s l).loadNat (tmAddr c (p.1 + o)) n = fieldAt p.2 o n := by
  rw [State.loadNat, load_layOut hwf hl hp hn, fieldAt]

end

theorem tmAddr_add (c : Fin 512) (o k : Nat) : tmAddr c o + k = tmAddr c (o + k) := Nat.add_assoc _ _ _

theorem tmAddr_mono (c : Fin 512) {o o' : Nat} (h : o ≤ o') : tmAddr c o ≤ tmAddr c o' := Nat.add_le_add_left h _

theorem byteAt_load (s : State) (a : Nat) {n i : Nat} (hi : i < n) : byteAt (s.load a n) i = (readByte s.mem (a + i)).toNat := by
  simp [byteAt, State.load, readMem, hi]

theorem readByte_clearMem (m : List Host.Cell) {a n x : Nat} (hx : a ≤ x ∧ x < a + n) : readByte (clearMem m a n) x = 0 := by
  refine readByte_unlisted fun cell hcell he => ?_
  obtain ⟨-, hkept⟩ := List.mem_filter.1 hcell
  simp [he, hx] at hkept

theorem readByte_clearMem_outside (m : List Host.Cell) {a n x : Nat} (hx : x < a ∨ a + n ≤ x) : readByte (clearMem m a n) x = readByte m x := by
  induction m with
  | nil => rfl
  | cons cell m ih =>
    obtain ⟨y, b⟩ := cell
    by_cases hy : y = x
    · subst hy
      have hkept : (!(decide (a ≤ y) && decide (y < a + n))) = true := by simp; omega
      rw [clearMem, List.filter_cons_of_pos (p := fun c : Host.Cell => !(decide (a ≤ c.1) && decide (c.1 < a + n))) hkept, readByte, readByte,
        if_pos rfl, if_pos rfl]
    · rw [readByte, if_neg hy, ← ih]
      simp only [clearMem, List.filter_cons]
      split
      · rw [readByte, if_neg hy]
      · rfl

/-! ### The parts of the frame (R317, R318) -/

theorem length_frameHeader (x : Core) (t : TrapInfo) : (frameHeader x t).length = 64 := by
  simp [frameHeader]

theorem length_loopBytes (l : LoopEnt) : (loopBytes l).length = 16 := by simp [loopBytes]

theorem length_streamBytes (q : Option StreamReg) : (streamBytes q).length = 64 := by
  cases q with
  | none => simp [streamBytes]
  | some q => simp [streamBytes, padTo]; omega

theorem length_replayBytes (r : Replay) (i : Nat) : (replayBytes r i).length = 64 := by
  cases r <;> simp [replayBytes]

section
variable (s : State) (c : Fin 512) (t : TrapInfo)

/-- How much of the trap area each part of the frame takes. -/
theorem frameParts_lengths : ∃ header regs preds loops streams guard nest replay,
    frameParts s c t = [(0x7C000, header), (0x7C040, regs), (0x7C140, preds), (0x7C180, loops), (0x7C1C0, streams), (0x7C2C0, guard),
      (0x7C400, nest), (0x7D000, replay)] ∧
    header.length = 64 ∧ regs.length = 256 ∧ preds.length = 1 ∧ loops.length ≤ 64 ∧ streams.length = 256 ∧ guard.length ≤ 256 ∧
    nest.length ≤ 512 ∧ replay.length ≤ 512 := by
  refine ⟨_, _, _, _, _, _, _, _, rfl, length_frameHeader _ _, ?_, length_leBytes _ _, ?_, ?_, ?_, ?_, ?_⟩
  · rw [length_flatMap_leBytes, List.length_finRange]
  · rw [length_flatMap_part length_loopBytes, List.length_take]
    omega
  · rw [length_flatMap_part length_streamBytes, Vector.length_toList]
  · rw [length_flatMap_part (m := 16) (by simp), List.length_take]
    omega
  · rw [List.length_take]
    omega
  · rw [length_flatMap_part (m := 64) (fun x : Replay × Nat => (length_replayBytes x.1 x.2 :)), List.length_zipIdx, List.length_take]
    omega

/-- No part of the frame reaches the next. -/
theorem frameParts_apart : (frameParts s c t).Pairwise fun p q => p.1 + p.2.length ≤ q.1 := by
  obtain ⟨header, regs, preds, loops, streams, guard, nest, replay, hparts, h0, h1, h2, h3, h4, h5, h6, h7⟩ := frameParts_lengths s c t
  rw [hparts]
  simp [h0, h1, h2, h4]
  omega

/-- Every part of the frame lies in the trap area. -/
theorem frameParts_inArea : ∀ p ∈ frameParts s c t, 0x7C000 ≤ p.1 ∧ p.1 + p.2.length ≤ 0x7E000 := by
  obtain ⟨header, regs, preds, loops, streams, guard, nest, replay, hparts, h0, h1, h2, h3, h4, h5, h6, h7⟩ := frameParts_lengths s c t
  rw [hparts]
  simp [h0, h1, h2, h4]
  omega

theorem writeFrame_eq : writeFrame s c t = layOut c (s.zero (tmAddr c 0x7C000) 0x2000) (frameParts s c t) := rfl

/-- A byte of the trap area that no part takes is zero. -/
theorem writeFrame_reserved (s : State) (c : Fin 512) (t : TrapInfo) {o : Nat} (hin : 0x7C000 ≤ o ∧ o < 0x7E000)
    (ho : ∀ p ∈ frameParts s c t, o < p.1 ∨ p.1 + p.2.length ≤ o) :
    readByte (writeFrame s c t).mem (tmAddr c o) = 0 := by
  rw [writeFrame_eq, readByte_layOut_outside]
  · exact readByte_clearMem _ (by simp only [tmAddr]; omega)
  · intro p hp
    have := ho p hp
    simp only [tmAddr]
    omega

theorem writeFrame_outside {a : Nat} (ha : a < tmAddr c 0x7C000 ∨ tmAddr c 0x7E000 ≤ a) :
    readByte (writeFrame s c t).mem a = readByte s.mem a := by
  rw [writeFrame_eq, readByte_layOut_outside]
  · refine readByte_clearMem_outside _ ?_
    rw [tmAddr_add]
    exact ha
  · intro p hp
    obtain ⟨hlo, hhi⟩ := frameParts_inArea s c t p hp
    rw [tmAddr_add]
    exact ha.imp (fun h => h.trans_le (tmAddr_mono c hlo)) fun h => (tmAddr_mono c hhi).trans h

/-- R317: a byte between the predicates and the loop stack. -/
theorem readByte_afterPreds {k : Nat} (hk : k < 7) : readByte (writeFrame s c t).mem (tmAddr c (0x7C141 + k)) = 0 := by
  obtain ⟨header, regs, preds, loops, streams, guard, nest, replay, hparts, h0, h1, h2, h3, h4, h5, h6, h7⟩ := frameParts_lengths s c t
  refine writeFrame_reserved s c t (by omega) fun p hp => ?_
  simp only [hparts, List.mem_cons, List.not_mem_nil, or_false] at hp
  rcases hp with rfl | rfl | rfl | rfl | rfl | rfl | rfl | rfl <;> dsimp only <;> omega

theorem writeFrame_afterPreds : (writeFrame s c t).loadNat (tmAddr c 0x7C141) 7 = 0 := by
  have hzero : (writeFrame s c t).load (tmAddr c 0x7C141) 7 = List.replicate 7 0 := by
    refine List.eq_replicate_iff.2 ⟨by simp [State.load, readMem], fun b hb => ?_⟩
    obtain ⟨k, hk, rfl⟩ := List.mem_map.1 hb
    rw [tmAddr_add]
    exact readByte_afterPreds s c t (List.mem_range.1 hk)
  rw [State.loadNat, hzero, leNat_zeros]

end

/-! ### The header (R318) -/

section
variable (x : Core) (t : TrapInfo)

/-- R318: the indices of the place, 12 bytes. -/
theorem length_nestIdx : (x.unit.nest.idx.toList.flatMap fun i => leBytes 2 i.toNat).length = 12 := by
  rw [length_flatMap_leBytes, Vector.length_toList]

theorem frameHeader_cause : fieldAt (frameHeader x t) 0 1 = t.cause.code.toNat := by
  have hcode := t.cause.code.isLt
  simp only [frameHeader, List.append_assoc]
  rw [fieldAt_append_left _ (by simp), fieldAt, List.drop_zero]
  simp only [leBytes, List.take_succ_cons, List.take_zero, leNat, BitVec.toNat_ofNat]
  omega

theorem frameHeader_tword : fieldAt (frameHeader x t) 1 1 % 4 = t.tword.toNat := by
  have hcode := t.cause.code.isLt
  have htword := t.tword.isLt
  simp only [frameHeader, List.append_assoc]
  rw [fieldAt_append_left _ (by simp), fieldAt]
  simp only [leBytes, List.drop_succ_cons, List.drop_zero, List.take_succ_cons, List.take_zero, leNat, BitVec.toNat_ofNat]
  omega

theorem frameHeader_tpc : fieldAt (frameHeader x t) 0x10 4 = t.tpc.toNat := by
  simp only [frameHeader, List.append_assoc]
  rw [fieldAt_leBytes_skip (by omega), fieldAt_leBytes_skip (by omega), fieldAt_leBytes_append]
  exact Nat.mod_eq_of_lt t.tpc.isLt

theorem frameHeader_pix : fieldAt (frameHeader x t) 0x14 4 = t.pix.toNat := by
  simp only [frameHeader, List.append_assoc]
  rw [fieldAt_leBytes_skip (by omega), fieldAt_leBytes_skip (by omega), fieldAt_leBytes_skip (by omega), fieldAt_leBytes_append]
  exact Nat.mod_eq_of_lt t.pix.isLt

theorem frameHeader_launch : fieldAt (frameHeader x t) 0x18 4 = x.ctl.launchid.toNat := by
  simp only [frameHeader, List.append_assoc]
  iterate 4 rw [fieldAt_leBytes_skip (by omega)]
  rw [fieldAt_leBytes_append]
  exact Nat.mod_eq_of_lt x.ctl.launchid.isLt

theorem frameHeader_unitid : fieldAt (frameHeader x t) 0x1C 4 = x.ctl.unitid.toNat := by
  simp only [frameHeader, List.append_assoc]
  iterate 5 rw [fieldAt_leBytes_skip (by omega)]
  rw [fieldAt_leBytes_append]
  exact Nat.mod_eq_of_lt x.ctl.unitid.isLt

theorem frameHeader_faddr : fieldAt (frameHeader x t) 0x38 8 = t.addr.toNat := by
  simp only [frameHeader, List.append_assoc]
  iterate 12 rw [fieldAt_leBytes_skip (by omega)]
  rw [fieldAt_append_right _ _ (by rw [length_nestIdx]), length_nestIdx, fieldAt_leBytes]
  exact Nat.mod_eq_of_lt t.addr.isLt

end

/-! ### The registers (R317) -/

/-- R317: the predicates as one byte, p0 lowest. -/
def predByte (r : Regs) : Nat := (List.finRange 8).foldl (fun n i => n + 2 ^ i.val * (r.getP (BitVec.ofFin i)).toNat) 0

theorem predByte_eq_ofBits (r : Regs) : predByte r = Nat.ofBits fun i : Fin 8 => r.getP (BitVec.ofFin i) := by
  simp [predByte, Nat.ofBits, Fin.foldr_succ, List.finRange_succ]
  omega

section
variable {α : Type} (r : Regs)

theorem getS_foldl_setP (l : List (Fin 8)) (f : Fin 8 → Bool) (j : BitVec 5) :
    (l.foldl (fun r i => r.setP (BitVec.ofFin i) (f i)) r).getS j = r.getS j := by
  induction l generalizing r with
  | nil => rfl
  | cons i l ih => rw [List.foldl_cons, ih, getS_setP]

theorem getS_foldl_setS (l : List (Fin 32)) (f : Fin 32 → Word) {j : BitVec 5} (hj : j ≠ 0) :
    (l.foldl (fun r i => r.setS (BitVec.ofFin i) (f i)) r).getS j = if j.toFin ∈ l then f j.toFin else r.getS j := by
  induction l generalizing r with
  | nil => rfl
  | cons i l ih =>
    rw [List.foldl_cons, ih, getS_setS]
    by_cases hi : j = BitVec.ofFin i
    · subst hi
      rw [if_pos (show _ = _ ∧ _ from ⟨rfl, hj⟩), if_pos List.mem_cons_self]
      exact ite_self _
    · have hne : j.toFin ≠ i := fun he => hi (BitVec.eq_of_toFin_eq he)
      simp [hi, hne]

theorem getP_foldl_setP (l : List (Fin 8)) (f : Fin 8 → Bool) {j : BitVec 3} (hj : j ≠ 0) :
    (l.foldl (fun r i => r.setP (BitVec.ofFin i) (f i)) r).getP j = if j.toFin ∈ l then f j.toFin else r.getP j := by
  induction l generalizing r with
  | nil => rfl
  | cons i l ih =>
    rw [List.foldl_cons, ih, getP_setP]
    by_cases hi : j = BitVec.ofFin i
    · subst hi
      rw [if_pos (show _ = _ ∧ _ from ⟨rfl, hj⟩), if_pos List.mem_cons_self]
      exact ite_self _
    · have hne : j.toFin ≠ i := fun he => hi (BitVec.eq_of_toFin_eq he)
      simp [hi, hne]

end

section
variable {s : State} {c : Fin 512} (r : Regs)

theorem frameRegs_getS {i : BitVec 5} (hi : i ≠ 0) :
    (frameRegs s c r).getS i = BitVec.ofNat 64 (s.loadNat (tmAddr c (0x7C040 + 8 * i.toNat)) 8) := by
  rw [frameRegs, getS_foldl_setP, getS_foldl_setS _ _ _ hi, if_pos (List.mem_finRange _)]
  rfl

theorem frameRegs_getP {i : BitVec 3} (hi : i ≠ 0) : (frameRegs s c r).getP i = (s.loadNat (tmAddr c 0x7C140) 1).testBit i.toNat := by
  rw [frameRegs, getP_foldl_setP _ _ _ hi, if_pos (List.mem_finRange _)]
  rfl

end

/-! ### What the frame of a trap holds -/

section
variable {s : State} (c : Fin 512) (t : TrapInfo) (hwf : s.memWf)
include hwf

/-- A field of one of the parts of the frame. -/
theorem loadNat_writeFrame {p : Nat × List Byte} {o n : Nat} (hp : p ∈ frameParts s c t) (hn : o + n ≤ p.2.length) :
    (writeFrame s c t).loadNat (tmAddr c (p.1 + o)) n = fieldAt p.2 o n :=
  loadNat_layOut (zero_memWf _ _ hwf) (frameParts_apart s c t) hp hn

theorem writeFrame_header {o n : Nat} (hn : o + n ≤ 64) :
    (writeFrame s c t).loadNat (tmAddr c (0x7C000 + o)) n = fieldAt (frameHeader s.cores[c] t) o n :=
  loadNat_writeFrame c t hwf (p := (0x7C000, frameHeader s.cores[c] t)) (by simp [frameParts]) (by rw [length_frameHeader]; exact hn)

theorem writeFrame_s (i : BitVec 5) :
    (writeFrame s c t).loadNat (tmAddr c (0x7C040 + 8 * i.toNat)) 8 = (s.cores[c].unit.regs.getS i).toNat := by
  have hi : i.toNat < (List.finRange 32).length := by simpa using i.isLt
  have hlen := length_flatMap_leBytes 8 (fun i : Fin 32 => (s.cores[c].unit.regs.getS (BitVec.ofFin i)).toNat) (List.finRange 32)
  refine (loadNat_writeFrame c t hwf (List.mem_cons_of_mem _ List.mem_cons_self) ?_).trans ?_
  · rw [hlen]
    omega
  · rw [fieldAt_flatMap _ _ _ hi, List.getElem_finRange]
    exact Nat.mod_eq_of_lt (BitVec.isLt _)

theorem writeFrame_preds : (writeFrame s c t).loadNat (tmAddr c 0x7C140) 1 = predByte s.cores[c].unit.regs := by
  have hlt : predByte s.cores[c].unit.regs < 256 := by
    rw [predByte_eq_ofBits]
    exact Nat.ofBits_lt_two_pow _
  refine (loadNat_writeFrame c t hwf (o := 0) (n := 1) (p := (0x7C140, leBytes 1 (predByte s.cores[c].unit.regs))) (by simp [frameParts, predByte])
    (by simp)).trans ?_
  rw [fieldAt_leBytes]
  exact Nat.mod_eq_of_lt hlt

theorem frameRegs_writeFrame_getS (r : Regs) (i : BitVec 5) : (frameRegs (writeFrame s c t) c r).getS i = s.cores[c].unit.regs.getS i := by
  by_cases hi : i = 0
  · subst hi
    exact (getS_zero _).trans (getS_zero _).symm
  · rw [frameRegs_getS r hi, writeFrame_s c t hwf, BitVec.ofNat_toNat, BitVec.setWidth_eq]

theorem frameRegs_writeFrame_getP (r : Regs) (i : BitVec 3) : (frameRegs (writeFrame s c t) c r).getP i = s.cores[c].unit.regs.getP i := by
  by_cases hi : i = 0
  · subst hi
    exact (getP_zero _).trans (getP_zero _).symm
  · rw [frameRegs_getP r hi, writeFrame_preds c t hwf, predByte_eq_ofBits, Nat.testBit_ofBits_lt _ _ i.isLt]
    rfl

end

/-! ### The loop stack (R317) -/

/-- R317: the loop that 16 bytes of the frame hold, if any. -/
def loopOfBytes (bs : List Byte) : Option LoopEnt :=
  if byteAt bs 13 % 2 = 1 then
    some ⟨BitVec.ofNat 32 (fieldAt bs 0 4), BitVec.ofNat 32 (fieldAt bs 4 4), BitVec.ofNat 32 (fieldAt bs 8 4), BitVec.ofNat 5 (byteAt bs 12)⟩
  else none

theorem loopOfBytes_loopBytes (l : LoopEnt) : loopOfBytes (loopBytes l) = some l := by
  have hvalid : byteAt (loopBytes l) 13 = 1 := rfl
  have hreg : byteAt (loopBytes l) 12 = l.reg.toNat := by
    have := l.reg.isLt
    simp [loopBytes, byteAt, leBytes]
    omega
  have horigin : fieldAt (loopBytes l) 0 4 = l.origin.toNat := by
    simp only [loopBytes, List.append_assoc]
    rw [fieldAt_leBytes_append]
    exact Nat.mod_eq_of_lt l.origin.isLt
  have hfirst : fieldAt (loopBytes l) 4 4 = l.first.toNat := by
    simp only [loopBytes, List.append_assoc]
    rw [fieldAt_leBytes_skip (by omega), fieldAt_leBytes_append]
    exact Nat.mod_eq_of_lt l.first.isLt
  have hlast : fieldAt (loopBytes l) 8 4 = l.last.toNat := by
    simp only [loopBytes, List.append_assoc]
    rw [fieldAt_leBytes_skip (by omega), fieldAt_leBytes_skip (by omega), fieldAt_leBytes_append]
    exact Nat.mod_eq_of_lt l.last.isLt
  simp [loopOfBytes, hvalid, hreg, horigin, hfirst, hlast]

theorem frameLoops_eq (s : State) (c : Fin 512) :
    frameLoops s c = ((List.range 4).filterMap fun i => loopOfBytes (s.load (tmAddr c (0x7C180 + 16 * i)) 16)).reverse := rfl

theorem filterMap_getElem?_range {α : Type} (l : List α) {n : Nat} (h : l.length ≤ n) : (List.range n).filterMap (l[·]?) = l := by
  induction l generalizing n with
  | nil => simp
  | cons x l ih =>
    cases n with
    | zero => simp at h
    | succ n => simpa [List.range_succ_eq_map, Function.comp_def] using ih (by simpa using h)

/-- One of many parts of one size that stand side by side. -/
theorem drop_flatMap_part {α : Type} {f : α → List Byte} {m : Nat} (hf : ∀ x, (f x).length = m) (l : List α) {i : Nat} (hi : i < l.length) :
    ((l.flatMap f).drop (m * i)).take m = f l[i] := by
  induction l generalizing i with
  | nil => simp at hi
  | cons x l ih =>
    rw [List.flatMap_cons]
    cases i with
    | zero => simp [← hf x]
    | succ i =>
      rw [List.drop_append, List.drop_eq_nil_of_le (by rw [hf, Nat.mul_succ]; omega), List.nil_append, hf,
        show m * (i + 1) - m = m * i by rw [Nat.mul_succ, Nat.add_sub_cancel], ih (by simpa using hi), List.getElem_cons_succ]

section
variable {s : State} (c : Fin 512) (t : TrapInfo) (hloops : s.cores[c].unit.loops.length ≤ 4)
include hloops

/-- R317: what the entry i of the frame's loop stack holds, outermost first. -/
theorem loopOfBytes_writeFrame (hwf : s.memWf) {i : Nat} (hi : i < 4) :
    loopOfBytes ((writeFrame s c t).load (tmAddr c (0x7C180 + 16 * i)) 16) = s.cores[c].unit.loops.reverse[i]? := by
  have hpart : (0x7C180, s.cores[c].unit.loops.reverse.flatMap loopBytes) ∈ frameParts s c t := by
    have htake : s.cores[c].unit.loops.reverse.take 4 = s.cores[c].unit.loops.reverse := List.take_of_length_le (by simpa using hloops)
    simp only [frameParts]
    rw [htake]
    simp
  have hlen := length_flatMap_part length_loopBytes s.cores[c].unit.loops.reverse
  by_cases hin : i < s.cores[c].unit.loops.reverse.length
  · rw [writeFrame_eq, load_layOut (zero_memWf _ _ hwf) (frameParts_apart s c t) hpart (by rw [hlen]; omega),
      drop_flatMap_part length_loopBytes _ hin, loopOfBytes_loopBytes, List.getElem?_eq_getElem hin]
  · have hfree : readByte (writeFrame s c t).mem (tmAddr c (0x7C180 + 16 * i + 13)) = 0 := by
      obtain ⟨header, regs, preds, loops, streams, guard, nest, replay, hparts, h0, h1, h2, h3, h4, h5, h6, h7⟩ := frameParts_lengths s c t
      have hpart' := hpart
      rw [hparts] at hpart'
      have hsame : s.cores[c].unit.loops.reverse.flatMap loopBytes = loops := by simpa [eq_comm] using hpart'
      rw [hsame] at hlen
      refine writeFrame_reserved s c t (by omega) fun p hp => ?_
      simp only [hparts, List.mem_cons, List.not_mem_nil, or_false] at hp
      rcases hp with rfl | rfl | rfl | rfl | rfl | rfl | rfl | rfl <;> dsimp only <;> omega
    rw [loopOfBytes, byteAt_load _ _ (by omega), tmAddr_add, hfree, List.getElem?_eq_none (by omega)]
    rfl

theorem frameLoops_writeFrame (hwf : s.memWf) : frameLoops (writeFrame s c t) c = s.cores[c].unit.loops := by
  rw [frameLoops_eq, List.filterMap_congr fun i hi => loopOfBytes_writeFrame c t hloops hwf (List.mem_range.1 hi),
    filterMap_getElem?_range s.cores[c].unit.loops.reverse (n := 4) (by simpa using hloops), List.reverse_reverse]

end

/-- Settles O39: the frame is parts of TM that do not reach each other, written over a zeroed trap area, so each field, register and loop is read back
from the one part that holds it, and a byte outside the trap area belongs to none. -/
theorem trapFrameHoldsTheUnit : Obligations.TrapFrameHoldsTheUnit := by
  unfold Obligations.TrapFrameHoldsTheUnit
  intro s c t r a hwf
  have header {o n : Nat} (hn : o + n ≤ 64) := writeFrame_header c t hwf hn
  refine ⟨(header (o := 0) (by omega)).trans (frameHeader_cause _ t), (congrArg (· % 4) (header (o := 1) (by omega))).trans (frameHeader_tword _ t),
    (header (o := 0x10) (by omega)).trans (frameHeader_tpc _ t), (header (o := 0x14) (by omega)).trans (frameHeader_pix _ t),
    (header (o := 0x18) (by omega)).trans (frameHeader_launch _ t), (header (o := 0x1C) (by omega)).trans (frameHeader_unitid _ t),
    (header (o := 0x38) (by omega)).trans (frameHeader_faddr _ t), writeFrame_s c t hwf, writeFrame_afterPreds s c t,
    frameRegs_writeFrame_getS c t hwf r, frameRegs_writeFrame_getP c t hwf r, fun hloops => frameLoops_writeFrame c t hloops hwf,
    writeFrame_outside s c t⟩

end Sys2Proof.Machine
end

section
/-! PROOFS. The words that rows share (R332, R350, R390), and the 16 bits of a Topiary operation (R379, R381). -/

namespace Sys2Proof.Machine

section
variable (s : State) (a : BitVec 5)

/-- A field of the request register as a number. -/
theorem request_field (o n : Nat) : ((s.rs a).extractLsb' o n).toNat = (s.rs a).toNat / 2 ^ o % 2 ^ n := by
  rw [BitVec.extractLsb'_toNat, Nat.shiftRight_eq_div_pow]

theorem request_field_eq {o n : Nat} {k : BitVec n} (hk : (s.rs a).extractLsb' o n = k) : (s.rs a).toNat / 2 ^ o % 2 ^ n = k.toNat := by
  rw [← request_field, hk]

end

/-- Settles O6: the field of the request register, as the number that `resolve` compares. -/
theorem sharedWordsResolve : Obligations.SharedWordsResolve := by
  unfold Obligations.SharedWordsResolve
  intro s h d a b
  have krot {k : BitVec 2} (hk : (s.rs a).extractLsb' 8 2 = k) : (s.rs a).toNat / 256 % 4 = k.toNat := request_field_eq s a hk
  have scrub {k : BitVec 2} (hk : (s.rs a).extractLsb' 0 2 = k) : (s.rs a).toNat % 4 = k.toNat := by simpa using request_field_eq s a hk
  have slotsw {k : BitVec 4} (hk : (s.rs a).extractLsb' 0 4 = k) : (s.rs a).toNat % 16 = k.toNat := by simpa using request_field_eq s a hk
  refine ⟨fun hk => ?_, fun hk => ?_, fun hk => ?_, fun hk => ?_, fun hk => ?_, fun hk => ?_, fun hk => ?_, fun hk => ?_, fun hk => ?_,
    fun hk => ?_, fun hk => ?_, fun hk => ?_⟩
  iterate 4 simp [resolve, krot hk]
  iterate 3 simp [resolve, scrub hk]
  iterate 5 simp [resolve, slotsw hk]

end Sys2Proof.Machine

namespace Sys2Proof

/-! ### Topiary operations (R379, R381) -/

/-- The 16 bits are their opcode and their operand. -/
theorem opcode_operand (w : BitVec 16) : w.extractLsb' 8 8 ++ w.extractLsb' 0 8 = w := by
  rw [BitVec.extractLsb'_append_extractLsb'_eq_extractLsb' (by rfl), BitVec.extractLsb'_eq_self]

theorem opcode_operand_eq {w : BitVec 16} {o k : BitVec 8} (ho : (w.extractLsb' 8 8).toNat = o.toNat) (hk : w.extractLsb' 0 8 = k) : o ++ k = w := by
  rw [← BitVec.eq_of_toNat_eq ho, ← hk, opcode_operand]

theorem decodeTopiaryRaw_of_encodeTopiary {i : Instr} {w : BitVec 16} (hw : encodeTopiary i = some w) : decodeTopiaryRaw w = some i := by
  unfold encodeTopiary at hw
  split at hw <;> cases hw <;> simp only [decodeTopiaryRaw, BitVec.extractLsb'_append_eq_left, BitVec.extractLsb'_append_eq_right] <;> rfl

theorem encodeTopiary_of_decodeTopiaryRaw {w : BitVec 16} {i : Instr} (hd : decodeTopiaryRaw w = some i) : encodeTopiary i = some w := by
  unfold decodeTopiaryRaw at hd
  split at hd
  case h_1 ho | h_5 ho | h_6 ho | h_7 ho | h_17 ho | h_18 ho | h_19 ho =>
    cases hd
    exact congrArg some (opcode_operand_eq ho rfl)
  case h_24 => cases hd
  all_goals
    next ho =>
      obtain ⟨hk, hi⟩ := Option.ite_none_right_eq_some.1 hd
      cases hi
      exact congrArg some (opcode_operand_eq ho hk)

theorem decodeTopiary_eq_some {w : BitVec 16} {i : Instr} : decodeTopiary w = some i ↔ decodeTopiaryRaw w = some i ∧ WellFormed i = true := by
  unfold decodeTopiary
  cases decodeTopiaryRaw w with
  | none => simp
  | some j =>
    simp only [Option.ite_none_right_eq_some, Option.some.injEq]
    exact ⟨fun ⟨hwf, he⟩ => ⟨he, he ▸ hwf⟩, fun ⟨he, hwf⟩ => ⟨he ▸ hwf, he⟩⟩

/-- Settles O4: the 16 bits of an operation are its opcode above its operand, and those two fields alone are decoded. -/
theorem topiaryEncodeAndDecode : Obligations.TopiaryEncodeAndDecode := by
  unfold Obligations.TopiaryEncodeAndDecode
  refine ⟨fun i w hwf hw => decodeTopiary_eq_some.2 ⟨decodeTopiaryRaw_of_encodeTopiary hw, hwf⟩, fun w i hd => ?_⟩
  obtain ⟨hraw, hwf⟩ := decodeTopiary_eq_some.1 hd
  exact ⟨encodeTopiary_of_decodeTopiaryRaw hraw, hwf⟩

end Sys2Proof
end

section
/-! PROOFS. The operations of a Topiary policy (R380, R381): how a run goes on, how it ends, and what each kind of operation does to its stack. -/

namespace Sys2Proof.Machine

/-! ### How a run goes on (R380) -/

theorem aux_putAux_same (s : State) (p : Fin 16) (a : PartAux) : (s.putAux p a).aux[p] = a := by simp [State.putAux]

/-- The state in which a run of the acting partition stands at an index. -/
def runAt (s : State) (r : TopRun) (pc : Nat) : State := s.putAux s.part { s.aux[s.part] with run := some { r with pc := pc } }

/-- The choice that a run posts. -/
def chosen (r : TopRun) : Nat := match r.choice with
  | some q => q.val
  | none => 0xFF

section
variable {s : State} (r : TopRun) {pc : Nat}

theorem goOn_within (hpc : pc < s.aux[s.part].policy.length) : goOn s r pc = runAt s r pc := by
  have haux := aux_putAux_same s s.part { s.aux[s.part] with run := some { r with pc := pc } }
  simp only [goOn, State.putAux_part, haux, if_pos hpc]
  rfl

/-- R381: a jump past the loop's NEXTQ ends the loop. -/
theorem jump_within (hpc : pc < s.aux[s.part].policy.length) :
    jump s r pc = runAt s (if nextqAt s < pc then { r with loopPc := none } else r) pc := goOn_within _ hpc

theorem goOn_end : goOn s r s.aux[s.part].policy.length = postRun (runAt s r s.aux[s.part].policy.length) s.part (chosen r) r.slice.toNat := by
  have haux := aux_putAux_same s s.part { s.aux[s.part] with run := some { r with pc := s.aux[s.part].policy.length } }
  simp only [goOn, State.putAux_part, haux, Nat.lt_irrefl, if_false, chosen, runAt]
  cases r.choice <;> rfl

end

/-! ### The kinds of operations (R381) -/

section
variable {s : State} {r : TopRun} (hrun : s.aux[s.part].run = some r)
include hrun

section
variable {pops : Nat} {f : TopRun → List (BitVec 32) → List (BitVec 32)}

theorem stackOp_fails (h : r.stack.length < pops ∨ 16 < (r.stack.drop pops).length + (f r (r.stack.take pops)).length) :
    stackOp pops f s = .next (abandonRun s) := by
  simp only [stackOp, hrun, if_pos h]

/-- An operation that neither pops from an empty stack nor pushes onto a full one. -/
theorem stackOp_goes (xs rest : List (BitVec 32)) (hstack : r.stack = xs ++ rest) (hpops : xs.length = pops) (hroom : rest.length + (f r xs).length ≤ 16)
    (hpc : r.pc + 1 < s.aux[s.part].policy.length) :
    stackOp pops f s = .next (runAt s { r with stack := (f r xs).reverse ++ rest } (r.pc + 1)) := by
  subst hpops
  have hno : ¬(r.stack.length < xs.length ∨ 16 < (r.stack.drop xs.length).length + (f r (r.stack.take xs.length)).length) := by
    simp only [hstack, List.drop_left, List.take_left, List.length_append]
    omega
  simp only [stackOp, hrun, if_neg hno, goOn_within _ hpc]
  simp [hstack]

end

section
variable {g : BitVec 32 → BitVec 32 → BitVec 32}

theorem binaryOp_goes {a b : BitVec 32} {rest : List (BitVec 32)} (hstack : r.stack = b :: a :: rest) (hroom : rest.length ≤ 14)
    (hpc : r.pc + 1 < s.aux[s.part].policy.length) : binaryOp g s = .next (runAt s { r with stack := g a b :: rest } (r.pc + 1)) :=
  stackOp_goes hrun [b, a] rest hstack rfl (show rest.length + 1 ≤ 16 by omega) hpc

theorem binaryOp_fails (h : r.stack.length < 2) : binaryOp g s = .next (abandonRun s) := stackOp_fails hrun (.inl h)

end

section
variable {f : TopRun → BitVec 32 → State}

theorem popOp_cons {a : BitVec 32} {rest : List (BitVec 32)} (hstack : r.stack = a :: rest) : popOp f s = .next (f { r with stack := rest } a) := by
  simp only [popOp, hrun, hstack]

theorem popOp_nil (hstack : r.stack = []) : popOp f s = .next (abandonRun s) := by
  simp only [popOp, hrun, hstack]

end

theorem push_fails {f : TopRun → List (BitVec 32) → List (BitVec 32)} (hfull : r.stack.length = 16) (hone : ∀ r xs, (f r xs).length = 1) :
    stackOp 0 f s = .next (abandonRun s) :=
  stackOp_fails hrun (.inr (by simp [hfull, hone]))

end

/-! ### What the operations do -/

section
variable {s : State} {r : TopRun} (hrun : s.aux[s.part].run = some r) (hpc : r.pc + 1 < s.aux[s.part].policy.length)
  {k : BitVec 8} {a b : BitVec 32} {rest : List (BitVec 32)} {l : Nat}
include hrun hpc

theorem push_goes {f : TopRun → List (BitVec 32) → List (BitVec 32)} {x : BitVec 32} (hroom : r.stack.length < 16) (hx : f r [] = [x]) :
    stackOp 0 f s = .next (runAt s { r with stack := x :: r.stack } (r.pc + 1)) := by
  have := stackOp_goes hrun [] r.stack rfl rfl (f := f) (by rw [hx]; exact hroom) hpc
  rwa [hx] at this

theorem execTopiaryStl_persists (hstack : r.stack = a :: rest) (hk : k.toNat % 16 < 8) :
    execTopiaryStl k s = .next (runAt (s.putAux s.part { s.aux[s.part] with locals := vput s.aux[s.part].locals (ix 8 k.toNat) a })
      { r with stack := rest } (r.pc + 1)) := by
  rw [execTopiaryStl, popOp_cons hrun hstack, if_pos hk, goOn_within]
  simpa only [State.putAux_part, aux_putAux_same] using hpc

theorem execTopiaryStl_ofRun (hstack : r.stack = a :: rest) (hk : 8 ≤ k.toNat % 16) :
    execTopiaryStl k s = .next (runAt s { r with stack := rest, locals := vput r.locals (ix 8 k.toNat) a } (r.pc + 1)) := by
  rw [execTopiaryStl, popOp_cons hrun hstack, if_neg (by omega), goOn_within _ hpc]

omit hpc in
theorem execTopiaryJz_taken (hstack : r.stack = a :: rest) (ha : a = 0) (hto : r.pc + k.toNat < s.aux[s.part].policy.length) :
    execTopiaryJz k s = .next (runAt s (if nextqAt s < r.pc + k.toNat then { r with stack := rest, loopPc := none } else { r with stack := rest })
      (r.pc + k.toNat)) := by
  rw [execTopiaryJz, popOp_cons hrun hstack, if_pos ha, jump_within _ hto]

theorem execTopiaryJz_not_taken (hstack : r.stack = a :: rest) (ha : a ≠ 0) :
    execTopiaryJz k s = .next (runAt s { r with stack := rest } (r.pc + 1)) := by
  rw [execTopiaryJz, popOp_cons hrun hstack, if_neg ha, goOn_within _ hpc]

omit hpc in
theorem execTopiaryJmp_taken (hto : r.pc + k.toNat < s.aux[s.part].policy.length) :
    execTopiaryJmp k s = .next (runAt s (if nextqAt s < r.pc + k.toNat then { r with loopPc := none } else r) (r.pc + k.toNat)) := by
  simp only [execTopiaryJmp, hrun, jump_within _ hto]

theorem execTopiaryPick_pops (hstack : r.stack = a :: rest) :
    execTopiaryPick s = .next (runAt s { r with
      stack := rest
      choice := if (decide (a.toNat < 4) && r.fields[ix 4 a.toNat][(0 : Fin 6)] == 1) = true then some (ix 4 a.toNat) else r.choice } (r.pc + 1)) := by
  rw [execTopiaryPick, popOp_cons hrun hstack, goOn_within _ hpc]

theorem execTopiarySlice_pops (hstack : r.stack = a :: rest) :
    execTopiarySlice s = .next (runAt s { r with
      stack := rest
      slice := if a.slt 0 then 0 else if (65535 : BitVec 32).slt a then 65535 else a } (r.pc + 1)) := by
  rw [execTopiarySlice, popOp_cons hrun hstack, goOn_within _ hpc]

theorem execTopiaryForq_begins :
    execTopiaryForq k s = .next (runAt s { r with loopPc := some (r.pc + 1), visit := 0, passes := min (max k.toNat 1) 16 } (r.pc + 1)) := by
  simp only [execTopiaryForq, hrun, goOn_within _ hpc]

omit hpc in
theorem execTopiaryNextq_without (hloop : r.loopPc = none) : execTopiaryNextq s = .next (abandonRun s) := by
  simp only [execTopiaryNextq, hrun, hloop]

omit hpc in
theorem execTopiaryNextq_again (hloop : r.loopPc = some l) (hl : l < s.aux[s.part].policy.length) (hvisit : r.visit + 1 < 4 * r.passes) :
    execTopiaryNextq s = .next (runAt s { r with visit := r.visit + 1 } l) := by
  simp only [execTopiaryNextq, hrun, hloop, if_pos hvisit, goOn_within _ hl]

theorem execTopiaryNextq_ends (hloop : r.loopPc = some l) (hvisit : 4 * r.passes ≤ r.visit + 1) :
    execTopiaryNextq s = .next (runAt s { r with loopPc := none } (r.pc + 1)) := by
  simp only [execTopiaryNextq, hrun, hloop, if_neg (Nat.not_lt.2 hvisit), goOn_within _ hpc]

omit hpc in
theorem execTopiaryRet_posts :
    execTopiaryRet s = .next (postRun (runAt s r s.aux[s.part].policy.length) s.part (chosen r) r.slice.toNat) := by
  simp only [execTopiaryRet, hrun, goOn_end]

end

/-- Settles O49: an operation pops its values, pushes what the table says and goes on at an index of the policy, or abandons the run. -/
theorem topiaryOperations : Obligations.TopiaryOperations := by
  unfold Obligations.TopiaryOperations
  intro s r k a b rest l p len hrun hpc at_ goes fails past
  simp only [goes, fails, exec_topiaryLit, exec_topiaryLdq, exec_topiaryLdl, exec_topiaryStl, exec_topiaryJz, exec_topiaryJmp,
    exec_topiaryForq, exec_topiaryDup, exec_topiaryDrop, exec_topiarySwap, exec_topiaryAdd, exec_topiarySub, exec_topiaryMul, exec_topiaryMin,
    exec_topiaryMax, exec_topiaryAnd, exec_topiaryOr, exec_topiaryLt, exec_topiaryEq, exec_topiaryNextq, exec_topiaryPick, exec_topiarySlice,
    exec_topiaryRet]
  have binary (g : BitVec 32 → BitVec 32 → BitVec 32) (hstack : r.stack = b :: a :: rest) (hroom : rest.length ≤ 14) :=
    binaryOp_goes (g := g) hrun hstack hroom hpc
  have two (g : BitVec 32 → BitVec 32 → BitVec 32) (h : r.stack.length < 2) := binaryOp_fails (g := g) hrun h
  refine ⟨?push, ?full, ?one, ?swap, binary _, binary _, binary _, binary _, binary _, binary _, binary _, binary _, binary _, ?short, ?empty,
    execTopiaryJmp_taken hrun, execTopiaryForq_begins hrun hpc, execTopiaryNextq_without hrun, execTopiaryNextq_again hrun,
    execTopiaryNextq_ends hrun hpc, execTopiaryRet_posts hrun⟩
  case push => exact fun hroom => ⟨push_goes hrun hpc hroom rfl, push_goes hrun hpc hroom rfl, push_goes hrun hpc hroom rfl⟩
  case full =>
    exact fun hfull => ⟨push_fails hrun hfull fun _ _ => rfl, push_fails hrun hfull fun _ _ => rfl, push_fails hrun hfull fun _ _ => rfl,
      stackOp_fails hrun (.inr (by simp [hfull]))⟩
  case one =>
    exact fun hstack => ⟨fun hroom => stackOp_goes hrun [a] rest hstack rfl (show rest.length + 2 ≤ 16 by omega) hpc,
      fun hroom => stackOp_goes hrun [a] rest hstack rfl hroom.le hpc, execTopiaryStl_persists hrun hpc hstack, execTopiaryStl_ofRun hrun hpc hstack,
      execTopiaryJz_taken hrun hstack, execTopiaryJz_not_taken hrun hpc hstack, execTopiaryPick_pops hrun hpc hstack,
      execTopiarySlice_pops hrun hpc hstack⟩
  case swap => exact fun hstack hroom => stackOp_goes hrun [b, a] rest hstack rfl (Nat.add_le_add_right hroom 2) hpc
  case short =>
    exact fun h => ⟨two _ h, two _ h, two _ h, two _ h, two _ h, two _ h, two _ h, two _ h, two _ h, stackOp_fails hrun (.inl h)⟩
  case empty =>
    exact fun hnil => ⟨stackOp_fails hrun (.inl (by simp [hnil])), stackOp_fails hrun (.inl (by simp [hnil])), popOp_nil hrun hnil,
      popOp_nil hrun hnil, popOp_nil hrun hnil, popOp_nil hrun hnil⟩

end Sys2Proof.Machine
end

section
/-! PROOFS. The words of the firmware context: KROT (R332), SCRUB (R350), SIGCHK (R388), MEXT (R389) and SLOTSW (R390). -/

namespace Sys2Proof.Machine

section
variable {s : State} {h : Head} (g : s.rp h.g = true) (d a b : BitVec 5)

/-! ### KROT (R332) -/

section
variable (hgood : krotBad (s.rs a) (s.rs b) false = false)

include g in
theorem krotInstall_answers {r : Word} {t : State} (hr : krotInstall s (s.rs a) (s.rs b) = (r, t)) : exec (.krotInstall h d a b) s = .next (t.wrS d r) := by
  rw [exec_krotInstall, execKrotInstall, guarded_true _ g, hr]

theorem krotInstall_malformed (hbad : krotBad (s.rs a) (s.rs b) false = true) : krotInstall s (s.rs a) (s.rs b) = (3, s) := if_pos hbad

include hgood

theorem krotInstall_taken (hst : s.hub.keys[ix 64 (s.rs b).toNat].st ≠ .free) : krotInstall s (s.rs a) (s.rs b) = (2, s) := by
  simp only [krotInstall, hgood, Bool.false_eq_true, if_false, if_pos hst]

theorem krotInstall_free (hst : s.hub.keys[ix 64 (s.rs b).toNat].st = .free) : krotInstall s (s.rs a) (s.rs b) =
    if s.hub.keys.toList.any fun k => (k.st == .retiring || k.st == .drained) && k.cls == krotClass (s.rs a) && k.part == krotPart (s.rs a) then (1, s)
    else (0, installKey s (ix 64 (s.rs b).toNat) (krotPart (s.rs a)) (krotClass (s.rs a))) := by
  simp only [krotInstall, hgood, Bool.false_eq_true, if_false, if_neg (not_not_intro hst)]

end

include g

theorem exec_krotRetire_eq : exec (.krotRetire h d a b) s =
    if krotBad (s.rs a) (s.rs b) false then .next (s.wrS d 3)
    else if s.hub.keys[ix 64 (s.rs b).toNat].st ≠ .drained ∨ s.hub.keys[ix 64 (s.rs b).toNat].part ≠ krotPart (s.rs a) then .next (s.wrS d 2)
    else .next ((putKey s (ix 64 (s.rs b).toNat) KeySlot.zero).wrS d 0) := by
  rw [exec_krotRetire, execKrotRetire, guarded_true _ g]

theorem exec_krotDestroy_eq : exec (.krotDestroy h d a b) s =
    if krotBad (s.rs a) (s.rs b) false ∨ s.rs b ≠ 0 then .next (s.wrS d 3) else .next ((destroyKeys s (krotPart (s.rs a))).wrS d 0) := by
  rw [exec_krotDestroy, execKrotDestroy, guarded_true _ g]

theorem exec_krotQuery_eq : exec (.krotQuery h d a b) s =
    .next (s.wrS d (if krotBad (s.rs a) (s.rs b) true then BitVec.allOnes 64 else keyStatus s.hub.keys[ix 64 (s.rs b).toNat])) := by
  rw [exec_krotQuery, execKrotQuery, guarded_true _ g]

/-! ### SCRUB (R350) -/

theorem exec_scrubRegions_malformed (hbad : (s.rs a).extractLsb' 0 2 ≠ 0 ∨ (s.rs a).extractLsb' 20 44 ≠ 0 ∨
      28671 < (s.rs a).toNat / 2 ^ 5 % 2 ^ 15 ∨ (s.rs b).toNat = 0 ∨ 28672 < (s.rs a).toNat / 2 ^ 5 % 2 ^ 15 + (s.rs b).toNat) :
    exec (.scrubRegions h d a b) s = .next (s.wrS d (BitVec.allOnes 64)) := by
  rw [exec_scrubRegions, execScrubRegions, guarded_true _ g]
  exact if_pos hbad

theorem exec_scrubRegions_runs (hgood : ¬((s.rs a).extractLsb' 0 2 ≠ 0 ∨ (s.rs a).extractLsb' 20 44 ≠ 0 ∨
      28671 < (s.rs a).toNat / 2 ^ 5 % 2 ^ 15 ∨ (s.rs b).toNat = 0 ∨ 28672 < (s.rs a).toNat / 2 ^ 5 % 2 ^ 15 + (s.rs b).toNat)) :
    let run := scrubRun s (ix 4 ((s.rs a).toNat / 4)) ((s.rs a).toNat / 16 % 2 * 2 ^ 15 + (s.rs a).toNat / 2 ^ 5 % 2 ^ 15) 0 (s.rs b).toNat
    exec (.scrubRegions h d a b) s = .next (run.2.wrS d (BitVec.ofNat 64 run.1)) := by
  rw [exec_scrubRegions, execScrubRegions, guarded_true _ g]
  exact if_neg hgood

theorem exec_scrubCluster_eq : exec (.scrubCluster h d a b) s =
    if s.rs a ≠ 1 then .next (s.wrS d (BitVec.allOnes 64)) else .next ((scrubCluster s (clusterOf s.core)).wrS d 0) := by
  rw [exec_scrubCluster, execScrubCluster, guarded_true _ g]

theorem exec_scrubCore_eq : exec (.scrubCore h d a b) s =
    if s.rs a ≠ 2 then .next (s.wrS d (BitVec.allOnes 64))
    else if s.cur.st ≠ .none then .next (s.wrS d 1)
    else .next ((scrubCore s s.core).wrS d 0) := by
  rw [exec_scrubCore, execScrubCore, guarded_true _ g]

end

theorem scrubRun_zero (s : State) (e : Fin 4) (f n : Nat) : scrubRun s e f n 0 = (n, s) := rfl

theorem scrubRun_inUse {s : State} {e : Fin 4} {f : Nat} (n m : Nat) (hin : regionInUse s e f = true) : scrubRun s e f n m = (n, s) := by
  cases m with
  | zero => rfl
  | succ m => exact if_pos hin

theorem scrubRun_next {s : State} {e : Fin 4} {f : Nat} (n m : Nat) (hout : regionInUse s e f = false) :
    scrubRun s e f n (m + 1) = scrubRun (scrubRegion s e f) e (f + 1) (n + 1) m := if_neg (by simp [hout])

theorem loseLines_clusters (s : State) (k : Fin 64) : (loseLines s k).clusters = s.clusters := by
  unfold loseLines
  refine Untold.foldl (f := State.clusters) (fun u l => ?_) _ s
  exact (Untold.foldl (f := State.clusters) (fun v m => State.storeCap_clusters v _ _) _ _).trans (State.store_clusters u _ _)

section
variable (s : State) (k : Fin 64)

theorem scrubCluster_cluster : (scrubCluster s k).clusters[k] = { s.clusters[k] with lines := [], shard := [], overflow := [] } := by
  simp [scrubCluster, loseLines_clusters, State.putCluster]

theorem scrubCluster_zero {off : Nat} (hoff : off < 2 ^ 23) : readByte (scrubCluster s k).mem (cmAddr k off) = 0 :=
  readByte_clearMem _ (by simp only [cmAddr]; omega)

end

/-! ### SIGCHK and MEXT (R388, R389) -/

/-- R389: 64 bytes of general use, or of the work area in the firmware context, pass the check of a read. -/
theorem localCheck_measured {s : State} {n : Nat} (hrow : n + 64 ≤ 0x78000 ∨ s.fw = true ∧ 0x7E000 ≤ n ∧ n + 64 ≤ 0x7FF00) :
    localCheck s s.core s.fw n 64 .read = .ok (.tm n) ∧ (rowOf n = .general ∨ rowOf n = .work) := by
  rcases hrow with hgen | ⟨hfw, hlo, hhi⟩
  · exact ⟨localCheck_general (by omega) hgen _ _ _ _, .inl ((rowOf_general _).2 (by omega))⟩
  · refine ⟨?_, .inr ((rowOf_work _).2 (by omega))⟩
    rw [localCheck_row ((rowOf_work _).2 (by omega)) ((rowOf_work _).2 (by omega)) (by simp), rowAnswer, if_pos hfw]

section
variable {s : State} {h : Head} (g : s.rp h.g = true) (d a b : BitVec 5)
include g

theorem exec_sigchk_eq : exec (.sigchk h d a) s =
    if 1 < (s.rs a).toNat ∨ ((s.rs a).toNat == 1) = s.hub.images.active then .next (s.wrS d 3)
    else if !imgHeaderOk s ((s.rs a).toNat == 1) then .next (s.wrS d 1)
    else if !imgSigOk s ((s.rs a).toNat == 1) then .next (s.wrS d 2)
    else .next ((modImages s fun i => i.setVerified ((s.rs a).toNat == 1) true).wrS d 0) := by
  rw [exec_sigchk, execSigchk, guarded_true _ g]

theorem exec_mext_reads (hal : (s.rs b).toNat % 64 = 0)
    (hrow : (s.rs b).toNat + 64 ≤ 0x78000 ∨ s.fw = true ∧ 0x7E000 ≤ (s.rs b).toNat ∧ (s.rs b).toNat + 64 ≤ 0x7FF00)
    (hfree : engineReads s (s.rs b).toNat 64 = false) : exec (.mext h d a b) s =
    if 0x10 ≤ (s.rs a).toNat ∧ (s.rs a).toNat ≤ 0x1F then
      .next ((extendPart s (ix 16 (s.rs a).toNat) (s.load (tmAddr s.core (s.rs b).toNat) 64)).wrS d 0)
    else .next (s.wrS d 1) := by
  obtain ⟨hcheck, hin⟩ := localCheck_measured hrow
  have hrows : ¬(rowOf (s.rs b).toNat ≠ .general ∧ rowOf (s.rs b).toNat ≠ .work) := fun ⟨hg, hw⟩ => hin.elim hg hw
  rw [exec_mext, execMext, guarded_true _ g]
  simp only [if_neg (not_not_intro hal), hcheck, if_neg hrows, hfree, Bool.false_eq_true, if_false]

end

/-! ### SLOTSW (R386, R390) -/

/-- R89, R390: nothing that SLOTSW waits for is out. -/
def fenceOpen (s : State) : Prop := olderEnts s = [] ∧ tokenOut s.cur s.fw (sinceNow s) (fun _ => true) = false

/-- R390: the rows of SLOTSW. -/
def slotswRows (h : Head) (d a b : BitVec 5) : List Instr :=
  [.slotswQuery h d a b, .slotswQuiesce h d a b, .slotswSwitch h d a b, .slotswBeat h d a b, .slotswResume h d a b]

section
variable {s : State} {h : Head} (g : s.rp h.g = true) (d a b : BitVec 5) {f : State → Word → Out}
include g

theorem slotsw_stalls (hfence : ¬fenceOpen s) : slotsw h a d s f = .next { s with mark := .stall } := by
  rw [slotsw, guarded_true _ g]
  refine if_pos ?_
  by_cases hold : olderEnts s = []
  · have hout : tokenOut s.cur s.fw (sinceNow s) (fun _ => true) = true := by simpa using fun ht => hfence ⟨hold, ht⟩
    simp [hout]
  · simp [hold]

section
variable (hfence : fenceOpen s)
include hfence

theorem slotsw_open : slotsw h a d s f = if swReserved (s.rs a) ∨ 5 ≤ (s.rs a).toNat % 16 then .next (s.wrS d 5) else f s (s.rs a) := by
  obtain ⟨hold, hout⟩ := hfence
  rw [slotsw, guarded_true _ g]
  exact if_neg (by simp [hold, hout])

theorem slotsw_reserved (hbad : swReserved (s.rs a) = true ∨ 5 ≤ (s.rs a).toNat % 16) : slotsw h a d s f = .next (s.wrS d 5) :=
  (slotsw_open g d a hfence).trans (if_pos hbad)

theorem slotsw_acts (hgood : ¬(swReserved (s.rs a) = true ∨ 5 ≤ (s.rs a).toNat % 16)) : slotsw h a d s f = f s (s.rs a) :=
  (slotsw_open g d a hfence).trans (if_neg hgood)

end

omit g in
/-- What every row of SLOTSW does before it looks at its request, R390 says once. -/
theorem slotswRows_all {o : Out} (ho : ∀ f : State → Word → Out, slotsw h a d s f = o) : ∀ j ∈ slotswRows h d a b, exec j s = o := by
  intro j hj
  simp only [slotswRows, List.mem_cons, List.not_mem_nil, or_false] at hj
  rcases hj with rfl | rfl | rfl | rfl | rfl
  · exact (exec_slotswQuery h d a b s).trans (ho _)
  · exact (exec_slotswQuiesce h d a b s).trans (ho _)
  · exact (exec_slotswSwitch h d a b s).trans (ho _)
  · exact (exec_slotswBeat h d a b s).trans (ho _)
  · exact (exec_slotswResume h d a b s).trans (ho _)

section
variable (hfence : fenceOpen s) (hgood : ¬(swReserved (s.rs a) = true ∨ 5 ≤ (s.rs a).toNat % 16))
include hfence hgood

theorem exec_slotswQuery_eq : exec (.slotswQuery h d a b) s = .next (s.wrS d (if swPlain (s.rs a) then imageStatus s.hub.images else 5)) := by
  rw [exec_slotswQuery, execSlotswQuery, slotsw_acts g d a hfence hgood]

theorem exec_slotswQuiesce_eq : exec (.slotswQuiesce h d a b) s =
    if swPlain (s.rs a) then .next ((modImages s fun i => { i with quiesced := true }).wrS d 0) else .next (s.wrS d 5) := by
  rw [exec_slotswQuiesce, execSlotswQuiesce, slotsw_acts g d a hfence hgood]

theorem exec_slotswResume_eq : exec (.slotswResume h d a b) s =
    if !swPlain (s.rs a) then .next (s.wrS d 5)
    else if s.hub.images.trial then .next (s.wrS d 1)
    else .next ((modImages s fun i => { i with quiesced := false }).wrS d 0) := by
  rw [exec_slotswResume, execSlotswResume, slotsw_acts g d a hfence hgood]

/-- R386: a beat that counts: one more, and a new window. -/
def beaten (s : State) : State := modImages s fun i => { i with beats := i.beats + 1, due := s.clk + 2 ^ i.hblog.toNat }

theorem exec_slotswBeat_eq : exec (.slotswBeat h d a b) s =
    if !swPlain (s.rs a) then .next (s.wrS d 5)
    else if !s.hub.images.trial then .next (s.wrS d 1)
    else .next ((if (s.hub.images.beats + 1).toNat = s.hub.images.nbeat.toNat then commitImage (beaten s) else beaten s).wrS d 0) := by
  rw [exec_slotswBeat, execSlotswBeat, slotsw_acts g d a hfence hgood]
  rfl

theorem exec_slotswSwitch_refused {r : Word} (hr : switchRefusal s (s.rs a) (s.rs b) = some r) :
    exec (.slotswSwitch h d a b) s = .next (s.wrS d r) := by
  rw [exec_slotswSwitch, execSlotswSwitch, slotsw_acts g d a hfence hgood]
  simp only [hr]

theorem exec_slotswSwitch_switches (hr : switchRefusal s (s.rs a) (s.rs b) = none) :
    let u := (List.finRange 512).foldl (fun t c => settleFw t c) s
    exec (.slotswSwitch h d a b) s = .next { restartAll (modImages u fun i => { i with
      fallback := i.active, active := swSlot (s.rs a) == 1, trial := true, beats := 0, nbeat := swNbeat (s.rs a), hblog := swHblog (s.rs a),
      due := u.clk + 2 ^ (swHblog (s.rs a)).toNat, handover := s.rs b }) 1 with mark := .ended } := by
  rw [exec_slotswSwitch, execSlotswSwitch, slotsw_acts g d a hfence hgood]
  simp only [hr]

end
end

/-! ### A missed heartbeat (R386) -/

theorem exec_heartbeatMissed_eq (s : State) : exec .heartbeatMissed s =
    if (s.hub.images.trial && decide (s.hub.images.due ≤ s.clk)) = true then .next { rollBack s 1 with mark := .none } else .next s := rfl

/-- Settles O53: each word answers by the first of its refusals that holds, and acts when none does. -/
theorem firmwareWords : Obligations.FirmwareWords := by
  unfold Obligations.FirmwareWords
  intro s h d a b c k off r g x y slot key gives does again first n badRun cl img i fence swBad beat
  refine ⟨?krotBad, ?krot, ?queryBad, ?query, exec_scrubRegions_malformed g d a b, exec_scrubRegions_runs g d a b,
    fun e f z m => ⟨scrubRun_zero s e f z, scrubRun_inUse z m, scrubRun_next z m⟩, ?cluster, ⟨scrubCluster_cluster s cl, scrubCluster_zero s cl⟩, ?clusterBad,
    ?core, ?coreUnit, ?coreBad, ?sigBad, ?sig, ?mext, ?swBad, ?sw, ?wait, ?missed, ?kept, rfl⟩
  case krotBad =>
    intro hbad
    refine ⟨krotInstall_answers g d a b (krotInstall_malformed a b hbad), ?_, ?_⟩
    · exact (exec_krotRetire_eq g d a b).trans (if_pos hbad)
    · exact (exec_krotDestroy_eq g d a b).trans (if_pos (.inl hbad))
  case krot =>
    intro hgood
    have hno : ¬krotBad x y false = true := by simp [hgood]
    refine ⟨fun hst => krotInstall_answers g d a b (krotInstall_taken a b hgood hst),
      fun hst hag => krotInstall_answers g d a b ((krotInstall_free a b hgood hst).trans (if_pos hag)),
      fun hst hag => krotInstall_answers g d a b ((krotInstall_free a b hgood hst).trans (if_neg (Bool.eq_false_iff.1 hag))), fun hst => ?_,
      fun hst hp => ?_, fun hy => ?_, fun hy => ?_⟩
    · exact (exec_krotRetire_eq g d a b).trans ((if_neg hno).trans (if_pos hst))
    · exact (exec_krotRetire_eq g d a b).trans ((if_neg hno).trans (if_neg fun h => h.elim (absurd hst) (absurd hp)))
    · exact (exec_krotDestroy_eq g d a b).trans (if_pos (.inr hy))
    · exact (exec_krotDestroy_eq g d a b).trans (if_neg fun h => h.elim hno (absurd hy))
  case queryBad => exact fun hbad => (exec_krotQuery_eq g d a b).trans (by rw [if_pos hbad])
  case query => exact fun hgood => (exec_krotQuery_eq g d a b).trans (by rw [if_neg (Bool.eq_false_iff.1 hgood)])
  case cluster => exact fun hx => (exec_scrubCluster_eq g d a b).trans (if_neg (not_not_intro hx))
  case clusterBad => exact fun hx => (exec_scrubCluster_eq g d a b).trans (if_pos hx)
  case core => exact fun hx hst => (exec_scrubCore_eq g d a b).trans ((if_neg (not_not_intro hx)).trans (if_neg (not_not_intro hst)))
  case coreUnit => exact fun hx hst => (exec_scrubCore_eq g d a b).trans ((if_neg (not_not_intro hx)).trans (if_pos hst))
  case coreBad => exact fun hx => (exec_scrubCore_eq g d a b).trans (if_pos hx)
  case sigBad => exact fun hbad => (exec_sigchk_eq g d a).trans (if_pos hbad)
  case sig =>
    intro hx hact
    have hgood : exec (.sigchk h d a) s = _ := (exec_sigchk_eq g d a).trans (if_neg fun h => h.elim (Nat.not_lt.2 hx) hact)
    refine ⟨fun hh => hgood.trans (if_pos ?_), fun hh hs => hgood.trans ((if_neg ?_).trans (if_pos ?_)),
      fun hh hs => hgood.trans ((if_neg ?_).trans (if_neg ?_))⟩
    · simpa using hh
    · simpa using hh
    · simpa using hs
    · simpa using hh
    · simpa using hs
  case mext =>
    intro hal hrow hfree
    refine ⟨fun hlo hhi => (exec_mext_reads g d a b hal hrow hfree).trans (if_pos ⟨hlo, hhi⟩), fun hout => ?_⟩
    exact (exec_mext_reads g d a b hal hrow hfree).trans (if_neg fun h => hout.elim (Nat.not_lt.2 h.1) (Nat.not_lt.2 h.2))
  case swBad => exact fun hfence hbad => slotswRows_all d a b fun f => slotsw_reserved g d a hfence hbad
  case wait => exact fun hfence => slotswRows_all d a b fun f => slotsw_stalls g d a hfence
  case sw =>
    intro hfence hgood
    have query := exec_slotswQuery_eq g d a b hfence hgood
    have quiesce := exec_slotswQuiesce_eq g d a b hfence hgood
    have beats := exec_slotswBeat_eq g d a b hfence hgood
    have resume := exec_slotswResume_eq g d a b hfence hgood
    refine ⟨fun hp => ?_, fun hp => ?_, exec_slotswSwitch_refused g d a b hfence hgood, exec_slotswSwitch_switches g d a b hfence hgood⟩
    · have hno : ¬swPlain x = true := Bool.eq_false_iff.1 hp
      have hyes : (!swPlain x) = true := by rw [hp, Bool.not_false]
      exact ⟨query.trans (by rw [if_neg hno]), quiesce.trans (if_neg hno), beats.trans (if_pos hyes), resume.trans (if_pos hyes)⟩
    · have hno : ¬(!swPlain x) = true := by rw [hp]; decide
      refine ⟨query.trans (by rw [if_pos hp]), quiesce.trans (if_pos hp), fun ht => resume.trans ((if_neg hno).trans (if_pos ht)), fun ht => ⟨?_, ?_⟩,
        fun ht hn => ?_, fun ht hn => ?_⟩
      · exact beats.trans ((if_neg hno).trans (if_pos (by rw [ht, Bool.not_false])))
      · exact resume.trans ((if_neg hno).trans (if_neg (Bool.eq_false_iff.1 ht)))
      · exact beats.trans ((if_neg hno).trans ((if_neg (by rw [ht]; decide)).trans (by rw [if_neg hn]; rfl)))
      · exact beats.trans ((if_neg hno).trans ((if_neg (by rw [ht]; decide)).trans (by rw [if_pos hn]; rfl)))
  case missed => exact fun htrial hdue => (exec_heartbeatMissed_eq s).trans (if_pos (Bool.and_eq_true_iff.2 ⟨htrial, decide_eq_true hdue⟩))
  case kept =>
    intro hno
    refine (exec_heartbeatMissed_eq s).trans (if_neg fun h => ?_)
    obtain ⟨ht, hd⟩ := Bool.and_eq_true_iff.1 h
    exact hno.elim (fun hf => Bool.eq_false_iff.1 hf ht) fun hl => Nat.not_le.2 hl (of_decide_eq_true hd)

end Sys2Proof.Machine
end

section
/-! PROOFS. The requests of TDISP and SPDM (R351 to R353, R366, R367): what every answer leaves as it was, what becomes of a TDI, and the sessions. -/

namespace Sys2Proof.Machine

/-! ### Answers -/

/-- A request ends with an answer of given last bytes, and leaves the memory, the partitions and the cores as they were. -/
def Answered (s : State) (o : Out) (bs : List Byte) : Prop :=
  ∃ t x, o = .next t ∧ t.hub.answers = s.hub.answers ++ [x ++ bs] ∧ SameMemory s t ∧ t.parts = s.parts ∧ t.cores = s.cores

theorem reply_answers (s : State) (r : Request) (bs : List Byte) : ∃ x, (reply s r bs).hub.answers = s.hub.answers ++ [x ++ bs] := ⟨_, rfl⟩

theorem answered_reply (s : State) (r : Request) (bs : List Byte) : Answered s (.next (reply s r bs)) bs :=
  ⟨_, _, rfl, rfl, ⟨fun _ => rfl, rfl⟩, rfl, rfl⟩

theorem Answered.of_eq {s : State} {o o' : Out} {bs : List Byte} (h : Answered s o bs) (ho : o' = o) : Answered s o' bs := ho ▸ h

/-- A request that has changed the sessions and the rest of the hub, and then answers. -/
theorem answered_reply_of {s u : State} (hanswers : u.hub.answers = s.hub.answers) (hmem : u.mem = s.mem) (hcaps : u.caps = s.caps)
    (hparts : u.parts = s.parts) (hcores : u.cores = s.cores) (r : Request) (bs : List Byte) : Answered s (.next (reply u r bs)) bs := by
  obtain ⟨x, hx⟩ := reply_answers u r bs
  exact ⟨_, x, rfl, hanswers ▸ hx, ⟨fun a => congrArg (readByte · a) hmem, hcaps⟩, hparts, hcores⟩

/-! ### Requests to a TDI (R351) -/

section
variable {s : State} {p : Fin 16} {f : State → Out}

theorem tdiRequest_protected (hprot : s.parts[p].prot = true) : tdiRequest p s f = f s := if_pos hprot

theorem exec_tdiError_unprotected (hprot : s.parts[p].prot = false) : exec (.tdiError p) s = .next s :=
  congrArg Host.Outcome.next (if_neg (Bool.eq_false_iff.1 hprot))

theorem tdiRequest_unprotected (hprot : s.parts[p].prot = false) : tdiRequest p s f = replyError s := if_neg (Bool.eq_false_iff.1 hprot)

end

theorem exec_tdiRequests {p : Fin 16} {secret : BitVec 512} (s : State) : ∀ i ∈ [Instr.getTdispVersion p, .getTdispCapabilities p,
      .lockInterfaceRequest p, .getDeviceInterfaceReport p, .getDeviceInterfaceState p, .startInterfaceRequest p, .stopInterfaceRequest p,
      .setSealSecret p secret], ∃ f, exec i s = tdiRequest p s f := by
  intro i hi
  simp only [List.mem_cons, List.not_mem_nil, or_false] at hi
  rcases hi with rfl | rfl | rfl | rfl | rfl | rfl | rfl | rfl
  · exact ⟨_, exec_getTdispVersion p s⟩
  · exact ⟨_, exec_getTdispCapabilities p s⟩
  · exact ⟨_, exec_lockInterfaceRequest p s⟩
  · exact ⟨_, exec_getDeviceInterfaceReport p s⟩
  · exact ⟨_, exec_getDeviceInterfaceState p s⟩
  · exact ⟨_, exec_startInterfaceRequest p s⟩
  · exact ⟨_, exec_stopInterfaceRequest p s⟩
  · exact ⟨_, exec_setSealSecret p secret s⟩

section
variable {s : State} {p : Fin 16} (hprot : s.parts[p].prot = true)
include hprot

theorem exec_lock_eq : exec (.lockInterfaceRequest p) s =
    if s.parts[p].tdi = .unlocked ∧ s.parts[p].wiped = true ∧ (activeSlot s p 0).isSome = true ∧ (activeSlot s p 1).isSome = true then
      .next (reply (s.putPart p { s.parts[p] with tdi := .locked, bound := hostSession s }) .lock [])
    else replyError s := (exec_lockInterfaceRequest p s).trans (tdiRequest_protected hprot)

theorem exec_start_eq : exec (.startInterfaceRequest p) s =
    if s.parts[p].tdi = .locked then .next (reply (s.putPart p { s.parts[p] with tdi := .run }) .start []) else replyError s :=
  (exec_startInterfaceRequest p s).trans (tdiRequest_protected hprot)

theorem exec_stop_eq : exec (.stopInterfaceRequest p) s = .next (reply (unlockTdi s p) .stop []) :=
  (exec_stopInterfaceRequest p s).trans (tdiRequest_protected hprot)

theorem exec_sealSecret_eq (secret : BitVec 512) : exec (.setSealSecret p secret) s =
    if s.parts[p].tdi = .locked ∧ boundSession s p = true then
      .next (reply (s.putPart p { s.parts[p] with secret := some secret }) .sealSecret [])
    else replyError s := (exec_setSealSecret p secret s).trans (tdiRequest_protected hprot)

theorem exec_tdiError_protected : exec (.tdiError p) s = .next (tdiToError s p) := congrArg Host.Outcome.next (if_pos hprot)

end

/-! ### What becomes of a TDI (R351) -/

section
variable (s : State) (p : Fin 16)

theorem parts_putPart_same (x : Part) : (s.putPart p x).parts[p] = x := by simp [State.putPart]

theorem vfRaise_parts (v : Fin 64) : (vfRaise s p v).parts = s.parts := by
  unfold vfRaise
  dsimp only
  split <;> rfl

theorem vfRaise_window (v : Fin 64) : (vfRaise s p v).aux[p].window = s.aux[p].window := by
  unfold vfRaise
  dsimp only
  split
  · rw [aux_putAux_same]
  · rfl

theorem destroyKeys_active (cls : BitVec 2) : activeSlot (destroyKeys s p) p cls = none := by
  refine List.find?_eq_none.2 fun k hk => ?_
  obtain ⟨k', -, rfl⟩ := Vector.mem_map.1 (Vector.mem_toList_iff.1 hk)
  split
  · simp [KeySlot.zero]
  next hkept =>
    intro hact
    simp only [Bool.and_eq_true, beq_iff_eq] at hact hkept
    obtain ⟨⟨hst, -⟩, hpart⟩ := hact
    exact hkept ⟨by simp [hst], hpart⟩

theorem streamOff_off : (streamOff s p).aux[p].front.st = .off := by
  rw [streamOff, aux_putAux_same]

/-- An Off stream's window has the entries that it had. -/
theorem streamOff_entries : (streamOff s p).aux[p].window.entries = s.aux[p].window.entries := by
  rw [streamOff, aux_putAux_same]
  dsimp only
  split <;> rfl

theorem unlockTdi_unlocked : (unlockTdi s p).parts[p].tdi = .unlocked := by
  unfold unlockTdi
  split
  next h => exact h
  next =>
    dsimp only
    rw [parts_putPart_same]

theorem tdiToError_tdi : (tdiToError s p).parts[p].tdi = if s.parts[p].tdi = .locked ∨ s.parts[p].tdi = .run then .error else s.parts[p].tdi := by
  unfold tdiToError
  split
  · have herror : (cancelWindow (s.putPart p { s.parts[p] with tdi := .error }) p).parts[p].tdi = .error :=
      congrArg Part.tdi (parts_putPart_same s p _)
    revert herror
    dsimp only
    generalize cancelWindow _ p = u
    intro herror
    split
    · exact herror
    · exact (congrArg (fun q : Vector Part 16 => q[p].tdi) (vfRaise_parts _ p 0)).trans herror
  · rfl

theorem tdiToError_cancels (hrun : s.parts[p].tdi = .run) : ∀ x ∈ (tdiToError s p).aux[p].window.entries, x.cancelled = true := by
  have hall := cancelWindow_cancels (s.putPart p { s.parts[p] with tdi := .error }) p
  unfold tdiToError
  rw [if_pos (.inr hrun)]
  dsimp only
  split
  · exact hall
  · rw [vfRaise_window, aux_putAux_same]
    exact hall

end

/-- R351: leaving a configuration. -/
theorem unlockTdi_leaves {s : State} {p : Fin 16} (hst : s.parts[p].tdi ≠ .unlocked) : ∃ u : State,
    unlockTdi s p = (destroyKeys u p).putPart p { (destroyKeys u p).parts[p] with tdi := .unlocked, wiped := false, secret := none, bound := none } ∧
    u.aux[p].front.st = .off ∧ ∀ x ∈ u.aux[p].window.entries, x.cancelled = true := by
  refine ⟨streamOff (cancelWindow s p) p, if_neg hst, streamOff_off _ p, ?_⟩
  rw [streamOff_entries]
  exact cancelWindow_cancels s p

/-! ### Sessions (R352, R366, R367) -/

theorem boundSession_iff {s : State} {p : Fin 16} :
    boundSession s p = true ↔ ∃ e ∈ s.fabric.sessions, e.live = true ∧ e.peer = none ∧ s.parts[p].bound = some e.id := by
  simp [boundSession, List.any_eq_true, and_assoc]

section
variable {s : State} {id : BitVec 16}

theorem exec_finish_absent (h : (s.fabric.sessions.find? fun e => e.id == id && !e.live) = none) : exec (.finish id) s = replyError s := by
  rw [exec_finish, execFinish, h]

/-- R367: pairing again changes only the streams of the hub. -/
theorem exec_finish_begun {e : Session} (h : (s.fabric.sessions.find? fun e => e.id == id && !e.live) = some e) :
    ∃ u : State, exec (.finish id) s = .next (reply u .finish []) ∧
      u.fabric.sessions = (s.fabric.sessions.map fun x => if x.id = id then { x with live := true } else x) ∧
      u.hub.answers = s.hub.answers ∧ u.mem = s.mem ∧ u.caps = s.caps ∧ u.parts = s.parts ∧ u.cores = s.cores := by
  rw [exec_finish, execFinish, h]
  dsimp only
  cases e.peer with
  | none => exact ⟨_, rfl, rfl, rfl, rfl, rfl, rfl, rfl⟩
  | some q => exact ⟨_, rfl, rfl, rfl, rfl, rfl, rfl, rfl⟩

/-- R367: the state in which a session has ended. -/
def sessionEnded (s : State) (id : BitVec 16) : State :=
  { s with fabric := { s.fabric with sessions := s.fabric.sessions.filter fun e => e.id != id } }

theorem exec_endSession_eq : exec (.endSession id) s =
    if s.fabric.sessions.any (fun e => e.id == id) then .next (reply (sessionEnded s id) .endSession [])
    else replyError s := rfl

end

/-! ### The identity key (R352, R353, R400) -/

section
variable {s : State}

theorem exec_identity_unusable (hno : identityUsable = false) (idx : BitVec 8) (nonce : BitVec 256) (peer : Option (BitVec 12)) (share : BitVec 768) :
    ∀ a ∈ [Instr.challenge nonce, .getMeasurements idx nonce, .keyExchange peer share], exec a s = replyError s := by
  intro a ha
  simp only [List.mem_cons, List.not_mem_nil, or_false] at ha
  rcases ha with rfl | rfl | rfl
  · rw [exec_challenge, execChallenge, hno, if_neg Bool.false_ne_true]
  · rw [exec_getMeasurements, execGetMeasurements, if_pos (.inl (by rw [hno]; rfl))]
  · rw [exec_keyExchange, execKeyExchange, hno]
    exact if_pos Bool.not_false

variable (hid : identityUsable = true)
include hid

theorem exec_challenge_signed (nonce : BitVec 256) : exec (.challenge nonce) s =
    .next (reply s .challenge (leBytes 512 (Config.sign (sha512 (leBytes 32 nonce.toNat))).toNat)) := by
  rw [exec_challenge, execChallenge, if_pos hid]

/-- R353: the value that the block of an index holds. -/
def blockValue (s : State) (i : Nat) : List Byte := if i = 0xFD then manifest s else (measurement s i).bytes

theorem exec_getMeasurements_listed {idx : BitVec 8} (nonce : BitVec 256) (hin : idx.toNat ∈ measured ∨ idx.toNat = 0xFD) :
    exec (.getMeasurements idx nonce) s = .next (reply s .measurements (dmtfBlock idx.toNat (blockValue s idx.toNat) ++
      leBytes 512 (Config.sign (sha512 (dmtfBlock idx.toNat (blockValue s idx.toNat) ++ leBytes 32 nonce.toNat))).toNat)) := by
  rw [exec_getMeasurements, execGetMeasurements]
  exact if_neg (by simpa [hid, or_iff_not_imp_left] using hin)

omit hid in
theorem exec_getMeasurements_unlisted {idx : BitVec 8} (nonce : BitVec 256) (hout : idx.toNat ∉ measured) (hmanifest : idx.toNat ≠ 0xFD) :
    exec (.getMeasurements idx nonce) s = replyError s := by
  rw [exec_getMeasurements, execGetMeasurements]
  exact if_pos (.inr (by simp [hout, hmanifest]))

variable {share : BitVec 768} (peer : Option (BitVec 12))

theorem exec_keyExchange_refused (h : ecdhe (privateKey s.hub.drawn) (leBytes 96 share.toNat) = none) :
    exec (.keyExchange peer share) s = replyError s := by
  rw [exec_keyExchange, execKeyExchange, hid, Bool.not_true, if_neg Bool.false_ne_true, h]

/-- R366: the state in which a session has begun. -/
def sessionBegun (s : State) (peer : Option (BitVec 12)) (shared : BitVec 384) : State :=
  let id := s.fabric.nextSession
  { s with
    fabric := { s.fabric with sessions := ⟨id, peer, false, shared⟩ :: s.fabric.sessions.filter (fun e => e.id != id), nextSession := id + 1 }
    hub := { s.hub with drawn := s.hub.drawn + 6 } }

theorem exec_keyExchange_begins {own : List Byte} {shared : BitVec 384}
    (h : ecdhe (privateKey s.hub.drawn) (leBytes 96 share.toNat) = some (own, shared)) :
    exec (.keyExchange peer share) s = .next (reply (sessionBegun s peer shared) .keyExchange
      (leBytes 2 s.fabric.nextSession.toNat ++ own ++ leBytes 512 (Config.sign (sha512 (leBytes 96 share.toNat ++ own))).toNat)) := by
  rw [exec_keyExchange, execKeyExchange, hid, Bool.not_true, if_neg Bool.false_ne_true, h]
  rfl

end

/-- Settles O59: every request ends in one answer, whose stated bytes are its last, after what the request changes. -/
theorem interfaceAndSessionRequests : Obligations.InterfaceAndSessionRequests := by
  unfold Obligations.InterfaceAndSessionRequests
  intro s p secret off len nonce idx peer share id e r bs own shared part err keyed i ends sessions requests
  refine ⟨reply_answers s r bs, fun hprot => ⟨fun a ha => ?bare, exec_tdiError_unprotected hprot⟩, fun hprot => ?tdi, boundSession_iff, ?plain,
    answered_reply s _ _, ⟨_, by simp, fun t => ⟨_, _, rfl, rfl⟩⟩, fun hno => exec_identity_unusable hno idx nonce peer share, fun hid => ?identity,
    exec_finish_absent, fun hfound => ?finish, fun hany => ?ended, fun hnone => ?absent⟩
  case bare =>
    obtain ⟨f, hf⟩ := exec_tdiRequests s a ha
    exact hf.trans (tdiRequest_unprotected hprot)
  case plain =>
    intro a ha
    simp only [List.mem_cons, List.not_mem_nil, or_false] at ha
    rcases ha with rfl | rfl | rfl
    · exact answered_reply s _ _
    · exact answered_reply s _ _
    · exact answered_reply s _ _
  case identity =>
    refine ⟨(answered_reply s _ _).of_eq (exec_challenge_signed hid nonce),
      ⟨fun hin => (answered_reply s _ _).of_eq (exec_getMeasurements_listed hid nonce hin), exec_getMeasurements_unlisted nonce⟩,
      exec_keyExchange_refused hid peer, fun hshared => ⟨?_, _, exec_keyExchange_begins hid peer hshared, rfl⟩⟩
    exact Answered.of_eq (answered_reply_of (u := sessionBegun s peer shared) rfl rfl rfl rfl rfl _ _) (exec_keyExchange_begins hid peer hshared)
  case finish =>
    obtain ⟨u, hu, hsessions, hanswers, hmem, hcaps, hparts, hcores⟩ := exec_finish_begun hfound
    exact ⟨(answered_reply_of hanswers hmem hcaps hparts hcores _ _).of_eq hu, _, hu, hsessions⟩
  case ended =>
    have hends := exec_endSession_eq.trans (if_pos hany)
    exact ⟨Answered.of_eq (answered_reply_of (u := sessionEnded s id) rfl rfl rfl rfl rfl _ _) hends, _, hends, rfl⟩
  case absent => exact exec_endSession_eq.trans (if_neg (Bool.eq_false_iff.1 hnone))
  case tdi =>
    refine ⟨?version, ?report, ?state, fun hst hw hk => ?_, fun hno => ?_, fun hst => ?_, fun hst => ?_, ?stop, fun hst hb => ?_, fun hno => ?_,
      _, exec_tdiError_protected hprot, tdiToError_tdi s p, tdiToError_cancels s p⟩
    case version =>
      intro a ha
      simp only [List.mem_cons, List.not_mem_nil, or_false] at ha
      rcases ha with rfl | rfl
      · exact (answered_reply s _ _).of_eq ((exec_getTdispVersion p s).trans (tdiRequest_protected hprot))
      · exact (answered_reply s _ _).of_eq ((exec_getTdispCapabilities p s).trans (tdiRequest_protected hprot))
    case report => exact (answered_reply s _ _).of_eq ((exec_getDeviceInterfaceReport p s).trans (tdiRequest_protected hprot))
    case state => exact (answered_reply s _ _).of_eq ((exec_getDeviceInterfaceState p s).trans (tdiRequest_protected hprot))
    case stop =>
      refine ⟨_, exec_stop_eq hprot, unlockTdi_unlocked s p, fun hst => ?_⟩
      obtain ⟨u, hu, hoff, hall⟩ := unlockTdi_leaves hst
      have hpart := parts_putPart_same (destroyKeys u p) p
        { (destroyKeys u p).parts[p] with tdi := .unlocked, wiped := false, secret := none, bound := none }
      rw [hu]
      exact ⟨congrArg Part.secret hpart, congrArg Part.wiped hpart, destroyKeys_active u p 0, destroyKeys_active u p 1, hoff, hall⟩
    · obtain ⟨hmem, hxport⟩ := Bool.and_eq_true_iff.1 hk
      exact (exec_lock_eq hprot).trans (if_pos ⟨hst, hw, hmem, hxport⟩)
    · refine (exec_lock_eq hprot).trans (if_neg fun ⟨hst, hw, hmem, hxport⟩ => ?_)
      exact hno.elim (absurd hst) fun h => h.elim (Bool.eq_false_iff.1 · hw) (Bool.eq_false_iff.1 · (Bool.and_eq_true_iff.2 ⟨hmem, hxport⟩))
    · exact (exec_start_eq hprot).trans (if_pos hst)
    · exact (exec_start_eq hprot).trans (if_neg hst)
    · exact (exec_sealSecret_eq hprot secret).trans (if_pos ⟨hst, hb⟩)
    · exact (exec_sealSecret_eq hprot secret).trans (if_neg fun ⟨hst, hb⟩ => hno.elim (absurd hst) (Bool.eq_false_iff.1 · hb))

end Sys2Proof.Machine
end

section
/-! PROOFS. The admin ring (R394 to R398), usage records (R401 to R403), power and heat (R404 to R406), the PF's registers (R392, R393) and
RESET (R399). -/

namespace Sys2Proof.Machine

/-! ### The admin ring (R394) -/

section
variable {s : State} {cmd : Nat} {arg : Bool} {f : Fin 16 → Nat → Out}

theorem adminCommand_empty (hnone : headRecord s adminRing = none) : adminCommand s cmd arg f = .next s := by
  rw [adminCommand, hnone, onHead]

theorem admin_empty (hnone : headRecord s adminRing = none) : ∀ i ∈ [Instr.create, .destroy, .wipe, .meter], exec i s = .next s := by
  intro i hi
  simp only [List.mem_cons, List.not_mem_nil, or_false] at hi
  rcases hi with rfl | rfl | rfl | rfl
  · exact (exec_create s).trans (adminCommand_empty hnone)
  · exact (exec_destroy s).trans (adminCommand_empty hnone)
  · exact (exec_wipe s).trans (adminCommand_empty hnone)
  · rw [exec_meter, execMeter, adminUnknown, hnone, Option.any_none, if_neg Bool.false_ne_true, adminCommand_empty hnone]

variable {r : List Byte} (hrec : headRecord s adminRing = some r)
include hrec

theorem execMeter_unknown (hcmd : cmdOf r < 0x10 ∨ 0x13 < cmdOf r) : exec .meter s = adminDone s 3 := by
  rw [exec_meter, execMeter, adminUnknown, hrec, Option.any_some, if_pos (by simpa using hcmd)]

/-- R394: METER of a record of a listed kind. -/
theorem execMeter_known (hcmd : cmdOf r = 0x13) : exec .meter s = adminCommand s 0x13 false fun p _ =>
    if s.parts[p].st ≠ .live then adminDone s 2
    else adminDone (if (cutUse s p 2).aux[p].meterInt ≠ 0 ∧ (cutUse s p 2).aux[p].meterDue = (cutUse s p 2).clk
      then nextInterval (cutUse s p 2) p else cutUse s p 2) 1 := by
  rw [exec_meter, execMeter, adminUnknown, hrec, Option.any_some, hcmd, if_neg (by decide)]

theorem adminCommand_malformed (hcmd : cmdOf r = cmd) (hbad : 16 ≤ cmdPart r ∨ cmdArg1 r ≠ 0) : adminCommand s cmd arg f = adminDone s 3 := by
  rw [adminCommand, hrec, onHead, if_neg (not_not_intro hcmd), if_pos (.inr (hbad.symm.imp_right .inl))]

/-- R394: a well-formed command is carried out on the partition that it names. -/
theorem adminCommand_runs {p : Fin 16} (hcmd : cmdOf r = cmd) (hclean : cmdClean r = true) (harg1 : cmdArg1 r = 0) (hpart : cmdPart r = p.val)
    (harg0 : arg = false → cmdArg0 r = 0) : adminCommand s cmd arg f = f p (cmdArg0 r) := by
  have hgood : ¬(((!cmdClean r) = true ∨ cmdArg1 r ≠ 0 ∨ 16 ≤ cmdPart r ∨ (!arg) = true ∧ cmdArg0 r ≠ 0)) := by
    rintro (h | h | h | ⟨h, h'⟩)
    · simp [hclean] at h
    · exact h harg1
    · omega
    · exact h' (harg0 (by simpa using h))
  rw [adminCommand, hrec, onHead, if_neg (not_not_intro hcmd), if_neg hgood, hpart]
  exact congrArg (f · _) (Fin.ofNat_val_eq_self p)

end

theorem writeAdmtail_legal {s : State} {t : BitVec 32} (hspace : (t - s.pf.admhead).toNat ≤ 256)
    (hforward : (t - s.pf.admtail).toNat ≤ (t - s.pf.admhead).toNat) : writeAdmtail s t = copyAdmin (t - s.pf.admtail).toNat s := by
  rw [writeAdmtail, if_pos ⟨hspace, hforward⟩]

theorem writeAdmtail_illegal {s : State} {t : BitVec 32} (hbad : 256 < (t - s.pf.admhead).toNat ∨
    (t - s.pf.admhead).toNat < (t - s.pf.admtail).toNat) : writeAdmtail s t = pfRefuse s := by
  rw [writeAdmtail, if_neg (by omega)]

/-! ### What a partition's configuration leaves alone (R395, R396) -/

section
variable (s : State) (p : Fin 16)

theorem devWrite_parts (flat : Nat) (bs : List Byte) : (devWrite s flat bs).parts = s.parts :=
  Unwritten.devWrite ⟨State.store_parts, State.putDie_parts⟩ s flat bs

theorem writeEntries_parts (d : Fin 4) (l : List (Nat × Nat)) :
    (l.foldl (fun s (a, x) => devWrite s (hbmAddr d a) (leBytes 8 x)) s).parts = s.parts := by
  induction l generalizing s with
  | nil => rfl
  | cons e l ih =>
    rw [List.foldl_cons, ih]
    exact devWrite_parts s _ _

theorem writeTables_parts (d : Fin 4) (l : List NewLeaf) (regs : List Nat) : (writeTables s p d l regs).parts = s.parts := by
  unfold writeTables
  split
  · rfl
  · dsimp only
    rw [State.putDie_parts]
    exact writeEntries_parts s d _

theorem buildTables_parts : (buildTables s p).parts = s.parts :=
  Untold.foldl (f := State.parts) (fun u d => writeTables_parts u p d _ _) _ s

theorem installKey_parts (i : Fin 64) (cls : BitVec 2) : (installKey s i p cls).parts = s.parts := by
  unfold installKey
  dsimp only
  split <;> rfl

theorem installPair_parts {t : State} (h : installPair s p = some t) : t.parts = s.parts := by
  unfold installPair at h
  split at h
  · cases h
    rw [installKey_parts, installKey_parts]
  · cases h

theorem joinDomain_parts (fdid : BitVec 16) : (joinDomain s p fdid).parts = s.parts := rfl

theorem extendPart_parts (bs : List Byte) : (extendPart s p bs).parts = s.parts := rfl

theorem measurePart_parts : (measurePart s p).parts = s.parts := by
  simp only [measurePart, extendPart_parts]

end

/-- R395: the map entries and the leases that a descriptor lists. -/
def cdMaps (s : State) (d : List Byte) : List (BitVec 128) := (hostEntries s (cdMap d) 16 (cdNMap d)).map fun e => BitVec.ofNat 128 (leNat e)
def cdPolicyOps (s : State) (d : List Byte) : List (BitVec 16) := (hostEntries s (cdPolicy d) 2 (cdPolLen d)).map fun e => BitVec.ofNat 16 (leNat e)

/-- R396 steps 3 and 4: the partition of a descriptor, with its regions claimed in `t`, and its page tables. -/
def configured (s t : State) (p : Fin 16) (d : List Byte) : State :=
  let u := setOwner (setFree t (cdGroups d) false) (cdGroups d) (some p)
  let u := u.putPart p (newPart u p d (hostEntries s (cdLeases d) 16 (cdNLease d))
    (exportPlace s (cdMaps s d) (homeDie (cdGroups d)) (cdExport d * 2 ^ 21)))
  let u := u.putAux p (newAux s p d (cdMaps s d) (cdPolicyOps s d))
  joinDomain (buildTables { u with free := s.free + 1 } p) p (cdFdid d)

/-- R396 steps 5 to 8: the keys, the check of the policy, and the measurement. -/
def finishCreate (s u : State) (p : Fin 16) (d : List Byte) : Except Nat State :=
  match (if cdProt d then installPair u p else some u) with
  | none => .error 4
  | some t => if cdPolicy d ≠ 0 ∧ !policyOk (cdPolicyOps s d) then .error 3 else .ok (measurePart t p)

section
variable {s t u : State} {p : Fin 16} {d : List Byte}

theorem createPart_finishes (h : createPart s p d = .ok t) : ∃ v, finishCreate s (configured s v p d) p d = .ok t := by
  unfold createPart at h
  dsimp only at h
  by_cases hgroups : (!(groupList (cdGroups d)).all (groupFree s)) = true
  · rw [if_pos hgroups] at h
    cases h
  rw [if_neg hgroups] at h
  generalize claimAll s p d _ = claim at h
  cases claim with
  | none => cases h
  | some v =>
    refine ⟨v, ?_⟩
    dsimp only at h
    split at h
    · cases h
    · split at h
      · cases h
      · exact h

theorem finishCreate_parts (h : finishCreate s u p d = .ok t) : t.parts = u.parts := by
  unfold finishCreate at h
  cases hkeys : (if cdProt d then installPair u p else some u) with
  | none =>
    rw [hkeys] at h
    cases h
  | some v =>
    rw [hkeys] at h
    dsimp only at h
    have hv : v.parts = u.parts := by
      split at hkeys
      · exact installPair_parts u p hkeys
      · cases hkeys
        rfl
    split at h
    · cases h
    · cases h
      rw [measurePart_parts, hv]

theorem configured_part (v : State) : (configured s v p d).parts[p].st = .live ∧ (configured s v p d).parts[p].groups = cdGroups d ∧
    (configured s v p d).parts[p].prot = cdProt d := by
  simp only [configured, joinDomain_parts, buildTables_parts, State.putAux_parts, parts_putPart_same]
  exact ⟨rfl, rfl, rfl⟩

/-- R396: what a CREATE that passes every step has made of its partition. -/
theorem createPart_ok (h : createPart s p d = .ok t) :
    t.parts[p].st = .live ∧ t.parts[p].groups = cdGroups d ∧ t.parts[p].prot = cdProt d := by
  obtain ⟨v, hv⟩ := createPart_finishes h
  rw [finishCreate_parts hv]
  exact configured_part v

end

/-! ### Cuts and usage records (R401 to R403) -/

section
variable (s : State) (p : Fin 16)

theorem pfRaise_aux (v : Fin 8) : (pfRaise s v).aux = s.aux := by
  unfold pfRaise
  dsimp only
  split <;> rfl

theorem modPf_aux (f : Pf → Pf) : (modPf s f).aux = s.aux := rfl

theorem countHbm_meterInt : (countHbm s p).aux[p].meterInt = s.aux[p].meterInt := by
  simp only [countHbm]
  rw [aux_putAux_same]

theorem writeUse_meterInt (reason : BitVec 8) : (writeUse s p reason).aux[p].meterInt = s.aux[p].meterInt := by
  have haux : (writeUse s p reason).aux[p].meterInt = (countHbm s p).aux[p].meterInt := by
    unfold writeUse
    dsimp only
    rw [pfRaise_aux, modPf_aux, aux_putAux_same]
  rw [haux, countHbm_meterInt]

theorem cutUse_meterInt (reason : BitVec 8) : (cutUse s p reason).aux[p].meterInt = s.aux[p].meterInt := by
  unfold cutUse
  split
  · dsimp only
    rw [aux_putAux_same]
  · exact writeUse_meterInt s p reason

theorem cutUse_pends (hfull : useFull s = true) (hpend : s.aux[p].usePend = none) (reason : BitVec 8) :
    (cutUse s p reason).aux[p].usePend = some reason ∧ SameMemory s (cutUse s p reason) := by
  rw [cutUse, if_pos hfull]
  refine ⟨?_, fun _ => rfl, rfl⟩
  rw [aux_putAux_same, hpend]

theorem freePart_part : (freePart s p).parts[p] = Part.zero := by
  simp only [freePart, State.putAux_parts, parts_putPart_same]

/-- R401: at a boundary every partition's meter 10 counts the regions that it holds. -/
def regionsCounted (s : State) : State := (List.finRange 16).foldl (fun s p => s.count (some p) 10 (regionsHeld s p)) s

/-- The meters of the partitions go on, and nothing else. -/
theorem regionsCounted_keeps {α : Type} {f : State → α} (hf : ∀ (u : State) q a, f (u.putAux q a) = f u) : f (regionsCounted s) = f s :=
  Untold.foldl (fun u q => hf u q _) _ s

theorem regionsCounted_memory : SameMemory s (regionsCounted s) :=
  ⟨fun a => congrArg (readByte · a) (regionsCounted_keeps (f := State.mem) s State.putAux_mem), regionsCounted_keeps (f := State.caps) s State.putAux_caps⟩

theorem execRegintBoundary_early (h : s.clk / 2 ^ 24 ≤ s.pf.regint) : exec .regintBoundary s = .next s := by
  rw [exec_regintBoundary, execRegintBoundary, if_pos h]

theorem execRegintBoundary_due (h : s.pf.regint < s.clk / 2 ^ 24) :
    ∃ t, exec .regintBoundary s = .next t ∧ t.pf.regint = s.pf.regint + 1 ∧ SameMemory s t := by
  have hexec : exec .regintBoundary s = .next (modPf (regionsCounted s) fun f => { f with regint := f.regint + 1 }) := if_neg (Nat.not_le.2 h)
  have hpf := regionsCounted_keeps (f := State.pf) s State.putAux_pf
  have hmemory := regionsCounted_memory s
  generalize regionsCounted s = u at hexec hpf hmemory
  exact ⟨_, hexec, by rw [← hpf]; rfl, hmemory⟩

theorem execIntervalCut_due (hst : s.parts[p].st = .live) (hint : s.aux[p].meterInt ≠ 0) (hdue : s.aux[p].meterDue ≤ s.clk) :
    exec (.intervalCut p) s = .next (nextInterval (cutUse s p 1) p) := by
  rw [exec_intervalCut, execIntervalCut]
  exact if_neg fun h => h.elim (absurd hst) fun h => h.elim hint (Nat.not_lt.2 hdue)

theorem execIntervalCut_not_due (h : s.parts[p].st ≠ .live ∨ s.aux[p].meterInt = 0 ∨ s.clk < s.aux[p].meterDue) :
    exec (.intervalCut p) s = .next s := by
  rw [exec_intervalCut, execIntervalCut]
  exact if_pos h

end

/-! ### Power and heat (R404 to R406) -/

/-- The parts of the PF that tell of power and heat. -/
def heat (s : State) : Bool × Bool × BitVec 3 × BitVec 3 := (s.pf.trip1, s.pf.trip2, s.pf.command, s.pf.effect)

section
variable (s : State)

theorem pfRaise_heat (v : Fin 8) : heat (pfRaise s v) = heat s := by
  unfold pfRaise
  dsimp only
  split <;> rfl

theorem logRecord_heat (r : FaultRec) : heat (logRecord s r) = heat s := by
  unfold logRecord
  split_ifs
  · rw [enterLog, pfRaise_heat]
    simp only [heat]
  · rfl
  · rfl
  · rfl

theorem logTrip_heat : heat (logTrip s) = heat s := logRecord_heat _ _

theorem setTrip1_heat : heat (setTrip1 s) = (true, s.pf.trip2, s.pf.command,
    if s.pf.trip1 then s.pf.effect else levelInForce { s.pf with trip1 := true }) := by
  unfold setTrip1
  cases htrip : s.pf.trip1 with
  | true => simp [heat, htrip]
  | false =>
    dsimp only
    rw [if_neg Bool.false_ne_true, if_neg Bool.false_ne_true, pfRaise_heat, logTrip_heat]
    rfl

end

section
variable {s : State}

/-- R405: with TRIP1 the level in force is at most L1. -/
theorem levelInForce_le {f : Pf} (htrip : f.trip1 = true) : (levelInForce f).toNat ≤ 1 := by
  unfold levelInForce
  split
  · decide
  next h => simpa [htrip] using h

theorem execThermalTrip1_trips {c : BitVec 8} (hc : 105 ≤ c.toNat) :
    ∃ t, exec (.thermalTrip1 c) s = .next t ∧ t.pf.trip1 = true ∧ (s.pf.trip1 = false → t.pf.effect.toNat ≤ 1) := by
  rw [exec_thermalTrip1, execThermalTrip1, if_pos hc]
  have hheat := setTrip1_heat s
  simp only [heat, Prod.mk.injEq] at hheat
  obtain ⟨htrip, -, -, heffect⟩ := hheat
  refine ⟨_, rfl, htrip, fun hno => ?_⟩
  rw [heffect, hno, if_neg Bool.false_ne_true]
  exact levelInForce_le rfl

theorem execThermalTrip2_trips {c : BitVec 8} (hc : 115 ≤ c.toNat) (hno : s.pf.trip2 = false) :
    ∃ t, exec (.thermalTrip2 c) s = .next t ∧ t.pf.trip1 = true ∧ t.pf.trip2 = true := by
  rw [exec_thermalTrip2, execThermalTrip2, if_neg (by simp [hno]; omega)]
  have hheat := pfRaise_heat (logTrip (modPf (setTrip1 s) fun f => { f with trip2 := true })) 3
  rw [logTrip_heat] at hheat
  simp only [heat, Prod.mk.injEq] at hheat
  obtain ⟨htrip1, htrip2, -⟩ := hheat
  have hset := setTrip1_heat s
  simp only [heat, Prod.mk.injEq] at hset
  obtain ⟨hset1, -⟩ := hset
  exact ⟨_, rfl, htrip1.trans hset1, htrip2⟩

theorem execPwrcmdWrite_level {x : Word} (hx : x.toNat < 8) : ∃ t, exec (.pwrcmdWrite x) s = .next t ∧ t.pf.command = x.setWidth 3 ∧
    t.pf.effect = if s.pf.trip1 ∧ 1 < x.toNat then 1 else x.setWidth 3 := by
  have hlow : (x.setWidth 3).toNat = x.toNat := by
    rw [BitVec.toNat_setWidth, Nat.mod_eq_of_lt (by omega)]
  rw [exec_pwrcmdWrite, execPwrcmdWrite, writePwrcmd, if_neg (by omega)]
  refine ⟨_, rfl, rfl, ?_⟩
  simp only [modPf, levelInForce, hlow]

theorem execPwrcmdWrite_refused {x : Word} (hx : 8 ≤ x.toNat) : exec (.pwrcmdWrite x) s = .next { s with pf := { s.pf with regerr := true } } := by
  rw [exec_pwrcmdWrite, execPwrcmdWrite, writePwrcmd, if_pos (by omega)]
  rfl

theorem exec_thermclr_eq {x : Word} : exec (.thermclr x) s =
    if x.getLsbD 0 = true ∧ hottest s < 95 then .next { s with pf := { s.pf with trip1 := false, effect := s.pf.command } } else .next s := by
  rw [exec_thermclr, execThermclr, writeThermclr]
  split <;> rfl

theorem execUpdreqWrite_slot {x : Word} (hx : x.toNat < 2) : exec (.updreqWrite x) s = .next (deliver s 0 ⟨0x06, 0, x, 0⟩) := by
  rw [exec_updreqWrite, execUpdreqWrite, writeUpdreq, if_neg (by omega)]

theorem execUpdreqWrite_refused {x : Word} (hx : 2 ≤ x.toNat) : exec (.updreqWrite x) s = .next { s with pf := { s.pf with regerr := true } } := by
  rw [exec_updreqWrite, execUpdreqWrite, writeUpdreq, if_pos (by omega)]
  rfl

/-! ### The image slots (R383, R392) -/

theorem setVerified_clears (i : Images) (slot : Bool) :
    (if slot then ((i.setVerified slot false).setVerified slot false).verified1 else ((i.setVerified slot false).setVerified slot false).verified0) = false := by
  cases slot <;> rfl

section
variable {off : BitVec 21} {size : MemSize} {x : Word}

theorem execPfBar2Write_writes (hroom : off.toNat + memBytes size ≤ 2 ^ 21) (htrial : s.hub.images.trial = false)
    (hone : decide (2 ^ 20 ≤ off.toNat) = decide (2 ^ 20 ≤ off.toNat + memBytes size - 1))
    (hslot : decide (2 ^ 20 ≤ off.toNat) ≠ s.hub.images.active) : exec (.pfBar2Write off size x) s =
      .next (modImages (s.store (imageAddr false off.toNat) (leBytes (memBytes size) x.toNat)) fun i =>
        (i.setVerified (decide (2 ^ 20 ≤ off.toNat)) false).setVerified (decide (2 ^ 20 ≤ off.toNat)) false) := by
  have hkept : imageWriteDropped s (decide (2 ^ 20 ≤ off.toNat)) = false := by
    simp only [imageWriteDropped, htrial, Bool.false_or]
    exact beq_eq_false_iff_ne.2 hslot
  rw [exec_pfBar2Write, execPfBar2Write]
  dsimp only
  rw [← hone, hkept, if_neg (by simpa using hroom)]

theorem execPfBar2Write_dropped (h : s.hub.images.trial = true ∨ decide (2 ^ 20 ≤ off.toNat) = s.hub.images.active ∨
    decide (2 ^ 20 ≤ off.toNat + memBytes size - 1) = s.hub.images.active) : exec (.pfBar2Write off size x) s = .next s := by
  rw [exec_pfBar2Write, execPfBar2Write]
  refine if_pos (.inr ?_)
  simp only [imageWriteDropped, Bool.or_eq_true, beq_iff_eq]
  exact h.elim (fun h => .inl (.inl h)) fun h => h.imp .inr .inr

end
end

/-! ### RESET (R399) -/

theorem readByte_append (m : List Host.Cell) {m' : List Host.Cell} {a : Nat} (h : ∀ c ∈ m, c.1 ≠ a) : readByte (m ++ m') a = readByte m' a := by
  induction m with
  | nil => rfl
  | cons c m ih =>
    rw [List.cons_append, readByte, if_neg (h c List.mem_cons_self), ih fun d hd => h d (List.mem_cons_of_mem c hd)]

theorem readByte_kept (s : State) {a : Nat} (ha : 2 ^ 44 ≤ a) : readByte (kept s) a = readByte s.mem a := by
  unfold kept
  induction s.mem with
  | nil => rfl
  | cons c m ih =>
    rw [List.filter_cons]
    split
    · rw [readByte, ih, readByte]
    next hc =>
      rw [ih, readByte, if_neg fun h => hc (by simpa [h] using ha)]

/-- R383, R399: the state in which the firmware of every core is started. -/
def afterReset (s : State) : State :=
  let r := State.reset
  { r with
    hub := resetHub s, mem := r.mem ++ kept s, dies := vput r.dies 0 { Die.reset with tags := [⟨0x1FC0000 * 64, s.hub.nextKey, 0, 0, 1⟩] }
    pf := { r.pf with regint := s.pf.regint }
    turn := s.turn, inbox := s.inbox, serial := s.serial, tick := s.tick, clk := s.clk, free := s.free }

/-- R399: the firmware of every core starts. -/
def startAll (l : List (Fin 512)) (s : State) : State := l.foldl (fun t c => bootFw t c 0) s

theorem exec_reset_eq (s : State) : exec .reset s = .next (startAll (List.finRange 512) (afterReset s)) := rfl

theorem afterReset_image (s : State) {a : Nat} (ha : 2 ^ 44 ≤ a) : readByte (afterReset s).mem a = readByte s.mem a := by
  have hlow : ∀ c ∈ State.reset.mem, c.1 ≠ a := by
    intro c hc he
    obtain ⟨-, hlt⟩ := resetMem_range c hc
    simp only [hbmAddr] at hlt
    omega
  exact (readByte_append _ hlow).trans (readByte_kept s ha)

/-- R399: which slot is ACTIVE, CSVN, and the measurement of the ACTIVE image. -/
theorem afterReset_active (s : State) : (afterReset s).hub.images.active = s.hub.images.active := rfl
theorem afterReset_csvn (s : State) : (afterReset s).hub.images.csvn = s.hub.images.csvn := rfl
theorem afterReset_measure (s : State) : (afterReset s).hub.measures.image = imageDigest s s.hub.images.active := rfl

theorem afterReset_entry (s : State) : imageEntry (afterReset s) = imageEntry s := by
  rw [imageEntry, imageEntry, afterReset_active, State.loadNat, State.loadNat, State.load, State.load]
  refine congrArg leNat (List.map_congr_left fun i _ => afterReset_image s ?_)
  simp only [imageAddr]
  omega

section
variable {α : Type} {f : State → α} (l : List (Fin 512)) (s : State)

/-- The start of firmware changes cores only. -/
theorem startAll_keeps (hf : ∀ (u : State) c x, f (u.putCore c x) = f u) : f (startAll l s) = f s := Untold.foldl (fun u c => hf u c _) l s

theorem startAll_st (c : Fin 512) : (startAll l s).cores[c].st = s.cores[c].st := by
  refine Untold.foldl (f := fun u => u.cores[c].st) (fun u k => ?_) l s
  by_cases hk : k = c
  · subst hk
    exact (congrArg Core.st (putCore_same u k _)).trans rfl
  · exact congrArg Core.st (putCore_other u _ (Ne.symm hk))

theorem startAll_pc {c : Fin 512} (h : c ∈ l ∨ s.cores[c].fw.pc = BitVec.ofNat 32 (imageEntry s)) :
    (startAll l s).cores[c].fw.pc = BitVec.ofNat 32 (imageEntry s) := by
  induction l generalizing s with
  | nil => exact h.resolve_left List.not_mem_nil
  | cons k l ih =>
    have hentry : imageEntry (bootFw s k 0) = imageEntry s := rfl
    refine (ih (bootFw s k 0) ?_).trans (by rw [hentry])
    rw [hentry]
    by_cases hk : k = c
    · subst hk
      exact .inr (congrArg (fun x : Core => x.fw.pc) (putCore_same s k _))
    · refine h.imp (fun hin => (List.mem_cons.1 hin).resolve_left (Ne.symm hk)) fun hpc => ?_
      exact (congrArg (fun x : Core => x.fw.pc) (putCore_other s _ (Ne.symm hk))).trans hpc

end

/-! ### The commands of the admin ring (R396, R398) -/

/-- R396: no die holds a page of a new partition as absent or evicted. -/
def forgetAbsent (s : State) (p : Fin 16) : State :=
  { s with dies := s.dies.map fun x => { x with absent := x.absent.filter (·.1 != p), evicted := x.evicted.filter (·.1 != p) } }

section
variable {s : State} {r : List Byte} {p : Fin 16} (hrec : headRecord s adminRing = some r) (hclean : cmdClean r = true) (harg1 : cmdArg1 r = 0)
  (hpart : cmdPart r = p.val)
include hrec hclean harg1 hpart

theorem execCreate_head (hcmd : cmdOf r = 0x10) : exec .create s =
    let d := s.load (hostAddr (cmdArg0 r)) 128
    if s.parts[p].st ≠ .free ∨ cycleRefuses (cdProt d) = true then adminDone s 2
    else if (!cdOk (cmdArg0 r) d) = true then adminDone s 3
    else match createPart (markFree s) p d with
      | .error k => adminDone (markFree s) k
      | .ok t => adminDone (forgetAbsent t p) 1 :=
  (exec_create s).trans (adminCommand_runs hrec hcmd hclean harg1 hpart (by simp))

variable (harg0 : cmdArg0 r = 0)
include harg0

theorem execDestroy_head (hcmd : cmdOf r = 0x11) : exec .destroy s =
    match s.parts[p].st with
    | .live =>
      if (cutUse (clearPart s p) p 3).aux[p].usePend.isSome then .next (setScrubbing ((cutUse (clearPart s p) p 3).putPart p
        { (cutUse (clearPart s p) p 3).parts[p] with st := .destroying }) (cutUse (clearPart s p) p 3).parts[p].groups true)
      else adminDone (freePart (cutUse (clearPart s p) p 3) p) 1
    | .destroying => if s.aux[p].usePend.isSome then .next s else adminDone (freePart s p) 1
    | _ => adminDone s 2 :=
  (exec_destroy s).trans (adminCommand_runs hrec hcmd hclean harg1 hpart fun _ => harg0)

theorem execWipe_head (hcmd : cmdOf r = 0x12) : exec .wipe s =
    let u := buildTables (cutUse (clearPart s p) p 4) p
    if s.parts[p].st ≠ .live then adminDone s 2
    else adminDone (if u.parts[p].prot then (installPair u p).getD u else u) 1 := by
  rw [exec_wipe, execWipe, adminCommand_runs hrec hcmd hclean harg1 hpart fun _ => harg0]

theorem execMeter_head (hcmd : cmdOf r = 0x13) : exec .meter s =
    if s.parts[p].st ≠ .live then adminDone s 2
    else adminDone (if (cutUse s p 2).aux[p].meterInt ≠ 0 ∧ (cutUse s p 2).aux[p].meterDue = (cutUse s p 2).clk
      then nextInterval (cutUse s p 2) p else cutUse s p 2) 1 := by
  rw [execMeter_known hrec hcmd, adminCommand_runs hrec hcmd hclean harg1 hpart fun _ => harg0]

theorem execDestroy_live (hcmd : cmdOf r = 0x11) (hst : s.parts[p].st = .live) :
    ((cutUse (clearPart s p) p 3).aux[p].usePend = none → exec .destroy s = adminDone (freePart (cutUse (clearPart s p) p 3) p) 1) ∧
    ((cutUse (clearPart s p) p 3).aux[p].usePend ≠ none → exec .destroy s = .next (setScrubbing ((cutUse (clearPart s p) p 3).putPart p
      { (cutUse (clearPart s p) p 3).parts[p] with st := .destroying }) (cutUse (clearPart s p) p 3).parts[p].groups true)) := by
  rw [execDestroy_head hrec hclean harg1 hpart harg0 hcmd, hst]
  dsimp only
  refine ⟨fun hpend => if_neg (by rw [hpend]; exact Bool.false_ne_true), fun hpend => if_pos ?_⟩
  exact Option.isSome_iff_ne_none.2 hpend

theorem execDestroy_destroying (hcmd : cmdOf r = 0x11) (hst : s.parts[p].st = .destroying) :
    (s.aux[p].usePend = none → exec .destroy s = adminDone (freePart s p) 1) ∧ (s.aux[p].usePend ≠ none → exec .destroy s = .next s) := by
  rw [execDestroy_head hrec hclean harg1 hpart harg0 hcmd, hst]
  dsimp only
  refine ⟨fun hpend => if_neg (by rw [hpend]; exact Bool.false_ne_true), fun hpend => if_pos ?_⟩
  exact Option.isSome_iff_ne_none.2 hpend

theorem execDestroy_refused (hcmd : cmdOf r = 0x11) (hlive : s.parts[p].st ≠ .live) (hdestroying : s.parts[p].st ≠ .destroying) :
    exec .destroy s = adminDone s 2 := by
  rw [execDestroy_head hrec hclean harg1 hpart harg0 hcmd]
  split
  next h => exact absurd h hlive
  next h => exact absurd h hdestroying
  next => rfl

end

/-- Settles O60: each command and each register of the fleet by the first of its refusals that holds, or by what it does. -/
theorem partitionsAndFleet : Obligations.PartitionsAndFleet := by
  unfold Obligations.PartitionsAndFleet
  intro s t p tail r n x c off size a core f part aux head done d cut wiped set images bytes lo hi
  refine ⟨fun hspace hforward => congrArg Host.Outcome.next (writeAdmtail_legal hspace hforward),
    fun hbad => congrArg Host.Outcome.next (writeAdmtail_illegal hbad), admin_empty, ?malformed, ?create, createPart_ok, ?destroy, freePart_part s p,
    ?wipe, ?meter, execIntervalCut_due s p, execIntervalCut_not_due s p, fun hfull hpend => cutUse_pends s p hfull hpend 1,
    execRegintBoundary_early s, execRegintBoundary_due s, execPwrcmdWrite_level, execPwrcmdWrite_refused,
    fun hx hcool => exec_thermclr_eq.trans (if_pos ⟨hx, hcool⟩), ?hot, fun hc => ?cool1, fun hc => ?cool2, execThermalTrip1_trips,
    execThermalTrip2_trips, execUpdreqWrite_slot, execUpdreqWrite_refused, ⟨_, rfl, rfl, rfl⟩, ?bar2, execPfBar2Write_dropped, ?reset⟩
  case malformed =>
    intro hrec
    refine ⟨execMeter_unknown hrec, fun hbad => ⟨fun hcmd => ?_, fun hcmd => ?_, fun hcmd => ?_, fun hcmd => ?_⟩⟩
    · exact (exec_create s).trans (adminCommand_malformed hrec hcmd hbad)
    · exact (exec_destroy s).trans (adminCommand_malformed hrec hcmd hbad)
    · exact (exec_wipe s).trans (adminCommand_malformed hrec hcmd hbad)
    · exact (execMeter_known hrec hcmd).trans (adminCommand_malformed hrec hcmd hbad)
  case create =>
    rintro ⟨hrec, hcmd, hclean, harg1, hpart, -⟩
    have hcreate := execCreate_head hrec hclean harg1 hpart hcmd
    refine ⟨fun hno => hcreate.trans (if_pos hno), fun hfree hcycle => ?_⟩
    have hgoes := hcreate.trans (if_neg fun h => h.elim (absurd hfree) (Bool.eq_false_iff.1 hcycle))
    refine ⟨fun hbad => hgoes.trans (if_pos (by simpa using hbad)), fun hok => ⟨fun he => ?_, fun hmade => ?_⟩⟩
    · refine hgoes.trans ((if_neg (by simpa using hok)).trans ?_)
      rw [he]
    · refine ⟨forgetAbsent t p, hgoes.trans ((if_neg (by simpa using hok)).trans ?_), rfl, rfl, rfl⟩
      rw [hmade]
  case destroy =>
    rintro ⟨hrec, hcmd, hclean, harg1, hpart, harg0⟩
    exact ⟨execDestroy_live hrec hclean harg1 hpart (harg0 rfl) hcmd, execDestroy_destroying hrec hclean harg1 hpart (harg0 rfl) hcmd,
      execDestroy_refused hrec hclean harg1 hpart (harg0 rfl) hcmd⟩
  case wipe =>
    rintro ⟨hrec, hcmd, hclean, harg1, hpart, harg0⟩
    have hwipe := execWipe_head hrec hclean harg1 hpart (harg0 rfl) hcmd
    exact ⟨fun hst => hwipe.trans (if_pos hst), fun hst => hwipe.trans (if_neg (not_not_intro hst))⟩
  case meter =>
    rintro ⟨hrec, hcmd, hclean, harg1, hpart, harg0⟩
    have hmeter := execMeter_head hrec hclean harg1 hpart (harg0 rfl) hcmd
    refine ⟨fun hst => hmeter.trans (if_pos hst), fun hst hint => hmeter.trans ((if_neg (not_not_intro hst)).trans ?_)⟩
    rw [cutUse_meterInt, if_neg fun h => h.1 hint]
  case hot =>
    intro hno
    exact exec_thermclr_eq.trans (if_neg fun ⟨hx, hcool⟩ => hno.elim (Bool.eq_false_iff.1 · hx) (Nat.not_le.2 hcool))
  case cool1 => exact congrArg Host.Outcome.next (if_neg (Nat.not_le.2 hc))
  case cool2 => exact (exec_thermalTrip2 c s).trans (if_pos (.inl hc))
  case bar2 =>
    intro hroom htrial hone hslot
    refine ⟨_, execPfBar2Write_writes hroom htrial hone hslot, fun hwf => ?_, ?_, fun y hy => ?_⟩
    · have hload := load_store (imageAddr false off.toNat) (leBytes bytes x.toNat) hwf
      rw [length_leBytes] at hload
      exact hload
    · exact setVerified_clears images lo
    · exact readByte_writeMem_outside _ _ _ (by rw [length_leBytes]; exact hy)
  case reset =>
    have hhub := startAll_keeps (f := State.hub) (List.finRange 512) (afterReset s) State.putCore_hub
    have hmem := startAll_keeps (f := State.mem) (List.finRange 512) (afterReset s) State.putCore_mem
    have hparts := startAll_keeps (f := State.parts) (List.finRange 512) (afterReset s) State.putCore_parts
    have hpc := startAll_pc (List.finRange 512) (afterReset s) (.inl (List.mem_finRange core))
    refine ⟨_, exec_reset_eq s, fun ha => (congrArg (readByte · a) hmem).trans (afterReset_image s ha), ?_, ?_, hparts, ?_, ?_, ?_⟩
    · rw [hhub, afterReset_active]
    · rw [hhub, afterReset_csvn]
    · rw [hhub, afterReset_measure]
    · rw [startAll_st]
      exact congrArg Core.st (reset_core core)
    · rw [hpc, afterReset_entry]

end Sys2Proof.Machine
end
